-- ==== Sys2Proof/Word.lean ====
section
/-!
DEFINITION. The machine's word types: a register of a register page is 32 bits (R4), memory is bytes.
-/
namespace Sys2Proof

/-- One byte of a store, of a packet or of a bundle. -/
abbrev Byte := BitVec 8

/-- One register of a register page (R4), one word of an instruction (R98). -/
abbrev Word := BitVec 32

end Sys2Proof
end

