-- ==== Sys2Proof/Syntax.lean ====
section
/-!
DEFINITION. The commands: one constructor of `Instr` for each row of opcode_table.json, with what the
outside (or the passing of time) supplies to that step as its operands. The table gives a row no fields;
notes/assumptions/2.md says how the operands were chosen.
-/
namespace Sys2Proof

/-- The masters that write registers (R410): the host, the management core and the ledger. -/
inductive Master where
  | host
  | mgc
  | ledger
  deriving DecidableEq, Repr

/-- Bits of a register that the internal path writes in the FCLK of a write (R413). -/
structure Collision where
  mask : Word
  value : Word
  deriving DecidableEq, Repr

/-- The stores that an address may name (R274, R57). -/
inductive Store where
  | dram
  | common
  | video
  | mgcMem
  | secure
  | spad (c : Fin 8)
  deriving DecidableEq, Repr

/-- A byte address in a store. -/
structure Ptr where
  store : Store
  addr : Nat
  deriving DecidableEq, Repr

/-- What the header parse of an access unit finds (R189, R194, R195): the codec standards, not this
device, say how it is read out of the bits. -/
structure AuHeader where
  /-- an IDR, IRAP, key frame or recovery point -/
  rap : Bool
  /-- the access unit is a recovery point and not an instantaneous refresh -/
  recovery : Bool
  /-- RASL pictures of the random access point at which decoding starts -/
  rasl : Bool
  /-- an activated parameter set is present -/
  params : Bool
  width : BitVec 16
  height : BitVec 16
  depth10 : Bool
  mono : Bool
  dpb : BitVec 5
  /-- a feature outside R188 -/
  unsupported : Bool
  /-- the first slice header, or the frame header, was parsed intact -/
  headerIntact : Bool
  /-- the crop window: x, y, width, height -/
  cropX : BitVec 16
  cropY : BitVec 16
  cropW : BitVec 16
  cropH : BitVec 16
  /-- a recovery point is complete at this picture -/
  recoveryDone : Bool
  /-- the names that the picture takes in the reference structure: its picture order count or frame_num, or the reference slots
  that it refreshes -/
  names : List Word
  /-- the names of the references that the frame uses -/
  refs : List Word
  /-- the names that the reference process drops where a concealed picture takes the frame's place -/
  drops : List Word
  deriving DecidableEq, Repr

/-- How a decode frame that was started ends before its budget expires (R193). -/
inductive DecodeEnd where
  /-- decoded: the bytes of the picture buffer, whether the picture stays a reference, the names that the reference process
  drops, and the reads that it makes besides those of its gather list: address and bytes -/
  | decoded (samples : List Byte) (ref : Bool) (drops : List Word) (reads : List (Ptr × Nat))
  | syntaxError
  | bounds
  | memory
  deriving DecidableEq, Repr

/-- The RTP header fields that the flow table and the demultiplexer use (R184, R185). -/
structure RtpPacket where
  version2 : Bool
  payloadType : BitVec 7
  seq : BitVec 16
  timestamp : Word
  marker : Bool
  ssrc : Word
  /-- the packet's mode is one that R183 supports -/
  modeOk : Bool
  payload : List Byte
  /-- the NAL units or fragments in the payload: offset, length, start of a NAL unit -/
  units : List (BitVec 16 × BitVec 16 × Bool)
  deriving DecidableEq, Repr

/-- A NAL unit or OBU, or a part of one, in a record's payload: offset, length, and whether it starts there. -/
structure MediaUnit where
  offset : BitVec 24
  len : BitVec 24
  start : Bool
  deriving DecidableEq, Repr

/-- A transport stream packet (R183), as ISO/IEC 13818-1 reads it. -/
structure TsPacket where
  pid : BitVec 13
  scrambled : Bool
  /-- its continuity counter is in error -/
  ccError : Bool
  /-- a PES packet starts in it, with that PTS -/
  pes : Option Word
  units : List MediaUnit
  deriving DecidableEq, Repr

/-- What a record's payload holds, by its TYPE (R175, R183): the container standards, not this device, say how it is read out of
the bytes. -/
inductive RecordParse where
  | ts (packets : List TsPacket)
  /-- an initialisation segment; whether it is one that R183 supports -/
  | bmffInit (supported : Bool)
  /-- a fragment: its traf boxes, and its samples with their times -/
  | bmffFragment (trafs : Nat) (samples : List (Word × List MediaUnit))
  | rtp (p : RtpPacket)
  | elementary (units : List MediaUnit)
  deriving DecidableEq, Repr

/-- One transfer of a staging DMA descriptor (R42): the manual gives the descriptor no layout, so the
command carries what it names. -/
structure Transfer where
  /-- `none`: host memory across the link -/
  src : Option Ptr
  /-- the address of the side that is host memory -/
  hostAddr : BitVec 64
  /-- `none`: host memory across the link -/
  dst : Option Ptr
  len : Nat
  /-- register writes of the entry's descriptors (R412): page, offset, value -/
  regWrites : List (BitVec 12 × BitVec 12 × Word)
  /-- the stall whose slots consume the buffer (the pointer check of R288 is made for it) -/
  stall : Fin 8
  /-- the streams whose input the transfer is -/
  streams : List (Fin 256)
  deriving DecidableEq, Repr

/-- A request at a fabric port (R9, R10). -/
structure FabReq where
  initiator : Fin 27
  ptr : Ptr
  bytes : Nat
  /-- `some d`: a write of those bytes; `none`: a read -/
  write : Option (List Byte)
  /-- the page hint (R296): keep-open; else close -/
  keepOpen : Bool := false
  deriving DecidableEq, Repr

/-- A request at a scratchpad bank (R276): port 0 to 18 for reads, 0 to 15 for writes. -/
structure SpadReq where
  port : Fin 19
  /-- 0 an engine's A stream, 1 an engine's B stream, 2 any other -/
  group : Fin 3
  /-- the first request of a stream, in its issue's first ECLK -/
  head : Bool
  row : BitVec 11
  write : Option (List Byte)
  deriving DecidableEq, Repr

/-- A request served in a batch (R296): the channel offset of a 64-byte burst. -/
structure DramReq where
  offset : BitVec 34
  /-- `some (at, bytes)`: a write of those bytes from that byte of the burst on; `none`: a read -/
  write : Option (BitVec 6 × List Byte)
  /-- the initiator port whose request it is -/
  initiator : Fin 27
  /-- the page hint: keep-open; else close -/
  keepOpen : Bool := false
  deriving DecidableEq, Repr

/-- A latent error (R70, R279, R302): of a word of an on-chip store, whether the word's check bits correct it; of an 80-byte
burst of DRAM, the symbols in error with what is added to each (symbols 0 to 63 are the data bytes, 64 to 79 the check
bytes). -/
inductive Upset where
  | correctable
  | uncorrectable
  | symbols (es : List (Fin 80 × Byte))
  deriving DecidableEq, Repr

/-- A soft error that has arisen outside the device's control: in the word or burst at a place of a store. `kind` is the error
that an on-chip word holds from then on, or what is added to a burst. -/
structure SoftError where
  place : Ptr
  kind : Upset
  deriving DecidableEq, Repr

/-- The regulators of R46 and R47. -/
inductive Regulator where
  | stallDram (s : Fin 8)
  | stallFabric (s : Fin 8)
  | media
  | hostDma
  | tau
  | mgc
  deriving DecidableEq, Repr

/-- What a sweep of a byte lane finds (R300, R301): the taps that pass in the read and in the write sweep, and the VrefDQ codes,
in steps of 0.5% of VDDQ, that pass at its component. -/
structure LaneSweep where
  lane : Fin 5
  sub : Bool
  rank : Bool
  read : BitVec 128
  write : BitVec 128
  vref : BitVec 128
  deriving DecidableEq, Repr

/-- What a training run meets (R300): every step runs, with what the sweeps of steps 5 to 7 find; or a step times out (`step`
counts from 0). -/
inductive TrainEnd where
  | swept (lanes : List LaneSweep)
  | timedOut (step : Fin 7) (lane : Fin 5) (sub rank : Bool)
  deriving DecidableEq, Repr

/-- The header check of a CSI-2 packet (R216). -/
inductive Ecc where
  | good
  | corrected
  | uncorrectable
  deriving DecidableEq, Repr

/-- The kinds of payload that classification tells apart (R349, R350). -/
inductive EthPayload where
  /-- a PTP frame: 802.1AS or 1588, messageType, domain number, over UDP -/
  | ptp (is8021as : Bool) (msgType : BitVec 4) (domain : BitVec 8) (overUdp : Bool)
  | arp (target : Word)
  | neighbour (target : BitVec 128)
  /-- UDP: version, source address, destination port, an IP fragment, the RTP packet if it is one -/
  | udp (v6 : Bool) (src : BitVec 128) (dport : BitVec 16) (fragment : Bool) (rtp : Option RtpPacket)
  | pause
  | other
  deriving DecidableEq, Repr

/-- A received Ethernet frame (R348, R349). -/
structure EthFrame where
  len : BitVec 16
  fcsOk : Bool
  tags : Fin 4
  dest : BitVec 48
  payload : EthPayload
  /-- local time captured at the start of the frame, before the corrections of R338: nanoseconds and 1/256 ns -/
  ingress : Word
  ingressFrac : Byte
  deriving DecidableEq, Repr

/-- How a completion for a device read arrives (R321, R322). -/
inductive CplStatus where
  | good
  | poisoned
  | ecrc
  | malformed
  /-- another packet than a completion, or a completion for no read, fails ECRC: no read ends -/
  | ecrcOther
  deriving DecidableEq, Repr

/-- The inbound requests that the endpoint does not support (R316). -/
inductive UrKind where
  | io
  | lockedRead
  | atomic
  | type1Config
  /-- a memory request received in D3hot; `posted` for a write -/
  | d3hotMemory (posted : Bool)
  /-- a vendor-defined Type 1 message -/
  | vendorType1
  deriving DecidableEq, Repr

/-- The configuration fields with behaviour of their own (R310, R314, R315, R317, R318, R320). -/
inductive CfgField where
  | memorySpaceEnable
  | busMasterEnable
  | extendedTag
  | tenBitTag
  | ecrcCheck
  | pmeEn
  /-- writing 1 clears PME_Status -/
  | pmeStatus
  | aspmL1
  /-- Completion Timeout Value -/
  | completionTimeout
  /-- Max_Payload_Size, and Max_Read_Request_Size: 128 bytes times a power of two -/
  | maxPayload
  | maxReadRequest
  /-- a word of BAR 0 or, with `two`, of BAR 2, the upper one with `hi` -/
  | bar (two hi : Bool) (w : Word)
  deriving DecidableEq, Repr

/-- The reason a domain's tamper source gives (R387). -/
inductive TamperSource where
  | ball
  | glitch
  | noReference
  deriving DecidableEq, Repr

/-- A request to the buffer pool manager (R284, R287, R288). -/
inductive BpmOp where
  | alloc (pool : BitVec 6) (owner : BitVec 4)
  | add (p : Ptr) (owner : BitVec 4)
  | release (p : Ptr) (owner : BitVec 4)
  | check (p : Ptr)
  deriving DecidableEq, Repr

/-- A pending request (R285): its requester, the request, and in how many FCLK after the command's own request it was presented,
negative where it came before. -/
structure BpmReq where
  q : Fin 32
  op : BpmOp
  after : Int
  deriving DecidableEq, Repr

/-- What an issued pass meets in time that no rule fixes without a clock (R77, R81, R84, R87, R106). Under cluster broadcast
the command of the cluster's logical engine 0 says it for all eight engines. -/
structure PassTiming where
  /-- ECLK since the engine's last slot; 0: issued back to back -/
  idle : Nat
  /-- ECLK for which the shadow load waited for its data in the input buffer -/
  laneWait : Nat
  /-- bubbles because the feeder had no slot: before which slot of the pass, and how many -/
  dry : List (BitVec 11 × Nat)
  /-- ECLK that the pass was held until the entries it writes were drained -/
  drainWait : Nat
  /-- the window counter in the pass's first ECLK -/
  phase : Fin 4
  /-- clamp levels of the windows that begin during the pass; with none left the last one stays -/
  levels : List (BitVec 2)
  /-- errors found in the engine's stores (R93): store code of UE_ADDR and word index -/
  ce : List (Fin 4 × BitVec 16)
  ue : Option (Fin 4 × BitVec 16)
  deriving DecidableEq, Repr

/-- The index of a ledger entry within its variant (R28). -/
abbrev EntryIx := Fin 8192

/-- The commands of the block: one constructor for each row of the opcode table (an operand with a default may be left out where nothing of its kind is to be said). -/
inductive Instr where
  -- ticks, the ledger and stalls
  | tickEvent (lateEclk : BitVec 16)
  | boundarySequence (choice : Fin 4) (ageing : List (BitVec 16))
  | switchReq (m : Master) (v : Word)
  | halt (m : Master) (v : Word)
  | programSlotStart (i : EntryIx)
  | programSlotEnd (st : Fin 8)
  | loadEntryStart (i : EntryIx)
  | loadEntryEnd (st : Fin 8)
  | stallMaintEntry (i : EntryIx)
  | mtTestDone (q : Fin 16) (passed : Bool) (failAddr : BitVec 23)
  -- decode
  | decodeEntry (i : EntryIx)
  | decodeFrame (vd : Fin 8) (h : AuHeader)
  | decodeFrameDone (vd : Fin 8) (r : DecodeEnd)
  | decodeBudgetExpiry (vd : Fin 8)
  -- pre-processing
  | preprocEntry (i : EntryIx)
  | ppSlot (pp : Fin 4)
  | ppSlotDone (pp : Fin 4)
  | ppBudgetExpiry (pp : Fin 4)
  -- encode
  | encodeEntry (i : EntryIx)
  | encodePicture (ve : Fin 2)
  | encodePictureDone (ve : Fin 2) (rowBits : List Nat) (payload : List Byte) (recon : List Byte := [])
  | encAbandon (ve : Fin 2) (sliceBits : BitVec 32) (skip : List Byte)
  -- association: `frames` counts the frames that the TAU finishes before its last grain, none where it finishes them all
  | assocEntry (i : EntryIx) (frames : Option (BitVec 16))
  | assocCut
  -- host DMA; `parse`: what each record of a stream's span holds; `lists`: where in the reserved part of the video store the gather
  -- list of each access unit goes
  | cutoff (i : EntryIx)
  | indexReadDone (ix : List Word)
  | intakeDmaEntry (i : EntryIx)
  | intakeReadDone (data : List (Fin 256 × List Byte))
  | demultiplexerEntry (i : EntryIx) (data : List (Fin 256 × List Byte))
      (parse : List (Fin 256 × List RecordParse)) (lists : List (Fin 256 × List (BitVec 19)) := [])
  -- `stop`: containment begins during the delivery that follows that many others; the bytes of it that have gone out
  | sheetEntry (i : EntryIx) (stop : Option (Fin 17 × BitVec 24))
  | evidenceDelivery (i : EntryIx)
  | csiCutoff (i : EntryIx)
  | stagingDmaEntry (i : EntryIx) (x : Transfer)
  | stagingDmaDone (data : List Byte)
  -- DRAM maintenance
  | dcMaintEntry (i : EntryIx)
  | dcMaintEnd (dc : Fin 8) (lanes : List LaneSweep)
  | recentreLate (dc : Fin 8)
  -- macro-instructions: the cluster and the instruction's offset in the program part; `par` is the group at which the
  -- vector engine finds a parity error (R168)
  | nop (c : Fin 8) (pc : BitVec 23)
  | matmul (c : Fin 8) (pc : BitVec 23)
  | expand (c : Fin 8) (pc : BitVec 23)
  | s2d (c : Fin 8) (pc : BitVec 23)
  | pool (c : Fin 8) (pc : BitVec 23)
  | ldlen (c : Fin 8) (pc : BitVec 23)
  | move (c : Fin 8) (pc : BitVec 23)
  | cvt (c : Fin 8) (pc : BitVec 23) (par : Option (BitVec 20))
  | ew (c : Fin 8) (pc : BitVec 23) (par : Option (BitVec 20))
  | red (c : Fin 8) (pc : BitVec 23) (par : Option (BitVec 20))
  | softmax (c : Fin 8) (pc : BitVec 23) (par : Option (BitVec 20))
  | qscale (c : Fin 8) (pc : BitVec 23) (par : Option (BitVec 20))
  | quant (c : Fin 8) (pc : BitVec 23) (par : Option (BitVec 20))
  | wht (c : Fin 8) (pc : BitVec 23) (par : Option (BitVec 20))
  | select (c : Fin 8) (pc : BitVec 23) (par : Option (BitVec 20))
  | kpred (c : Fin 8) (pc : BitVec 23) (par : Option (BitVec 20))
  | cbload (c : Fin 8) (pc : BitVec 23) (par : Option (BitVec 20))
  -- matrix engines
  | passIssue (e : Fin 64) (t : PassTiming)
  | blockDrain (e : Fin 64) (ce : List (BitVec 16)) (ue : Option (BitVec 16))
  | clampWindowStart (c : Fin 8)
  | thermalSample (temps : List (BitVec 16)) (mw : Word)
  -- fabric, regulators and stores
  | fabricGrant (target : Fin 27) (new : List FabReq)
  -- `write`: the request is a write whose first byte lies at that place of its 64-byte burst
  | regulatorAdmit (r : Regulator) (chan : Option (Fin 8)) (bytes : Nat) (elapsed : Nat) (write : Option (BitVec 6) := none)
  | scratchpadGrant (c : Fin 8) (bank : Fin 32) (new : List SpadReq)
  -- DRAM
  | dramBatch (dc : Fin 8) (sub : Bool) (new : List DramReq) (held : BitVec 32) (soft : List SoftError)
  -- `same`: a same-bank refresh of idle banks stands in its place
  | refab (dc : Fin 8) (sub : Bool) (same : Bool := false)
  | alertN (dc : Fin 8)
  -- buffer pool manager
  -- `others`: the requests that other requesters have pending beside it
  | bpmAlloc (q : Fin 32) (pool : BitVec 6) (owner : BitVec 4) (others : List BpmReq := [])
  | bpmAddOwner (q : Fin 32) (p : Ptr) (owner : BitVec 4) (others : List BpmReq := [])
  | bpmRelease (q : Fin 32) (p : Ptr) (owner : BitVec 4) (others : List BpmReq := [])
  | bpmCheck (q : Fin 32) (p : Ptr) (others : List BpmReq := [])
  -- CSI-2
  | csiFs (port : Fin 4) (vc : Fin 4) (frameNo : BitVec 16) (ecc : Ecc)
  | csiLongPacket (port : Fin 4) (vc : Fin 4) (dt : BitVec 6) (ecc : Ecc) (crcOk : Bool) (payload : List Byte)
  | csiFe (port : Fin 4) (vc : Fin 4) (frameNo : BitVec 16) (ecc : Ecc)
  | csiLinkChange (port : Fin 4) (link : Word)
  -- Ethernet
  | ethFrameRx (port : Fin 2) (f : EthFrame)
  | forwardTx (port : Fin 2) (egress : Word) (egressFrac : Byte)
  | ethLinkChange (port : Fin 2) (up : Bool) (rate : BitVec 3)
  | ptpEventTx (d : Fin 2) (seqId : BitVec 16) (msgType : BitVec 4) (stamp : Word) (frac : Byte)
  | txStampRead (m : Master) (d : Fin 2)
  | flowSel (m : Master) (v : Word)
  | flowCommit (m : Master) (v : Word)
  | newsrcPop (m : Master)
  -- loader
  | load (m : Master) (v : Word)
  | discard (m : Master) (v : Word)
  | loadPhaseEnd
  -- BAR access and register pages
  | bar2Read (offset : Word) (n : BitVec 13) (grain : BitVec 18)
  | bar2Write (offset : Word) (data : List Byte) (grain : BitVec 18)
  | bar0Bad (read : Bool)
  | registerWrite (m : Master) (page offset : BitVec 12) (v : Word) (col : Option Collision)
  | ownerWrite (m : Master) (page : BitVec 12) (v : Word)
  | lockWrite (m : Master) (page : BitVec 12) (v : Word)
  | evtRawClear (m : Master) (page : BitVec 12) (v : Word) (hw : Word)
  | evtSet (m : Master) (page : BitVec 12) (v : Word)
  | tallyClr (m : Master) (page : BitVec 12) (v : Word) (same : List (BitVec 12))
  -- PCIe
  | interruptDisable (set : Bool)
  | d3hotEntry
  | d0Return
  | inboundUr (k : UrKind)
  -- the completion that ends the k-th outstanding read; FCLK for which the oldest read that waits for a tag has waited
  | hostCompletion (c : CplStatus) (k : Nat := 0) (waited : Nat := 0)
  -- the k-th outstanding read and the µs since it was issued
  | completionTimeout (k : Nat := 0) (us : Nat := 0)
  | linkDown
  | containRelease (m : Master) (v : Word)
  | readLimit (m : Master) (v : Word)
  | l1Entry (substate : Fin 4)
  -- the host-DMA entry it is for; none: traffic started by the host leaves L1
  | l1Exit (i : Option EntryIx) (inL0 : Bool)
  | flr
  | hotReset
  | perstAssert
  | perstDeassert
  | powerOnReset (strap : BitVec 2)
  | supplyOutOfRange
  | pllLock
  -- interrupt controller: `t` is the target, false the host page, true the MGC page
  | claim (m : Master) (t : Bool)
  | complete (m : Master) (t : Bool) (v : Word)
  | hostIdle (m : Master) (v : Word)
  | holdoffExpiry (t : Bool) (g : Fin 16)
  | edgeLatch (src : Fin 8)
  -- time
  | timeNsRead (m : Master)
  | setNs (m : Master) (v : Word)
  | phaseNs (m : Master) (v : Word)
  | offsetWrite (m : Master) (d : Fin 2) (v : Word)
  | gmChange (m : Master) (d : Fin 2) (v : Word)
  | domainCfg (m : Master) (d : Fin 2) (v : Word)
  | domainStateWrite (m : Master) (d : Fin 2) (v : Word)
  | sel (m : Master) (v : Word)
  | handoverEnd
  -- power, boot and reset
  | pwrReq (m : Master) (hi : Bool) (v : Word)
  | domainTransitionDone (d : Fin 29)
  | storeClearDone (d : Fin 29)
  | deepIdleEntry (mgcWaits : Bool)
  | deepIdleWake
  | pwrLimit (m : Master) (v : Word)
  | fwData (m : Master) (v : Word)
  | fwGo (m : Master) (v : Word)
  | firmwareVerifyDone
  | train (m : Master) (v : Word)
  | trainingDone (dc : Fin 8) (r : TrainEnd)
  | channelRelease (m : Master) (dc : Fin 8) (v : Word)
  | dcCfg (m : Master) (dc : Fin 8) (v : Word)
  | mapSetWrite (m : Master) (cfg : Bool) (v : Word)
  | rstStall (m : Master) (v : Word)
  | rstUnit (m : Master) (v : Word)
  -- security
  | firmwareUpdate (m : Master) (arg : Byte)
  | updateReady
  | record (m : Master) (arg : Byte)
  | advance (m : Master) (arg : Byte)
  | raiseSvnMin (m : Master) (arg : Byte)
  | fuseBurnDone (readBackOk : Bool)
  | keyProg (m : Master) (v : Word)
  | quoteReq (m : Master) (v : Word)
  | quoteDone
  | quoteData (m : Master)
  | tamper (src : TamperSource)
  | wipeDone
  -- services
  | scrubDue (bank : Nat) (soft : List SoftError)
  | scrubWriteback (bank : Nat) (cancelled : Bool)
  | mtReq (m : Master) (v : Word)
  | mtCancel (m : Master) (v : Word)
  | svcUnit (m : Master) (v : Word)
  | engineService (m : Master) (e : Fin 64) (v : Word)
  -- I2C
  | i2cReadMaxTemp
  | i2cReadTemps
  | i2cReadPower
  | i2cReadBootState
  | i2cReadStatus
  | i2cSetPointer (v : Word)
  | i2cReadRegister
  -- further register writes
  | sessCommit (m : Master) (v : Word)
  | tauFlush (m : Master) (v : Word)
  | nextLocal (m : Master) (v : Word)
  | jobReadmit (m : Master) (st : Fin 8) (v : Word)
  | rateCapWrite (m : Master) (r : Regulator) (v : Word)
  | ringCfg (m : Master) (v : Word)
  | intakeConfigWrite (m : Master) (offset : BitVec 12) (v : Word)
  | proxyGen (m : Master) (v : Word)
  | proxyGeometryWrite (m : Master) (frames : Bool) (v : Word)
  | maintEntry (i : EntryIx)
  | i2cBad (b : Byte)
  | configurationWrite (f : CfgField) (v : BitVec 4)
  | dlActive (rate : BitVec 3) (width : BitVec 4)
  | recordCheckDone
  | functionReady
  deriving DecidableEq, Repr

end Sys2Proof
end

