-- ==== Sys2Proof/Decode.lean ====
section
/-!
DEFINITION. The opcode table gives none of its rows bits: no word spells a command.
-/
namespace Sys2Proof

/-- The command that a word spells by the bits of the opcode table: the table's rows have none, so no word spells one. -/
def decodeTableWord (_nbits _w : Nat) : Option Instr := none

end Sys2Proof
end

