-- ==== Sys2Proof/Machine/RegTable.lean ====
section
/-!
DEFINITION. The register table: the registers of every page as the manual's register tables give them (R4, R51 to R53,
R69, R96, R120, R170, R201 to R203, R227 to R229, R255, R256, R272, R273, R291, R292, R307, R308, R325, R334, R353 to
R356, R374, R391, R392, R406, R409): offset, access code, reset value, fields, lock bit. A register's key is
((bank * 4096) + page) * 4096 + offset; the bank is the index of a register that a selection register multiplies.
-/
namespace Sys2Proof.Machine

/-- The access codes of the manual's "Access codes" table; `setOnly` is LOCK's (R4). -/
inductive Access where
  | ro
  | rw
  | wo
  | w1c
  | rwl
  | setOnly
  deriving DecidableEq, Repr

/-- One row of a register table. -/
structure RegDesc where
  off : Nat
  access : Access
  reset : Word
  /-- the fields as (high bit, low bit); bits in none are reserved -/
  fields : List (Nat × Nat)
  /-- the LOCK bit that an RWL register names -/
  lock : Option Nat
  /-- each bit is a field of its own (R413) -/
  perBit : Bool
  deriving DecidableEq, Repr

/-- The key of a register that no selection register multiplies. -/
def rkey (page off : Nat) : Nat := page * 4096 + off

/-- The key of a register with a bank index. -/
def bkey (bank page off : Nat) : Nat := (bank * 4096 + page) * 4096 + off

/-- The page of a key. -/
def keyPage (k : Nat) : Nat := (k / 4096) % 4096

/-- The offset of a key. -/
def keyOff (k : Nat) : Nat := k % 4096

/-- The bank of a key. -/
def keyBank (k : Nat) : Nat := k / 16777216

/-- Shorthand for a read-only register whose reset value is 0. -/
def roReg (off : Nat) : RegDesc := ⟨off, .ro, 0, [(31, 0)], none, false⟩

/-- Shorthand for a register a master writes. -/
def rwReg (off : Nat) (a : Access) (reset : Word) (fields : List (Nat × Nat)) (lock : Option Nat := none)
    (perBit : Bool := false) : RegDesc := ⟨off, a, reset, fields, lock, perBit⟩

/-- The common header of every page (R4). -/
def regsCommon : List RegDesc :=
  [roReg 0x000,
   roReg 0x004,
   rwReg 0x008 .rw 0x00000000 [(0, 0)],
   roReg 0x00C,
   rwReg 0x010 .w1c 0x00000000 [(31, 0)] none true,
   rwReg 0x014 .rw 0x00000000 [(31, 0)] none true,
   rwReg 0x018 .wo 0x00000000 [(31, 0)],
   rwReg 0x01C .rw 0x00000000 [(1, 0)]] ++
  [rwReg 0x020 .setOnly 0x00000000 [(31, 0)] none true,
   roReg 0x024,
   rwReg 0x028 .wo 0x00000000 [(31, 0)]]

/-- The registers of the TICK pages (R51). -/
def regsTick : List RegDesc :=
  [roReg 0x100,
   rwReg 0x104 .rw 0x00000000 [(31, 0)],
   roReg 0x108,
   roReg 0x10C,
   roReg 0x110,
   roReg 0x114,
   roReg 0xE00,
   roReg 0xE04]

/-- The registers of the LEDGER pages (R52). -/
def regsLedger : List RegDesc :=
  [roReg 0x100,
   roReg 0x104,
   rwReg 0x108 .rw 0x00000000 [(0, 0), (1, 1)],
   rwReg 0x10C .rw 0x00000000 [(31, 0)],
   rwReg 0x110 .rw 0x00000000 [(0, 0)],
   rwReg 0x114 .rw 0x00000000 [(1, 0)],
   roReg 0x118,
   roReg 0xE00] ++
  [roReg 0xE04,
   roReg 0xE08]

/-- The registers of the SHARED pages (R52). -/
def regsShared : List RegDesc :=
  [roReg 0x100,
   rwReg 0x104 .rw 0x0000FFFF [(15, 0)],
   roReg 0x108,
   roReg 0x10C,
   rwReg 0x110 .rw 0x0000FFFF [(15, 0)],
   roReg 0x114,
   roReg 0x118,
   rwReg 0x11C .rw 0x0000FFFF [(15, 0)]] ++
  [roReg 0x120,
   roReg 0xE00]

/-- The registers of the STALL pages (R53). -/
def regsStall : List RegDesc :=
  [roReg 0x100,
   roReg 0x104,
   roReg 0x108,
   roReg 0x10C,
   roReg 0x110,
   rwReg 0x114 .rw 0x0000FFFF [(15, 0)],
   roReg 0x118,
   roReg 0x11C] ++
  [rwReg 0x120 .rw 0x0000FFFF [(15, 0)],
   roReg 0x124,
   rwReg 0x128 .rw 0x00000000 [(31, 0)] none true,
   roReg 0x12C,
   rwReg 0x130 .wo 0x00000000 [(31, 0)],
   rwReg 0x134 .rwl 0x00000003 [(3, 0)] (some 0),
   rwReg 0x138 .rwl 0x00000001 [(31, 0)] (some 1),
   roReg 0x13C] ++
  [roReg 0xE00,
   roReg 0xE04,
   roReg 0xE08,
   roReg 0xE0C,
   roReg 0xE10,
   roReg 0xE14]

/-- The registers of the LOADER pages (R69). -/
def regsLoader : List RegDesc :=
  [rwReg 0x100 .rw 0x00000000 [(31, 12)],
   rwReg 0x104 .rw 0x00000000 [(4, 0)],
   rwReg 0x108 .rw 0x00000000 [(31, 0)],
   rwReg 0x10C .wo 0x00000000 [(0, 0), (1, 1), (4, 4), (5, 5)],
   roReg 0x110,
   rwReg 0x114 .ro 0x000000FF [(7, 0)],
   roReg 0x118,
   roReg 0x11C] ++
  [roReg 0x120,
   roReg 0x124,
   roReg 0xE00,
   roReg 0xE04]

/-- The registers of the MX pages (R96). -/
def regsMx : List RegDesc :=
  [roReg 0x100,
   roReg 0x104,
   roReg 0x108,
   roReg 0x10C,
   rwReg 0x110 .rwl 0x00000000 [(0, 0)] (some 0),
   roReg 0x114,
   roReg 0x118,
   roReg 0xE00] ++
  [roReg 0xE04,
   roReg 0xE08,
   roReg 0xE0C,
   roReg 0xE10,
   roReg 0xE14,
   roReg 0xE18,
   roReg 0xE1C,
   roReg 0xE20] ++
  [roReg 0xE24]

/-- The registers of the CLUSTER pages (R120). -/
def regsCluster : List RegDesc :=
  [roReg 0x100,
   roReg 0x104,
   rwReg 0x108 .rw 0x00000000 [(4, 0), (11, 8)],
   roReg 0x10C,
   roReg 0x110,
   roReg 0xE00,
   roReg 0xE04,
   roReg 0xE08] ++
  [roReg 0xE0C,
   roReg 0xE10,
   roReg 0xE14,
   roReg 0xE18]

/-- The registers of the PXE pages (R120). -/
def regsPxe : List RegDesc :=
  [roReg 0x100,
   roReg 0xE00,
   roReg 0xE04]

/-- The registers of the WU pages (R120). -/
def regsWu : List RegDesc :=
  [roReg 0x100,
   roReg 0xE00,
   roReg 0xE04,
   roReg 0xE08]

/-- The registers of the VX pages (R170). -/
def regsVx : List RegDesc :=
  [roReg 0x100,
   rwReg 0x104 .rw 0x00000000 [(5, 0)],
   roReg 0x108,
   rwReg 0x10C .rw 0x00000000 [(2, 0), (5, 4)],
   roReg 0x110,
   roReg 0xE00,
   roReg 0xE04,
   roReg 0xE08] ++
  [roReg 0xE0C,
   roReg 0xE10,
   roReg 0xE14,
   roReg 0xE18,
   roReg 0xE1C,
   roReg 0xE20]

/-- The registers of the INTAKE pages (R201). -/
def regsIntake : List RegDesc :=
  [rwReg 0x100 .rw 0x00000000 [(31, 6)],
   rwReg 0x104 .rw 0x00000000 [(31, 0)],
   rwReg 0x108 .rw 0x00000000 [(31, 6)],
   rwReg 0x10C .rw 0x00000000 [(31, 0)],
   rwReg 0x110 .rw 0x00000000 [(7, 0)],
   rwReg 0x114 .rw 0x00000000 [(0, 0), (3, 1), (5, 4), (28, 16)],
   rwReg 0x118 .rw 0x00000000 [(31, 12)],
   rwReg 0x11C .rw 0x00000000 [(31, 0)]] ++
  [rwReg 0x120 .rw 0x0000000C [(4, 0)],
   roReg 0x124,
   roReg 0x128,
   roReg 0x12C,
   roReg 0x130,
   roReg 0xE00,
   roReg 0xE04,
   roReg 0xE08] ++
  [roReg 0xE0C,
   roReg 0xE10,
   roReg 0xE40,
   roReg 0xE44,
   roReg 0xE48,
   roReg 0xE4C,
   roReg 0xE50]

/-- The registers of the FLOW pages (R202). -/
def regsFlow : List RegDesc :=
  [rwReg 0x100 .rw 0x00000000 [(7, 0)],
   rwReg 0x104 .rw 0x00000000 [(0, 0), (1, 1), (2, 2), (3, 3), (4, 4), (5, 5), (15, 8), (22, 16)],
   rwReg 0x108 .rw 0x00000000 [(15, 0)],
   rwReg 0x10C .rw 0x00000000 [(31, 0)],
   rwReg 0x110 .rw 0x00000000 [(31, 0)],
   rwReg 0x114 .rw 0x00000000 [(31, 0)],
   rwReg 0x118 .rw 0x00000000 [(31, 0)],
   rwReg 0x11C .rw 0x00000000 [(31, 0)]] ++
  [rwReg 0x120 .wo 0x00000000 [(0, 0)],
   roReg 0x124,
   roReg 0x128,
   roReg 0x12C,
   roReg 0x130,
   roReg 0x134,
   roReg 0xE00,
   roReg 0xE04] ++
  [roReg 0xE08,
   roReg 0xE0C,
   roReg 0xE10,
   roReg 0xE14,
   roReg 0xE18,
   roReg 0xE40]

/-- The registers of the DEMUX pages (R203). -/
def regsDemux : List RegDesc :=
  [roReg 0xE00,
   roReg 0xE04,
   roReg 0xE08,
   roReg 0xE0C,
   roReg 0xE10,
   roReg 0xE14,
   roReg 0xE18,
   roReg 0xE1C] ++
  [roReg 0xE20,
   roReg 0xE24]

/-- The registers of the VD pages (R203). -/
def regsVd : List RegDesc :=
  [roReg 0x100,
   roReg 0x104,
   roReg 0x108,
   roReg 0xE00,
   roReg 0xE04,
   roReg 0xE08,
   roReg 0xE0C,
   roReg 0xE10] ++
  [roReg 0xE14,
   roReg 0xE18,
   roReg 0xE1C]

/-- The registers of the PP pages (R227). -/
def regsPp : List RegDesc :=
  [roReg 0x100,
   roReg 0x104,
   roReg 0x108,
   roReg 0xE00,
   roReg 0xE04,
   roReg 0xE08,
   roReg 0xE0C,
   roReg 0xE10] ++
  [roReg 0xE14,
   roReg 0xE18]

/-- The registers of the CSI pages (R228). -/
def regsCsi : List RegDesc :=
  [rwReg 0x100 .rw 0x00000004 [(2, 0), (8, 8)],
   rwReg 0x104 .rw 0x00000000 [(15, 0)],
   roReg 0x108,
   roReg 0xE00,
   roReg 0xE04,
   roReg 0xE08,
   roReg 0xE0C,
   roReg 0xE10] ++
  [roReg 0xE14,
   roReg 0xE18,
   roReg 0xE1C]

/-- The registers of the ALIGN pages (R229). -/
def regsAlign : List RegDesc :=
  [rwReg 0x100 .rw 0x00000000 [(3, 0)],
   rwReg 0x104 .rw 0x00000000 [(0, 0), (2, 1), (4, 3), (10, 5), (23, 16), (29, 24)],
   rwReg 0x108 .rw 0x00000000 [(15, 0), (31, 16)],
   rwReg 0x10C .rw 0x00000008 [(3, 0), (4, 4)],
   roReg 0x110,
   rwReg 0x140 .rw 0x00000000 [(2, 0)],
   rwReg 0x144 .rw 0x00000000 [(15, 0)],
   roReg 0xE00] ++
  [roReg 0xE04]

/-- The registers of the PROXY pages (R229). -/
def regsProxy : List RegDesc :=
  [rwReg 0x100 .rw 0x00000000 [(15, 0)],
   rwReg 0x104 .rw 0x00000000 [(19, 0)],
   rwReg 0x108 .rw 0x00000000 [(15, 0)],
   roReg 0x10C,
   roReg 0x110,
   rwReg 0x140 .rw 0x00000000 [(7, 0)],
   rwReg 0x144 .rw 0x00000000 [(1, 0)],
   roReg 0xE00] ++
  [roReg 0xE04,
   roReg 0xE08,
   roReg 0xE0C,
   roReg 0xE10]

/-- The registers of the TAU pages (R255). -/
def regsTau : List RegDesc :=
  [rwReg 0x100 .rwl 0x00000000 [(21, 0)] (some 0),
   rwReg 0x104 .wo 0x00000000 [(7, 0), (31, 31)],
   roReg 0x108,
   roReg 0x10C,
   roReg 0xE00,
   roReg 0xE04,
   roReg 0xE08,
   roReg 0xE0C] ++
  [roReg 0xE10,
   roReg 0xE14,
   roReg 0xE18,
   roReg 0xE1C,
   roReg 0xE20]

/-- The registers of the SHEET pages (R256). -/
def regsSheet : List RegDesc :=
  [rwReg 0x100 .rw 0x00000000 [(31, 12)],
   rwReg 0x104 .rw 0x00000000 [(31, 0)],
   rwReg 0x108 .rw 0x00001005 [(3, 0), (12, 8)],
   roReg 0x10C,
   roReg 0x110,
   roReg 0xE00,
   roReg 0xE04,
   roReg 0xE08] ++
  [roReg 0xE0C]

/-- The registers of the EVIDENCE pages (R272). -/
def regsEvidence : List RegDesc :=
  [rwReg 0x100 .rw 0x00000000 [(3, 0)],
   rwReg 0x104 .rw 0x00000000 [(0, 0), (2, 1), (15, 8), (31, 16)],
   rwReg 0x108 .rw 0x00014B1E [(5, 0), (14, 8), (18, 16)],
   rwReg 0x10C .rw 0xFFFFFFFF [(31, 0)],
   rwReg 0x110 .rw 0x00000F3C [(6, 0), (16, 8)],
   rwReg 0x114 .rw 0x00000000 [(15, 0), (31, 16)],
   rwReg 0x118 .rw 0x00000000 [(15, 0), (31, 16)],
   rwReg 0x11C .rw 0x00000000 [(31, 12)]] ++
  [rwReg 0x120 .rw 0x00000000 [(31, 0)],
   rwReg 0x124 .rw 0x00000010 [(4, 0)],
   rwReg 0x128 .wo 0x00000000 [(0, 0)],
   roReg 0x12C,
   rwReg 0x130 .rw 0x00000000 [(31, 6)],
   rwReg 0x134 .rw 0x00000000 [(31, 0)],
   roReg 0xE00,
   roReg 0xE04] ++
  [roReg 0xE08,
   roReg 0xE0C]

/-- The registers of the VE pages (R273). -/
def regsVe : List RegDesc :=
  [roReg 0x100,
   roReg 0x104,
   roReg 0x108,
   roReg 0xE00,
   roReg 0xE04,
   roReg 0xE08,
   roReg 0xE0C]

/-- The registers of the BPM pages (R291). -/
def regsBpm : List RegDesc :=
  [rwReg 0x100 .rw 0x00000000 [(5, 0)],
   roReg 0x104,
   roReg 0x108,
   roReg 0x10C,
   roReg 0x110,
   roReg 0x114,
   roReg 0x118,
   rwReg 0x11C .rw 0x00000000 [(11, 0)]] ++
  [roReg 0x120,
   roReg 0x124,
   roReg 0x128,
   roReg 0x12C,
   roReg 0x130,
   roReg 0x134,
   roReg 0x138,
   roReg 0x13C] ++
  [roReg 0xE00,
   roReg 0xE04,
   roReg 0xE08,
   roReg 0xE0C,
   roReg 0xE10,
   roReg 0xE14,
   roReg 0xE40]

/-- The registers of the STORE pages (R292). -/
def regsStore : List RegDesc :=
  [roReg 0x100,
   roReg 0x104,
   roReg 0x108,
   roReg 0xE00,
   roReg 0xE04,
   roReg 0xE08,
   roReg 0xE0C,
   roReg 0xE10]

/-- The registers of the DC pages (R307). -/
def regsDc : List RegDesc :=
  [rwReg 0x100 .rwl 0x00000000 [(0, 0), (2, 1), (3, 3), (5, 4), (6, 6)] (some 0),
   roReg 0x104,
   rwReg 0x108 .wo 0x00000000 [(0, 0)],
   rwReg 0x10C .rw 0x00000000 [(3, 0), (4, 4), (5, 5)],
   roReg 0x110,
   roReg 0x114,
   roReg 0x118,
   roReg 0x11C] ++
  [roReg 0x120,
   roReg 0x124,
   roReg 0x128,
   roReg 0x12C,
   roReg 0x140,
   roReg 0x144,
   roReg 0x148,
   roReg 0x14C] ++
  [roReg 0x150,
   roReg 0x154,
   roReg 0x158,
   roReg 0x15C,
   roReg 0x160,
   roReg 0x164,
   roReg 0x168,
   roReg 0x16C] ++
  [roReg 0x170,
   roReg 0x174,
   roReg 0x178,
   roReg 0x17C,
   roReg 0x180,
   roReg 0x184,
   roReg 0x188,
   roReg 0x18C] ++
  [roReg 0x190,
   roReg 0xE00,
   roReg 0xE04,
   roReg 0xE08,
   roReg 0xE0C,
   roReg 0xE10,
   roReg 0xE14,
   roReg 0xE18] ++
  [roReg 0xE1C,
   roReg 0xE20,
   roReg 0xE24]

/-- The registers of the MAP pages (R308). -/
def regsMap : List RegDesc :=
  [rwReg 0x100 .rw 0x00000000 [(2, 0)],
   rwReg 0x104 .rwl 0x00000000 [(6, 0)] (some 0),
   rwReg 0x108 .rwl 0x00000000 [(7, 0), (12, 8), (20, 16)] (some 0),
   roReg 0x10C,
   roReg 0xE00]

/-- The registers of the ENDPOINT pages (R325). -/
def regsEndpoint : List RegDesc :=
  [roReg 0x100,
   roReg 0x104,
   rwReg 0x108 .wo 0x00000000 [(0, 0)],
   rwReg 0x10C .rw 0x00000020 [(9, 0)],
   rwReg 0x110 .rw 0x00000064 [(11, 0)],
   rwReg 0x114 .rw 0x00000008 [(7, 0)],
   roReg 0x118,
   roReg 0xE00] ++
  [roReg 0xE04,
   roReg 0xE08,
   roReg 0xE0C,
   roReg 0xE10,
   roReg 0xE14,
   roReg 0xE18,
   roReg 0xE1C,
   roReg 0xE20]

/-- The registers of the APERTURE pages (R325). -/
def regsAperture : List RegDesc :=
  [rwReg 0x100 .rw 0x00000000 [(6, 0)],
   roReg 0x104,
   roReg 0x108,
   roReg 0xE00,
   roReg 0xE04]

/-- The registers of the ICU pages (R334). -/
def regsIcu : List RegDesc :=
  [rwReg 0x100 .rw 0x00000000 [(31, 0)] none true,
   rwReg 0x104 .rw 0x00000000 [(31, 0)] none true,
   rwReg 0x108 .rw 0x00000000 [(31, 0)] none true,
   rwReg 0x10C .rw 0x00000000 [(31, 0)] none true,
   rwReg 0x110 .rw 0x00000000 [(31, 0)] none true,
   rwReg 0x114 .rw 0x00000000 [(31, 0)] none true,
   rwReg 0x118 .rw 0x00000000 [(31, 0)] none true,
   rwReg 0x11C .rw 0x00000000 [(31, 0)] none true] ++
  [roReg 0x120,
   roReg 0x124,
   roReg 0x128,
   roReg 0x12C,
   roReg 0x130,
   roReg 0x134,
   roReg 0x138,
   roReg 0x13C] ++
  [roReg 0x140,
   rwReg 0x144 .wo 0x00000000 [(7, 0)],
   rwReg 0x148 .rw 0x00000000 [(0, 0)],
   roReg 0x14C,
   roReg 0x150,
   roReg 0x154,
   rwReg 0x180 .rw 0x00000000 [(15, 0)],
   rwReg 0x184 .rw 0x00000000 [(15, 0)]] ++
  [rwReg 0x188 .rw 0x00000000 [(15, 0)],
   rwReg 0x18C .rw 0x00000000 [(15, 0)],
   rwReg 0x190 .rw 0x00000000 [(15, 0)],
   rwReg 0x194 .rw 0x00000000 [(15, 0)],
   rwReg 0x198 .rw 0x00000000 [(15, 0)],
   rwReg 0x19C .rw 0x00000000 [(15, 0)],
   rwReg 0x1A0 .rw 0x00000000 [(15, 0)],
   rwReg 0x1A4 .rw 0x00000000 [(15, 0)]] ++
  [rwReg 0x1A8 .rw 0x00000000 [(15, 0)],
   rwReg 0x1AC .rw 0x00000000 [(15, 0)],
   rwReg 0x1B0 .rw 0x00000000 [(15, 0)],
   rwReg 0x1B4 .rw 0x00000000 [(15, 0)],
   rwReg 0x1B8 .rw 0x00000000 [(15, 0)],
   rwReg 0x1BC .rw 0x00000000 [(15, 0)],
   roReg 0xE00,
   roReg 0xE04] ++
  [roReg 0xE08,
   roReg 0xE0C,
   roReg 0xE10]

/-- The registers of the TIME pages (R353). -/
def regsTime : List RegDesc :=
  [roReg 0x100,
   roReg 0x104,
   roReg 0x108,
   rwReg 0x10C .ro 0x00000004 [(3, 0)],
   rwReg 0x110 .wo 0x00000000 [(31, 0)],
   rwReg 0x114 .rw 0x00000002 [(1, 0)],
   rwReg 0x118 .ro 0x00000002 [(1, 0), (2, 2)],
   roReg 0x11C] ++
  [roReg 0x120,
   roReg 0x124,
   roReg 0xE00,
   roReg 0xE04,
   roReg 0xE08,
   roReg 0xE0C]

/-- The registers of the DOMAIN pages (R354). -/
def regsDomain : List RegDesc :=
  [rwReg 0x100 .rwl 0x00000000 [(0, 0), (1, 1), (3, 2), (5, 4), (6, 6), (15, 8), (25, 16)] (some 0),
   rwReg 0x104 .rw 0x00000000 [(15, 0), (31, 16)],
   rwReg 0x108 .rw 0x00000000 [(7, 0)],
   rwReg 0x10C .rw 0x00000064 [(15, 0)],
   rwReg 0x110 .rw 0x00000000 [(31, 0)],
   rwReg 0x114 .rw 0x00000000 [(31, 0)],
   rwReg 0x118 .rw 0x00000000 [(2, 0)],
   rwReg 0x11C .rw 0x00000000 [(31, 0)]] ++
  [rwReg 0x120 .rw 0x00000000 [(31, 0)],
   roReg 0x124,
   roReg 0x128,
   roReg 0xE00,
   roReg 0xE04,
   roReg 0xE08]

/-- The registers of the EP pages (R355). -/
def regsEp : List RegDesc :=
  [rwReg 0x100 .rwl 0x00000000 [(0, 0)] (some 0),
   rwReg 0x104 .rw 0x00000000 [(31, 0)],
   rwReg 0x108 .rw 0x00000000 [(15, 0)],
   rwReg 0x10C .rw 0x00000000 [(31, 0)],
   rwReg 0x110 .rw 0x00000000 [(31, 0)],
   rwReg 0x114 .rw 0x00000000 [(31, 0)],
   rwReg 0x118 .rw 0x00000000 [(31, 0)],
   rwReg 0x11C .rw 0x00000000 [(31, 0)]] ++
  [rwReg 0x120 .rw 0x00000000 [(15, 0)],
   rwReg 0x124 .rw 0x00000000 [(15, 0)],
   rwReg 0x128 .rw 0x00000000 [(3, 0)],
   rwReg 0x12C .rw 0x00000000 [(31, 0)],
   rwReg 0x130 .rw 0x00000000 [(15, 0), (31, 31)],
   roReg 0x134,
   roReg 0xE00,
   roReg 0xE04] ++
  [roReg 0xE08,
   roReg 0xE0C,
   roReg 0xE10]

/-- The registers of the SYSTEM pages (R356). -/
def regsSystem : List RegDesc :=
  [rwReg 0x100 .rwl 0x00000000 [(9, 0)] (some 0),
   rwReg 0x104 .rw 0x00000000 [(0, 0)],
   roReg 0xE00,
   roReg 0xE04,
   roReg 0xE08]

/-- The registers of the BOOT pages (R374). -/
def regsBoot : List RegDesc :=
  [roReg 0x100,
   rwReg 0x104 .rw 0x00000000 [(20, 2)],
   rwReg 0x108 .wo 0x00000000 [(31, 0)],
   rwReg 0x10C .rw 0x00000000 [(20, 0)],
   rwReg 0x110 .wo 0x00000000 [(0, 0)],
   rwReg 0x114 .wo 0x00000000 [(7, 0)],
   rwReg 0x118 .wo 0x00000000 [(7, 0)],
   rwReg 0x11C .wo 0x00000000 [(7, 0), (31, 31)]] ++
  [rwReg 0x120 .rw 0x00000000 [(0, 0)],
   roReg 0xE00,
   roReg 0xE04,
   roReg 0xE08]

/-- The registers of the POWER pages (R374). -/
def regsPower : List RegDesc :=
  [rwReg 0x100 .rw 0x00000000 [(1, 0), (3, 2), (5, 4), (7, 6), (9, 8), (11, 10), (13, 12), (15, 14), (17, 16), (19, 18), (21, 20), (23, 22), (25, 24), (27, 26), (29, 28), (31, 30)],
   rwReg 0x104 .rw 0x00000000 [(1, 0), (3, 2), (5, 4), (7, 6), (9, 8), (11, 10), (13, 12), (15, 14), (17, 16), (19, 18), (21, 20), (23, 22), (25, 24)],
   roReg 0x108,
   roReg 0x10C,
   roReg 0xE00,
   roReg 0xE04]

/-- The registers of the THERMAL pages (R374). -/
def regsThermal : List RegDesc :=
  [roReg 0x100,
   roReg 0x104,
   roReg 0x108,
   roReg 0x10C,
   roReg 0x110,
   roReg 0x114,
   roReg 0x118,
   roReg 0x11C] ++
  [rwReg 0x120 .rwl 0x05A00570 [(15, 0), (31, 16)] (some 0),
   rwReg 0x124 .rwl 0x05F005D0 [(15, 0), (31, 16)] (some 0),
   rwReg 0x128 .rwl 0x00000690 [(15, 0)] (some 0),
   roReg 0x12C,
   rwReg 0x130 .rwl 0x0000FDE8 [(16, 0)] (some 1),
   roReg 0x134,
   roReg 0xE00,
   roReg 0xE04] ++
  [roReg 0xE08,
   roReg 0xE0C]

/-- The registers of the SECURITY pages (R391). -/
def regsSecurity : List RegDesc :=
  [roReg 0x100,
   rwReg 0x104 .rw 0x00000000 [(31, 12)],
   rwReg 0x108 .rw 0x00000000 [(4, 0)],
   rwReg 0x10C .rw 0x00000000 [(31, 0)],
   rwReg 0x110 .wo 0x00000000 [(2, 0), (15, 8)],
   roReg 0x114,
   rwReg 0x118 .rw 0x00000000 [(31, 0)],
   roReg 0x11C] ++
  [rwReg 0x120 .rw 0x00000000 [(31, 0)],
   rwReg 0x124 .rw 0x00000000 [(31, 0)],
   rwReg 0x128 .rw 0x00000000 [(31, 0)],
   rwReg 0x12C .rw 0x00000000 [(31, 0)],
   rwReg 0x130 .rw 0x00000000 [(31, 0)],
   rwReg 0x134 .rw 0x00000000 [(31, 0)],
   rwReg 0x138 .rw 0x00000000 [(31, 0)],
   rwReg 0x13C .rw 0x00000000 [(31, 0)]] ++
  [rwReg 0x140 .wo 0x00000000 [(0, 0)],
   roReg 0x144,
   rwReg 0x148 .rw 0x00000000 [(12, 0)],
   roReg 0x14C,
   roReg 0x150,
   roReg 0x154,
   roReg 0x158,
   roReg 0x15C] ++
  [roReg 0x160,
   roReg 0x164,
   roReg 0x168,
   roReg 0x16C,
   roReg 0xE00,
   roReg 0xE04,
   roReg 0xE08,
   roReg 0xE0C] ++
  [roReg 0xE10,
   roReg 0xE14,
   roReg 0xE18,
   roReg 0xE1C,
   roReg 0xE20]

/-- The registers of the FUSE pages (R392). -/
def regsFuse : List RegDesc :=
  [rwReg 0x100 .rw 0x00000000 [(1, 0)],
   roReg 0x104,
   rwReg 0x108 .rw 0x00000000 [(31, 0)],
   rwReg 0x10C .rw 0x00000000 [(31, 0)],
   rwReg 0x110 .rw 0x00000000 [(31, 0)],
   rwReg 0x114 .rw 0x00000000 [(31, 0)],
   rwReg 0x118 .rw 0x00000000 [(31, 0)],
   rwReg 0x11C .rw 0x00000000 [(31, 0)]] ++
  [rwReg 0x120 .rw 0x00000000 [(31, 0)],
   rwReg 0x124 .rw 0x00000000 [(31, 0)],
   roReg 0x128,
   roReg 0x12C,
   roReg 0x130,
   roReg 0x134,
   roReg 0x138,
   roReg 0x13C] ++
  [roReg 0x140,
   roReg 0x144,
   rwReg 0x148 .wo 0x00000000 [(0, 0)],
   roReg 0x14C,
   roReg 0x150,
   roReg 0x154,
   roReg 0xE00,
   roReg 0xE04]

/-- The registers of the SERVICE pages (R406). -/
def regsService : List RegDesc :=
  [rwReg 0x100 .wo 0x00000000 [(2, 0), (15, 8)],
   rwReg 0x104 .wo 0x00000000 [(3, 0), (31, 31)],
   roReg 0x108,
   rwReg 0x10C .rw 0x00000000 [(3, 0)],
   roReg 0x110,
   roReg 0x114,
   rwReg 0x118 .wo 0x00000000 [(7, 0), (8, 8), (31, 31)],
   roReg 0x11C] ++
  [roReg 0x120,
   roReg 0x124,
   rwReg 0x128 .rwl 0x00000001 [(0, 0)] (some 0),
   roReg 0x12C,
   roReg 0xE00,
   roReg 0xE04,
   roReg 0xE08,
   roReg 0xE0C] ++
  [roReg 0xE10,
   roReg 0xE14,
   roReg 0xE18,
   roReg 0xE1C]

/-- The registers of the CHIP pages (R409). -/
def regsChip : List RegDesc :=
  [roReg 0x100]

end Sys2Proof.Machine
end

