-- ==== Sys2Proof/Machine/RegNames.lean ====
section
/-!
DEFINITION. The registers by name: for each register of the manual's tables its key, as PAGE_REGISTER in the manual's
own names. The index of a page that exists several times (a stall, a cluster, an engine) is the first argument; the
index that a selection register holds (a stream, a session, a set) is the argument `b`.
-/
namespace Sys2Proof.Machine.Reg

/-- PAGE_ID of the common header of page `p` (R4). -/
def PAGE_ID (p : Nat) : Nat := rkey p 0x000
/-- PAGE_CAP of the common header of page `p` (R4). -/
def PAGE_CAP (p : Nat) : Nat := rkey p 0x004
/-- CTL of the common header of page `p` (R4). -/
def CTL (p : Nat) : Nat := rkey p 0x008
/-- STATUS of the common header of page `p` (R4). -/
def STATUS (p : Nat) : Nat := rkey p 0x00C
/-- EVT_RAW of the common header of page `p` (R4). -/
def EVT_RAW (p : Nat) : Nat := rkey p 0x010
/-- EVT_EN of the common header of page `p` (R4). -/
def EVT_EN (p : Nat) : Nat := rkey p 0x014
/-- EVT_SET of the common header of page `p` (R4). -/
def EVT_SET (p : Nat) : Nat := rkey p 0x018
/-- OWNER of the common header of page `p` (R4). -/
def OWNER (p : Nat) : Nat := rkey p 0x01C
/-- LOCK of the common header of page `p` (R4). -/
def LOCK (p : Nat) : Nat := rkey p 0x020
/-- DROP_TALLY of the common header of page `p` (R4). -/
def DROP_TALLY (p : Nat) : Nat := rkey p 0x024
/-- TALLY_CLR of the common header of page `p` (R4). -/
def TALLY_CLR (p : Nat) : Nat := rkey p 0x028
/-- TICK PERIOD_US: [17:0] active period in µs; 0 means no tick (R51). -/
def TICK_PERIOD_US : Nat := rkey 0x010 0x100
/-- TICK PHASE_NS: [31:0] PHASE of R21 in ns, less than the period (R51). -/
def TICK_PHASE_NS : Nat := rkey 0x010 0x104
/-- TICK SEQ: [31:0] current tick number (R51). -/
def TICK_SEQ : Nat := rkey 0x010 0x108
/-- TICK GRAIN: [17:0] current grain; [31] 1 during the boundary sequence (R51). -/
def TICK_GRAIN : Nat := rkey 0x010 0x10C
/-- TICK HORIZON: [17:0] active horizon grain (R51). -/
def TICK_HORIZON : Nat := rkey 0x010 0x110
/-- TICK CORR_S: [9:0] S in force, ppm (R51). -/
def TICK_CORR_S : Nat := rkey 0x010 0x114
/-- TICK LATE_START: tally, R27 (R51). -/
def TICK_LATE_START : Nat := rkey 0x010 0xE00
/-- TICK GUARD_REFUSE: tally, R25 (R51). -/
def TICK_GUARD_REFUSE : Nat := rkey 0x010 0xE04
/-- LEDGER ACTIVE: [0] bank, 0 A and 1 B; [1] 1 while a bank is active; [3:2] variant; [5:4] halt stage, 0 none, 1 first, 2 ... (R52). -/
def LEDGER_ACTIVE : Nat := rkey 0x011 0x100
/-- LEDGER BANK_STATE: [3:0] bank A; [7:4] bank B; codes of R33 (R52). -/
def LEDGER_BANK_STATE : Nat := rkey 0x011 0x104
/-- LEDGER SWITCH_REQ: [0] bank; [1] valid, cleared by hardware on effect or refusal (R52). -/
def LEDGER_SWITCH_REQ : Nat := rkey 0x011 0x108
/-- LEDGER SWITCH_TICK: [31:0] tick number k of R34 (R52). -/
def LEDGER_SWITCH_TICK : Nat := rkey 0x011 0x10C
/-- LEDGER HALT: [0] halt request, R36 (R52). -/
def LEDGER_HALT : Nat := rkey 0x011 0x110
/-- LEDGER VARIANT_MIN: [1:0] lowest variant index allowed (R52). -/
def LEDGER_VARIANT_MIN : Nat := rkey 0x011 0x114
/-- LEDGER REFUSE_CODE: [15:0] last refusal reason, codes in Icrus Bundles and the Weigh-In (R52). -/
def LEDGER_REFUSE_CODE : Nat := rkey 0x011 0x118
/-- LEDGER SWITCH_MISSED: tally, R34 (R52). -/
def LEDGER_SWITCH_MISSED : Nat := rkey 0x011 0xE00
/-- LEDGER COLD_SWITCH: tally, R35 (R52). -/
def LEDGER_COLD_SWITCH : Nat := rkey 0x011 0xE04
/-- LEDGER STAGE_CUT: tally: staging run-ons stopped at the horizon, R42 (R52). -/
def LEDGER_STAGE_CUT : Nat := rkey 0x011 0xE08
/-- SHARED MEDIA_RATE_BUNDLE: [15:0] bundle rate (R52). -/
def SHARED_MEDIA_RATE_BUNDLE : Nat := rkey 0x012 0x100
/-- SHARED MEDIA_RATE: [15:0] host cap (R52). -/
def SHARED_MEDIA_RATE : Nat := rkey 0x012 0x104
/-- SHARED MEDIA_DEPTH: [15:0] depth (R52). -/
def SHARED_MEDIA_DEPTH : Nat := rkey 0x012 0x108
/-- SHARED HDMA_RATE_BUNDLE: [15:0] bundle rate (R52). -/
def SHARED_HDMA_RATE_BUNDLE : Nat := rkey 0x012 0x10C
/-- SHARED HDMA_RATE: [15:0] host cap (R52). -/
def SHARED_HDMA_RATE : Nat := rkey 0x012 0x110
/-- SHARED HDMA_DEPTH: [15:0] depth (R52). -/
def SHARED_HDMA_DEPTH : Nat := rkey 0x012 0x114
/-- SHARED TAU_RATE_BUNDLE: [15:0] bundle rate (R52). -/
def SHARED_TAU_RATE_BUNDLE : Nat := rkey 0x012 0x118
/-- SHARED TAU_RATE: [15:0] host cap, R47 (R52). -/
def SHARED_TAU_RATE : Nat := rkey 0x012 0x11C
/-- SHARED TAU_DEPTH: [15:0] depth (R52). -/
def SHARED_TAU_DEPTH : Nat := rkey 0x012 0x120
/-- SHARED RATE_CAP_IGNORED: tally, R47 (R52). -/
def SHARED_RATE_CAP_IGNORED : Nat := rkey 0x012 0xE00
/-- STALL CLUSTERS: [7:0] cluster mask (R53). -/
def STALL_CLUSTERS (s : Nat) : Nat := rkey (0x018 + s) 0x100
/-- STALL PITCH: [7:0] DRAM channel mask (R53). -/
def STALL_PITCH (s : Nat) : Nat := rkey (0x018 + s) 0x104
/-- STALL RESIDENT: [15:0] model ID; [31] 1 while resident (R53). -/
def STALL_RESIDENT (s : Nat) : Nat := rkey (0x018 + s) 0x108
/-- STALL STATE: [1:0] 0 unused, 1 running, 2 torn down; R45 (R53). -/
def STALL_STATE (s : Nat) : Nat := rkey (0x018 + s) 0x10C
/-- STALL DRAM_RATE_BUNDLE: [15:0] bundle rate (R53). -/
def STALL_DRAM_RATE_BUNDLE (s : Nat) : Nat := rkey (0x018 + s) 0x110
/-- STALL DRAM_RATE: [15:0] host cap, R47 (R53). -/
def STALL_DRAM_RATE (s : Nat) : Nat := rkey (0x018 + s) 0x114
/-- STALL DRAM_DEPTH: [15:0] depth in 64 B (R53). -/
def STALL_DRAM_DEPTH (s : Nat) : Nat := rkey (0x018 + s) 0x118
/-- STALL FAB_RATE_BUNDLE: [15:0] bundle rate (R53). -/
def STALL_FAB_RATE_BUNDLE (s : Nat) : Nat := rkey (0x018 + s) 0x11C
/-- STALL FAB_RATE: [15:0] host cap (R53). -/
def STALL_FAB_RATE (s : Nat) : Nat := rkey (0x018 + s) 0x120
/-- STALL FAB_DEPTH: [15:0] depth in 64 B (R53). -/
def STALL_FAB_DEPTH (s : Nat) : Nat := rkey (0x018 + s) 0x124
/-- STALL JOB_SUSPEND: [31:0] one bit per job, effective at the next boundary (R53). -/
def STALL_JOB_SUSPEND (s : Nat) : Nat := rkey (0x018 + s) 0x128
/-- STALL JOB_FAULTED: [31:0] one bit per job torn down (R53). -/
def STALL_JOB_FAULTED (s : Nat) : Nat := rkey (0x018 + s) 0x12C
/-- STALL JOB_READMIT: [31:0] one bit per job, R43 (R53). -/
def STALL_JOB_READMIT (s : Nat) : Nat := rkey (0x018 + s) 0x130
/-- STALL FAULT_LIMIT: [3:0] 1–15; 0 is treated as 1; lock bit 0 (R53). -/
def STALL_FAULT_LIMIT (s : Nat) : Nat := rkey (0x018 + s) 0x134
/-- STALL SEED: [31:0] stochastic rounding seed, used as in Number Formats and Arithmetic; lock bit 1 (R53). -/
def STALL_SEED (s : Nat) : Nat := rkey (0x018 + s) 0x138
/-- STALL FAULT_INFO: [4:0] job; [15:8] cause, R44; [31:16] tick number [15:0] (R53). -/
def STALL_FAULT_INFO (s : Nat) : Nat := rkey (0x018 + s) 0x13C
/-- STALL IDLE_SLOT: tally, R40 and R43 (R53). -/
def STALL_IDLE_SLOT (s : Nat) : Nat := rkey (0x018 + s) 0xE00
/-- STALL ALT_RUN: tally, R40 (R53). -/
def STALL_ALT_RUN (s : Nat) : Nat := rkey (0x018 + s) 0xE04
/-- STALL LATE_STOP: tally, R41 (R53). -/
def STALL_LATE_STOP (s : Nat) : Nat := rkey (0x018 + s) 0xE08
/-- STALL INTAKE_GAP: tally, R42 (R53). -/
def STALL_INTAKE_GAP (s : Nat) : Nat := rkey (0x018 + s) 0xE0C
/-- STALL JOB_FAULT: tally, R44 (R53). -/
def STALL_JOB_FAULT (s : Nat) : Nat := rkey (0x018 + s) 0xE10
/-- STALL RATE_CAP_IGNORED: tally, R47 (R53). -/
def STALL_RATE_CAP_IGNORED (s : Nat) : Nat := rkey (0x018 + s) 0xE14
/-- LOADER STAGE_BASE_LO: [31:12] staging address bits [31:12]; [11:0] reserved (R69). -/
def LOADER_STAGE_BASE_LO : Nat := rkey 0x002 0x100
/-- LOADER STAGE_BASE_HI: [4:0] staging address bits [36:32] (R69). -/
def LOADER_STAGE_BASE_HI : Nat := rkey 0x002 0x104
/-- LOADER STAGE_LEN: [31:0] bytes (R69). -/
def LOADER_STAGE_LEN : Nat := rkey 0x002 0x108
/-- LOADER CMD: [0] LOAD; [1] bank for LOAD, 0 A and 1 B; [4] DISCARD; [5] bank for DISCARD (R69). -/
def LOADER_CMD : Nat := rkey 0x002 0x10C
/-- LOADER STATUS: [2:0] PHASE of R60; [4] bank under load; [5] 1 while a load runs (R69). -/
def LOADER_STATUS : Nat := rkey 0x002 0x110
/-- LOADER REFUSE_SECT: [7:0] section index of the last refusal; 0xFF for none or header (R69). -/
def LOADER_REFUSE_SECT : Nat := rkey 0x002 0x114
/-- LOADER REFUSE_ITEM: [31:0] location within REFUSE_SECT. LEDGER section: [31:30] 0b00 an entry, with [18:16] variant and [12:0] ... (R69). -/
def LOADER_REFUSE_ITEM : Nat := rkey 0x002 0x118
/-- LOADER BUNDLE_ID_A: [31:0] BUNDLE_ID held by bank A (R69). -/
def LOADER_BUNDLE_ID_A : Nat := rkey 0x002 0x11C
/-- LOADER BUNDLE_ID_B: [31:0] BUNDLE_ID held by bank B (R69). -/
def LOADER_BUNDLE_ID_B : Nat := rkey 0x002 0x120
/-- LOADER KEY_USED: [1:0] KEY_SLOT of the last accepted bundle (R69). -/
def LOADER_KEY_USED : Nat := rkey 0x002 0x124
/-- LOADER LOAD_REFUSED: tally, R62 (R69). -/
def LOADER_LOAD_REFUSED : Nat := rkey 0x002 0xE00
/-- LOADER STAGE_WRITE_DROP: tally, R59 (R69). -/
def LOADER_STAGE_WRITE_DROP : Nat := rkey 0x002 0xE04
/-- MX MAP: [2:0] physical engine in the cluster; [10:8] logical engine; [16] 1 while logical engine 0 (R96). -/
def MX_MAP (e : Nat) : Nat := rkey (0x101 + 16 * (e / 8) + e % 8) 0x100
/-- MX PASS_W0: word 0 of the current or last pass control word, R79 (R96). -/
def MX_PASS_W0 (e : Nat) : Nat := rkey (0x101 + 16 * (e / 8) + e % 8) 0x104
/-- MX PASS_W1: word 1 of the current or last pass control word, R79 (R96). -/
def MX_PASS_W1 (e : Nat) : Nat := rkey (0x101 + 16 * (e / 8) + e % 8) 0x108
/-- MX CLAMP: [1:0] level now; [5:4] highest level since the last TALLY_CLR (R96). -/
def MX_CLAMP (e : Nat) : Nat := rkey (0x101 + 16 * (e / 8) + e % 8) 0x10C
/-- MX SERVICE: [0] 1 requests removal from service at the next switch, 0 requests rejoin; lock bit 0 (R96). -/
def MX_SERVICE (e : Nat) : Nat := rkey (0x101 + 16 * (e / 8) + e % 8) 0x110
/-- MX UE_ADDR: [1:0] store: 0 input buffer, 1 weight FIFO, 2 accumulator, 3 lane registers; [19:4] word index; [31] valid (R96). -/
def MX_UE_ADDR (e : Nat) : Nat := rkey (0x101 + 16 * (e / 8) + e % 8) 0x114
/-- MX CE_ADDR: fields as UE_ADDR, for the last corrected error (R96). -/
def MX_CE_ADDR (e : Nat) : Nat := rkey (0x101 + 16 * (e / 8) + e % 8) 0x118
/-- MX PASS_DONE: tally: passes whose last accumulator write completed (R96). -/
def MX_PASS_DONE (e : Nat) : Nat := rkey (0x101 + 16 * (e / 8) + e % 8) 0xE00
/-- MX PASS_ABANDONED: tally, R90 (R96). -/
def MX_PASS_ABANDONED (e : Nat) : Nat := rkey (0x101 + 16 * (e / 8) + e % 8) 0xE04
/-- MX FEED_BUBBLE: tally: bubbles issued because the feeder had no slot, R81 (R96). -/
def MX_FEED_BUBBLE (e : Nat) : Nat := rkey (0x101 + 16 * (e / 8) + e % 8) 0xE08
/-- MX SHADOW_WAIT: tally: bubbles issued waiting on the shadow set, R77 (R96). -/
def MX_SHADOW_WAIT (e : Nat) : Nat := rkey (0x101 + 16 * (e / 8) + e % 8) 0xE0C
/-- MX CLAMP_BUBBLE: tally, R87 (R96). -/
def MX_CLAMP_BUBBLE (e : Nat) : Nat := rkey (0x101 + 16 * (e / 8) + e % 8) 0xE10
/-- MX CLAMP_PASS: tally, R88 (R96). -/
def MX_CLAMP_PASS (e : Nat) : Nat := rkey (0x101 + 16 * (e / 8) + e % 8) 0xE14
/-- MX INT_SAT: tally, R94 (R96). -/
def MX_INT_SAT (e : Nat) : Nat := rkey (0x101 + 16 * (e / 8) + e % 8) 0xE18
/-- MX STORE_CE: tally, R93 (R96). -/
def MX_STORE_CE (e : Nat) : Nat := rkey (0x101 + 16 * (e / 8) + e % 8) 0xE1C
/-- MX STORE_UE: tally, R93 (R96). -/
def MX_STORE_UE (e : Nat) : Nat := rkey (0x101 + 16 * (e / 8) + e % 8) 0xE20
/-- MX WORD_REFUSED: tally: control words refused, R80 (R96). -/
def MX_WORD_REFUSED (e : Nat) : Nat := rkey (0x101 + 16 * (e / 8) + e % 8) 0xE24
/-- CLUSTER SEQ_STATE: [2:0] 0 idle, 1 issuing, 2 waiting for units or hazards, 3 waiting for a length register, 4 faulted; ... (R120). -/
def CLUSTER_SEQ_STATE (c : Nat) : Nat := rkey (0x100 + 16 * c) 0x100
/-- CLUSTER SEQ_PC: [31:0] offset of the last started instruction in the program part (R120). -/
def CLUSTER_SEQ_PC (c : Nat) : Nat := rkey (0x100 + 16 * c) 0x104
/-- CLUSTER LEN_SEL: [4:0] job; [11:8] length register (R120). -/
def CLUSTER_LEN_SEL (c : Nat) : Nat := rkey (0x100 + 16 * c) 0x108
/-- CLUSTER LEN_VAL: [31:0] value of the selected length register (R120). -/
def CLUSTER_LEN_VAL (c : Nat) : Nat := rkey (0x100 + 16 * c) 0x10C
/-- CLUSTER CLIP_INFO: [4:0] job; [11:8] register; [14:12] dimension: 0 M, 1 N, 2 K (MATMUL), 3 R, 4 C (vector engine), 5–7 never ... (R120). -/
def CLUSTER_CLIP_INFO (c : Nat) : Nat := rkey (0x100 + 16 * c) 0x110
/-- CLUSTER LEN_CLIPPED: tally, R108 (R120). -/
def CLUSTER_LEN_CLIPPED (c : Nat) : Nat := rkey (0x100 + 16 * c) 0xE00
/-- CLUSTER ZERO_SHAPE: tally, R109 (R120). -/
def CLUSTER_ZERO_SHAPE (c : Nat) : Nat := rkey (0x100 + 16 * c) 0xE04
/-- CLUSTER TILE_SKIP: tally, R110 (R120). -/
def CLUSTER_TILE_SKIP (c : Nat) : Nat := rkey (0x100 + 16 * c) 0xE08
/-- CLUSTER PRED_SKIP: tally: instructions with a false predicate, R113 (R120). -/
def CLUSTER_PRED_SKIP (c : Nat) : Nat := rkey (0x100 + 16 * c) 0xE0C
/-- CLUSTER INSTR_REFUSED: tally, R99 (R120). -/
def CLUSTER_INSTR_REFUSED (c : Nat) : Nat := rkey (0x100 + 16 * c) 0xE10
/-- CLUSTER DRAIN_WAIT: tally in ECLK, R106 (R120). -/
def CLUSTER_DRAIN_WAIT (c : Nat) : Nat := rkey (0x100 + 16 * c) 0xE14
/-- CLUSTER BIAS_SAT: tally, R106 (R120). -/
def CLUSTER_BIAS_SAT (c : Nat) : Nat := rkey (0x100 + 16 * c) 0xE18
/-- PXE LAST_INSTR: [31:0] offset of the last EXPAND or S2D started (R120). -/
def PXE_LAST_INSTR (c : Nat) : Nat := rkey (0x10A + 16 * c) 0x100
/-- PXE EXPAND_DONE: tally: EXPAND instructions completed (R120). -/
def PXE_EXPAND_DONE (c : Nat) : Nat := rkey (0x10A + 16 * c) 0xE00
/-- PXE S2D_DONE: tally: S2D instructions completed (R120). -/
def PXE_S2D_DONE (c : Nat) : Nat := rkey (0x10A + 16 * c) 0xE04
/-- WU LAST_INSTR: [31:0] offset of the last POOL started (R120). -/
def WU_LAST_INSTR (c : Nat) : Nat := rkey (0x10B + 16 * c) 0x100
/-- WU POOL_DONE: tally: POOL instructions completed (R120). -/
def WU_POOL_DONE (c : Nat) : Nat := rkey (0x10B + 16 * c) 0xE00
/-- WU NAN_OUT: tally, R118 and R119 (R120). -/
def WU_NAN_OUT (c : Nat) : Nat := rkey (0x10B + 16 * c) 0xE04
/-- WU SAT_OUT: tally, R119 (R120). -/
def WU_SAT_OUT (c : Nat) : Nat := rkey (0x10B + 16 * c) 0xE08
/-- VX LAST_INSTR: [31:0] offset of the last VX instruction started (R170). -/
def VX_LAST_INSTR (c : Nat) : Nat := rkey (0x109 + 16 * c) 0x100
/-- VX LFSR_SEL: [5:0] lane (R170). -/
def VX_LFSR_SEL (c : Nat) : Nat := rkey (0x109 + 16 * c) 0x104
/-- VX LFSR_VAL: [31:0] LFSR state of the selected lane (R170). -/
def VX_LFSR_VAL (c : Nat) : Nat := rkey (0x109 + 16 * c) 0x108
/-- VX CB_TAG_SEL: [2:0] physical engine; [5:4] 0 A table, 1 B table, 2 VX table (R170). -/
def VX_CB_TAG_SEL (c : Nat) : Nat := rkey (0x109 + 16 * c) 0x10C
/-- VX CB_TAG_VAL: [7:0] codebook; [8] SIZE; [10:9] EFMT; [31] valid (R170). -/
def VX_CB_TAG_VAL (c : Nat) : Nat := rkey (0x109 + 16 * c) 0x110
/-- VX CVT_SAT: tally, R137, R158 (R170). -/
def VX_CVT_SAT (c : Nat) : Nat := rkey (0x109 + 16 * c) 0xE00
/-- VX CVT_NAN_ZERO: tally, R137, R158, R164 (R170). -/
def VX_CVT_NAN_ZERO (c : Nat) : Nat := rkey (0x109 + 16 * c) 0xE04
/-- VX CVT_UNDERFLOW: tally, R137, R158 (R170). -/
def VX_CVT_UNDERFLOW (c : Nat) : Nat := rkey (0x109 + 16 * c) 0xE08
/-- VX NAN_OUT: tally, R169 (R170). -/
def VX_NAN_OUT (c : Nat) : Nat := rkey (0x109 + 16 * c) 0xE0C
/-- VX INT_SAT: tally, R153 (R170). -/
def VX_INT_SAT (c : Nat) : Nat := rkey (0x109 + 16 * c) 0xE10
/-- VX SCALE_ZERO: tally, R157 (R170). -/
def VX_SCALE_ZERO (c : Nat) : Nat := rkey (0x109 + 16 * c) 0xE14
/-- VX SCALE_INF: tally, R157 (R170). -/
def VX_SCALE_INF (c : Nat) : Nat := rkey (0x109 + 16 * c) 0xE18
/-- VX SELECT_CAP: tally, R165 (R170). -/
def VX_SELECT_CAP (c : Nat) : Nat := rkey (0x109 + 16 * c) 0xE1C
/-- VX CB_MISS: tally, R162 (R170). -/
def VX_CB_MISS (c : Nat) : Nat := rkey (0x109 + 16 * c) 0xE20
/-- INTAKE INDEX_TABLE_LO: [31:6] host address bits [31:6]; [5:0] reserved (R201). -/
def INTAKE_INDEX_TABLE_LO : Nat := rkey 0x200 0x100
/-- INTAKE INDEX_TABLE_HI: [31:0] host address bits [63:32] (R201). -/
def INTAKE_INDEX_TABLE_HI : Nat := rkey 0x200 0x104
/-- INTAKE READ_TABLE_LO: [31:6] host address bits [31:6]; [5:0] reserved (R201). -/
def INTAKE_READ_TABLE_LO : Nat := rkey 0x200 0x108
/-- INTAKE READ_TABLE_HI: [31:0] host address bits [63:32] (R201). -/
def INTAKE_READ_TABLE_HI : Nat := rkey 0x200 0x10C
/-- INTAKE STREAM_SEL: [7:0] stream (R201). -/
def INTAKE_STREAM_SEL : Nat := rkey 0x200 0x110
/-- INTAKE CTX_CTL: [0] ENABLE; [3:1] CONTAINER: 1 TS, 2 BMFF, 3 RTP via ring, 4 RTP via flow table, 5 elementary; [5:4] ... (R201). -/
def INTAKE_CTX_CTL (b : Nat) : Nat := bkey b 0x200 0x114
/-- INTAKE RING_BASE_LO: [31:12] host address bits [31:12] (R201). -/
def INTAKE_RING_BASE_LO (b : Nat) : Nat := bkey b 0x200 0x118
/-- INTAKE RING_BASE_HI: [31:0] host address bits [63:32] (R201). -/
def INTAKE_RING_BASE_HI (b : Nat) : Nat := bkey b 0x200 0x11C
/-- INTAKE RING_SIZE: [4:0] log2 bytes, 12–24 (R201). -/
def INTAKE_RING_SIZE (b : Nat) : Nat := bkey b 0x200 0x120
/-- INTAKE CTX_STATE: [2:0] state, R189; [3] ENABLE in effect; [11:8] last outcome, R193; [31:16] its tick number [15:0] (R201). -/
def INTAKE_CTX_STATE (b : Nat) : Nat := bkey b 0x200 0x124
/-- INTAKE READ_IDX: [31:0] read index D (R201). -/
def INTAKE_READ_IDX (b : Nat) : Nat := bkey b 0x200 0x128
/-- INTAKE PARAM_SIZE: [15:0] coded width; [31:16] coded height (R201). -/
def INTAKE_PARAM_SIZE (b : Nat) : Nat := bkey b 0x200 0x12C
/-- INTAKE PARAM_FMT: [3:0] bit depth; [4] monochrome; [12:8] DPB pictures required (R201). -/
def INTAKE_PARAM_FMT (b : Nat) : Nat := bkey b 0x200 0x130
/-- INTAKE INDEX_LATE: tally, R173 (R201). -/
def INTAKE_INDEX_LATE : Nat := rkey 0x200 0xE00
/-- INTAKE RING_BAD: tally, R174 (R201). -/
def INTAKE_RING_BAD : Nat := rkey 0x200 0xE04
/-- INTAKE INTAKE_OVER: tally, R177 (R201). -/
def INTAKE_INTAKE_OVER : Nat := rkey 0x200 0xE08
/-- INTAKE INTAKE_LATE: tally, R179 (R201). -/
def INTAKE_INTAKE_LATE : Nat := rkey 0x200 0xE0C
/-- INTAKE CFG_REFUSED: tally, R201 (R201). -/
def INTAKE_CFG_REFUSED : Nat := rkey 0x200 0xE10
/-- INTAKE S_AU_TAKEN: tally of the selected stream: access units taken in (R201). -/
def INTAKE_S_AU_TAKEN (b : Nat) : Nat := bkey b 0x200 0xE40
/-- INTAKE S_DECODED: tally of the selected stream: outcome DECODED (R201). -/
def INTAKE_S_DECODED (b : Nat) : Nat := bkey b 0x200 0xE44
/-- INTAKE S_CONCEALED: tally of the selected stream: outcomes 0x1–0x7 (R201). -/
def INTAKE_S_CONCEALED (b : Nat) : Nat := bkey b 0x200 0xE48
/-- INTAKE S_SUBSTITUTED: tally of the selected stream: outcomes 0x8–0x9 (R201). -/
def INTAKE_S_SUBSTITUTED (b : Nat) : Nat := bkey b 0x200 0xE4C
/-- INTAKE S_REF_CONCEALED: tally of the selected stream: pictures passed on with REF_CONCEALED (R201). -/
def INTAKE_S_REF_CONCEALED (b : Nat) : Nat := bkey b 0x200 0xE50
/-- FLOW FLOW_SEL: [7:0] entry; a write loads the staging set (R202). -/
def FLOW_FLOW_SEL : Nat := rkey 0x201 0x100
/-- FLOW FLOW_CTL: [0] VALID; [1] EP0; [2] EP1; [3] IPV6; [4] SRC_ANY; [5] SSRC_EN; [15:8] STREAM; [22:16] payload type (R202). -/
def FLOW_FLOW_CTL (b : Nat) : Nat := bkey b 0x201 0x104
/-- FLOW FLOW_DPORT: [15:0] UDP destination port (R202). -/
def FLOW_FLOW_DPORT (b : Nat) : Nat := bkey b 0x201 0x108
/-- FLOW FLOW_SRC0: source address; IPv4 in FLOW_SRC0 (R202). -/
def FLOW_FLOW_SRC0 (b : Nat) : Nat := bkey b 0x201 0x10C
/-- FLOW FLOW_SRC1: source address; IPv4 in FLOW_SRC0 (R202). -/
def FLOW_FLOW_SRC1 (b : Nat) : Nat := bkey b 0x201 0x110
/-- FLOW FLOW_SRC2: source address; IPv4 in FLOW_SRC0 (R202). -/
def FLOW_FLOW_SRC2 (b : Nat) : Nat := bkey b 0x201 0x114
/-- FLOW FLOW_SRC3: source address; IPv4 in FLOW_SRC0 (R202). -/
def FLOW_FLOW_SRC3 (b : Nat) : Nat := bkey b 0x201 0x118
/-- FLOW FLOW_SSRC: [31:0] SSRC (R202). -/
def FLOW_FLOW_SSRC (b : Nat) : Nat := bkey b 0x201 0x11C
/-- FLOW FLOW_COMMIT: [0] commit, R187 (R202). -/
def FLOW_FLOW_COMMIT : Nat := rkey 0x201 0x120
/-- FLOW NEWSRC_POP: [15:0] destination port; [28] IPv6; [30:29] port, 1 EP0, 2 EP1; [31] valid (R202). -/
def FLOW_NEWSRC_POP : Nat := rkey 0x201 0x124
/-- FLOW NEWSRC_ADDR0: source address of the popped record (R202). -/
def FLOW_NEWSRC_ADDR0 : Nat := rkey 0x201 0x128
/-- FLOW NEWSRC_ADDR1: source address of the popped record (R202). -/
def FLOW_NEWSRC_ADDR1 : Nat := rkey 0x201 0x12C
/-- FLOW NEWSRC_ADDR2: source address of the popped record (R202). -/
def FLOW_NEWSRC_ADDR2 : Nat := rkey 0x201 0x130
/-- FLOW NEWSRC_ADDR3: source address of the popped record (R202). -/
def FLOW_NEWSRC_ADDR3 : Nat := rkey 0x201 0x134
/-- FLOW FLOW_MISS: tally, R185 (R202). -/
def FLOW_FLOW_MISS : Nat := rkey 0x201 0xE00
/-- FLOW NEW_SOURCE: tally, R186 (R202). -/
def FLOW_NEW_SOURCE : Nat := rkey 0x201 0xE04
/-- FLOW NEWSRC_LOST: tally, R186 (R202). -/
def FLOW_NEWSRC_LOST : Nat := rkey 0x201 0xE08
/-- FLOW RTP_LOSS: tally, R184 (R202). -/
def FLOW_RTP_LOSS : Nat := rkey 0x201 0xE0C
/-- FLOW RTP_LATE: tally, R184 (R202). -/
def FLOW_RTP_LATE : Nat := rkey 0x201 0xE10
/-- FLOW RTP_OVER: tally, R180 (R202). -/
def FLOW_RTP_OVER : Nat := rkey 0x201 0xE14
/-- FLOW RTP_BAD: tally, R183, R185 (R202). -/
def FLOW_RTP_BAD : Nat := rkey 0x201 0xE18
/-- FLOW FLOW_HIT: tally: packets delivered by the selected entry (R202). -/
def FLOW_FLOW_HIT (b : Nat) : Nat := bkey b 0x201 0xE40
/-- DEMUX REC_BAD: tally, R175 (R203). -/
def DEMUX_REC_BAD : Nat := rkey 0x202 0xE00
/-- DEMUX REC_OVER: tally, R177 (R203). -/
def DEMUX_REC_OVER : Nat := rkey 0x202 0xE04
/-- DEMUX AU_PARTIAL: tally, R182 (R203). -/
def DEMUX_AU_PARTIAL : Nat := rkey 0x202 0xE08
/-- DEMUX AU_DAMAGED: tally, R193 (R203). -/
def DEMUX_AU_DAMAGED : Nat := rkey 0x202 0xE0C
/-- DEMUX TS_CC_ERR: tally, R183 (R203). -/
def DEMUX_TS_CC_ERR : Nat := rkey 0x202 0xE10
/-- DEMUX TS_SCRAMBLED: tally, R183 (R203). -/
def DEMUX_TS_SCRAMBLED : Nat := rkey 0x202 0xE14
/-- DEMUX BMFF_BAD: tally, R183 (R203). -/
def DEMUX_BMFF_BAD : Nat := rkey 0x202 0xE18
/-- DEMUX EXTENT_OVER: tally, R182 (R203). -/
def DEMUX_EXTENT_OVER : Nat := rkey 0x202 0xE1C
/-- DEMUX NO_SYNC: tally, R193 (R203). -/
def DEMUX_NO_SYNC : Nat := rkey 0x202 0xE20
/-- DEMUX FRAME_OVER: tally, R191 (R203). -/
def DEMUX_FRAME_OVER : Nat := rkey 0x202 0xE24
/-- VD CURRENT: [7:0] stream; [8] valid; [31:16] slot list record index (R203). -/
def VD_CURRENT (k : Nat) : Nat := rkey (0x208 + k) 0x100
/-- VD BUDGET_LEFT: [27:0] VCLK left in the current frame's budget (R203). -/
def VD_BUDGET_LEFT (k : Nat) : Nat := rkey (0x208 + k) 0x104
/-- VD LAST: [7:0] stream; [11:8] outcome; [31:16] tick number [15:0] (R203). -/
def VD_LAST (k : Nat) : Nat := rkey (0x208 + k) 0x108
/-- VD FRAME_DONE: tally, R193 (R203). -/
def VD_FRAME_DONE (k : Nat) : Nat := rkey (0x208 + k) 0xE00
/-- VD ABANDON_BUDGET: tally, R193 (R203). -/
def VD_ABANDON_BUDGET (k : Nat) : Nat := rkey (0x208 + k) 0xE04
/-- VD ABANDON_SYNTAX: tally, R193 (R203). -/
def VD_ABANDON_SYNTAX (k : Nat) : Nat := rkey (0x208 + k) 0xE08
/-- VD ABANDON_BOUNDS: tally, R198 (R203). -/
def VD_ABANDON_BOUNDS (k : Nat) : Nat := rkey (0x208 + k) 0xE0C
/-- VD ABANDON_MEMORY: tally, R199 (R203). -/
def VD_ABANDON_MEMORY (k : Nat) : Nat := rkey (0x208 + k) 0xE10
/-- VD POOL_EMPTY: tally, R193 (R203). -/
def VD_POOL_EMPTY (k : Nat) : Nat := rkey (0x208 + k) 0xE14
/-- VD HOLD_SKIP: tally, R189 (R203). -/
def VD_HOLD_SKIP (k : Nat) : Nat := rkey (0x208 + k) 0xE18
/-- VD GREY_REF: tally, R195 (R203). -/
def VD_GREY_REF (k : Nat) : Nat := rkey (0x208 + k) 0xE1C
/-- PP CURRENT: [7:0] stream; [8] valid; [31:16] slot-list record index (R227). -/
def PP_CURRENT (u : Nat) : Nat := rkey (0x210 + u) 0x100
/-- PP BUDGET_LEFT: [27:0] VCLK left in the current slot (R227). -/
def PP_BUDGET_LEFT (u : Nat) : Nat := rkey (0x210 + u) 0x104
/-- PP LAST: [7:0] stream; [10:8] SOURCE; [15:12] REASON; [31:16] tick number [15:0] (R227). -/
def PP_LAST (u : Nat) : Nat := rkey (0x210 + u) 0x108
/-- PP SAMPLE_DONE: tally, R213 (R227). -/
def PP_SAMPLE_DONE (u : Nat) : Nat := rkey (0x210 + u) 0xE00
/-- PP SUBST_KEPT: tally, R213 (R227). -/
def PP_SUBST_KEPT (u : Nat) : Nat := rkey (0x210 + u) 0xE04
/-- PP SUBST_FILL: tally, R213 (R227). -/
def PP_SUBST_FILL (u : Nat) : Nat := rkey (0x210 + u) 0xE08
/-- PP IDLE_SLOT: tally, R213 (R227). -/
def PP_IDLE_SLOT (u : Nat) : Nat := rkey (0x210 + u) 0xE0C
/-- PP PP_ODD: tally, R213 (R227). -/
def PP_PP_ODD (u : Nat) : Nat := rkey (0x210 + u) 0xE10
/-- PP PP_SAT: tally, R211 (R227). -/
def PP_PP_SAT (u : Nat) : Nat := rkey (0x210 + u) 0xE14
/-- PP PP_ABANDON: tally, R212 (R227). -/
def PP_PP_ABANDON (u : Nat) : Nat := rkey (0x210 + u) 0xE18
/-- CSI PHY_CFG: [2:0] data lanes: 1, 2 or 4; [8] non-continuous clock (R228). -/
def CSI_PHY_CFG (p : Nat) : Nat := rkey (0x218 + p) 0x100
/-- CSI STAMP_ADJ: [15:0] ns subtracted under R219 (R228). -/
def CSI_STAMP_ADJ (p : Nat) : Nat := rkey (0x218 + p) 0x104
/-- CSI LINK: [0] clock lane in HS; [4:1] data lanes in stop state; [8] link up (R228). -/
def CSI_LINK (p : Nat) : Nat := rkey (0x218 + p) 0x108
/-- CSI ECC_CORR: tally, R216 (R228). -/
def CSI_ECC_CORR (p : Nat) : Nat := rkey (0x218 + p) 0xE00
/-- CSI HDR_UE: tally: uncorrectable headers, R218 (R228). -/
def CSI_HDR_UE (p : Nat) : Nat := rkey (0x218 + p) 0xE04
/-- CSI CRC_ERR: tally: payload CRC errors, R218 (R228). -/
def CSI_CRC_ERR (p : Nat) : Nat := rkey (0x218 + p) 0xE08
/-- CSI FRAME_BAD: tally, R218 (R228). -/
def CSI_FRAME_BAD (p : Nat) : Nat := rkey (0x218 + p) 0xE0C
/-- CSI FRAME_CUT: tally, R218 (R228). -/
def CSI_FRAME_CUT (p : Nat) : Nat := rkey (0x218 + p) 0xE10
/-- CSI NO_INPUT: tally, R217 (R228). -/
def CSI_NO_INPUT (p : Nat) : Nat := rkey (0x218 + p) 0xE14
/-- CSI DT_DROP: tally, R216 (R228). -/
def CSI_DT_DROP (p : Nat) : Nat := rkey (0x218 + p) 0xE18
/-- CSI CSI_POOL_EMPTY: tally, R218 (R228). -/
def CSI_CSI_POOL_EMPTY (p : Nat) : Nat := rkey (0x218 + p) 0xE1C
/-- ALIGN IN_SEL: [3:0] input (R229). -/
def ALIGN_IN_SEL : Nat := rkey 0x21C 0x100
/-- ALIGN IN_CTL: [0] VALID; [2:1] port; [4:3] virtual channel; [10:5] data type; [23:16] stream; [29:24] pool (R229). -/
def ALIGN_IN_CTL (b : Nat) : Nat := bkey b 0x21C 0x104
/-- ALIGN IN_SIZE: [15:0] WIDTH; [31:16] LINES (R229). -/
def ALIGN_IN_SIZE (b : Nat) : Nat := bkey b 0x21C 0x108
/-- ALIGN IN_GROUP: [3:0] group, 8–15 none; [4] anchor (R229). -/
def ALIGN_IN_GROUP (b : Nat) : Nat := bkey b 0x21C 0x10C
/-- ALIGN IN_LAST: [31:0] stamp of the last selected frame (R229). -/
def ALIGN_IN_LAST (b : Nat) : Nat := bkey b 0x21C 0x110
/-- ALIGN GRP_SEL: [2:0] group (R229). -/
def ALIGN_GRP_SEL : Nat := rkey 0x21C 0x140
/-- ALIGN GRP_WINDOW: [15:0] window in µs (R229). -/
def ALIGN_GRP_WINDOW (b : Nat) : Nat := bkey b 0x21C 0x144
/-- ALIGN ALIGN_MISS: tally, R220 (R229). -/
def ALIGN_ALIGN_MISS : Nat := rkey 0x21C 0xE00
/-- ALIGN ALIGN_DROP: tally, R220 (R229). -/
def ALIGN_ALIGN_DROP : Nat := rkey 0x21C 0xE04
/-- PROXY RECORDS: [15:0] records, R223 (R229). -/
def PROXY_RECORDS : Nat := rkey 0x21D 0x100
/-- PROXY FRAMES: [19:0] frames per record (R229). -/
def PROXY_FRAMES : Nat := rkey 0x21D 0x104
/-- PROXY GEN: [15:0] generation, R225 (R229). -/
def PROXY_GEN : Nat := rkey 0x21D 0x108
/-- PROXY ENTRY: [31:0] entry bytes, from the active bundle (R229). -/
def PROXY_ENTRY : Nat := rkey 0x21D 0x10C
/-- PROXY REGION_SIZE: [31:0] bytes of the KIND 8 region (R229). -/
def PROXY_REGION_SIZE : Nat := rkey 0x21D 0x110
/-- PROXY STREAM_SEL: [7:0] stream (R229). -/
def PROXY_STREAM_SEL : Nat := rkey 0x21D 0x140
/-- PROXY PASS: [1:0] pass mode, R222; effective at the Latch step (R229). -/
def PROXY_PASS (b : Nat) : Nat := bkey b 0x21D 0x144
/-- PROXY PROXY_WRITE: tally, R224 (R229). -/
def PROXY_PROXY_WRITE : Nat := rkey 0x21D 0xE00
/-- PROXY PROXY_HIT: tally, R225 (R229). -/
def PROXY_PROXY_HIT : Nat := rkey 0x21D 0xE04
/-- PROXY PROXY_MISS: tally, R213 (R229). -/
def PROXY_PROXY_MISS : Nat := rkey 0x21D 0xE08
/-- PROXY PROXY_BEYOND: tally, R223 (R229). -/
def PROXY_PROXY_BEYOND : Nat := rkey 0x21D 0xE0C
/-- PROXY CFG_REFUSED: tally, R223 (R229). -/
def PROXY_CFG_REFUSED : Nat := rkey 0x21D 0xE10
/-- TAU NEXT_LOCAL: [21:0] next local track number, R238; lock bit 0 (R255). -/
def TAU_NEXT_LOCAL : Nat := rkey 0x220 0x100
/-- TAU FLUSH: [7:0] stream; [31] valid; R237 (R255). -/
def TAU_FLUSH : Nat := rkey 0x220 0x104
/-- TAU CURRENT: [7:0] stream; [11:8] frame index; [12] busy (R255). -/
def TAU_CURRENT : Nat := rkey 0x220 0x108
/-- TAU LIVE: [15:0] live tracks over all streams after the last entry (R255). -/
def TAU_LIVE : Nat := rkey 0x220 0x10C
/-- TAU DET_BAD: tally, R233 (R255). -/
def TAU_DET_BAD : Nat := rkey 0x220 0xE00
/-- TAU DET_ORPHAN: tally, R233 (R255). -/
def TAU_DET_ORPHAN : Nat := rkey 0x220 0xE04
/-- TAU DET_OVER: tally, R233 (R255). -/
def TAU_DET_OVER : Nat := rkey 0x220 0xE08
/-- TAU SRC_CLIP: tally, R233 (R255). -/
def TAU_SRC_CLIP : Nat := rkey 0x220 0xE0C
/-- TAU TRK_BIRTH: tally: births, R236 (R255). -/
def TAU_TRK_BIRTH : Nat := rkey 0x220 0xE10
/-- TAU TRK_END: tally: tracks ended, R237 (R255). -/
def TAU_TRK_END : Nat := rkey 0x220 0xE14
/-- TAU NO_FREE: tally, R236 (R255). -/
def TAU_NO_FREE : Nat := rkey 0x220 0xE18
/-- TAU TRK_BAD: tally, R235 (R255). -/
def TAU_TRK_BAD : Nat := rkey 0x220 0xE1C
/-- TAU ASSOC_CUT: tally, R241 (R255). -/
def TAU_ASSOC_CUT : Nat := rkey 0x220 0xE20
/-- SHEET RING_BASE_LO: [31:12] host address bits [31:12] (R256). -/
def SHEET_RING_BASE_LO : Nat := rkey 0x221 0x100
/-- SHEET RING_BASE_HI: [31:0] host address bits [63:32] (R256). -/
def SHEET_RING_BASE_HI : Nat := rkey 0x221 0x104
/-- SHEET RING_CFG: [3:0] SLOTS_LOG2, 5–10; [12:8] SLOT_SHIFT, 16–24; reset value: 32 slots of 64 KiB (R256). -/
def SHEET_RING_CFG : Nat := rkey 0x221 0x108
/-- SHEET SEQ: [31:0] SEQ of the next sheet to be delivered (R256). -/
def SHEET_SEQ : Nat := rkey 0x221 0x10C
/-- SHEET HELD: [4:0] sheets in the holdback (R256). -/
def SHEET_HELD : Nat := rkey 0x221 0x110
/-- SHEET SHEET_DONE: tally: sheets delivered whole (R256). -/
def SHEET_SHEET_DONE : Nat := rkey 0x221 0xE00
/-- SHEET SHEET_HELD: tally: sheets placed in the holdback, R253 (R256). -/
def SHEET_SHEET_HELD : Nat := rkey 0x221 0xE04
/-- SHEET HOLDBACK_DROP: tally, R253 (R256). -/
def SHEET_HOLDBACK_DROP : Nat := rkey 0x221 0xE08
/-- SHEET SHEET_TRUNC: tally, R252 (R256). -/
def SHEET_SHEET_TRUNC : Nat := rkey 0x221 0xE0C
/-- EVIDENCE SESS_SEL: [3:0] session (R272). -/
def EVIDENCE_SESS_SEL : Nat := rkey 0x204 0x100
/-- EVIDENCE SESS_CTL: [0] ACTIVE; [2:1] KIND of R257; [15:8] STREAM; [31:16] PICS, 0 continuous (R272). -/
def EVIDENCE_SESS_CTL (b : Nat) : Nat := bkey b 0x204 0x104
/-- EVIDENCE SESS_QUAL: [5:0] QI, 0–51; [14:8] JQ, 1–100; [18:16] DQ_STEP, 1–6; reset: QI 30, JQ 75, DQ_STEP 1; a commit with any ... (R272). -/
def EVIDENCE_SESS_QUAL (b : Nat) : Nat := bkey b 0x204 0x108
/-- EVIDENCE SESS_CAP: [31:0] CAP bits (R272). -/
def EVIDENCE_SESS_CAP (b : Nat) : Nat := bkey b 0x204 0x10C
/-- EVIDENCE SESS_GIR: [6:0] WIN, 1–64; [7] reserved; [16:8] N, 8–256; reset: WIN 60, N 15 (R272). -/
def EVIDENCE_SESS_GIR (b : Nat) : Nat := bkey b 0x204 0x110
/-- EVIDENCE SESS_CROP_XY: [15:0] X; [31:16] Y (R272). -/
def EVIDENCE_SESS_CROP_XY (b : Nat) : Nat := bkey b 0x204 0x114
/-- EVIDENCE SESS_CROP_WH: [15:0] W; [31:16] H (R272). -/
def EVIDENCE_SESS_CROP_WH (b : Nat) : Nat := bkey b 0x204 0x118
/-- EVIDENCE SESS_RING_LO: [31:12] host address bits [31:12] (R272). -/
def EVIDENCE_SESS_RING_LO (b : Nat) : Nat := bkey b 0x204 0x11C
/-- EVIDENCE SESS_RING_HI: [31:0] host address bits [63:32] (R272). -/
def EVIDENCE_SESS_RING_HI (b : Nat) : Nat := bkey b 0x204 0x120
/-- EVIDENCE SESS_RING_LOG2: [4:0] 16–26 (R272). -/
def EVIDENCE_SESS_RING_LOG2 (b : Nat) : Nat := bkey b 0x204 0x124
/-- EVIDENCE SESS_COMMIT: [0] commit, R258 (R272). -/
def EVIDENCE_SESS_COMMIT (b : Nat) : Nat := bkey b 0x204 0x128
/-- EVIDENCE SESS_STATE: [2:0] 0 idle, 1 pending, 2 running, 3 held by containment, 4 refused; [7:4] refusal reason of R259 (R272). -/
def EVIDENCE_SESS_STATE (b : Nat) : Nat := bkey b 0x204 0x12C
/-- EVIDENCE STATUS_BASE_LO: [31:6] host address bits [31:6] (R272). -/
def EVIDENCE_STATUS_BASE_LO : Nat := rkey 0x204 0x130
/-- EVIDENCE STATUS_BASE_HI: [31:0] host address bits [63:32] (R272). -/
def EVIDENCE_STATUS_BASE_HI : Nat := rkey 0x204 0x134
/-- EVIDENCE REQ_REFUSED: tally, R259 (R272). -/
def EVIDENCE_REQ_REFUSED : Nat := rkey 0x204 0xE00
/-- EVIDENCE NO_SOURCE: tally, R259 (R272). -/
def EVIDENCE_NO_SOURCE : Nat := rkey 0x204 0xE04
/-- EVIDENCE CAP_OVER: tally, R266 (R272). -/
def EVIDENCE_CAP_OVER : Nat := rkey 0x204 0xE08
/-- EVIDENCE STAGE_FULL: tally, R269 (R272). -/
def EVIDENCE_STAGE_FULL : Nat := rkey 0x204 0xE0C
/-- VE CURRENT: [3:0] session; [8] valid; [31:16] slot-list record index (R273). -/
def VE_CURRENT (v : Nat) : Nat := rkey (0x206 + v) 0x100
/-- VE BUDGET_LEFT: [27:0] VCLK left in the current picture's budget (R273). -/
def VE_BUDGET_LEFT (v : Nat) : Nat := rkey (0x206 + v) 0x104
/-- VE LAST: [3:0] session; [15:4] FLAGS [11:0]; [31:16] tick number [15:0] (R273). -/
def VE_LAST (v : Nat) : Nat := rkey (0x206 + v) 0x108
/-- VE PIC_DONE: tally: pictures and snapshots written (R273). -/
def VE_PIC_DONE (v : Nat) : Nat := rkey (0x206 + v) 0xE00
/-- VE ENC_ABANDON: tally, R262 (R273). -/
def VE_ENC_ABANDON (v : Nat) : Nat := rkey (0x206 + v) 0xE04
/-- VE POOL_EMPTY: tally, R265 (R273). -/
def VE_POOL_EMPTY (v : Nat) : Nat := rkey (0x206 + v) 0xE08
/-- VE CAP_SKIP: tally: pictures with CAP_SKIP, R266 (R273). -/
def VE_CAP_SKIP (v : Nat) : Nat := rkey (0x206 + v) 0xE0C
/-- BPM POOL_SEL: [5:0] pool (R291). -/
def BPM_POOL_SEL : Nat := rkey 0x318 0x100
/-- BPM POOL_CFG: [12:0] COUNT; [18:16] BP_MASK; [31] valid (R291). -/
def BPM_POOL_CFG : Nat := rkey 0x318 0x104
/-- BPM POOL_BASE_LO: [31:0] region base bits [31:0] (R291). -/
def BPM_POOL_BASE_LO : Nat := rkey 0x318 0x108
/-- BPM POOL_BASE_HI: [4:0] base bits [36:32]; [9:8] STORE, coded as in R57: 0 DRAM, 1 common store, 2 cluster scratchpad; ... (R291). -/
def BPM_POOL_BASE_HI : Nat := rkey 0x318 0x10C
/-- BPM POOL_BUF_SIZE: [31:0] BUF_SIZE (R291). -/
def BPM_POOL_BUF_SIZE : Nat := rkey 0x318 0x110
/-- BPM POOL_LEVELS: [12:0] WARN_LEVEL; [28:16] BP_LEVEL (R291). -/
def BPM_POOL_LEVELS : Nat := rkey 0x318 0x114
/-- BPM POOL_FREE: [12:0] FREE_CNT; [28:16] lowest FREE_CNT since the last TALLY_CLR (R291). -/
def BPM_POOL_FREE : Nat := rkey 0x318 0x118
/-- BPM BUF_SEL: [11:0] buffer (R291). -/
def BPM_BUF_SEL : Nat := rkey 0x318 0x11C
/-- BPM BUF_INFO: [15:0] owner slots 0–3, 4 bits each, slot 0 in [3:0]; [18:16] slots held; [31] allocated (R291). -/
def BPM_BUF_INFO : Nat := rkey 0x318 0x120
/-- BPM WARN_MAP_LO: pools 0–31, R289 (R291). -/
def BPM_WARN_MAP_LO : Nat := rkey 0x318 0x124
/-- BPM WARN_MAP_HI: pools 32–63 (R291). -/
def BPM_WARN_MAP_HI : Nat := rkey 0x318 0x128
/-- BPM BP_MAP_LO: pools 0–31, R289 (R291). -/
def BPM_BP_MAP_LO : Nat := rkey 0x318 0x12C
/-- BPM BP_MAP_HI: pools 32–63 (R291). -/
def BPM_BP_MAP_HI : Nat := rkey 0x318 0x130
/-- BPM REFUSE_INFO: [2:0] reason, R288; [12:8] requester, R285; [13] 1 for an allocation, R288; [31:16] tick number [15:0] (R291). -/
def BPM_REFUSE_INFO : Nat := rkey 0x318 0x134
/-- BPM REFUSE_ADDR_LO: [31:0] address bits [31:0] (R291). -/
def BPM_REFUSE_ADDR_LO : Nat := rkey 0x318 0x138
/-- BPM REFUSE_ADDR_HI: [4:0] address bits [36:32] (R291). -/
def BPM_REFUSE_ADDR_HI : Nat := rkey 0x318 0x13C
/-- BPM ALLOC_DONE: tally: buffers allocated (R291). -/
def BPM_ALLOC_DONE : Nat := rkey 0x318 0xE00
/-- BPM ALLOC_EMPTY: tally, R284 (R291). -/
def BPM_ALLOC_EMPTY : Nat := rkey 0x318 0xE04
/-- BPM BP_REFUSED: tally, R284 (R291). -/
def BPM_BP_REFUSED : Nat := rkey 0x318 0xE08
/-- BPM PTR_REFUSED: tally, R288 (R291). -/
def BPM_PTR_REFUSED : Nat := rkey 0x318 0xE0C
/-- BPM OWNER_FULL: tally, R288 (R291). -/
def BPM_OWNER_FULL : Nat := rkey 0x318 0xE10
/-- BPM WARN_CROSS: tally, R289 (R291). -/
def BPM_WARN_CROSS : Nat := rkey 0x318 0xE14
/-- BPM P_ALLOC_EMPTY: tally of the selected pool: allocations answered EMPTY (R291). -/
def BPM_P_ALLOC_EMPTY (b : Nat) : Nat := bkey b 0x318 0xE40
/-- STORE CLEAR_STATE: [0] clear running; [1] cleared since the last wake from off, or since power-on for the video store, as ... (R292). -/
def STORE_CLEAR_STATE (p : Nat) : Nat := rkey (p) 0x100
/-- STORE CE_ADDR: [25:3] address of the 64-bit word; [31] valid (R292). -/
def STORE_CE_ADDR (p : Nat) : Nat := rkey (p) 0x104
/-- STORE UE_ADDR: fields as CE_ADDR, for the last uncorrectable word (R292). -/
def STORE_UE_ADDR (p : Nat) : Nat := rkey (p) 0x108
/-- STORE CE: tally, R279 (R292). -/
def STORE_CE (p : Nat) : Nat := rkey (p) 0xE00
/-- STORE UE: tally, R279 (R292). -/
def STORE_UE (p : Nat) : Nat := rkey (p) 0xE04
/-- STORE HELD: tally, R280 (R292). -/
def STORE_HELD (p : Nat) : Nat := rkey (p) 0xE08
/-- STORE OFF_ACCESS: tally, R280 (R292). -/
def STORE_OFF_ACCESS (p : Nat) : Nat := rkey (p) 0xE0C
/-- STORE RANGE_ERR: tally, R275 (R292). -/
def STORE_RANGE_ERR (p : Nat) : Nat := rkey (p) 0xE10
/-- DC CFG: [0] populated; [2:1] rate: 0 4800, 1 5600, 2 6400, 3 reserved; [3] 0 x8, 1 x16; [5:4] density: 1 16 Gb, 2 ... (R307). -/
def DC_CFG (n : Nat) : Nat := rkey (0x300 + n) 0x100
/-- DC STATE: [1:0] 0 OFF, 1 IN_SERVICE, 2 FROZEN, 3 RETRAINING, any training run in progress; [2] TRAIN_FAIL; [7:4] ... (R307). -/
def DC_STATE (n : Nat) : Nat := rkey (0x300 + n) 0x104
/-- DC RELEASE: [0] release, R306 (R307). -/
def DC_RELEASE (n : Nat) : Nat := rkey (0x300 + n) 0x108
/-- DC LANE_SEL: [3:0] byte lane 0–4; [4] subchannel; [5] rank (R307). -/
def DC_LANE_SEL (n : Nat) : Nat := rkey (0x300 + n) 0x10C
/-- DC LANE_VAL: [6:0] read tap; [14:8] write tap; [22:16] eye width in taps; [30:24] VrefDQ code (R307). -/
def DC_LANE_VAL (n : Nat) (b : Nat) : Nat := bkey b (0x300 + n) 0x110
/-- DC FRZ_CAUSE: [1:0] 1 read uncorrectable, 2 scrub uncorrectable, 3 CA parity; [31:16] tick number [15:0] (R307). -/
def DC_FRZ_CAUSE (n : Nat) : Nat := rkey (0x300 + n) 0x114
/-- DC FRZ_ADDR_LO: [31:0] channel offset bits [31:0] (R307). -/
def DC_FRZ_ADDR_LO (n : Nat) : Nat := rkey (0x300 + n) 0x118
/-- DC FRZ_ADDR_HI: [1:0] offset bits [33:32]; [4] subchannel; [5] rank; [10:8] bank group; [13:12] bank; [30:14] row (R307). -/
def DC_FRZ_ADDR_HI (n : Nat) : Nat := rkey (0x300 + n) 0x11C
/-- DC FRZ_SYN0: 16 syndrome bytes, little-endian (R307). -/
def DC_FRZ_SYN0 (n : Nat) : Nat := rkey (0x300 + n) 0x120
/-- DC FRZ_SYN1: 16 syndrome bytes, little-endian (R307). -/
def DC_FRZ_SYN1 (n : Nat) : Nat := rkey (0x300 + n) 0x124
/-- DC FRZ_SYN2: 16 syndrome bytes, little-endian (R307). -/
def DC_FRZ_SYN2 (n : Nat) : Nat := rkey (0x300 + n) 0x128
/-- DC FRZ_SYN3: 16 syndrome bytes, little-endian (R307). -/
def DC_FRZ_SYN3 (n : Nat) : Nat := rkey (0x300 + n) 0x12C
/-- DC FRZ_BURST0: the 80 bytes of the failing burst as received (R307). -/
def DC_FRZ_BURST0 (n : Nat) : Nat := rkey (0x300 + n) 0x140
/-- DC FRZ_BURST1: the 80 bytes of the failing burst as received (R307). -/
def DC_FRZ_BURST1 (n : Nat) : Nat := rkey (0x300 + n) 0x144
/-- DC FRZ_BURST2: the 80 bytes of the failing burst as received (R307). -/
def DC_FRZ_BURST2 (n : Nat) : Nat := rkey (0x300 + n) 0x148
/-- DC FRZ_BURST3: the 80 bytes of the failing burst as received (R307). -/
def DC_FRZ_BURST3 (n : Nat) : Nat := rkey (0x300 + n) 0x14C
/-- DC FRZ_BURST4: the 80 bytes of the failing burst as received (R307). -/
def DC_FRZ_BURST4 (n : Nat) : Nat := rkey (0x300 + n) 0x150
/-- DC FRZ_BURST5: the 80 bytes of the failing burst as received (R307). -/
def DC_FRZ_BURST5 (n : Nat) : Nat := rkey (0x300 + n) 0x154
/-- DC FRZ_BURST6: the 80 bytes of the failing burst as received (R307). -/
def DC_FRZ_BURST6 (n : Nat) : Nat := rkey (0x300 + n) 0x158
/-- DC FRZ_BURST7: the 80 bytes of the failing burst as received (R307). -/
def DC_FRZ_BURST7 (n : Nat) : Nat := rkey (0x300 + n) 0x15C
/-- DC FRZ_BURST8: the 80 bytes of the failing burst as received (R307). -/
def DC_FRZ_BURST8 (n : Nat) : Nat := rkey (0x300 + n) 0x160
/-- DC FRZ_BURST9: the 80 bytes of the failing burst as received (R307). -/
def DC_FRZ_BURST9 (n : Nat) : Nat := rkey (0x300 + n) 0x164
/-- DC FRZ_BURST10: the 80 bytes of the failing burst as received (R307). -/
def DC_FRZ_BURST10 (n : Nat) : Nat := rkey (0x300 + n) 0x168
/-- DC FRZ_BURST11: the 80 bytes of the failing burst as received (R307). -/
def DC_FRZ_BURST11 (n : Nat) : Nat := rkey (0x300 + n) 0x16C
/-- DC FRZ_BURST12: the 80 bytes of the failing burst as received (R307). -/
def DC_FRZ_BURST12 (n : Nat) : Nat := rkey (0x300 + n) 0x170
/-- DC FRZ_BURST13: the 80 bytes of the failing burst as received (R307). -/
def DC_FRZ_BURST13 (n : Nat) : Nat := rkey (0x300 + n) 0x174
/-- DC FRZ_BURST14: the 80 bytes of the failing burst as received (R307). -/
def DC_FRZ_BURST14 (n : Nat) : Nat := rkey (0x300 + n) 0x178
/-- DC FRZ_BURST15: the 80 bytes of the failing burst as received (R307). -/
def DC_FRZ_BURST15 (n : Nat) : Nat := rkey (0x300 + n) 0x17C
/-- DC FRZ_BURST16: the 80 bytes of the failing burst as received (R307). -/
def DC_FRZ_BURST16 (n : Nat) : Nat := rkey (0x300 + n) 0x180
/-- DC FRZ_BURST17: the 80 bytes of the failing burst as received (R307). -/
def DC_FRZ_BURST17 (n : Nat) : Nat := rkey (0x300 + n) 0x184
/-- DC FRZ_BURST18: the 80 bytes of the failing burst as received (R307). -/
def DC_FRZ_BURST18 (n : Nat) : Nat := rkey (0x300 + n) 0x188
/-- DC FRZ_BURST19: the 80 bytes of the failing burst as received (R307). -/
def DC_FRZ_BURST19 (n : Nat) : Nat := rkey (0x300 + n) 0x18C
/-- DC CE_ADDR: [27:0] channel offset bits [33:6]; [31] valid (R307). -/
def DC_CE_ADDR (n : Nat) : Nat := rkey (0x300 + n) 0x190
/-- DC CE: tally, R302 (R307). -/
def DC_CE (n : Nat) : Nat := rkey (0x300 + n) 0xE00
/-- DC SCRUB_CE: tally, R303 (R307). -/
def DC_SCRUB_CE (n : Nat) : Nat := rkey (0x300 + n) 0xE04
/-- DC SCRUB_PASS: tally, R303 (R307). -/
def DC_SCRUB_PASS (n : Nat) : Nat := rkey (0x300 + n) 0xE08
/-- DC FREEZE: tally, R304 (R307). -/
def DC_FREEZE (n : Nat) : Nat := rkey (0x300 + n) 0xE0C
/-- DC SPREAD_HOLD: tally, R297 (R307). -/
def DC_SPREAD_HOLD (n : Nat) : Nat := rkey (0x300 + n) 0xE10
/-- DC RFM_ISSUED: tally, R297 (R307). -/
def DC_RFM_ISSUED (n : Nat) : Nat := rkey (0x300 + n) 0xE14
/-- DC MAINT_HOLD: tally, R301 (R307). -/
def DC_MAINT_HOLD (n : Nat) : Nat := rkey (0x300 + n) 0xE18
/-- DC RECENTRE_MOVE: tally, R301 (R307). -/
def DC_RECENTRE_MOVE (n : Nat) : Nat := rkey (0x300 + n) 0xE1C
/-- DC RECENTRE_LATE: tally, R301 (R307). -/
def DC_RECENTRE_LATE (n : Nat) : Nat := rkey (0x300 + n) 0xE20
/-- DC DOWN_ACCESS: tally: requests answered with an error response because the channel reads OFF or is training, R294 (R307). -/
def DC_DOWN_ACCESS (n : Nat) : Nat := rkey (0x300 + n) 0xE24
/-- MAP SET_SEL: [2:0] set (R308). -/
def MAP_SET_SEL : Nat := rkey 0x310 0x100
/-- MAP SET_BASE: [6:0] BASE in GiB; lock bit 0 (R308). -/
def MAP_SET_BASE (b : Nat) : Nat := bkey b 0x310 0x104
/-- MAP SET_CFG: [7:0] MASK; [12:8] SIZE in GiB, 0–16; [20:16] OFF in GiB, 0–15; lock bit 0 (R308). -/
def MAP_SET_CFG (b : Nat) : Nat := bkey b 0x310 0x108
/-- MAP SET_STATE: [0] valid; [1] ignored under R294: it overlaps another set in device address, or a set sharing a channel ... (R308). -/
def MAP_SET_STATE (b : Nat) : Nat := bkey b 0x310 0x10C
/-- MAP MAP_MISS: tally, R294 (R308). -/
def MAP_MAP_MISS : Nat := rkey 0x310 0xE00
/-- ENDPOINT CONTAIN: [2:0] 0 none, 1–5 frozen by trigger code, 6 PM_HOLD; [8] RELEASE_PENDING; [31:16] tick number [15:0] of ... (R325). -/
def ENDPOINT_CONTAIN : Nat := rkey 0x400 0x100
/-- ENDPOINT CONTAIN_CAUSE: [2:0] first trigger code of the episode; [15:8] codes seen since, one bit per code 1–5 (R325). -/
def ENDPOINT_CONTAIN_CAUSE : Nat := rkey 0x400 0x104
/-- ENDPOINT RELEASE: [0] release, R323 (R325). -/
def ENDPOINT_RELEASE : Nat := rkey 0x400 0x108
/-- ENDPOINT READ_LIMIT: [9:0] 32–768, R315 (R325). -/
def ENDPOINT_READ_LIMIT : Nat := rkey 0x400 0x10C
/-- ENDPOINT L1_LEAD: [11:0] grains, R319 (R325). -/
def ENDPOINT_L1_LEAD : Nat := rkey 0x400 0x110
/-- ENDPOINT L1_IDLE: [7:0] µs, 1–255 (R325). -/
def ENDPOINT_L1_IDLE : Nat := rkey 0x400 0x114
/-- ENDPOINT LINK: [2:0] rate, 1 to 5 for 2.5 to 32 GT/s; [7:4] width; [8] DL_Active; [11:9] 0 L0, 1 L1, 2 L1.1, 3 L1.2, 4 L2 (R325). -/
def ENDPOINT_LINK : Nat := rkey 0x400 0x118
/-- ENDPOINT CONTAIN: tally, R321 (R325). -/
def ENDPOINT_CONTAIN_TALLY : Nat := rkey 0x400 0xE00
/-- ENDPOINT INWRITE_DROP: tally, R322 (R325). -/
def ENDPOINT_INWRITE_DROP : Nat := rkey 0x400 0xE04
/-- ENDPOINT CPL_DISCARD: tally, R322 (R325). -/
def ENDPOINT_CPL_DISCARD : Nat := rkey 0x400 0xE08
/-- ENDPOINT RELEASE_CANCEL: tally, R323 (R325). -/
def ENDPOINT_RELEASE_CANCEL : Nat := rkey 0x400 0xE0C
/-- ENDPOINT UR_SENT: tally, R316 (R325). -/
def ENDPOINT_UR_SENT : Nat := rkey 0x400 0xE10
/-- ENDPOINT BAR0_BAD: tally, R311 (R325). -/
def ENDPOINT_BAR0_BAD : Nat := rkey 0x400 0xE14
/-- ENDPOINT READ_WAIT: tally in FCLK, R315 (R325). -/
def ENDPOINT_READ_WAIT : Nat := rkey 0x400 0xE18
/-- ENDPOINT L1_LATE: tally, R319 (R325). -/
def ENDPOINT_L1_LATE : Nat := rkey 0x400 0xE1C
/-- ENDPOINT PME_SENT: tally, R320 (R325). -/
def ENDPOINT_PME_SENT : Nat := rkey 0x400 0xE20
/-- APERTURE WIN: [6:0] WIN_BASE in GiB, R312 (R325). -/
def APERTURE_WIN : Nat := rkey 0x401 0x100
/-- APERTURE AP_GUARD: [7:0] grains, R313 (R325). -/
def APERTURE_AP_GUARD : Nat := rkey 0x401 0x104
/-- APERTURE HOLD_MAX: [17:0] grains, R313 (R325). -/
def APERTURE_HOLD_MAX : Nat := rkey 0x401 0x108
/-- APERTURE AP_ERR: tally, R312 (R325). -/
def APERTURE_AP_ERR : Nat := rkey 0x401 0xE00
/-- APERTURE AP_HELD: tally: BAR 2 requests held under R313 (R325). -/
def APERTURE_AP_HELD : Nat := rkey 0x401 0xE04
/-- ICU ENABLE0: Word w, bit b enables source 32w + b (R334). -/
def ICU_ENABLE0 (t : Nat) : Nat := rkey (0x008 + t) 0x100
/-- ICU ENABLE1: Word w, bit b enables source 32w + b (R334). -/
def ICU_ENABLE1 (t : Nat) : Nat := rkey (0x008 + t) 0x104
/-- ICU ENABLE2: Word w, bit b enables source 32w + b (R334). -/
def ICU_ENABLE2 (t : Nat) : Nat := rkey (0x008 + t) 0x108
/-- ICU ENABLE3: Word w, bit b enables source 32w + b (R334). -/
def ICU_ENABLE3 (t : Nat) : Nat := rkey (0x008 + t) 0x10C
/-- ICU ENABLE4: Word w, bit b enables source 32w + b (R334). -/
def ICU_ENABLE4 (t : Nat) : Nat := rkey (0x008 + t) 0x110
/-- ICU ENABLE5: Word w, bit b enables source 32w + b (R334). -/
def ICU_ENABLE5 (t : Nat) : Nat := rkey (0x008 + t) 0x114
/-- ICU ENABLE6: Word w, bit b enables source 32w + b (R334). -/
def ICU_ENABLE6 (t : Nat) : Nat := rkey (0x008 + t) 0x118
/-- ICU ENABLE7: Word w, bit b enables source 32w + b (R334). -/
def ICU_ENABLE7 (t : Nat) : Nat := rkey (0x008 + t) 0x11C
/-- ICU PENDING0: Pending state under R327, whatever the enable (R334). -/
def ICU_PENDING0 (t : Nat) : Nat := rkey (0x008 + t) 0x120
/-- ICU PENDING1: Pending state under R327, whatever the enable (R334). -/
def ICU_PENDING1 (t : Nat) : Nat := rkey (0x008 + t) 0x124
/-- ICU PENDING2: Pending state under R327, whatever the enable (R334). -/
def ICU_PENDING2 (t : Nat) : Nat := rkey (0x008 + t) 0x128
/-- ICU PENDING3: Pending state under R327, whatever the enable (R334). -/
def ICU_PENDING3 (t : Nat) : Nat := rkey (0x008 + t) 0x12C
/-- ICU PENDING4: Pending state under R327, whatever the enable (R334). -/
def ICU_PENDING4 (t : Nat) : Nat := rkey (0x008 + t) 0x130
/-- ICU PENDING5: Pending state under R327, whatever the enable (R334). -/
def ICU_PENDING5 (t : Nat) : Nat := rkey (0x008 + t) 0x134
/-- ICU PENDING6: Pending state under R327, whatever the enable (R334). -/
def ICU_PENDING6 (t : Nat) : Nat := rkey (0x008 + t) 0x138
/-- ICU PENDING7: Pending state under R327, whatever the enable (R334). -/
def ICU_PENDING7 (t : Nat) : Nat := rkey (0x008 + t) 0x13C
/-- ICU CLAIM: [7:0] source; [8] valid; [9] already active; R329 (R334). -/
def ICU_CLAIM (t : Nat) : Nat := rkey (0x008 + t) 0x140
/-- ICU COMPLETE: [7:0] source; R329 (R334). -/
def ICU_COMPLETE (t : Nat) : Nat := rkey (0x008 + t) 0x144
/-- ICU HOST_IDLE: [0] host idle, R331 (R334). -/
def ICU_HOST_IDLE (t : Nat) : Nat := rkey (0x008 + t) 0x148
/-- ICU ACTIVE: [7:0] active source; [8] valid (R334). -/
def ICU_ACTIVE (t : Nat) : Nat := rkey (0x008 + t) 0x14C
/-- ICU OUTPUT: [0] target output; [1] target idle; [17:16] ICU clock, 0 FIO, 1 FCLK (R334). -/
def ICU_OUTPUT (t : Nat) : Nat := rkey (0x008 + t) 0x150
/-- ICU HOLDOFF_RUN: [15:0] one bit per group timer running (R334). -/
def ICU_HOLDOFF_RUN (t : Nat) : Nat := rkey (0x008 + t) 0x154
/-- ICU HOLDOFF0: [15:0] hold-off of group g in µs, R330 (R334). -/
def ICU_HOLDOFF0 (t : Nat) : Nat := rkey (0x008 + t) 0x180
/-- ICU HOLDOFF1: [15:0] hold-off of group g in µs, R330 (R334). -/
def ICU_HOLDOFF1 (t : Nat) : Nat := rkey (0x008 + t) 0x184
/-- ICU HOLDOFF2: [15:0] hold-off of group g in µs, R330 (R334). -/
def ICU_HOLDOFF2 (t : Nat) : Nat := rkey (0x008 + t) 0x188
/-- ICU HOLDOFF3: [15:0] hold-off of group g in µs, R330 (R334). -/
def ICU_HOLDOFF3 (t : Nat) : Nat := rkey (0x008 + t) 0x18C
/-- ICU HOLDOFF4: [15:0] hold-off of group g in µs, R330 (R334). -/
def ICU_HOLDOFF4 (t : Nat) : Nat := rkey (0x008 + t) 0x190
/-- ICU HOLDOFF5: [15:0] hold-off of group g in µs, R330 (R334). -/
def ICU_HOLDOFF5 (t : Nat) : Nat := rkey (0x008 + t) 0x194
/-- ICU HOLDOFF6: [15:0] hold-off of group g in µs, R330 (R334). -/
def ICU_HOLDOFF6 (t : Nat) : Nat := rkey (0x008 + t) 0x198
/-- ICU HOLDOFF7: [15:0] hold-off of group g in µs, R330 (R334). -/
def ICU_HOLDOFF7 (t : Nat) : Nat := rkey (0x008 + t) 0x19C
/-- ICU HOLDOFF8: [15:0] hold-off of group g in µs, R330 (R334). -/
def ICU_HOLDOFF8 (t : Nat) : Nat := rkey (0x008 + t) 0x1A0
/-- ICU HOLDOFF9: [15:0] hold-off of group g in µs, R330 (R334). -/
def ICU_HOLDOFF9 (t : Nat) : Nat := rkey (0x008 + t) 0x1A4
/-- ICU HOLDOFF10: [15:0] hold-off of group g in µs, R330 (R334). -/
def ICU_HOLDOFF10 (t : Nat) : Nat := rkey (0x008 + t) 0x1A8
/-- ICU HOLDOFF11: [15:0] hold-off of group g in µs, R330 (R334). -/
def ICU_HOLDOFF11 (t : Nat) : Nat := rkey (0x008 + t) 0x1AC
/-- ICU HOLDOFF12: [15:0] hold-off of group g in µs, R330 (R334). -/
def ICU_HOLDOFF12 (t : Nat) : Nat := rkey (0x008 + t) 0x1B0
/-- ICU HOLDOFF13: [15:0] hold-off of group g in µs, R330 (R334). -/
def ICU_HOLDOFF13 (t : Nat) : Nat := rkey (0x008 + t) 0x1B4
/-- ICU HOLDOFF14: [15:0] hold-off of group g in µs, R330 (R334). -/
def ICU_HOLDOFF14 (t : Nat) : Nat := rkey (0x008 + t) 0x1B8
/-- ICU HOLDOFF15: [15:0] hold-off of group g in µs, R330 (R334). -/
def ICU_HOLDOFF15 (t : Nat) : Nat := rkey (0x008 + t) 0x1BC
/-- ICU COMPLETE_IGNORED: tally, R329 (R334). -/
def ICU_COMPLETE_IGNORED (t : Nat) : Nat := rkey (0x008 + t) 0xE00
/-- ICU CLAIMS: tally: claims returning a valid source not already active (R334). -/
def ICU_CLAIMS (t : Nat) : Nat := rkey (0x008 + t) 0xE04
/-- ICU BYPASS: tally, R331 (R334). -/
def ICU_BYPASS (t : Nat) : Nat := rkey (0x008 + t) 0xE08
/-- ICU MERGED: tally, R327 (R334). -/
def ICU_MERGED (t : Nat) : Nat := rkey (0x008 + t) 0xE0C
/-- ICU EDGE_LATCHED: tally, R332 (R334). -/
def ICU_EDGE_LATCHED (t : Nat) : Nat := rkey (0x008 + t) 0xE10
/-- TIME TIME_NS: [31:0] local nanoseconds; a read latches TIME_FRAC (R353). -/
def TIME_TIME_NS : Nat := rkey 0x500 0x100
/-- TIME TIME_FRAC: [31:0] fraction latched, R336 (R353). -/
def TIME_TIME_FRAC : Nat := rkey 0x500 0x104
/-- TIME INC_FRAC: [31:0] INC bits [31:0] (R353). -/
def TIME_INC_FRAC : Nat := rkey 0x500 0x108
/-- TIME INC_NS: [3:0] INC bits [35:32] (R353). -/
def TIME_INC_NS : Nat := rkey 0x500 0x10C
/-- TIME SET_NS: [31:0] step value, R336 (R353). -/
def TIME_SET_NS : Nat := rkey 0x500 0x110
/-- TIME SEL: [1:0] 0 A, 1 B, 2 none; R344 (R353). -/
def TIME_SEL : Nat := rkey 0x500 0x114
/-- TIME FOLLOW: [1:0] domain followed, 2 none; [2] handover running (R353). -/
def TIME_FOLLOW : Nat := rkey 0x500 0x118
/-- TIME RATE: [31:0] r, signed ppb (R353). -/
def TIME_RATE : Nat := rkey 0x500 0x11C
/-- TIME FREQ: [31:0] F, signed ppb (R353). -/
def TIME_FREQ : Nat := rkey 0x500 0x120
/-- TIME HAND_REM: [31:0] remainder of H, signed ns (R353). -/
def TIME_HAND_REM : Nat := rkey 0x500 0x124
/-- TIME FAILOVER: tally, R344 (R353). -/
def TIME_FAILOVER : Nat := rkey 0x500 0xE00
/-- TIME HANDOVER: tally, R344 (R353). -/
def TIME_HANDOVER : Nat := rkey 0x500 0xE04
/-- TIME HOLDOVER: tally, R345 (R353). -/
def TIME_HOLDOVER : Nat := rkey 0x500 0xE08
/-- TIME STEP: tally, R336 (R353). -/
def TIME_STEP : Nat := rkey 0x500 0xE0C
/-- DOMAIN CFG: [0] ENABLE; [1] MODE, 0 servo, 1 slew; [3:2] profile: 0 1588 delay request-response, 1 1588 peer-to-peer, ... (R354). -/
def DOMAIN_CFG (d : Nat) : Nat := rkey (0x501 + d) 0x100
/-- DOMAIN GAINS: [15:0] KP; [31:16] KI; unsigned 8.8, ppb per ns (R354). -/
def DOMAIN_GAINS (d : Nat) : Nat := rkey (0x501 + d) 0x104
/-- DOMAIN INTERVAL: [7:0] signed log2 seconds, −7 to 4 (R354). -/
def DOMAIN_INTERVAL (d : Nat) : Nat := rkey (0x501 + d) 0x108
/-- DOMAIN LOCK_NS: [15:0] ns, R341 (R354). -/
def DOMAIN_LOCK_NS (d : Nat) : Nat := rkey (0x501 + d) 0x10C
/-- DOMAIN OFFSET: [31:0] signed ns; a write updates R342 (R354). -/
def DOMAIN_OFFSET (d : Nat) : Nat := rkey (0x501 + d) 0x110
/-- DOMAIN RATIO: [31:0] signed ppb (R354). -/
def DOMAIN_RATIO (d : Nat) : Nat := rkey (0x501 + d) 0x114
/-- DOMAIN STATE: [2:0] code, R341 (R354). -/
def DOMAIN_STATE (d : Nat) : Nat := rkey (0x501 + d) 0x118
/-- DOMAIN GM_ID_LO: [31:0] clockIdentity bits [31:0] (R354). -/
def DOMAIN_GM_ID_LO (d : Nat) : Nat := rkey (0x501 + d) 0x11C
/-- DOMAIN GM_ID_HI: [31:0] clockIdentity bits [63:32]; a write compares, R341 (R354). -/
def DOMAIN_GM_ID_HI (d : Nat) : Nat := rkey (0x501 + d) 0x120
/-- DOMAIN TX_STAMP_NS: [31:0] egress stamp, R339 (R354). -/
def DOMAIN_TX_STAMP_NS (d : Nat) : Nat := rkey (0x501 + d) 0x124
/-- DOMAIN TX_STAMP_INFO: [15:0] sequenceId; [19:16] messageType; [27:20] fraction; [31] valid, cleared by the read (R354). -/
def DOMAIN_TX_STAMP_INFO (d : Nat) : Nat := rkey (0x501 + d) 0x128
/-- DOMAIN GM_CHANGE: tally, R341 (R354). -/
def DOMAIN_GM_CHANGE (d : Nat) : Nat := rkey (0x501 + d) 0xE00
/-- DOMAIN TX_STAMP_LOST: tally, R339 (R354). -/
def DOMAIN_TX_STAMP_LOST (d : Nat) : Nat := rkey (0x501 + d) 0xE04
/-- DOMAIN CLAMPED: tally, R342 (R354). -/
def DOMAIN_CLAMPED (d : Nat) : Nat := rkey (0x501 + d) 0xE08
/-- EP MODE: [0] 0 10GBASE-R, 1 USXGMII; lock bit 0 (R355). -/
def EP_MODE (i : Nat) : Nat := rkey (0x503 + i) 0x100
/-- EP MAC_LO: [31:0] MAC address bits [31:0] (R355). -/
def EP_MAC_LO (i : Nat) : Nat := rkey (0x503 + i) 0x104
/-- EP MAC_HI: [15:0] MAC address bits [47:32] (R355). -/
def EP_MAC_HI (i : Nat) : Nat := rkey (0x503 + i) 0x108
/-- EP IPV4: [31:0] address answered by ARP (R355). -/
def EP_IPV4 (i : Nat) : Nat := rkey (0x503 + i) 0x10C
/-- EP IPV6_0: address answered by neighbour discovery (R355). -/
def EP_IPV6_0 (i : Nat) : Nat := rkey (0x503 + i) 0x110
/-- EP IPV6_1: address answered by neighbour discovery (R355). -/
def EP_IPV6_1 (i : Nat) : Nat := rkey (0x503 + i) 0x114
/-- EP IPV6_2: address answered by neighbour discovery (R355). -/
def EP_IPV6_2 (i : Nat) : Nat := rkey (0x503 + i) 0x118
/-- EP IPV6_3: address answered by neighbour discovery (R355). -/
def EP_IPV6_3 (i : Nat) : Nat := rkey (0x503 + i) 0x11C
/-- EP ADJ_RX: [15:0] signed, 1/16 ns, subtracted under R338 (R355). -/
def EP_ADJ_RX (i : Nat) : Nat := rkey (0x503 + i) 0x120
/-- EP ADJ_TX: [15:0] signed, 1/16 ns, added under R338 (R355). -/
def EP_ADJ_TX (i : Nat) : Nat := rkey (0x503 + i) 0x124
/-- EP MC_SEL: [3:0] multicast entry (R355). -/
def EP_MC_SEL (i : Nat) : Nat := rkey (0x503 + i) 0x128
/-- EP MC_LO: [31:0] address bits [31:0] (R355). -/
def EP_MC_LO (i : Nat) (b : Nat) : Nat := bkey b (0x503 + i) 0x12C
/-- EP MC_HI: [15:0] address bits [47:32]; [31] valid (R355). -/
def EP_MC_HI (i : Nat) (b : Nat) : Nat := bkey b (0x503 + i) 0x130
/-- EP LINK: [0] up; [3:1] rate: 0 none, 1 1, 2 2.5, 3 5, 4 10 Gb/s; [31:16] tick number [15:0] of the last change (R355). -/
def EP_LINK (i : Nat) : Nat := rkey (0x503 + i) 0x134
/-- EP RX_ERR: tally, R349 (R355). -/
def EP_RX_ERR (i : Nat) : Nat := rkey (0x503 + i) 0xE00
/-- EP RX_FILTERED: tally, R349 (R355). -/
def EP_RX_FILTERED (i : Nat) : Nat := rkey (0x503 + i) 0xE04
/-- EP RX_OTHER: tally, R348, R349 (R355). -/
def EP_RX_OTHER (i : Nat) : Nat := rkey (0x503 + i) 0xE08
/-- EP PTP_RX: tally: PTP frames to the MGC (R355). -/
def EP_PTP_RX (i : Nat) : Nat := rkey (0x503 + i) 0xE0C
/-- EP LINK_CHANGE: tally, R352 (R355). -/
def EP_LINK_CHANGE (i : Nat) : Nat := rkey (0x503 + i) 0xE10
/-- SYSTEM NODE: [9:0] node ID, R351; lock bit 0 (R356). -/
def SYSTEM_NODE : Nat := rkey 0x505 0x100
/-- SYSTEM FWD_CTL: [0] FWD_EN, R350 (R356). -/
def SYSTEM_FWD_CTL : Nat := rkey 0x505 0x104
/-- SYSTEM FWD_FRAMES: tally: frames forwarded (R356). -/
def SYSTEM_FWD_FRAMES : Nat := rkey 0x505 0xE00
/-- SYSTEM FWD_DROP: tally, R350 (R356). -/
def SYSTEM_FWD_DROP : Nat := rkey 0x505 0xE04
/-- SYSTEM TC_CORRECTED: tally, R350 (R356). -/
def SYSTEM_TC_CORRECTED : Nat := rkey 0x505 0xE08
/-- BOOT STATE: [3:0] 0 ROM_INIT, 1 WAIT_FW, 2 VERIFY, 3 FW_REFUSED, 4 RUNNING; [6:4] last reset class, 1–6 in the order ... (R374). -/
def BOOT_STATE : Nat := rkey 0x003 0x100
/-- BOOT FW_ADDR: [20:2] MGC memory offset (R374). -/
def BOOT_FW_ADDR : Nat := rkey 0x003 0x104
/-- BOOT FW_DATA: [31:0] image DWord, R369 (R374). -/
def BOOT_FW_DATA : Nat := rkey 0x003 0x108
/-- BOOT FW_LEN: [20:0] image bytes (R374). -/
def BOOT_FW_LEN : Nat := rkey 0x003 0x10C
/-- BOOT FW_GO: [0] start verification (R374). -/
def BOOT_FW_GO : Nat := rkey 0x003 0x110
/-- BOOT TRAIN: [7:0] channel mask, R370 (R374). -/
def BOOT_TRAIN : Nat := rkey 0x003 0x114
/-- BOOT RST_STALL: [7:0] stall mask, R372 (R374). -/
def BOOT_RST_STALL : Nat := rkey 0x003 0x118
/-- BOOT RST_UNIT: [7:0] UNIT code; [31] valid (R374). -/
def BOOT_RST_UNIT : Nat := rkey 0x003 0x11C
/-- BOOT DEEP_IDLE: [0] allow, R365 (R374). -/
def BOOT_DEEP_IDLE : Nat := rkey 0x003 0x120
/-- BOOT I2C_BAD: tally, R367 (R374). -/
def BOOT_I2C_BAD : Nat := rkey 0x003 0xE00
/-- BOOT STALL_RESET: tally: stall resets applied (R374). -/
def BOOT_STALL_RESET : Nat := rkey 0x003 0xE04
/-- BOOT UNIT_RESET: tally: unit resets applied (R374). -/
def BOOT_UNIT_RESET : Nat := rkey 0x003 0xE08
/-- POWER REQ0: domains 0–15, 2 bits each, domain d in [2d+1:2d]: 0 off, 1 retention, 2 on, 3 reserved (R374). -/
def POWER_REQ0 : Nat := rkey 0x004 0x100
/-- POWER REQ1: domains 16–28, as REQ0 (R374). -/
def POWER_REQ1 : Nat := rkey 0x004 0x104
/-- POWER STATE0: domains 0–15: 0 off, 1 retention, 2 on, 3 in transition (R374). -/
def POWER_STATE0 : Nat := rkey 0x004 0x108
/-- POWER STATE1: domains 16–28 (R374). -/
def POWER_STATE1 : Nat := rkey 0x004 0x10C
/-- POWER AUTO_WAKE: tally, R359 (R374). -/
def POWER_AUTO_WAKE : Nat := rkey 0x004 0xE00
/-- POWER TRANSITIONS: tally: transitions completed (R374). -/
def POWER_TRANSITIONS : Nat := rkey 0x004 0xE04
/-- THERMAL TEMP0: [15:0] sensor 2w; [31:16] sensor 2w + 1; INT16 (R374). -/
def THERMAL_TEMP0 : Nat := rkey 0x005 0x100
/-- THERMAL TEMP1: [15:0] sensor 2w; [31:16] sensor 2w + 1; INT16 (R374). -/
def THERMAL_TEMP1 : Nat := rkey 0x005 0x104
/-- THERMAL TEMP2: [15:0] sensor 2w; [31:16] sensor 2w + 1; INT16 (R374). -/
def THERMAL_TEMP2 : Nat := rkey 0x005 0x108
/-- THERMAL TEMP3: [15:0] sensor 2w; [31:16] sensor 2w + 1; INT16 (R374). -/
def THERMAL_TEMP3 : Nat := rkey 0x005 0x10C
/-- THERMAL TEMP4: [15:0] sensor 2w; [31:16] sensor 2w + 1; INT16 (R374). -/
def THERMAL_TEMP4 : Nat := rkey 0x005 0x110
/-- THERMAL TEMP5: [15:0] sensor 2w; [31:16] sensor 2w + 1; INT16 (R374). -/
def THERMAL_TEMP5 : Nat := rkey 0x005 0x114
/-- THERMAL TEMP6: [15:0] sensor 2w; [31:16] sensor 2w + 1; INT16 (R374). -/
def THERMAL_TEMP6 : Nat := rkey 0x005 0x118
/-- THERMAL TEMP7: [15:0] sensor 2w; [31:16] sensor 2w + 1; INT16 (R374). -/
def THERMAL_TEMP7 : Nat := rkey 0x005 0x11C
/-- THERMAL T_CLAMP1: [15:0] T1; [31:16] T2; lock bit 0 (R374). -/
def THERMAL_T_CLAMP1 : Nat := rkey 0x005 0x120
/-- THERMAL T_CLAMP3: [15:0] T3; [31:16] T_ALARM; lock bit 0 (R374). -/
def THERMAL_T_CLAMP3 : Nat := rkey 0x005 0x124
/-- THERMAL T_TRIP: [15:0] T_TRIP; lock bit 0 (R374). -/
def THERMAL_T_TRIP : Nat := rkey 0x005 0x128
/-- THERMAL PWR_EST: [31:0] mW (R374). -/
def THERMAL_PWR_EST : Nat := rkey 0x005 0x12C
/-- THERMAL PWR_LIMIT: [16:0] mW, at most 65,000; lock bit 1 (R374). -/
def THERMAL_PWR_LIMIT : Nat := rkey 0x005 0x130
/-- THERMAL CLAMP: [15:0] clamp level, 2 bits per cluster, C0 in [1:0] (R374). -/
def THERMAL_CLAMP : Nat := rkey 0x005 0x134
/-- THERMAL ALARM: tally, R362 (R374). -/
def THERMAL_ALARM : Nat := rkey 0x005 0xE00
/-- THERMAL TRIP: tally, R362 (R374). -/
def THERMAL_TRIP : Nat := rkey 0x005 0xE04
/-- THERMAL CLAMP_RISE: tally, R361 (R374). -/
def THERMAL_CLAMP_RISE : Nat := rkey 0x005 0xE08
/-- THERMAL POWER_OVER: tally: samples with a power level above 0 (R374). -/
def THERMAL_POWER_OVER : Nat := rkey 0x005 0xE0C
/-- SECURITY LC: [1:0] state at boot; [3:2] fused state; [4] transition pending; [5] tamper latched; [6] identity present (R391). -/
def SECURITY_LC : Nat := rkey 0x006 0x100
/-- SECURITY STAGE_BASE_LO: [31:12] staging address bits [31:12] (R391). -/
def SECURITY_STAGE_BASE_LO : Nat := rkey 0x006 0x104
/-- SECURITY STAGE_BASE_HI: [4:0] address bits [36:32] (R391). -/
def SECURITY_STAGE_BASE_HI : Nat := rkey 0x006 0x108
/-- SECURITY STAGE_LEN: [31:0] bytes (R391). -/
def SECURITY_STAGE_LEN : Nat := rkey 0x006 0x10C
/-- SECURITY CMD: [2:0] op: 1 firmware update, 2 record, 3 ADVANCE, 4 raise SVN_MIN; [15:8] ARG (R391). -/
def SECURITY_CMD : Nat := rkey 0x006 0x110
/-- SECURITY CMD_STATE: [2:0] 0 idle, 1 copying, 2 verifying, 3 READY, 4 burning, 5 REFUSED, 6 done; [15:8] reason, R381 (R391). -/
def SECURITY_CMD_STATE : Nat := rkey 0x006 0x114
/-- SECURITY UPD_TICK: [31:0] tick number, R383 (R391). -/
def SECURITY_UPD_TICK : Nat := rkey 0x006 0x118
/-- SECURITY FW_INFO: [6:0] running SVN; [14:8] SVN_MIN; [17:16] running KEY_SLOT; [18] running half (R391). -/
def SECURITY_FW_INFO : Nat := rkey 0x006 0x11C
/-- SECURITY NONCE0: nonce, R386 (R391). -/
def SECURITY_NONCE0 : Nat := rkey 0x006 0x120
/-- SECURITY NONCE1: nonce, R386 (R391). -/
def SECURITY_NONCE1 : Nat := rkey 0x006 0x124
/-- SECURITY NONCE2: nonce, R386 (R391). -/
def SECURITY_NONCE2 : Nat := rkey 0x006 0x128
/-- SECURITY NONCE3: nonce, R386 (R391). -/
def SECURITY_NONCE3 : Nat := rkey 0x006 0x12C
/-- SECURITY NONCE4: nonce, R386 (R391). -/
def SECURITY_NONCE4 : Nat := rkey 0x006 0x130
/-- SECURITY NONCE5: nonce, R386 (R391). -/
def SECURITY_NONCE5 : Nat := rkey 0x006 0x134
/-- SECURITY NONCE6: nonce, R386 (R391). -/
def SECURITY_NONCE6 : Nat := rkey 0x006 0x138
/-- SECURITY NONCE7: nonce, R386 (R391). -/
def SECURITY_NONCE7 : Nat := rkey 0x006 0x13C
/-- SECURITY QUOTE_REQ: [0] request (R391). -/
def SECURITY_QUOTE_REQ : Nat := rkey 0x006 0x140
/-- SECURITY QUOTE_STATE: [2:0] 0 none, 1 signing, 2 READY, 3 REFUSED, 4 ABANDONED (R391). -/
def SECURITY_QUOTE_STATE : Nat := rkey 0x006 0x144
/-- SECURITY QUOTE_PTR: [12:0] word index, 0–4,335 (R391). -/
def SECURITY_QUOTE_PTR : Nat := rkey 0x006 0x148
/-- SECURITY QUOTE_DATA: quote word at QUOTE_PTR; a read advances QUOTE_PTR (R391). -/
def SECURITY_QUOTE_DATA : Nat := rkey 0x006 0x14C
/-- SECURITY IDPUB0: identity public key, R385 (R391). -/
def SECURITY_IDPUB0 : Nat := rkey 0x006 0x150
/-- SECURITY IDPUB1: identity public key, R385 (R391). -/
def SECURITY_IDPUB1 : Nat := rkey 0x006 0x154
/-- SECURITY IDPUB2: identity public key, R385 (R391). -/
def SECURITY_IDPUB2 : Nat := rkey 0x006 0x158
/-- SECURITY IDPUB3: identity public key, R385 (R391). -/
def SECURITY_IDPUB3 : Nat := rkey 0x006 0x15C
/-- SECURITY IDPUB4: identity public key, R385 (R391). -/
def SECURITY_IDPUB4 : Nat := rkey 0x006 0x160
/-- SECURITY IDPUB5: identity public key, R385 (R391). -/
def SECURITY_IDPUB5 : Nat := rkey 0x006 0x164
/-- SECURITY IDPUB6: identity public key, R385 (R391). -/
def SECURITY_IDPUB6 : Nat := rkey 0x006 0x168
/-- SECURITY IDPUB7: identity public key, R385 (R391). -/
def SECURITY_IDPUB7 : Nat := rkey 0x006 0x16C
/-- SECURITY CMD_REFUSED: tally, R384 (R391). -/
def SECURITY_CMD_REFUSED : Nat := rkey 0x006 0xE00
/-- SECURITY UPD_MISSED: tally, R383 (R391). -/
def SECURITY_UPD_MISSED : Nat := rkey 0x006 0xE04
/-- SECURITY UPD_DONE: tally, R383 (R391). -/
def SECURITY_UPD_DONE : Nat := rkey 0x006 0xE08
/-- SECURITY QUOTES: tally: quotes signed (R391). -/
def SECURITY_QUOTES : Nat := rkey 0x006 0xE0C
/-- SECURITY QUOTE_REFUSED: tally, R386 (R391). -/
def SECURITY_QUOTE_REFUSED : Nat := rkey 0x006 0xE10
/-- SECURITY TAMPER: tally, R387 (R391). -/
def SECURITY_TAMPER : Nat := rkey 0x006 0xE14
/-- SECURITY WIPES: tally, R388 (R391). -/
def SECURITY_WIPES : Nat := rkey 0x006 0xE18
/-- SECURITY DEBUG_DENIED: tally, R390 (R391). -/
def SECURITY_DEBUG_DENIED : Nat := rkey 0x006 0xE1C
/-- SECURITY STAGE_WRITE_DROP: tally, R382 (R391). -/
def SECURITY_STAGE_WRITE_DROP : Nat := rkey 0x006 0xE20
/-- FUSE KEY_SEL: [1:0] slot (R392). -/
def FUSE_KEY_SEL : Nat := rkey 0x007 0x100
/-- FUSE KEY_STATE: [0] programmed; [1] revoked; [2] spoiled, R376 (R392). -/
def FUSE_KEY_STATE : Nat := rkey 0x007 0x104
/-- FUSE KEY_HASH0: hash to program, word 0 first (R392). -/
def FUSE_KEY_HASH0 : Nat := rkey 0x007 0x108
/-- FUSE KEY_HASH1: hash to program, word 0 first (R392). -/
def FUSE_KEY_HASH1 : Nat := rkey 0x007 0x10C
/-- FUSE KEY_HASH2: hash to program, word 0 first (R392). -/
def FUSE_KEY_HASH2 : Nat := rkey 0x007 0x110
/-- FUSE KEY_HASH3: hash to program, word 0 first (R392). -/
def FUSE_KEY_HASH3 : Nat := rkey 0x007 0x114
/-- FUSE KEY_HASH4: hash to program, word 0 first (R392). -/
def FUSE_KEY_HASH4 : Nat := rkey 0x007 0x118
/-- FUSE KEY_HASH5: hash to program, word 0 first (R392). -/
def FUSE_KEY_HASH5 : Nat := rkey 0x007 0x11C
/-- FUSE KEY_HASH6: hash to program, word 0 first (R392). -/
def FUSE_KEY_HASH6 : Nat := rkey 0x007 0x120
/-- FUSE KEY_HASH7: hash to program, word 0 first (R392). -/
def FUSE_KEY_HASH7 : Nat := rkey 0x007 0x124
/-- FUSE KEY_FUSED0: fused hash of the selected slot (R392). -/
def FUSE_KEY_FUSED0 : Nat := rkey 0x007 0x128
/-- FUSE KEY_FUSED1: fused hash of the selected slot (R392). -/
def FUSE_KEY_FUSED1 : Nat := rkey 0x007 0x12C
/-- FUSE KEY_FUSED2: fused hash of the selected slot (R392). -/
def FUSE_KEY_FUSED2 : Nat := rkey 0x007 0x130
/-- FUSE KEY_FUSED3: fused hash of the selected slot (R392). -/
def FUSE_KEY_FUSED3 : Nat := rkey 0x007 0x134
/-- FUSE KEY_FUSED4: fused hash of the selected slot (R392). -/
def FUSE_KEY_FUSED4 : Nat := rkey 0x007 0x138
/-- FUSE KEY_FUSED5: fused hash of the selected slot (R392). -/
def FUSE_KEY_FUSED5 : Nat := rkey 0x007 0x13C
/-- FUSE KEY_FUSED6: fused hash of the selected slot (R392). -/
def FUSE_KEY_FUSED6 : Nat := rkey 0x007 0x140
/-- FUSE KEY_FUSED7: fused hash of the selected slot (R392). -/
def FUSE_KEY_FUSED7 : Nat := rkey 0x007 0x144
/-- FUSE KEY_PROG: [0] program the selected slot from KEY_HASH, R376; at most 2.0 ms (R392). -/
def FUSE_KEY_PROG : Nat := rkey 0x007 0x148
/-- FUSE DSN_LO: [31:0] DSN bits [31:0] (R392). -/
def FUSE_DSN_LO : Nat := rkey 0x007 0x14C
/-- FUSE DSN_HI: [31:0] DSN bits [63:32] (R392). -/
def FUSE_DSN_HI : Nat := rkey 0x007 0x150
/-- FUSE SUBSYS: [15:0] Subsystem Vendor ID; [31:16] Subsystem ID (R392). -/
def FUSE_SUBSYS : Nat := rkey 0x007 0x154
/-- FUSE FUSE_FAIL: tally, R376, R378 (R392). -/
def FUSE_FUSE_FAIL : Nat := rkey 0x007 0xE00
/-- FUSE KEY_REFUSED: tally, R376 (R392). -/
def FUSE_KEY_REFUSED : Nat := rkey 0x007 0xE04
/-- SERVICE MT_REQ: [2:0] TEST; [15:8] TARGET; R401 (R406). -/
def SERVICE_MT_REQ : Nat := rkey 0x00A 0x100
/-- SERVICE MT_CANCEL: [3:0] queue entry; [31] all entries (R406). -/
def SERVICE_MT_CANCEL : Nat := rkey 0x00A 0x104
/-- SERVICE MT_STATE: [4:0] pending requests, 0–16 (R406). -/
def SERVICE_MT_STATE : Nat := rkey 0x00A 0x108
/-- SERVICE MT_RES_SEL: [3:0] queue entry (R406). -/
def SERVICE_MT_RES_SEL : Nat := rkey 0x00A 0x10C
/-- SERVICE MT_RESULT: [2:0] result, R403; [10:8] TEST; [23:16] TARGET (R406). -/
def SERVICE_MT_RESULT : Nat := rkey 0x00A 0x110
/-- SERVICE MT_FAIL_ADDR: [22:0] first failing byte address; [31] valid (R406). -/
def SERVICE_MT_FAIL_ADDR : Nat := rkey 0x00A 0x114
/-- SERVICE SVC_UNIT: [7:0] UNIT code 0x10–0x1D; [8] 1 remove, 0 rejoin; [31] valid (R406). -/
def SERVICE_SVC_UNIT : Nat := rkey 0x00A 0x118
/-- SERVICE SVC_OUT: [13:0] VD0–VD7, VE0–VE1, PP0–PP3: out of service (R406). -/
def SERVICE_SVC_OUT : Nat := rkey 0x00A 0x11C
/-- SERVICE SVC_REJOIN: [13:0] as SVC_OUT, in REJOIN (R406). -/
def SERVICE_SVC_REJOIN : Nat := rkey 0x00A 0x120
/-- SERVICE SVC_BLOCK: [7:0] UNIT code, or cluster in [2:0] with [8] set; [31] valid; R405 (R406). -/
def SERVICE_SVC_BLOCK : Nat := rkey 0x00A 0x124
/-- SERVICE WEAR_CTL: [0] ENABLE; lock bit 0 (R406). -/
def SERVICE_WEAR_CTL : Nat := rkey 0x00A 0x128
/-- SERVICE WEAR_ROT: [23:0] ROT, 3 bits per cluster, C0 in [2:0] (R406). -/
def SERVICE_WEAR_ROT : Nat := rkey 0x00A 0x12C
/-- SERVICE MT_RUN: tally, R403 (R406). -/
def SERVICE_MT_RUN : Nat := rkey 0x00A 0xE00
/-- SERVICE MT_FAIL: tally, R403 (R406). -/
def SERVICE_MT_FAIL : Nat := rkey 0x00A 0xE04
/-- SERVICE MT_NOFIT: tally, R401 (R406). -/
def SERVICE_MT_NOFIT : Nat := rkey 0x00A 0xE08
/-- SERVICE SVC_APPLIED: tally, R404, R405 (R406). -/
def SERVICE_SVC_APPLIED : Nat := rkey 0x00A 0xE0C
/-- SERVICE WEAR_ROTATE: tally, R398 (R406). -/
def SERVICE_WEAR_ROTATE : Nat := rkey 0x00A 0xE10
/-- SERVICE SCRUB_PASS: tally, R394 (R406). -/
def SERVICE_SCRUB_PASS : Nat := rkey 0x00A 0xE14
/-- SERVICE SCRUB_CE: tally, R395 (R406). -/
def SERVICE_SCRUB_CE : Nat := rkey 0x00A 0xE18
/-- SERVICE SCRUB_CANCEL: tally, R395 (R406). -/
def SERVICE_SCRUB_CANCEL : Nat := rkey 0x00A 0xE1C
/-- CHIP CHIP_ID: [15:0] part code 0x6410; [23:16] stepping: 0x00 A0, 0x01 A1, 0x10 B0; [24] grade from fuses: 0 -C, 1 -I; ... (R409). -/
def CHIP_CHIP_ID : Nat := rkey 0x000 0x100

end Sys2Proof.Machine.Reg
end

