-- ==== Sys2Proof/Machine/Map.lean ====
section
/-!
DEFINITION. Sparse tables: a list of (key, value) pairs with strictly rising keys. Memory, the register pages and the
tables of units are held in this one form, so that equal contents are equal data.
-/
namespace Sys2Proof.Machine

/-- A sparse table from numbers to values. -/
abbrev Tbl (α : Type) := List (Nat × α)

/-- The value listed under a key. -/
def mapGet {α : Type} : Tbl α → Nat → Option α
  | [], _ => none
  | (k, v) :: r, x => if x = k then some v else mapGet r x

/-- The table with a key's value set, in rising order. -/
def mapIns {α : Type} (x : Nat) (v : α) : Tbl α → Tbl α
  | [] => [(x, v)]
  | (k, w) :: r =>
    if x < k then (x, v) :: (k, w) :: r
    else if x = k then (x, v) :: r
    else (k, w) :: mapIns x v r

/-- The table without a key. -/
def mapDel {α : Type} (x : Nat) : Tbl α → Tbl α
  | [] => []
  | (k, w) :: r => if x = k then mapDel x r else (k, w) :: mapDel x r

/-- Set a key where `d` says what an unlisted key reads as: a value equal to that is not listed. -/
def mapPut {α : Type} [DecidableEq α] (d : Nat → Option α) (x : Nat) (v : α) (t : Tbl α) : Tbl α :=
  if d x = some v then mapDel x t else mapIns x v t

/-- Read a key with the value `d` for one that is not listed. -/
def mapGetD {α : Type} (t : Tbl α) (x : Nat) (d : α) : α := (mapGet t x).getD d

/-- Set a key in a table whose unlisted keys read `d`. -/
def tblSet {α : Type} [DecidableEq α] (d : α) (x : Nat) (v : α) (t : Tbl α) : Tbl α := mapPut (fun _ => some d) x v t

/-- The keys rise strictly. -/
def mapSorted {α : Type} : Tbl α → Bool
  | [] => true
  | [_] => true
  | (k, _) :: (k', v') :: r => decide (k < k') && mapSorted ((k', v') :: r)

/-- No entry is equal to what its key would read as unlisted. -/
def mapSparse {α : Type} [DecidableEq α] (d : Nat → Option α) (t : Tbl α) : Bool :=
  t.all (fun p => !decide (d p.1 = some p.2))

/-- The canonical form of a table. -/
def mapWf {α : Type} [DecidableEq α] (d : Nat → Option α) (t : Tbl α) : Bool := mapSorted t && mapSparse d t

end Sys2Proof.Machine
end

