-- ==== Sys2Proof/Machine/State.lean ====
section
/-!
DEFINITION. The state of the block as plain data, its faults and refusals, and the state after reset. Every register of
the register pages lies in `regs` (RegTable, RegNames); every byte of a store in `mem`; what the manual gives the
machine besides lies in the structures below. The sparse tables of units read their unit's reset record where unlisted.
-/
namespace Sys2Proof.Machine

/-- The machine stops with a fault: nothing in the manual stops this block, so no step answers one (safe). -/
inductive Fault where
  /-- raised by nobody: every address, pointer or frame outside its store has a response in the manual -/
  | none
  deriving DecidableEq, Repr

/-- A command without a meaning. -/
inductive Refusal where
  /-- raised by an arm of `exec` whose command has no meaning yet (safe) -/
  | notModelled (mnemonic : String)
  /-- raised by REGISTER_WRITE at a block-specific offset of a debug page, whose layout R415 keeps out of the
  manual (safe) -/
  | debugLayout
  deriving DecidableEq, Repr

/-- A message or posted write that leaves the device, in the order issued. The model's own record of what the manual
says is sent; no rule reads it back. -/
inductive Egress where
  | hostWrite (addr : Nat) (data : List Byte)
  | assertIntx
  | deassertIntx
  | pmPme
  | readCompletion (v : Word)
  | memCompletion (data : List Byte) (poisoned : Bool)
  | completerAbort
  | unsupportedRequest
  | aerUnsupported
  | aerMessage (code : Nat)
  | indexRead (addr : Nat) (len : Nat)
  | ringRead (stream : Nat) (addr : Nat) (len : Nat)
  | hostRead (addr : Nat) (len : Nat)
  | fabricResponse (initiator : Nat) (data : List Byte) (err poisoned : Bool)
  | spadResponse (port : Nat) (data : List Byte) (poisoned : Bool)
  | dramResponse (initiator : Nat) (data : List Byte) (err poisoned : Bool)
  | bpmReply (addr : Option Nat)
  | ethForward (port : Nat) (correction : Int)
  | ethToMgc (port : Nat) (stamp : Option (Word × Byte))
  | i2cData (data : List Byte)
  | i2cNack
  | crs
  deriving DecidableEq, Repr

/-- The one-time fuses (R375). -/
structure Fuses where
  keyHash : Vector (BitVec 256) 4 := Vector.replicate 4 0
  keyProg : BitVec 4 := 0
  keyRevoked : BitVec 4 := 0
  lc : BitVec 3 := 0
  svnMin : BitVec 64 := 0
  devSecret : BitVec 256 := 0
  dsn : BitVec 64 := 0
  subsys : Word := 0
  /-- the grade of CHIP_ID[24] (R409): true for the -I grade -/
  gradeI : Bool := false
  deriving DecidableEq, Repr

/-- Local time and the time terms (R335, R342, R344). -/
structure Tsu where
  ns : Word := 0
  frac : Word := 0
  inc : BitVec 36 := 0x400000000
  /-- how often the nanosecond count has wrapped: the firmware's extension of R337 -/
  wraps : Nat := 0
  nextTick : Word := 0
  /-- F and Φ of R342, ppb -/
  freq : Int := 0
  phase : Int := 0
  /-- the handover residual H of R344, in units of 2^-32 ns -/
  residual : Int := 0
  /-- the fraction latched for each master by its last read of TIME_NS (R414): host, MGC, ledger -/
  latchHost : Word := 0
  latchMgc : Word := 0
  latchLedger : Word := 0
  /-- the clockIdentity at the last GM_ID_HI write of each domain (R341) -/
  gmA : BitVec 64 := 0
  gmB : BitVec 64 := 0
  /-- the time PLL has locked since power-on, so local time counts (R364) -/
  running : Bool := false
  deriving DecidableEq, Repr

/-- A staging DMA entry in progress (R42). -/
structure Staging where
  /-- none: host memory -/
  src : Option Ptr
  dst : Option Ptr
  hostAddr : Nat
  len : Nat
  stall : Nat
  streams : List Nat
  deriving DecidableEq, Repr

/-- The ledger's run-time state beside its registers (R21 to R36). -/
structure Ledger where
  /-- TCLK edges counted in the current grain: 256 make a grain of 1,536 ECLK -/
  grainTclk : Nat := 0
  /-- the boundary sequence of the current tick has run to Arm (R26) -/
  armed : Bool := false
  /-- a tick event has been raised since the bank became active (R19) -/
  ticking : Bool := false
  /-- the delay of grain 0 that the sheet header records (R27) -/
  lateEclk : BitVec 16 := 0
  /-- a cold switch took effect at the last boundary: stall slots are blocked (R35) -/
  coldTick : Bool := false
  /-- a tick event came before the boundary sequence had finished: the delay of grain 0 in ECLK (R27) -/
  lateTick : Option (BitVec 16) := none
  /-- the number of the tick that the next tick event begins (R21) -/
  nextSeq : Word := 0
  /-- with no bank active and a switch requested: the local time in nanoseconds of the boundary that it waits for (R34) -/
  firstNs : Nat := 0
  /-- 64-byte job headers of the PROGRAM entries, read by the dispatch preload (R97): entry index and bytes -/
  preload : Tbl (List Byte) := []
  staging : Option Staging := none
  /-- staging entries that start when the run-on ends (R42) -/
  stagingWait : List Transfer := []
  /-- buffers that count as not staged until a later entry stages them (R42): flat address, stall, length and streams -/
  unstaged : Tbl (Nat × Nat × List Nat) := []
  /-- unit resets that wait for the Reset step (R372): UNIT codes -/
  unitResets : List Nat := []
  /-- local nanosecond count and wraps at the last boundary (R244) -/
  boundaryNs : Word := 0
  boundaryWraps : Nat := 0
  /-- the domain followed at the last boundary, 2 for none (R244, R337) -/
  boundaryFollow : Nat := 2
  /-- streams with an intake gap (R42), marked late (R41) and clipped (R108, R165, R233) in the tick -/
  gaps : List Nat := []
  late : List Nat := []
  clipped : List Nat := []
  deriving DecidableEq, Repr

/-- A PROGRAM slot that runs (R40). -/
structure Slot where
  entry : Nat
  job : Nat
  model : Nat
  deriving DecidableEq, Repr

/-- A stall's state beside its registers (R39 to R45). -/
structure Stall where
  slot : Option Slot := none
  /-- the model a LOAD entry is reading, and its entry -/
  loading : Option (Nat × Nat) := none
  /-- consecutive ticks in which each job has faulted -/
  faultTicks : Tbl Nat := []
  /-- jobs that faulted in the running tick -/
  faultNow : BitVec 32 := 0
  /-- JOB_READMIT bits that wait for the boundary (R43) -/
  readmit : BitVec 32 := 0
  /-- a stall reset waits for the Reset step (R372) -/
  resetPending : Bool := false
  deriving DecidableEq, Repr

/-- A codebook table with its tag (R161). -/
structure CodeTable where
  valid : Bool := false
  number : Byte := 0
  size256 : Bool := false
  efmt : BitVec 2 := 0
  entries : List (BitVec 16) := []
  deriving DecidableEq, Repr

/-- A cluster's sequencer, vector engine and monitors (R97 to R108, R136, R161, R361). -/
structure Cluster where
  /-- length registers, key job * 16 + register -/
  lens : Tbl Word := []
  /-- LFSR states of the 64 lanes -/
  lfsr : Tbl Word := []
  vxTable : CodeTable := {}
  /-- the running slot's stream: its offset in the program part, its count, and how many instructions have started -/
  streamOff : Nat := 0
  started : Nat := 0
  count : Nat := 0
  /-- word 15 of the last MATMUL that started -/
  matWord : Word := 0
  /-- a clamp level set and not yet in effect, and the level in effect (R87) -/
  clampNext : BitVec 2 := 0
  clampNow : BitVec 2 := 0
  clampBelow : Nat := 0
  /-- the clamp window counter where the cluster's last command left it (R87) -/
  window : BitVec 2 := 0
  /-- the highest level since the last telemetry snapshot (R250) -/
  clampHigh : BitVec 2 := 0
  /-- seconds of local time at the last rotation (R398) -/
  lastRot : Nat := 0
  deriving DecidableEq, Repr

/-- A pass waiting for issue: its control word (R79) and its operands (R102, R110, R111). -/
structure PassWork where
  w0 : Word
  w1 : Word
  /-- per facet: the first byte of row 0 of A's M-tile, and of the first column of B -/
  aBase : List Ptr
  aStride : Nat
  bBase : List Ptr
  bStride : Nat
  rows : Nat
  /-- columns that each facet carries -/
  cols : List Nat
  /-- first K element and elements of the tile -/
  k0 : Nat
  kel : Nat
  zpA : Byte
  zpB : Byte
  deriving DecidableEq, Repr

/-- A block drain waiting (R106). -/
structure DrainWork where
  accBase : Nat
  facets : Nat
  rows : Nat
  /-- per facet: the first byte of column 0 of D, the number of columns, the first byte of the bias -/
  parts : List (Ptr × Nat × Ptr)
  biasEn : Bool
  fp : Bool
  /-- no pass ran (K of 0): the drain writes the bias or zero (R109) -/
  empty : Bool
  deriving DecidableEq, Repr

/-- Work of one engine in order. -/
inductive EngWork where
  | pass (p : PassWork)
  | drain (d : DrainWork)
  deriving DecidableEq, Repr

/-- A matrix engine beside its registers and accumulator (R70, R76, R161). -/
structure Engine where
  /-- the active lane registers: for each lane and facet the element codes, after the codebook lookup -/
  active : List (List (List Nat)) := []
  shadow : List (List (List Nat)) := []
  aTable : CodeTable := {}
  bTable : CodeTable := {}
  work : List EngWork := []
  /-- the MATMUL that the work belongs to, its 16 words -/
  instr : List Word := []
  /-- ECLK from the slot that carried the last swap marker to the end of the last pass (R77) -/
  sinceSwap : Nat := 32
  /-- the input buffer: the element codes of A that the last swapping pass loaded, by lane and facet (R70) -/
  input : List (List (List Nat)) := []
  /-- the weight FIFO: the element codes of B that the last pass streamed from it, by column and facet (R70) -/
  fifo : List (List (List Nat)) := []
  /-- words in which the scrub has found an uncorrectable error while a job uses the engine (R93): store code and word index -/
  bad : List (Nat × Nat) := []
  deriving DecidableEq, Repr

/-- The state of the fabric (R8 to R10): the port granted last at each target, and waiting requests. -/
structure Fabric where
  last : Tbl Nat := []
  waiting : List (Nat × FabReq) := []
  /-- waiting scratchpad requests: cluster * 32 + bank, age order -/
  spadWaiting : List (Nat × SpadReq) := []
  /-- regulator buckets, in 1/(16 P) byte (R46); unlisted: full -/
  buckets : Tbl Nat := []
  deriving DecidableEq, Repr

/-- A BPM pool (R283, R284). -/
structure Pool where
  valid : Bool := false
  region : Nat := 0
  store : Store := .dram
  base : Nat := 0
  bufSize : Nat := 0
  count : Nat := 0
  warn : Nat := 0
  bp : Nat := 0
  bpMask : BitVec 3 := 0
  /-- the owner slots of each buffer that is not free, slot 0 first, 0 for an empty slot; at most four (R287) -/
  owners : Tbl (List Nat) := []
  /-- the lowest free count since the last TALLY_CLR -/
  lowFree : Nat := 0
  /-- a channel of its region has frozen since the pool was created (R18) -/
  lost : Bool := false
  deriving DecidableEq, Repr

/-- A picture in a stream's reference structure (R194, R195, R197), under the names that it has there: its picture order count or
frame_num, or the reference slots that hold it. -/
structure RefPic where
  names : List Word
  buf : Ptr
  concealed : Bool
  deriving DecidableEq, Repr

/-- A picture record (R197, R205). -/
structure PicRec where
  stream : Nat
  clipId : Word
  frameNo : Word
  time : Word
  /-- none: a record without a buffer, or a proxy record -/
  buf : Option Ptr
  cropX : Nat
  cropY : Nat
  cropW : Nat
  cropH : Nat
  depth10 : Bool
  mono : Bool
  outcome : Nat
  concealed : Bool
  refConcealed : Bool
  /-- 0 decoder, 1 flagged stream (R173, R174), 2 proxy, 3 sensor, 4 sensor missing (case 4), 5 missing from its
  group -/
  kind : Nat
  /-- CSI-2 data type of a sensor frame -/
  dataType : Nat
  /-- coded size the buffer is laid out for -/
  width : Nat
  height : Nat
  deriving DecidableEq, Repr

/-- An access unit taken in (R182). -/
structure Au where
  /-- gather list: offset in the video store, length, NAL start -/
  extents : List (Nat × Nat × Bool)
  time : Word
  damaged : Bool
  clipId : Word
  clipStart : Bool
  frameNo : Word
  /-- bytes of the circular area that its packets hold (R180) -/
  raw : Nat := 0
  /-- it needed more extents than a gather list holds (R182) -/
  extOver : Bool := false
  deriving DecidableEq, Repr

/-- A stream's intake and decode state (R171 to R199, R222). -/
structure Stream where
  /-- the span fixed by the index read: write index, valid (R174) -/
  fetched : Option Word := none
  /-- flagged substituted for the tick (R173, R174) -/
  flagged : Bool := false
  /-- ring bytes of the tick that lie in the video store: offset and length pieces in order -/
  placed : List (Nat × Nat) := []
  /-- the open access unit of the demultiplexer -/
  openAu : Option Au := none
  /-- access units of the tick, in order, that no decoder has taken -/
  aus : List Au := []
  /-- running frame count, or frame number within the record for re-scan -/
  frameNo : Word := 0
  clipId : Word := 0
  /-- references held with the owner DPB, oldest first -/
  dpb : List RefPic := []
  /-- the last picture passed on -/
  lastOut : Option PicRec := none
  /-- picture records of the tick in the order passed on -/
  pics : List PicRec := []
  /-- how many of them PREPROC records have taken -/
  picsTaken : Nat := 0
  /-- decoding started at the current random access point: its RASL pictures are discarded -/
  skipRasl : Bool := false
  /-- a recovery point has been met and is not complete -/
  recovering : Bool := false
  /-- next byte of the circular area and bytes taken in for the tick (R180) -/
  rtpPos : Nat := 0
  rtpBytes : Nat := 0
  /-- the last sequence number and the timestamp of the access unit closed last, the timestamp of the open one -/
  rtpSeq : Option (BitVec 16) := none
  rtpLast : Word := 0
  rtpTime : Word := 0
  /-- packets of the open access unit by rising sequence number, with their extents (R184) -/
  rtpPkts : List (BitVec 16 × List (Nat × Nat × Bool)) := []
  /-- access units of the flow-table path completed since the last cut-off, and those of the tick that the demultiplexer
  has not taken in yet (R180) -/
  rtpDone : List Au := []
  rtpCut : List Au := []
  /-- the next access unit is the first of a re-scan record (R175) -/
  clipNext : Bool := false
  /-- an initialisation segment has been taken in (R183) -/
  bmffInit : Bool := false
  /-- a CLIP_START, configuration or flush event ends the stream's tracks at the next ASSOC entry: reason (R237) -/
  trackEnd : Nat := 0
  deriving DecidableEq, Repr

/-- A frame in a decoder (R190, R197, R198). -/
structure VdFrame where
  stream : Nat
  au : Au
  header : AuHeader
  buf : Option Ptr
  budget : Nat
  deriving DecidableEq, Repr

/-- A slot-list walk (R190, R204, R261): the list's address, next record, pictures done of the record. -/
structure Walk where
  entry : Nat
  list : Nat
  count : Nat
  ix : Nat
  done : Nat
  deriving DecidableEq, Repr

/-- The intake of the running tick (R173 to R179): the plan's operand, the index read, and the ring reads. -/
structure Intake where
  plan : Nat := 0
  /-- the index read is outstanding; it has completed in time -/
  pending : Bool := false
  ready : Bool := false
  /-- ring reads are outstanding, with the bytes granted to each stream -/
  active : Bool := false
  want : Tbl Nat := []
  /-- bytes of each stream's span -/
  spans : Tbl Nat := []
  deriving DecidableEq, Repr

/-- A decoder. -/
structure Vd where
  walk : Option Walk := none
  frame : Option VdFrame := none
  deriving DecidableEq, Repr

/-- A slot in a pre-processing unit (R213). -/
structure PpWork where
  stream : Nat
  desc : Nat
  slot : Nat
  keepIx : Nat
  budget : Nat
  /-- picture record taken -/
  pic : Option PicRec
  source : Nat
  reason : Nat
  sat : Bool
  proxy : Bool
  deriving DecidableEq, Repr

/-- A pre-processing unit. -/
structure Pp where
  walk : Option Walk := none
  work : Option PpWork := none
  deriving DecidableEq, Repr

/-- What a clip picture's place in its segment asks of its bitstream (R264): the blocks of columns `intraFrom` up to but without
`intraTo` are intra, and blocks left of `intraFrom` predict only from columns left of it. -/
structure SegPlan where
  idr : Bool := false
  intraFrom : Nat := 0
  intraTo : Nat := 0
  /-- the parameter sets go with the picture -/
  sets : Bool := false
  /-- recovery_frame_cnt of its recovery point SEI -/
  recovery : Option Nat := none
  deriving DecidableEq, Repr

/-- A picture in an encoder (R260 to R266). -/
structure VeWork where
  session : Nat
  pic : PicRec
  /-- the buffer of the reconstruction (owner EREF) -/
  recon : Option Ptr
  /-- coded as a skip picture: concealed source, no buffer, or the floor of R266 at the start -/
  skip : Bool
  flags : Nat
  qp : Nat
  budget : Nat
  plan : SegPlan := {}
  /-- the samples it codes, converted to 8-bit 4:2:0 (R260): the luma plane, then Cb and Cr by turns -/
  source : List Byte := []
  /-- a read of its source has failed (R279) -/
  failed : Bool := false
  deriving DecidableEq, Repr

/-- An encoder. -/
structure Ve where
  walk : Option Walk := none
  work : Option VeWork := none
  deriving DecidableEq, Repr

/-- An encoder session (R258 to R270). -/
structure Session where
  /-- a commit that waits for the Latch step: the registers SESS_CTL, QUAL, CAP, GIR, CROP_XY, CROP_WH, RING_LO,
  RING_HI, RING_LOG2 -/
  commit : Option (List Word) := none
  running : Bool := false
  cfg : List Word := []
  seq : Nat := 0
  coded : Nat := 0
  ref : Option Ptr := none
  /-- pictures since the segment's IDR; 0 means the next is an IDR -/
  sinceIdr : Nat := 0
  /-- slice bits of the previous pictures, newest first -/
  bits : List Nat := []
  /-- staged records, oldest first, with their offset in the staging area -/
  staged : List (Nat × Nat) := []
  stagePos : Nat := 0
  gap : Bool := false
  lost : Bool := false
  ringPos : Nat := 0
  lastSeq : Word := 0
  /-- pictures waiting for an encoder in the tick -/
  sources : List PicRec := []
  /-- picture records of the stream met in the tick -/
  taken : Nat := 0
  width : Nat := 0
  height : Nat := 0
  deriving DecidableEq, Repr

/-- A frame in capture at a sensor input, or a candidate (R218, R220). -/
structure CsiFrame where
  buf : Ptr
  stamp : Word
  frameNo : BitVec 16
  lines : Nat
  bad : Bool
  /-- the settings of IN_CTL and IN_SIZE that the frame keeps (R217) -/
  ctl : Word
  size : Word
  deriving DecidableEq, Repr

/-- A sensor input (R217 to R220). -/
structure Sensor where
  openFrame : Option CsiFrame := none
  candidates : List CsiFrame := []
  deriving DecidableEq, Repr

/-- A detection that association has kept (R233, R248). -/
structure Det where
  stream : Nat
  frame : Nat
  cls : Nat
  score : Word
  boxL : Nat
  boxT : Nat
  boxR : Nat
  boxB : Nat
  track : Word
  cost : Nat
  flags : Nat
  user : Word
  deriving DecidableEq, Repr

/-- A track record of the sheet (R249). -/
structure TrkRec where
  id : Word
  state : Nat
  ended : Bool
  reason : Nat
  stream : Nat
  misses : Nat
  boxL : Nat
  boxT : Nat
  boxR : Nat
  boxB : Nat
  hits : Word
  birth : Word
  cls : Nat
  deriving DecidableEq, Repr

/-- A stream's section of the sheet under assembly (R246). -/
structure Section where
  stream : Nat
  /-- frame records: the four manifest words with the frame index, and the flags -/
  frames : List (List Word × Nat)
  dets : List Det
  trks : List TrkRec
  live : Nat
  ctxState : Nat
  cut : Bool
  deriving DecidableEq, Repr

/-- The TAU and the sheets (R230 to R253). -/
structure Tau where
  /-- an ASSOC entry runs (R255) -/
  busy : Bool := false
  /-- the stream records whose initialised bit is set: stream, TRACKS word and T_MAX (R239) -/
  init : List (Nat × Nat × Nat) := []
  sections : List Section := []
  deriving DecidableEq, Repr

/-- A sheet in the holdback (R253): the tick it was assembled in, its area of the holdback (R251), where that area begins, and its
SIZE; its bytes lie there. -/
structure HeldSheet where
  tick : Word
  area : Nat
  at_ : Ptr
  size : Nat
  deriving DecidableEq, Repr

/-- The sheet unit (R242 to R253). -/
structure Sheet where
  held : List HeldSheet := []
  dropped : Nat := 0
  /-- the previous snapshot of the tallies (R250): register key and value -/
  snapshot : Tbl Word := []
  /-- the telemetry of the last snapshot: 128 fixed bytes, then records -/
  fixed : List Byte := []
  records : List (Word × Word) := []
  deriving DecidableEq, Repr

/-- A DRAM channel beside its registers (R293 to R307). -/
structure Dram where
  /-- counts how often the contents became undefined -/
  epoch : Nat := 0
  /-- next patrol scrub burst of each subchannel -/
  scrubA : Nat := 0
  scrubB : Nat := 0
  /-- a MAINT entry has the channel closed -/
  closed : Bool := false
  /-- it has completed training since its domain was last off (R19, R300) -/
  trained : Bool := false
  /-- it has frozen since the last ledger switch that found it in service (R18, R270, R306) -/
  away : Bool := false
  /-- waiting requests of each subchannel, oldest first -/
  queueA : List DramReq := []
  queueB : List DramReq := []
  /-- rolling activation counts per subchannel, rank and bank (R297) -/
  activations : Tbl Nat := []
  /-- the row that each bank has open (R296), by subchannel, rank and bank -/
  openRows : Tbl Nat := []
  /-- saved sweep rows during a MAINT entry -/
  sweepSaved : Bool := false
  deriving DecidableEq, Repr

/-- The endpoint beside its registers (R309 to R325). -/
structure Endpoint where
  memorySpace : Bool := false
  busMaster : Bool := false
  intDisable : Bool := false
  extTag : Bool := false
  tag10 : Bool := false
  ecrcCheck : Bool := false
  pmeEn : Bool := false
  pmeStatus : Bool := false
  aspmL1 : Bool := false
  cplTimeout : BitVec 4 := 0
  d3hot : Bool := false
  /-- INTA is asserted -/
  inta : Bool := false
  wakeLow : Bool := false
  /-- Max_Payload_Size and Max_Read_Request_Size: 128 bytes times a power of two -/
  maxPayload : Fin 3 := 0
  maxReadRequest : Fin 6 := 2
  bar0 : BitVec 64 := 0
  bar2 : BitVec 64 := 0
  /-- outstanding device reads, oldest first, and the reads that wait for a tag -/
  reads : List Egress := []
  waiting : List Egress := []
  /-- an FLR runs: configuration requests get retry status -/
  flr : Bool := false
  /-- PERST# is asserted, or the device acts as though it were (R421) -/
  perst : Bool := false
  supplyHold : Bool := false
  l2 : Bool := false
  deriving DecidableEq, Repr

/-- One target of the interrupt controller beside its registers (R328 to R331). -/
structure IcuTarget where
  active : Option Nat := none
  /-- groups whose hold-off timer runs -/
  running : BitVec 16 := 0
  idle : Bool := false
  output : Bool := false
  deriving DecidableEq, Repr

/-- The interrupt controller (R326 to R333). -/
structure Icu where
  host : IcuTarget := {}
  mgc : IcuTarget := {}
  /-- source 0 is pending -/
  pulse0 : Bool := false
  /-- latches of the E sources 240 to 247 -/
  edges : BitVec 8 := 0
  /-- edges that came while the ICU clock was stopped and are not counted yet -/
  uncounted : Nat := 0
  onFclk : Bool := false
  deriving DecidableEq, Repr

/-- A frame in a forwarding buffer (R350). -/
structure FwdFrame where
  len : Nat
  /-- a PTP event message -/
  event : Bool
  /-- a 1588 Sync or Delay_Req, whose correctionField is updated -/
  correct : Bool
  ingress : Word
  ingressFrac : Byte
  deriving DecidableEq, Repr

/-- The Ethernet block (R348 to R350, R185 to R187). -/
structure Eth where
  /-- frames to leave on EP0 and on EP1 -/
  fwd0 : List FwdFrame := []
  fwd1 : List FwdFrame := []
  /-- new-source records: port word and address -/
  newSources : List (Word × BitVec 128) := []
  deriving DecidableEq, Repr

/-- Power domains (R357 to R359). Unlisted domains are off. -/
structure Power where
  /-- 0 off, 1 retention, 2 on -/
  state : Tbl Nat := []
  /-- a transition in progress: domain and the state it goes to -/
  moving : Tbl Nat := []
  /-- a request taken when the transition ends -/
  queued : Tbl Nat := []
  /-- domains whose stores are being cleared on wake (R280) -/
  clearing : List Nat := []
  tripped : Bool := false
  alarm : Bool := false
  tripLow : Bool := false
  deepIdle : Bool := false
  deriving DecidableEq, Repr

/-- A bundle load in progress (R60). -/
structure Load where
  phase : Nat
  bank : Bool
  base : Nat
  len : Nat
  /-- the channels that have frozen while the load was under way (R68) -/
  frozen : BitVec 8 := 0
  /-- the effective rates and S in force when the Checks phase began (R64): media, host DMA, TAU, then each stall's DRAM
  and fabric cap -/
  caps : List Nat := []
  corr : Nat := 0
  deriving DecidableEq, Repr

/-- What the device keeps of the bundle a bank holds: its header bytes and the REGIONS, POOLS and directory facts that
R59, R67 and R430 need. -/
structure Bundle where
  /-- bytes 0x000 to 0xC7F -/
  header : List Byte := []
  regions : List (List Word) := []
  pools : List (List Word) := []
  /-- digests of the sections, in table order -/
  digests : List (BitVec 256) := []
  /-- section types in table order -/
  types : List Nat := []
  /-- model headers: section index, MODEL_ID, CLUSTERS, PROG_LEN, SPAD_LEN -/
  models : List (Nat × Nat × Nat × Nat × Nat) := []
  deriving DecidableEq, Repr

/-- The loader (R58 to R69). -/
structure Loader where
  load : Option Load := none
  bundleA : Bundle := {}
  bundleB : Bundle := {}
  deriving DecidableEq, Repr

/-- Commands of the security page that run (R382, R378, R379). -/
inductive SecCmd where
  | update
  | record
  | advance
  | raise (target : Nat)
  | revoke (slot : Nat)
  | returned
  | keyProg (slot : Nat)
  deriving DecidableEq, Repr

/-- Security state beside the fuses and registers (R377 to R388). -/
structure Sec where
  fuses : Fuses := {}
  /-- the lifecycle state read at the last power-on reset or PERST# -/
  lcBoot : BitVec 2 := 0
  pendingLc : Bool := false
  tampered : Bool := false
  identity : Bool := false
  wiping : Bool := false
  /-- SEC_REFUSED: accesses refused while the secure store is wiped (R282); the manual gives the count no register -/
  refused : Word := 0
  cmd : Option SecCmd := none
  running : Option Nat := none
  runSlot : BitVec 2 := 0
  runSvn : Nat := 0
  half : Bool := false
  /-- the quote's signed bytes while it is signed -/
  quoteHead : List Byte := []
  quote : List Byte := []
  /-- a firmware switch is latched for the next boundary -/
  updLatched : Bool := false
  fwHash : BitVec 256 := 0
  /-- boot strap I2C_A -/
  strap : BitVec 2 := 0
  deriving DecidableEq, Repr

/-- An entry of the maintenance queue (R401, R403). -/
structure MtEntry where
  test : Nat
  target : Nat
  /-- 0 pending, 1 running, 2 passed, 3 failed, 4 cancelled, 5 gone -/
  result : Nat
  failAddr : Option Nat
  /-- its place in the queue's order -/
  order : Nat := 0
  /-- the running MAINT entry has taken the request (R401) -/
  taken : Bool := false
  deriving DecidableEq, Repr

/-- Services (R394 to R406). -/
structure Service where
  queue : List MtEntry := []
  /-- units out of service and in REJOIN: VD0 to VD7, VE0, VE1, PP0 to PP3 -/
  out : BitVec 14 := 0
  rejoin : BitVec 14 := 0
  /-- requests latched at the next Latch step: unit index and removal -/
  unitReq : Tbl Bool := []
  /-- removals that wait for a switch -/
  unitWait : BitVec 14 := 0
  /-- the same for engines, by physical number -/
  engReq : Tbl Bool := []
  /-- engines out of service, in REJOIN, waiting to leave -/
  engOut : BitVec 64 := 0
  engRejoin : BitVec 64 := 0
  engWait : BitVec 64 := 0
  /-- scrub pointers of the SRAM banks, and writes-back that wait: word and bank -/
  scrub : Tbl Nat := []
  writeback : Tbl Nat := []
  deriving DecidableEq, Repr

/-- The state of the block. -/
structure State where
  /-- the register pages: every register under its key; an unlisted one reads its reset value -/
  regs : Tbl Word := []
  /-- the registers in effect, of those whose writes take effect at a Latch step or a switch -/
  eff : Tbl Word := []
  /-- the bytes of all stores under flat addresses (Ops: `flat`) -/
  mem : Tbl Byte := []
  /-- latent errors, under the flat address of the 64-bit word or of the DRAM burst -/
  upsets : Tbl Upset := []
  /-- accumulator entries whose live bit is set: ((engine * 2048 + entry) * 32 + lane) -/
  acc : Tbl Word := []
  tsu : Tsu := {}
  ledger : Ledger := {}
  stalls : Tbl Stall := []
  clusters : Tbl Cluster := []
  engines : Tbl Engine := []
  fabric : Fabric := {}
  pools : Tbl Pool := []
  streams : Tbl Stream := []
  intake : Intake := {}
  vds : Tbl Vd := []
  pps : Tbl Pp := []
  ves : Tbl Ve := []
  sessions : Tbl Session := []
  sensors : Tbl Sensor := []
  tau : Tau := {}
  sheet : Sheet := {}
  drams : Tbl Dram := []
  ep : Endpoint := {}
  icu : Icu := {}
  eth : Eth := {}
  power : Power := {}
  loader : Loader := {}
  sec : Sec := {}
  svc : Service := {}
  /-- keep buffers that are valid (R214): stream and (descriptor, index) -/
  keeps : List (Nat × Nat × Nat) := []
  /-- the I2C register pointer (R367) -/
  i2cPtr : Word := 0
  /-- what left the device, oldest first: the model's own record -/
  egress : List Egress := []
  /-- numbers the free values: the model's own counter -/
  freeCtr : Nat := 0
  /-- the commands that wait, first in first out -/
  pending : List Instr := []
  deriving DecidableEq, Repr

/-- The state right after reset: every register at the value its table gives, every domain off, every store cleared. -/
def State.reset : State := {}

/-- The outcome of a command or step. -/
abbrev Out := Host.Outcome State Fault Refusal

end Sys2Proof.Machine
end

