-- ==== Sys2Proof/Machine/Pages.lean ====
section
/-!
DEFINITION. The page index of R407: which pages exist, their identification, default owner, interrupt source, registers,
event bits and power domain; and reading and writing the register map of the state.
-/
namespace Sys2Proof.Machine

/-- One row of the page index (R407). -/
structure PageDesc where
  code : Nat
  inst : Nat
  /-- 0 host, 1 MGC -/
  owner : Nat
  /-- interrupt source, none for the debug pages -/
  source : Option Nat
  regs : List RegDesc
  /-- the bits of EVT_RAW that the page's events use -/
  events : Nat
  /-- the switchable domain in which the page's block lies (R357) -/
  domain : Option Nat

/-- The pages of one cluster (R407): `p` counts from 0x100. -/
def clusterPage (p : Nat) : Option PageDesc :=
  let c := p / 16
  let k := p % 16
  if k = 0 then some ⟨0x0100, c, 1, some (24 + c), regsCluster, 3, some c⟩
  else if k ≤ 8 then some ⟨0x0101, 8 * c + (k - 1), 1, some (32 + c), regsMx, 7, some c⟩
  else if k = 9 then some ⟨0x0109, c, 1, some (40 + c), regsVx, 3, some c⟩
  else if k = 10 then some ⟨0x010A, c, 1, some (56 + c), regsPxe, 0, some c⟩
  else if k = 11 then some ⟨0x010B, c, 1, some (56 + c), regsWu, 0, some c⟩
  else if k = 12 then some ⟨0x010C, c, 1, some (48 + c), regsStore, 3, some c⟩
  else none

/-- The pages of the media units (R407): `p` counts from 0x200. -/
def mediaPage (p : Nat) : Option PageDesc :=
  if p = 0x00 then some ⟨0x0200, 0, 0, some 64, regsIntake, 7, none⟩
  else if p = 0x01 then some ⟨0x0201, 0, 0, some 65, regsFlow, 3, none⟩
  else if p = 0x02 then some ⟨0x0202, 0, 1, some 66, regsDemux, 0, none⟩
  else if p = 0x04 then some ⟨0x0204, 0, 0, some 67, regsEvidence, 3, none⟩
  else if p = 0x06 ∨ p = 0x07 then some ⟨0x0206, p - 6, 1, some (68 + (p - 6)), regsVe, 1, some (16 + (p - 6))⟩
  else if 0x08 ≤ p ∧ p ≤ 0x0F then some ⟨0x0208, p - 8, 1, some (70 + (p - 8)), regsVd, 3, some (8 + (p - 8))⟩
  else if 0x10 ≤ p ∧ p ≤ 0x13 then some ⟨0x0210, p - 0x10, 1, some (80 + (p - 0x10)), regsPp, 1, some (18 + (p - 0x10))⟩
  else if 0x18 ≤ p ∧ p ≤ 0x1B then some ⟨0x0218, p - 0x18, 0, some (84 + (p - 0x18)), regsCsi, 3, some 22⟩
  else if p = 0x1C then some ⟨0x021C, 0, 0, some 88, regsAlign, 1, some 22⟩
  else if p = 0x1D then some ⟨0x021D, 0, 0, some 89, regsProxy, 0, none⟩
  else if p = 0x20 then some ⟨0x0220, 0, 1, some 78, regsTau, 3, none⟩
  else if p = 0x21 then some ⟨0x0221, 0, 0, some 79, regsSheet, 1, none⟩
  else none

/-- The pages of the chip, the ledger and the stalls (R407). -/
def chipPage (p : Nat) : Option PageDesc :=
  if p = 0x000 then some ⟨0x0001, 0, 0, some 112, regsChip, 0, none⟩
  else if p = 0x002 then some ⟨0x0002, 0, 0, some 114, regsLoader, 3, none⟩
  else if p = 0x003 then some ⟨0x0003, 0, 0, some 115, regsBoot, 1, none⟩
  else if p = 0x004 then some ⟨0x0004, 0, 0, some 116, regsPower, 1, none⟩
  else if p = 0x005 then some ⟨0x0005, 0, 1, some 117, regsThermal, 3, none⟩
  else if p = 0x006 then some ⟨0x0006, 0, 0, some 118, regsSecurity, 7, none⟩
  else if p = 0x007 then some ⟨0x0007, 0, 0, some 119, regsFuse, 1, none⟩
  else if p = 0x008 then some ⟨0x0008, 0, 0, some 120, regsIcu, 1, none⟩
  else if p = 0x009 then some ⟨0x0008, 1, 1, some 121, regsIcu.filter (fun r => r.off != 0x148 && r.off != 0xE0C), 1, none⟩
  else if p = 0x00A then some ⟨0x000A, 0, 0, some 122, regsService, 3, none⟩
  else if p = 0x010 then some ⟨0x0010, 0, 1, some 13, regsTick, 0, none⟩
  else if p = 0x011 then some ⟨0x0011, 0, 0, some 12, regsLedger, 1, none⟩
  else if p = 0x012 then some ⟨0x0012, 0, 0, some 14, regsShared, 0, none⟩
  else if 0x018 ≤ p ∧ p ≤ 0x01F then some ⟨0x0018, p - 0x18, 0, some (16 + (p - 0x18)), regsStall, 0, none⟩
  else none

/-- The pages of memory, host link and time (R407). -/
def uncorePage (p : Nat) : Option PageDesc :=
  if 0x300 ≤ p ∧ p ≤ 0x307 then some ⟨0x0300, p - 0x300, 0, some (2 + (p - 0x300)), regsDc, 7, some (25 + (p - 0x300) / 2)⟩
  else if p = 0x310 then some ⟨0x0310, 0, 0, some 10, regsMap, 0, none⟩
  else if p = 0x318 then some ⟨0x0318, 0, 1, some 11, regsBpm, 7, none⟩
  else if p = 0x319 then some ⟨0x0319, 0, 1, some 90, regsStore, 3, some 24⟩
  else if p = 0x31A then some ⟨0x031A, 0, 1, some 91, regsStore, 3, none⟩
  else if p = 0x400 then some ⟨0x0400, 0, 0, some 1, regsEndpoint, 3, none⟩
  else if p = 0x401 then some ⟨0x0401, 0, 0, some 92, regsAperture, 0, none⟩
  else if p = 0x500 then some ⟨0x0500, 0, 1, some 96, regsTime, 3, none⟩
  else if p = 0x501 ∨ p = 0x502 then some ⟨0x0501, p - 0x501, 1, some (97 + (p - 0x501)), regsDomain, 1, none⟩
  else if p = 0x503 ∨ p = 0x504 then some ⟨0x0503, p - 0x503, 0, some (99 + (p - 0x503)), regsEp, 1, some 23⟩
  else if p = 0x505 then some ⟨0x0505, 0, 0, some 101, regsSystem, 0, none⟩
  else if 0xF00 ≤ p ∧ p ≤ 0xFFF then some ⟨0x0F00, p % 256, 1, none, [], 0, none⟩
  else none

/-- The page index (R407); none for a page that is not implemented. -/
def pageDesc (p : Nat) : Option PageDesc :=
  if p < 0x100 then chipPage p
  else if p < 0x180 then clusterPage (p - 0x100)
  else if 0x200 ≤ p ∧ p < 0x300 then mediaPage (p - 0x200)
  else if 0x300 ≤ p then uncorePage p
  else none

/-- The descriptor of a register; none at a reserved offset. -/
def regDesc (page off : Nat) : Option RegDesc :=
  match pageDesc page with
  | none => none
  | some d => ((if off < 0x100 then regsCommon else d.regs).find? (fun r => r.off == off))

/-- The value that an unlisted key reads: the register's reset value, with PAGE_ID and OWNER by R407 and R408. -/
def regReset (k : Nat) : Word :=
  match pageDesc (keyPage k) with
  | none => 0
  | some d =>
    if keyOff k = 0x000 then BitVec.ofNat 32 (d.code * 65536 + d.inst * 256 + 1)
    else if keyOff k = 0x01C then BitVec.ofNat 32 d.owner
    else if keyPage k = 0 ∧ keyOff k = 0x100 then 0x00106410
    else if d.code = 0x0101 ∧ keyOff k = 0x100 then
      BitVec.ofNat 32 (d.inst % 8 * 257 + (if d.inst % 8 = 0 then 65536 else 0))
    else
      match (if keyOff k < 0x100 then regsCommon else d.regs).find? (fun r => r.off == keyOff k) with
      | some r => r.reset
      | none => 0

/-- What an unlisted register key reads as. -/
def regDefault (k : Nat) : Option Word := some (regReset k)

/-- The value of a register under its key. -/
def State.reg (s : State) (k : Nat) : Word := mapGetD s.regs k (regReset k)

/-- Set a register under its key, through the internal path (R410). -/
def State.setReg (s : State) (k : Nat) (v : Word) : State := { s with regs := mapPut regDefault k v s.regs }

/-- The value in effect of a register whose writes take effect at a Latch step or a switch. -/
def State.effReg (s : State) (k : Nat) : Word := mapGetD s.eff k (regReset k)

/-- The register's value as a number. -/
def State.regN (s : State) (k : Nat) : Nat := (s.reg k).toNat

/-- Bits [hi:lo] of a word, as a number. -/
def bits (w : Word) (hi lo : Nat) : Nat := (w.toNat / 2 ^ lo) % 2 ^ (hi + 1 - lo)

/-- Bit n of a word. -/
def bit (w : Word) (n : Nat) : Bool := w.toNat.testBit n

/-- The mask of bits [hi:lo]. -/
def fieldMask (hi lo : Nat) : Word := BitVec.ofNat 32 ((2 ^ (hi + 1 - lo) - 1) * 2 ^ lo)

/-- The bits that a register's fields cover; the others are reserved and read 0 (R3). -/
def fieldsMask (fs : List (Nat × Nat)) : Word := fs.foldl (fun m f => m ||| fieldMask f.1 f.2) 0

/-- A word with the bits of `mask` taken from `v`. -/
def mergeBits (old mask v : Word) : Word := (old &&& ~~~mask) ||| (v &&& mask)

/-- Count `n` events in a tally; it saturates (R6). -/
def State.count (s : State) (k : Nat) (n : Nat) : State :=
  s.setReg k (BitVec.ofNat 32 (min (s.regN k + n) 0xFFFFFFFF))

/-- Count one event in a tally (R6). -/
def State.tally (s : State) (k : Nat) : State := s.count k 1

/-- Set a page event (R4, R5). -/
def State.event (s : State) (page : Nat) (mask : Word) : State :=
  s.setReg (Reg.EVT_RAW page) (s.reg (Reg.EVT_RAW page) ||| mask)

/-- Count a dropped write (R4, R413). -/
def State.drop (s : State) (page : Nat) : State := s.tally (Reg.DROP_TALLY page)

/-- Set bits [hi:lo] of a register through the internal path. -/
def State.setField (s : State) (k hi lo : Nat) (v : Nat) : State :=
  s.setReg k (mergeBits (s.reg k) (fieldMask hi lo) (BitVec.ofNat 32 (v * 2 ^ lo)))

/-- Put one register at its reset value. -/
def State.clearReg (s : State) (k : Nat) : State := s.setReg k (regReset k)

/-- Remove from a register map every key of the pages that `p` names: their registers are at the reset values (R371). -/
def dropPages (p : Nat → Bool) (t : Tbl Word) : Tbl Word := t.filter (fun e => !p (keyPage e.1))

/-- A reset of pages: every field, tally and lock bit at its reset value (R371, R408); the telemetry counts their tallies from
there (R250). -/
def State.resetPages (s : State) (p : Nat → Bool) : State :=
  { s with
    regs := dropPages p s.regs, eff := dropPages p s.eff
    sheet := { s.sheet with snapshot := dropPages p s.sheet.snapshot } }

/-- The pages of the units by number. -/
def pageStall (n : Nat) : Nat := 0x018 + n
/-- The control page of a cluster. -/
def pageCluster (c : Nat) : Nat := 0x100 + 16 * c
/-- The page of matrix engine e, physical number. -/
def pageMx (e : Nat) : Nat := 0x101 + 16 * (e / 8) + e % 8
/-- The vector engine page of a cluster. -/
def pageVx (c : Nat) : Nat := 0x109 + 16 * c
/-- The scratchpad page of a cluster. -/
def pageSpad (c : Nat) : Nat := 0x10C + 16 * c
/-- The encoder page. -/
def pageVe (n : Nat) : Nat := 0x206 + n
/-- The decoder page. -/
def pageVd (n : Nat) : Nat := 0x208 + n
/-- The pre-processing page. -/
def pagePp (n : Nat) : Nat := 0x210 + n
/-- The CSI port page. -/
def pageCsi (n : Nat) : Nat := 0x218 + n
/-- The DRAM channel page. -/
def pageDc (n : Nat) : Nat := 0x300 + n
/-- The page of a time domain. -/
def pageDomain (n : Nat) : Nat := 0x501 + n
/-- The page of an Ethernet port. -/
def pageEp (n : Nat) : Nat := 0x503 + n

/-- The state of a power domain: 0 off, 1 retention, 2 on (R357). -/
def State.domState (s : State) (d : Nat) : Nat := mapGetD s.power.state d 0

/-- The domain is on. -/
def State.domOn (s : State) (d : Nat) : Bool := s.domState d == 2

/-- The current tick number (R21). -/
def State.tick (s : State) : Word := s.reg Reg.TICK_SEQ

end Sys2Proof.Machine
end

