-- ==== Sys2Proof/Machine/Select.lean ====
section
/-!
DEFINITION. The selection registers (R69, R187, R201, R202, R229, R272, R291, R307, R308, R355): which copy of a register that
exists for every stream, entry, session and so on an access to its offset reaches.
-/
namespace Sys2Proof.Machine

/-- The bank of the flow entry staging set (R187): entries are banks 0 to 255. -/
def flowStaging : Nat := 256

/-- The bank that an access to a page's offset reaches. -/
def State.bankOf (s : State) (p off : Nat) : Nat :=
  if p = 0x200 then
    (if (0x114 ≤ off ∧ off ≤ 0x130) ∨ (0xE40 ≤ off ∧ off ≤ 0xE50) then bits (s.reg Reg.INTAKE_STREAM_SEL) 7 0 else 0)
  else if p = 0x201 then
    (if 0x104 ≤ off ∧ off ≤ 0x11C then flowStaging else if off = 0xE40 then bits (s.reg Reg.FLOW_FLOW_SEL) 7 0 else 0)
  else if p = 0x204 then (if 0x104 ≤ off ∧ off ≤ 0x12C then bits (s.reg Reg.EVIDENCE_SESS_SEL) 3 0 else 0)
  else if p = 0x21C then
    (if 0x104 ≤ off ∧ off ≤ 0x110 then bits (s.reg Reg.ALIGN_IN_SEL) 3 0
     else if off = 0x144 then bits (s.reg Reg.ALIGN_GRP_SEL) 2 0 else 0)
  else if p = 0x21D then (if off = 0x144 then bits (s.reg Reg.PROXY_STREAM_SEL) 7 0 else 0)
  else if p = 0x318 then (if off = 0xE40 then bits (s.reg Reg.BPM_POOL_SEL) 5 0 else 0)
  else if 0x300 ≤ p ∧ p ≤ 0x307 then (if off = 0x110 then bits (s.reg (Reg.DC_LANE_SEL (p - 0x300))) 5 0 else 0)
  else if p = 0x310 then (if 0x104 ≤ off ∧ off ≤ 0x10C then bits (s.reg Reg.MAP_SET_SEL) 2 0 else 0)
  else if p = 0x503 ∨ p = 0x504 then
    (if off = 0x12C ∨ off = 0x130 then bits (s.reg (Reg.EP_MC_SEL (p - 0x503))) 3 0 else 0)
  else 0

/-- The key of the register that an access to a page's offset reaches. -/
def State.keyAt (s : State) (p off : Nat) : Nat := bkey (s.bankOf p off) p off

end Sys2Proof.Machine
end

