-- ==== Sys2Proof/Config.lean ====
section
/-!
DEFINITION. What the manual leaves to another standard or leaves open: opaque constants without a body, so that nothing
can be proved of their values (notes/assumptions/3.md to 5.md).
-/
namespace Sys2Proof.Config

/-- FREE VALUE: a byte of device DRAM that nothing has written since its contents were last undefined (R300, R304);
the first argument is the channel's epoch, the second the device address. -/
opaque dramByte : Nat → Nat → Byte

/-- FREE VALUE: the n-th open word (`State.freeCtr` numbers them). -/
opaque freeWord : Nat → Word

/-- FREE VALUE: the full PTP time, in units of 2^32 ns, that the firmware holds at its n-th reference point (R337): no command
carries the seconds that the masters announce. -/
opaque ptpWraps : Nat → BitVec 46

/-- UNINTERPRETED: SHAKE256 of a byte string, 32 bytes of output (FIPS 202). -/
opaque shake256 : List Byte → BitVec 256

/-- UNINTERPRETED: verification of a pure SLH-DSA-SHAKE-192s signature, empty context (FIPS 205): key, message,
signature. -/
opaque slhVerify : List Byte → List Byte → List Byte → Bool

/-- UNINTERPRETED: the identity public key of a device (R385): device secret and serial number; 32 bytes. -/
opaque identityKey : BitVec 256 → BitVec 64 → List Byte

/-- UNINTERPRETED: the SLH-DSA-SHAKE-128f signature of a quote (R386): secret, serial number, bytes 0x000 to 0x0FF. -/
opaque quoteSignature : BitVec 256 → BitVec 64 → List Byte → List Byte

/-- UNINTERPRETED: the 32-bit signature of R28 over the carry region records; the manual gives no algorithm. -/
opaque carrySignature : List Byte → Word

/-- FREE VALUE: the exponent of the first root of the generator of R302's code; the manual gives the field and the distance. -/
opaque rsFirstRoot : Nat

/-- FREE VALUE: how far the RAAIMT of a channel's components lies above 40 (R293, R297). -/
opaque raaimtOver : Nat → Nat

/-- FREE VALUE: the page hint of a DMA descriptor's requests is keep-open (R296, R297): the bundle's signed header, variant, entry and
place among the entry's extents. The hint has no field in the manual. -/
opaque keepOpen : List Byte → Nat → Nat → Nat → Bool

/-- FREE VALUE: a check of a staging entry fails, by its reason code, 0 for none: the bundle's signed header, variant and
entry. Staging descriptors have no layout in the manual. -/
opaque stagingRefuses : List Byte → Nat → Nat → Nat

end Sys2Proof.Config
end

