-- ==== Sys2Proof/Machine/Mem.lean ====
section
/-!
DEFINITION. The stores and their bytes (R274, R275, R294, R295): where an address lies, reading and writing bytes and
little-endian words, and the clearing of ranges. Every byte of a store has one flat number: DRAM bytes lie at
channel * 2^34 + channel offset, the on-chip stores from 2^38 on.
-/
namespace Sys2Proof.Machine

/-- Bytes of a store (R274, R294). -/
def storeSize : Store → Nat
  | .dram => 2 ^ 37
  | .common => 0x3000000
  | .video => 0x800000
  | .mgcMem => 0x200000
  | .secure => 0x40000
  | .spad _ => 0x800000

/-- Flat number of a store's first byte. -/
def storeBase : Store → Nat
  | .dram => 0
  | .common => 2 ^ 38
  | .video => 2 ^ 38 + 0x10000000
  | .mgcMem => 2 ^ 38 + 0x20000000
  | .secure => 2 ^ 38 + 0x30000000
  | .spad c => 2 ^ 38 + 0x40000000 + c.val * 0x800000

/-- A flat number lies in DRAM. -/
def flatIsDram (k : Nat) : Bool := k < 2 ^ 37

/-- What an unlisted byte reads as where that is one value: on-chip stores are cleared (R280); DRAM has none. -/
def memDefault (k : Nat) : Option Byte := if flatIsDram k then none else some 0

/-- The capacity of a channel in GiB by its CFG (R293); 0 for one not populated. -/
def dcCapacity (cfg : Word) : Nat :=
  if bit cfg 0 then (if bit cfg 3 ∧ bits cfg 5 4 = 1 ∧ bit cfg 6 = false then 8 else 16) else 0

/-- CFG's component, density and rank fields name a row of R293 and its rate is no reserved code. -/
def dcRowOk (cfg : Word) : Bool :=
  decide (bits cfg 2 1 ≠ 3) &&
    ((bit cfg 3 == false && bits cfg 5 4 == 1 && bit cfg 6 == false) ||
     (bit cfg 3 && bits cfg 5 4 == 1) ||
     (bit cfg 3 && bits cfg 5 4 == 2 && bit cfg 6 == false))

/-- ceil(a / b). -/
def cdiv (a b : Nat) : Nat := (a + b - 1) / b

/-- One interleave set (R294). -/
structure MapSet where
  base : Nat
  size : Nat
  mask : Nat
  off : Nat
  deriving DecidableEq, Repr

/-- Two ranges of one store share a byte. -/
def meets (a n b m : Nat) : Bool := decide (a < b + m) && decide (b < a + n)

/-- The channels of a mask, ascending. -/
def maskChannels (m : Nat) : List Nat := (List.range 8).filter (fun c => m.testBit c)

/-- Set i of the map page (R308). -/
def State.mapSet (s : State) (i : Nat) : MapSet :=
  { base := bits (s.reg (Reg.MAP_SET_BASE i)) 6 0
    size := bits (s.reg (Reg.MAP_SET_CFG i)) 12 8
    mask := bits (s.reg (Reg.MAP_SET_CFG i)) 7 0
    off := bits (s.reg (Reg.MAP_SET_CFG i)) 20 16 }

/-- The number of channels of a set, P. -/
def MapSet.p (m : MapSet) : Nat := (maskChannels m.mask).length

/-- Two sets overlap in device address, or share a channel and overlap in channel offset (R294). -/
def setsOverlap (a b : MapSet) : Bool :=
  (decide (a.base < b.base + b.p * b.size) && decide (b.base < a.base + a.p * a.size)) ||
  (decide (a.mask &&& b.mask ≠ 0) && decide (a.off < b.off + b.size) && decide (b.off < a.off + a.size))

/-- A set of non-zero SIZE whose mask has no legal count, or which exceeds the populated capacity (R294). -/
def State.setBad (s : State) (m : MapSet) : Bool :=
  (decide (m.p ≠ 1 ∧ m.p ≠ 2 ∧ m.p ≠ 4 ∧ m.p ≠ 8)) ||
  (maskChannels m.mask).any (fun c => decide (dcCapacity (s.reg (Reg.DC_CFG c)) < m.off + m.size))

/-- SET_STATE[1]: set i is ignored (R294). -/
def State.setIgnored (s : State) (i : Nat) : Bool :=
  decide ((s.mapSet i).size ≠ 0) &&
  (s.setBad (s.mapSet i) ||
   (List.range 8).any (fun j => decide (j ≠ i) && decide ((s.mapSet j).size ≠ 0) && setsOverlap (s.mapSet i) (s.mapSet j)))

/-- The set is in use and not ignored: SET_STATE[0]. -/
def State.setValid (s : State) (i : Nat) : Bool := decide ((s.mapSet i).size ≠ 0) && !s.setIgnored i

/-- The address lies in the set; device addresses have 37 bits (R294). -/
def MapSet.holds (m : MapSet) (a : Nat) : Bool :=
  decide (m.base * 2 ^ 30 ≤ a) && decide (a < (m.base + m.p * m.size) * 2 ^ 30) && decide (a < 2 ^ 37)

/-- The channel and channel offset of a device address in a set (R294). -/
def MapSet.place (m : MapSet) (a : Nat) : Nat × Nat :=
  let d := a - m.base * 2 ^ 30
  let u := d / 256
  ((maskChannels m.mask).getD (u % m.p) 0, m.off * 2 ^ 30 + (u / m.p) * 256 + d % 256)

/-- The channel and channel offset of a device address; none where it lies in no set (R294). -/
def State.dramPlace (s : State) (a : Nat) : Option (Nat × Nat) :=
  match (List.range 8).find? (fun i => s.setValid i && (s.mapSet i).holds a) with
  | some i => some ((s.mapSet i).place a)
  | none => none

/-- The flat number of a byte; none where the address has no byte. -/
def State.flat (s : State) (p : Ptr) : Option Nat :=
  match p.store with
  | .dram => (s.dramPlace p.addr).map (fun x => x.1 * 2 ^ 34 + x.2)
  | st => if p.addr < storeSize st then some (storeBase st + p.addr) else none

/-- The byte n places on. -/
def ptrAdd (p : Ptr) (n : Nat) : Ptr := { p with addr := p.addr + n }

/-- The epoch of a DRAM channel's contents. -/
def State.epoch (s : State) (c : Nat) : Nat := (mapGetD s.drams c {}).epoch

/-- The byte under a flat number: an unlisted DRAM byte is a free value of its channel's epoch, an unlisted byte of an
on-chip store is 0. -/
def State.byte (s : State) (k : Nat) : Byte :=
  match mapGet s.mem k with
  | some b => b
  | none => if flatIsDram k then Config.dramByte (s.epoch (k / 2 ^ 34)) k else 0

/-- Write one byte under its flat number. -/
def State.putByte (s : State) (k : Nat) (b : Byte) : State := { s with mem := mapPut memDefault k b s.mem }

/-- The byte at an address; 0 where the address has none. -/
def State.peek (s : State) (p : Ptr) : Byte :=
  match s.flat p with
  | some k => s.byte k
  | none => 0

/-- n bytes from an address on. -/
def State.peeks (s : State) (p : Ptr) (n : Nat) : List Byte := (List.range n).map (fun i => s.peek (ptrAdd p i))

/-- Put bytes into the memory list at rising addresses of a store; an address without a byte takes none. -/
def pokeList (f : Ptr → Option Nat) (p : Ptr) : List Byte → Tbl Byte → Tbl Byte
  | [], m => m
  | b :: r, m =>
    pokeList f (ptrAdd p 1) r (match f p with
      | some k => mapPut memDefault k b m
      | none => m)

/-- Write bytes from an address on. -/
def State.pokes (s : State) (p : Ptr) (d : List Byte) : State := { s with mem := pokeList s.flat p d s.mem }

/-- The number that bytes spell, first byte lowest. -/
def leNat : List Byte → Nat
  | [] => 0
  | b :: r => b.toNat + 256 * leNat r

/-- n bytes of a number, lowest first. -/
def leBytes : Nat → Nat → List Byte
  | 0, _ => []
  | n + 1, x => BitVec.ofNat 8 x :: leBytes n (x / 256)

/-- The 32-bit little-endian word at an address. -/
def State.word (s : State) (p : Ptr) : Word := BitVec.ofNat 32 (leNat (s.peeks p 4))

/-- The 16-bit little-endian number at an address. -/
def State.half (s : State) (p : Ptr) : Nat := leNat (s.peeks p 2)

/-- n words from an address on. -/
def State.words (s : State) (p : Ptr) (n : Nat) : List Word := (List.range n).map (fun i => s.word (ptrAdd p (4 * i)))

/-- The words spelled by bytes. -/
def bytesWord (d : List Byte) (off : Nat) : Word := BitVec.ofNat 32 (leNat ((d.drop off).take 4))

/-- The 16-bit number at an offset of bytes. -/
def bytesHalf (d : List Byte) (off : Nat) : Nat := leNat ((d.drop off).take 2)

/-- The bytes of words, in order. -/
def wordBytes (ws : List Word) : List Byte := ws.flatMap (fun w => leBytes 4 w.toNat)

/-- Clear n bytes from an address of an on-chip store to zero: the entries of the range leave the list (R280). -/
def State.clearRange (s : State) (p : Ptr) (n : Nat) : State :=
  let b := storeBase p.store + p.addr
  { s with
    mem := s.mem.filter (fun e => !(decide (b ≤ e.1) && decide (e.1 < b + n)))
    upsets := s.upsets.filter (fun e => !(decide (b ≤ e.1) && decide (e.1 < b + n))) }

/-- The contents of a channel become undefined: its cells leave the list and its epoch rises (R300, R304). -/
def State.loseChannel (s : State) (c : Nat) : State :=
  { s with
    mem := s.mem.filter (fun e => !(flatIsDram e.1 && decide (e.1 / 2 ^ 34 = c)))
    upsets := s.upsets.filter (fun e => !(flatIsDram e.1 && decide (e.1 / 2 ^ 34 = c)))
    drams := tblSet {} c { mapGetD s.drams c {} with epoch := s.epoch c + 1 } s.drams }

/-- The memory list has its canonical form: rising flat numbers, no on-chip byte listed at 0. -/
abbrev Memory.wf (m : Tbl Byte) : Prop := mapWf memDefault m = true

end Sys2Proof.Machine
end

