-- ==== Sys2Proof/Machine/Bank.lean ====
section
/-!
DEFINITION. The ledger banks (R28, R29), the entries of the running variant, the region records of the active bundle (R57)
and the tick-parity addressing (R430); the lookup of a unit in those.
-/
namespace Sys2Proof.Machine

/-- First byte of a bank in the common store (R28): A, then B. -/
def bankPtr (b : Bool) : Ptr := { store := .common, addr := if b then 0x2F00000 else 0x2E00000 }

/-- A word of a bank. -/
def State.bankWord (s : State) (b : Bool) (off : Nat) : Word := s.word (ptrAdd (bankPtr b) off)

/-- The entry format (R29). -/
structure Entry where
  start : Nat
  unit : Nat
  action : Nat
  altOnly : Bool
  length : Nat
  alt : Nat
  altValid : Bool
  operand : Nat
  job : Nat
  model : Nat
  deriving DecidableEq, Repr

/-- The fields of an entry's four words (R29). -/
def parseEntry (w0 w1 w2 w3 : Word) : Entry :=
  { start := bits w0 17 0, unit := bits w0 25 18, action := bits w0 29 26, altOnly := bit w0 31
    length := bits w1 17 0, alt := bits w1 30 18, altValid := bit w1 31
    operand := w2.toNat, job := bits w3 4 0, model := bits w3 20 5 }

/-- The number of entries of variant v in the header words COUNT01 and COUNT23 (R28). -/
def State.variantCount (s : State) (b : Bool) (v : Nat) : Nat :=
  let w := s.bankWord b (if v < 2 then 0x014 else 0x018)
  if v % 2 = 0 then bits w 13 0 else bits w 29 16

/-- Entry i of variant v of a bank. -/
def State.bankEntry (s : State) (b : Bool) (v i : Nat) : Entry :=
  let o := 0x200 + 0x20000 * v + 16 * i
  parseEntry (s.bankWord b o) (s.bankWord b (o + 4)) (s.bankWord b (o + 8)) (s.bankWord b (o + 12))

/-- LEDGER.ACTIVE[0]: the active bank. -/
def State.actBank (s : State) : Bool := bit (s.reg Reg.LEDGER_ACTIVE) 0

/-- A bank is active. -/
def State.bankActive (s : State) : Bool := bit (s.reg Reg.LEDGER_ACTIVE) 1

/-- The running variant. -/
def State.variant (s : State) : Nat := bits (s.reg Reg.LEDGER_ACTIVE) 3 2

/-- The halt stage: 0 none, 1 first, 2 halted. -/
def State.haltStage (s : State) : Nat := bits (s.reg Reg.LEDGER_ACTIVE) 5 4

/-- The state of a bank (R33). -/
def State.bankState (s : State) (b : Bool) : Nat :=
  if b then bits (s.reg Reg.LEDGER_BANK_STATE) 7 4 else bits (s.reg Reg.LEDGER_BANK_STATE) 3 0

/-- Set the state of a bank. -/
def State.setBankState (s : State) (b : Bool) (v : Nat) : State :=
  if b then s.setField Reg.LEDGER_BANK_STATE 7 4 v else s.setField Reg.LEDGER_BANK_STATE 3 0 v

/-- Units whose entries stop at the first halt stage (R36); the CUTOFF of the host DMA stops with them. -/
def haltStops (e : Entry) : Bool :=
  (decide (0x10 ≤ e.unit) && decide (e.unit ≤ 0x1D)) || e.unit == 0x20 || e.unit == 0x21 ||
  (e.unit == 0x1F && e.action == 9)

/-- Every channel of the pitches that the active bank names has completed training (R19). -/
def State.pitchTrained (s : State) : Bool :=
  (List.range 8).all (fun st => (maskChannels (bits (s.reg (Reg.STALL_PITCH st)) 7 0)).all (fun c => (mapGetD s.drams c {}).trained))

/-- Entry i of the running variant, if it runs in its own right: a bank is active and ticking, the device does not wait in Arm, the
entry lies within the variant's count and is not alternate-only, no halt stage stops it, and the channels of the pitches have
completed training (R19, R22, R27, R32, R36). -/
def State.entry (s : State) (i : Nat) : Option Entry :=
  if s.bankActive = true ∧ s.ledger.ticking = true ∧ s.ledger.armed = false ∧ i < s.variantCount s.actBank s.variant ∧
      s.pitchTrained = true then
    let e := s.bankEntry s.actBank s.variant i
    if e.altOnly = true ∨ s.haltStage = 2 ∨ (s.haltStage = 1 ∧ haltStops e = true) then none else some e
  else none

/-- Entry i, if it runs on a unit whose code lies in [lo, hi] with that action. -/
def State.entryFor (s : State) (i lo hi action : Nat) : Option Entry :=
  match s.entry i with
  | some e => if lo ≤ e.unit ∧ e.unit ≤ hi ∧ e.action = action then some e else none
  | none => none

/-- The bundle that a bank holds. -/
def State.bundle (s : State) (b : Bool) : Bundle := if b then s.loader.bundleB else s.loader.bundleA

/-- The active bundle. -/
def State.active (s : State) : Bundle := s.bundle s.actBank

/-- A region record (R57). -/
structure Region where
  kind : Nat
  store : Nat
  cluster : Nat
  owner : Nat
  section_ : Nat
  base : Nat
  size : Nat
  job : Nat
  deriving DecidableEq, Repr

/-- The fields of a region record's words. -/
def parseRegion (ws : List Word) : Region :=
  let w := fun i => ws.getD i 0
  { kind := bits (w 0) 7 0, store := bits (w 0) 11 8, cluster := bits (w 0) 14 12, owner := bits (w 0) 23 16
    section_ := bits (w 0) 31 24, base := (w 1).toNat + bits (w 2) 4 0 * 2 ^ 32, size := (w 3).toNat
    job := bits (w 4) 4 0 }

/-- The records of a bundle. -/
def Bundle.recs (b : Bundle) : List Region := b.regions.map parseRegion

/-- The store that a STORE code and a cluster name (R57). -/
def storeOf (code cluster : Nat) : Store :=
  if code = 0 then .dram else if code = 1 then .common else .spad (Fin.ofNat 8 cluster)

/-- The region's first byte. -/
def Region.ptr (r : Region) : Ptr := { store := storeOf r.store r.cluster, addr := r.base }

/-- The address lies in the region. -/
def Region.holds (r : Region) (p : Ptr) : Bool :=
  decide (r.ptr.store = p.store) && decide (r.base ≤ p.addr) && decide (p.addr < r.base + r.size)

/-- The k-th even region's odd partner (R430): the k-th odd record of the same store. -/
def oddPartner (rs : List Region) (r : Region) : Option Region :=
  let same := fun (k : Nat) => rs.filter (fun x => x.kind == k && decide (x.ptr.store = r.ptr.store))
  match (same 4).findIdx? (fun x => decide (x = r)) with
  | some k => (same 5)[k]?
  | none => none

/-- The address a unit presents for a descriptor's address: relocated when the parity in use is odd (R430). -/
def State.relocate (s : State) (odd : Bool) (p : Ptr) : Ptr :=
  if odd then
    let rs := s.active.recs
    match rs.find? (fun r => r.kind == 4 && r.holds p) with
    | some r =>
      match oddPartner rs r with
      | some o => { p with addr := p.addr + o.base - r.base }
      | none => p
    | none => p
  else p

/-- Parity in use of the PP units (R430): the tick in which they run. -/
def State.ppOdd (s : State) : Bool := bit s.tick 0

/-- Parity in use of every other unit (R430): the tick before the one in which it runs. -/
def State.unitOdd (s : State) : Bool := bit (s.tick - 1) 0

/-- The first byte of the action area: the record of KIND 2 (R55, R57). -/
def State.actionBase (s : State) : Ptr :=
  match s.active.recs.find? (fun r => r.kind == 2) with
  | some r => r.ptr
  | none => { store := .dram, addr := 0 }

/-- The byte at an offset of the action area (R29). -/
def State.actionPtr (s : State) (off : Nat) : Ptr := ptrAdd s.actionBase off

/-- The stall table record of a stall in a bank (R28): cluster mask, pitch mask. -/
def State.stallMasks (s : State) (b : Bool) (st : Nat) : Nat × Nat :=
  let w := s.bankWord b (0x040 + 32 * st)
  (bits w 7 0, bits w 15 8)

/-- The clusters of a stall of the active bank, ascending (R53). -/
def State.stallClusters (s : State) (st : Nat) : List Nat := maskChannels (bits (s.reg (Reg.STALL_CLUSTERS st)) 7 0)

/-- The stall that holds a cluster. -/
def State.clusterStall (s : State) (c : Nat) : Option Nat :=
  (List.range 8).find? (fun st => (bits (s.reg (Reg.STALL_CLUSTERS st)) 7 0).testBit c)

/-- The stall record. -/
def State.stall (s : State) (st : Nat) : Stall := mapGetD s.stalls st {}
/-- Set a stall record. -/
def State.setStall (s : State) (st : Nat) (v : Stall) : State := { s with stalls := tblSet {} st v s.stalls }
/-- The cluster record. -/
def State.cluster (s : State) (c : Nat) : Cluster := mapGetD s.clusters c {}
/-- Set a cluster record. -/
def State.setCluster (s : State) (c : Nat) (v : Cluster) : State := { s with clusters := tblSet {} c v s.clusters }
/-- The engine record. -/
def State.engine (s : State) (e : Nat) : Engine := mapGetD s.engines e {}
/-- Set an engine record. -/
def State.setEngine (s : State) (e : Nat) (v : Engine) : State := { s with engines := tblSet {} e v s.engines }
/-- The pool record. -/
def State.pool (s : State) (p : Nat) : Pool := mapGetD s.pools p {}
/-- Set a pool record. -/
def State.setPool (s : State) (p : Nat) (v : Pool) : State := { s with pools := tblSet {} p v s.pools }
/-- The stream record. -/
def State.stream (s : State) (x : Nat) : Stream := mapGetD s.streams x {}
/-- Set a stream record. -/
def State.setStream (s : State) (x : Nat) (v : Stream) : State := { s with streams := tblSet {} x v s.streams }
/-- The decoder record. -/
def State.vd (s : State) (x : Nat) : Vd := mapGetD s.vds x {}
/-- Set a decoder record. -/
def State.setVd (s : State) (x : Nat) (v : Vd) : State := { s with vds := tblSet {} x v s.vds }
/-- The pre-processing unit record. -/
def State.pp (s : State) (x : Nat) : Pp := mapGetD s.pps x {}
/-- Set a pre-processing unit record. -/
def State.setPp (s : State) (x : Nat) (v : Pp) : State := { s with pps := tblSet {} x v s.pps }
/-- The encoder record. -/
def State.ve (s : State) (x : Nat) : Ve := mapGetD s.ves x {}
/-- Set an encoder record. -/
def State.setVe (s : State) (x : Nat) (v : Ve) : State := { s with ves := tblSet {} x v s.ves }
/-- The session record. -/
def State.session (s : State) (x : Nat) : Session := mapGetD s.sessions x {}
/-- Set a session record. -/
def State.setSession (s : State) (x : Nat) (v : Session) : State := { s with sessions := tblSet {} x v s.sessions }
/-- The sensor record. -/
def State.sensor (s : State) (x : Nat) : Sensor := mapGetD s.sensors x {}
/-- Set a sensor record. -/
def State.setSensor (s : State) (x : Nat) (v : Sensor) : State := { s with sensors := tblSet {} x v s.sensors }
/-- The DRAM channel record. -/
def State.dram (s : State) (x : Nat) : Dram := mapGetD s.drams x {}
/-- Set a DRAM channel record. -/
def State.setDram (s : State) (x : Nat) (v : Dram) : State := { s with drams := tblSet {} x v s.drams }

/-- Something left the device. -/
def State.send (s : State) (e : Egress) : State := { s with egress := s.egress ++ [e] }

/-- The next free value and the state that has counted it. -/
def State.free (s : State) : Word × State := (Config.freeWord s.freeCtr, { s with freeCtr := s.freeCtr + 1 })

/-- The next n free values, as bits from the lowest word on, and the state that has counted them. -/
def State.frees : Nat → State → Nat × State
  | 0, s => (0, s)
  | n + 1, s => (((s.free).2.frees n).1 * 2 ^ 32 + s.free.1.toNat, ((s.free).2.frees n).2)

end Sys2Proof.Machine
end

