-- ==== Sys2Proof/Machine/Flags.lean ====
section
/-!
DEFINITION. The interrupt controller's sources and outputs (R326 to R332) and what follows at once from them: INTA (R317)
and PME (R320). `settle` is applied to the state that a command leaves, so that the outputs always follow the sources.
-/
namespace Sys2Proof.Machine

/-- The pages behind a level source (R326). -/
def srcPages (n : Nat) : List Nat :=
  if n = 1 then [0x400]
  else if 2 ≤ n ∧ n ≤ 9 then [0x300 + (n - 2)]
  else if n = 10 then [0x310]
  else if n = 11 then [0x318]
  else if n = 12 then [0x011]
  else if n = 13 then [0x010]
  else if n = 14 then [0x012]
  else if 16 ≤ n ∧ n ≤ 23 then [0x018 + (n - 16)]
  else if 24 ≤ n ∧ n ≤ 31 then [0x100 + 16 * (n - 24)]
  else if 32 ≤ n ∧ n ≤ 39 then (List.range 8).map (fun k => 0x101 + 16 * (n - 32) + k)
  else if 40 ≤ n ∧ n ≤ 47 then [0x109 + 16 * (n - 40)]
  else if 48 ≤ n ∧ n ≤ 55 then [0x10C + 16 * (n - 48)]
  else if 56 ≤ n ∧ n ≤ 63 then [0x10A + 16 * (n - 56), 0x10B + 16 * (n - 56)]
  else if 64 ≤ n ∧ n ≤ 66 then [0x200 + (n - 64)]
  else if n = 67 then [0x204]
  else if 68 ≤ n ∧ n ≤ 69 then [0x206 + (n - 68)]
  else if 70 ≤ n ∧ n ≤ 77 then [0x208 + (n - 70)]
  else if 78 ≤ n ∧ n ≤ 79 then [0x220 + (n - 78)]
  else if 80 ≤ n ∧ n ≤ 83 then [0x210 + (n - 80)]
  else if 84 ≤ n ∧ n ≤ 87 then [0x218 + (n - 84)]
  else if 88 ≤ n ∧ n ≤ 89 then [0x21C + (n - 88)]
  else if 90 ≤ n ∧ n ≤ 91 then [0x319 + (n - 90)]
  else if n = 92 then [0x401]
  else if 96 ≤ n ∧ n ≤ 101 then [0x500 + (n - 96)]
  else if 112 ≤ n ∧ n ≤ 122 then [n - 112]
  else []

/-- The event line of a page: an enabled event of a page whose domain is on, the clear on wake ended (R5, R358). -/
def State.pageLine (s : State) (p : Nat) : Bool :=
  decide (s.reg (Reg.EVT_RAW p) &&& s.reg (Reg.EVT_EN p) ≠ 0) &&
  (match pageDesc p with
   | some d => (match d.domain with
     | some x => s.domOn x && !s.power.clearing.contains x
     | none => true)
   | none => false)

/-- A source is pending (R327). -/
def State.pendingSrc (s : State) (n : Nat) : Bool :=
  if n = 0 then s.icu.pulse0
  else if 240 ≤ n ∧ n ≤ 247 then s.icu.edges.getLsbD (n - 240)
  else (srcPages n).any s.pageLine

/-- Target of the interrupt controller: 0 the host page, 1 the MGC page. -/
def State.target (s : State) (t : Nat) : IcuTarget := if t = 0 then s.icu.host else s.icu.mgc

/-- Set a target's record. -/
def State.setTarget (s : State) (t : Nat) (v : IcuTarget) : State :=
  if t = 0 then { s with icu := { s.icu with host := v } } else { s with icu := { s.icu with mgc := v } }

/-- A source is presentable at a target (R328); `idle` tells whether hold-offs are bypassed (R331). -/
def State.presentable (s : State) (t : Nat) (idle : Bool) (n : Nat) : Bool :=
  bit (s.reg (rkey (8 + t) (0x100 + 4 * (n / 32)))) (n % 32) &&
  decide ((s.target t).active ≠ some n) &&
  (idle || !(s.target t).running.getLsbD (n / 16)) &&
  s.pendingSrc n

/-- The winning presentable source: the lowest (R328). Words of the enable without a set bit hold none. -/
def State.winner (s : State) (t : Nat) (idle : Bool) : Option Nat :=
  (List.range 8).findSome? (fun w =>
    if s.reg (rkey (8 + t) (0x100 + 4 * w)) = 0 then none
    else (List.range 32).findSome? (fun b => if s.presentable t idle (32 * w + b) then some (32 * w + b) else none))

/-- A target's output (R328). -/
def State.icuOut (s : State) (t : Nat) (idle : Bool) : Bool :=
  (s.target t).active.isNone && (s.winner t idle).isSome

/-- CONTAIN reads a trigger code 1 to 5 (R322). -/
def State.frozenLink (s : State) : Bool :=
  let c := bits (s.reg Reg.ENDPOINT_CONTAIN) 2 0
  decide (1 ≤ c) && decide (c ≤ 5)

/-- CONTAIN reads any code, PM_HOLD included: the endpoint issues no request (R322). -/
def State.contained (s : State) : Bool := decide (bits (s.reg Reg.ENDPOINT_CONTAIN) 2 0 ≠ 0)

/-- The endpoint issues requests on the link (R314, R322): Bus Master Enable set, no containment, the function ready. -/
def State.mayIssue (s : State) : Bool := s.ep.busMaster && !s.contained && !s.ep.perst && !s.ep.flr && !s.ep.d3hot

/-- Pieces of at most m bytes that cross no multiple of m: address and length. -/
def cutsAt (m a n : Nat) : List (Nat × Nat) :=
  (List.range ((a % m + n + (m - 1)) / m)).map (fun i =>
    let lo := if i = 0 then a else a / m * m + m * i
    let hi := min (a + n) (a / m * m + m * (i + 1))
    (lo, hi - lo))

/-- A posted write to host memory (R309): packets of at most Max_Payload_Size, none across a 4 KiB boundary. DESIGN CHOICE, log
entry 91: packets end at multiples of that size. -/
def State.post (s : State) (a : Nat) (d : List Byte) : State :=
  { s with egress := s.egress ++ (cutsAt (128 * 2 ^ s.ep.maxPayload.val) a d.length).map (fun x => .hostWrite x.1 ((d.drop (x.1 - a)).take x.2)) }

/-- The limit of outstanding reads (R315). -/
def State.readRoom (s : State) : Nat :=
  min (bits (s.reg Reg.ENDPOINT_READ_LIMIT) 9 0) (if s.ep.tag10 then 768 else if s.ep.extTag then 256 else 32)

/-- Reads that wait go out while tags are free and the endpoint issues requests (R315). -/
def State.refillReads (s : State) : State :=
  let k := if s.mayIssue then s.readRoom - s.ep.reads.length else 0
  { s with
    ep := { s.ep with reads := s.ep.reads ++ s.ep.waiting.take k, waiting := s.ep.waiting.drop k }
    egress := s.egress ++ s.ep.waiting.take k }

/-- A read of host memory (R309, R315): requests of at most Max_Read_Request_Size, none across a 4 KiB boundary; those beyond
the limit of outstanding reads wait. -/
def State.pull (s : State) (mk : Nat → Nat → Egress) (a n : Nat) : State :=
  let es := (cutsAt (128 * 2 ^ s.ep.maxReadRequest.val) a n).map (fun x => mk x.1 x.2)
  { s with ep := { s.ep with waiting := s.ep.waiting ++ es } }.refillReads

/-- The reads of a kind have all completed (R315): those of them that waited have gone out by then. -/
def State.endReads (s : State) (p : Egress → Bool) : State :=
  { s with
    ep := { s.ep with reads := s.ep.reads.filter (fun e => !p e), waiting := s.ep.waiting.filter (fun e => !p e) }
    egress := s.egress ++ s.ep.waiting.filter p }.refillReads

/-- A tally counted in a register map where the condition holds. -/
def bump (c : Bool) (k : Nat) (t : Tbl Word) : Tbl Word :=
  if c then mapPut regDefault k (BitVec.ofNat 32 (min ((mapGetD t k (regReset k)).toNat + 1) 0xFFFFFFFF)) t else t

/-- The host output rises now. -/
def State.hostRise (s : State) : Bool := !s.icu.host.output && s.icuOut 0 s.icu.host.idle

/-- The MGC output rises now. -/
def State.mgcRise (s : State) : Bool := !s.icu.mgc.output && s.icuOut 1 s.icu.mgc.idle

/-- A rise of the host output signals PME (R320). -/
def State.pmeRise (s : State) : Bool := s.hostRise && s.ep.pmeEn && (s.ep.d3hot || s.ep.perst)

/-- INTA is to be asserted (R317, R322). -/
def State.intaNow (s : State) : Bool :=
  s.icuOut 0 s.icu.host.idle && !s.ep.intDisable && !s.frozenLink && !s.ep.perst

/-- PM_PME is sent (R320): in D3hot, the link not in L2, and not under a freeze, which lets only completions go (R322). -/
def State.pmPmeNow (s : State) : Bool := s.pmeRise && !s.ep.l2 && !s.ep.perst && !s.frozenLink

/-- WAKE# goes low (R320). -/
def State.wakeNow (s : State) : Bool := s.pmeRise && (s.ep.l2 || s.ep.perst) && !s.ep.wakeLow

/-- What the endpoint sends as INTA and PME follow the host output. -/
def State.settleSends (s : State) : List Egress :=
  (if s.intaNow && !s.ep.inta then [.assertIntx] else []) ++
  (if !s.intaNow && s.ep.inta then [.deassertIntx] else []) ++
  (if s.pmPmeNow then [.pmPme] else [])

/-- The outputs follow the sources (R317, R320, R328, R331). -/
def settle (s : State) : State :=
  { s with
    regs :=
      bump (s.hostRise && !s.icuOut 0 false) (Reg.ICU_BYPASS 0)
        (bump (s.mgcRise && !s.icuOut 1 false) (Reg.ICU_BYPASS 1)
          (bump (s.pmPmeNow || s.wakeNow) Reg.ENDPOINT_PME_SENT s.regs))
    icu := { s.icu with
      host := { s.icu.host with output := s.icuOut 0 s.icu.host.idle }
      mgc := { s.icu.mgc with output := s.icuOut 1 s.icu.mgc.idle, idle := s.icu.mgc.idle && !s.mgcRise } }
    ep := { s.ep with
      inta := s.intaNow
      pmeStatus := s.ep.pmeStatus || s.pmeRise
      wakeLow := s.ep.wakeLow || s.wakeNow }
    egress := s.egress ++ s.settleSends }

/-- The outcome of a command that leaves state `s`. -/
def done (s : State) : Out := .next (settle s)

/-- A P event of source 0 (R326): merged with a pending one (R327). -/
def State.pulse (s : State) : State :=
  let s1 := if s.icu.pulse0 then s.tally (Reg.ICU_MERGED 0) else s
  { s1 with icu := { s1.icu with pulse0 := true } }

/-- The edge of an E source: 240 + n (R332). An edge that comes in deep idle, the ICU clock stopped, is counted when the
clock runs again. -/
def State.edge (s : State) (n : Nat) : State :=
  { s with
    icu := { s.icu with
      edges := s.icu.edges ||| BitVec.ofNat 8 (2 ^ n)
      uncounted := if s.power.deepIdle then s.icu.uncounted + 1 else s.icu.uncounted } }

end Sys2Proof.Machine
end

