-- ==== Sys2Proof/Machine/Rs.lean ====
section
/-!
DEFINITION. The Reed-Solomon code of a DRAM burst (R302): GF(2^8) under x^8 + x^4 + x^3 + x^2 + 1, 64 data and 16 check symbols,
correction of up to 8 symbols. Symbol i is the coefficient of x^(79 - i); DESIGN CHOICE (notes/assumptions/77.md), as the manual
gives the symbols no order. The generator's first root is the free value `Config.rsFirstRoot`.
-/
namespace Sys2Proof.Machine

/-- A product in GF(2^8), over the lowest n bits of b. -/
def gfMulBits : Nat → Nat → Nat → Nat
  | 0, _, _ => 0
  | n + 1, a, b =>
    (if b % 2 = 1 then a else 0) ^^^ gfMulBits n (if a < 128 then 2 * a else (2 * a) ^^^ 0x11D) (b / 2)

/-- The product in GF(2^8). -/
def gfMul (a b : Nat) : Nat := gfMulBits 8 a b

/-- The n-th power in GF(2^8). -/
def gfPow (a : Nat) : Nat → Nat
  | 0 => 1
  | n + 1 => gfMul a (gfPow a n)

/-- The inverse in GF(2^8). -/
def gfInv (a : Nat) : Nat := gfPow a 254

/-- The n-th power of the primitive element x. -/
def gfAlpha (n : Nat) : Nat := gfPow 2 (n % 255)

/-- The value of a polynomial, lowest coefficient first. -/
def gfEval (p : List Nat) (x : Nat) : Nat := p.foldr (fun c a => c ^^^ gfMul a x) 0

/-- The sum of two polynomials. -/
def gfAdd : List Nat → List Nat → List Nat
  | [], q => q
  | p, [] => p
  | a :: p, b :: q => (a ^^^ b) :: gfAdd p q

/-- A polynomial times c x^m. -/
def gfShift (c m : Nat) (p : List Nat) : List Nat := List.replicate m 0 ++ p.map (gfMul c)

/-- A pattern of symbols in error: at each symbol what is added to it. -/
abbrev Pattern := List (Fin 80 × Byte)

/-- What a pattern adds to symbol i. -/
def Pattern.at (es : Pattern) (i : Fin 80) : Byte := es.foldl (fun a e => if e.1 = i then a ^^^ e.2 else a) 0

/-- The sum of two patterns, its symbols once each in rising order, none with 0. -/
def Pattern.plus (a b : Pattern) : Pattern :=
  (List.finRange 80).filterMap (fun i => if Pattern.at (a ++ b) i = 0 then none else some (i, Pattern.at (a ++ b) i))

/-- The exponent of symbol i. -/
def rsExp (i : Fin 80) : Nat := 79 - i.val

/-- Syndrome j of a pattern. -/
def rsSyn (es : Pattern) (j : Nat) : Nat :=
  es.foldl (fun a e => a ^^^ gfMul e.2.toNat (gfAlpha ((Config.rsFirstRoot + j) * rsExp e.1))) 0

/-- The 16 syndromes of a pattern. -/
def rsSyns (es : Pattern) : List Nat := (List.range 16).map (rsSyn es)

/-- The state of the Berlekamp-Massey iteration. -/
structure RsStep where
  loc : List Nat := [1]
  prev : List Nat := [1]
  len : Nat := 0
  gap : Nat := 1
  last : Nat := 1

/-- One iteration: the discrepancy at syndrome n changes the locator. -/
def RsStep.next (syn : List Nat) (a : RsStep) (n : Nat) : RsStep :=
  let d := (List.range (a.len + 1)).foldl (fun x i => x ^^^ gfMul (a.loc.getD i 0) (if i ≤ n then syn.getD (n - i) 0 else 0)) 0
  if d = 0 then { a with gap := a.gap + 1 }
  else
    let l := gfAdd a.loc (gfShift (gfMul d (gfInv a.last)) a.gap a.prev)
    if 2 * a.len ≤ n then { loc := l, prev := a.loc, len := n + 1 - a.len, gap := 1, last := d }
    else { a with loc := l, gap := a.gap + 1 }

/-- The magnitude at an exponent p by Forney's formula. -/
def rsValue (syn loc : List Nat) (p : Nat) : Nat :=
  let x := gfAlpha (255 - p)
  let om := (List.range 16).map (fun k => (List.range (k + 1)).foldl (fun a i => a ^^^ gfMul (loc.getD i 0) (syn.getD (k - i) 0)) 0)
  let der := (List.range 16).map (fun k => if k % 2 = 0 then loc.getD (k + 1) 0 else 0)
  gfMul (gfAlpha (p * (256 - Config.rsFirstRoot % 255))) (gfMul (gfEval om x) (gfInv (gfEval der x)))

/-- The pattern of at most 8 symbols with the same syndromes as `es`, if there is one: the decoder's answer (R302). The last test
makes the answer right whatever the search has found. -/
def rsDecode (es : Pattern) : Option Pattern :=
  let syn := rsSyns es
  let a := (List.range 16).foldl (RsStep.next syn) {}
  let c : Pattern := (List.finRange 80).filterMap (fun i =>
    if gfEval a.loc (gfAlpha (255 - rsExp i)) = 0 then some (i, BitVec.ofNat 8 (rsValue syn a.loc (rsExp i))) else none)
  if c.length ≤ 8 ∧ rsSyns c = syn then some c else none

/-- The generator polynomial, lowest coefficient first: the product of x - α^(b + j). -/
def rsGen : List Nat :=
  (List.range 16).foldl (fun g j => gfAdd (gfShift 1 1 g) (gfShift (gfAlpha (Config.rsFirstRoot + j)) 0 g)) [1]

/-- One step of the division by the generator: the remainder, highest coefficient first. -/
def rsDivide (gen : List Nat) (r : List Nat) (d : Nat) : List Nat :=
  let q := d ^^^ r.headD 0
  gfAdd (r.drop 1 ++ [0]) (gen.map (gfMul q))

/-- The 16 check symbols of 64 data bytes. -/
def rsChecks (data : List Byte) : List Byte :=
  let gen := (rsGen.take 16).reverse
  (data.foldl (fun r d => rsDivide gen r d.toNat) (List.replicate 16 0)).map (BitVec.ofNat 8)

/-- The 80 bytes of a burst as received: the codeword of its data with a pattern added. -/
def rsReceived (data : List Byte) (es : Pattern) : List Byte :=
  (List.finRange 80).map (fun i => (data ++ rsChecks data).getD i.val 0 ^^^ Pattern.at es i)

end Sys2Proof.Machine
end

