-- ==== Sys2Proof/Machine/Ops.lean ====
section
/-!
DEFINITION. The shared operations: accepting a register write (R410 to R414), reading and writing the stores with their
error responses (R275, R279, R294, R304, R432), the freeze of a channel (R304, R45), job faults and teardown (R43, R44).
-/
namespace Sys2Proof.Machine

/-- A flag as a bit of a word. -/
def flagBit (b : Bool) (n : Nat) : Nat := if b then 2 ^ n else 0

/-- OWNER's code of a master (R4). -/
def masterCode : Master → Nat
  | .host => 0
  | .mgc => 1
  | .ledger => 2

/-- OWNER of a page. -/
def State.owner (s : State) (page : Nat) : Nat := bits (s.reg (Reg.OWNER page)) 1 0

/-- What becomes of a host write that the endpoint receives: none where it reaches the pages (R316, R322, R324, R390). -/
def State.hostBlocked (s : State) (page : Nat) : Option State :=
  if s.ep.perst then some s
  else if s.ep.memorySpace = false ∨ s.ep.d3hot then some (s.send .aerUnsupported)
  else if s.frozenLink = true ∧ page ≠ 0x400 then some (s.tally Reg.ENDPOINT_INWRITE_DROP)
  else if s.sec.lcBoot = 2 ∧ 0xF00 ≤ page then some (s.tally Reg.SECURITY_DEBUG_DENIED)
  else none

/-- A register write as its master and the page's OWNER admit it (R410): a host write that the endpoint blocks does not
reach the page, a page that is not implemented ignores it, a non-owner's write is dropped and counted. -/
def State.gate (s : State) (m : Master) (page : Nat) (f : State → State) : State :=
  match (if m = .host then s.hostBlocked page else none) with
  | some t => t
  | none =>
    match pageDesc page with
    | none => s
    | some _ => if s.owner page = masterCode m then f s else s.drop page

/-- The write of a master passes `gate`. -/
def State.admits (s : State) (m : Master) (page : Nat) : Bool :=
  (m ≠ .host || (s.hostBlocked page).isNone) && (pageDesc page).isSome && s.owner page == masterCode m

/-- What becomes of a host read that the endpoint receives: none where it reaches the pages (R316, R324). -/
def State.hostReadBlocked (s : State) : Option State :=
  if s.ep.perst then some s
  else if s.ep.d3hot then some ((s.tally Reg.ENDPOINT_UR_SENT).send .unsupportedRequest)
  else if s.ep.memorySpace = false then some (s.send .unsupportedRequest)
  else none

/-- A register read: the value goes out, and the read's side effect happens only when the page's owner reads (R414). -/
def State.readGate (s : State) (m : Master) (page : Nat) (v : Word) (f : State → State) : State :=
  match (if m = .host then s.hostReadBlocked else none) with
  | some t => t
  | none =>
    let t := s.send (.readCompletion v)
    if s.owner page = masterCode m then f t else t

/-- A lock bit of a page is set. -/
def State.locked (s : State) (page n : Nat) : Bool := bit (s.reg (Reg.LOCK page)) n

/-- A channel's STATE code (R307). -/
def State.chanState (s : State) (c : Nat) : Nat := bits (s.reg (Reg.DC_STATE c)) 1 0

/-- The channel serves requests: it reads IN_SERVICE, and its pair's domain is on (R294, R304, R357, R358). -/
def State.chanServes (s : State) (c : Nat) : Bool := s.chanState c == 1 && s.domOn (25 + c / 2)

/-- The tally of a request that a channel answers with an error response: none for a frozen channel (R304), DOWN_ACCESS for
one that is off or training (R294), and for one whose pair is in retention (R358; DESIGN CHOICE, notes/assumptions/97.md). -/
def State.countDown (s : State) (c : Nat) : State := if s.chanState c = 2 then s else s.tally (Reg.DC_DOWN_ACCESS c)

/-- A job's bit. -/
def jobBit (j : Nat) : Word := BitVec.ofNat 32 (2 ^ j)

/-- The engines of a cluster, by physical number. -/
def clusterEngines (c : Nat) : List Nat := (List.range 8).map (fun k => 8 * c + k)

/-- The live bits of a cluster's engines are cleared, and with them the accumulator contents (R85). -/
def State.clearAcc (s : State) (c : Nat) : State :=
  { s with acc := s.acc.filter (fun e => decide (e.1 / (8 * 2048 * 32) ≠ c)) }

/-- A piece of work is a pass. -/
def EngWork.isPass (w : EngWork) : Bool :=
  match w with
  | .pass _ => true
  | .drain _ => false

/-- An engine's work is abandoned (R43, R90): counted where a pass was to run. -/
def State.abandonWork (s : State) (e : Nat) : State :=
  let t := if (s.engine e).work.any EngWork.isPass then (s.tally (Reg.MX_PASS_ABANDONED e)).event (pageMx e) 2 else s
  t.setEngine e { s.engine e with work := [], active := [], shadow := [], input := [], fifo := [], bad := [], sinceSwap := 32 }

/-- A job's context is torn down (R43): accumulators, lane registers and pending work of the stall's engines if the job
is the one that runs, its length registers, its sequencer state, its job-private scratchpad regions. -/
def State.teardownJob (s : State) (st j : Nat) : State :=
  let runs := match (s.stall st).slot with
    | some x => decide (x.job = j)
    | none => false
  let s1 := (s.stallClusters st).foldl (fun (a : State) c =>
    let cl := a.cluster c
    let cl1 := { cl with lens := cl.lens.filter (fun e => decide (e.1 / 16 ≠ j)) }
    if runs then
      (clusterEngines c).foldl (fun (b : State) e => b.abandonWork e)
        ((a.setCluster c { cl1 with started := 0, count := 0 }).clearAcc c)
    else a.setCluster c cl1) s
  let s2 := (s.active.recs.filter (fun r => r.kind == 6 && r.job == j && r.owner == st && r.store == 2)).foldl
    (fun (a : State) r => a.clearRange r.ptr r.size) s1
  let s3 := s2.setReg (Reg.STALL_JOB_FAULTED st) (s2.reg (Reg.STALL_JOB_FAULTED st) ||| jobBit j)
  if runs then s3.setStall st { s3.stall st with slot := none } else s3

/-- The running job of a stall faults with a cause (R43, R44). A stall without a running slot has no job to fault. -/
def State.jobFault (s : State) (st cause : Nat) : State :=
  match (s.stall st).slot with
  | none => s
  | some x =>
    let s1 := s.teardownJob st x.job
    let s2 := s1.setStall st { s1.stall st with faultNow := (s1.stall st).faultNow ||| jobBit x.job }
    let s3 := s2.setReg (Reg.STALL_FAULT_INFO st)
      (BitVec.ofNat 32 (x.job + 256 * cause + 65536 * (s.tick.toNat % 65536)))
    let s4 := s3.tally (Reg.STALL_JOB_FAULT st)
    if cause = 7 then s4.setReg (Reg.STALL_RESIDENT st) 0 else s4

/-- Every job context of a stall is torn down and residency ends (R45, R372). -/
def State.teardownStall (s : State) (st : Nat) : State :=
  let s1 := (List.range 32).foldl (fun (a : State) j => a.teardownJob st j) s
  let s2 := s1.setStall st { s1.stall st with slot := none, loading := none }
  s2.setReg (Reg.STALL_RESIDENT st) 0

/-- Subchannel, bank group, bank, rank and row of a channel offset (R295) under a channel's CFG. -/
structure DramLoc where
  sub : Nat
  group : Nat
  bank : Nat
  rank : Nat
  row : Nat
  col : Nat
  deriving DecidableEq, Repr

/-- The component map of R295. -/
def dramLoc (cfg : Word) (c : Nat) : DramLoc :=
  let g := if bit cfg 3 then 2 else 3
  let two := bit cfg 6
  let row := c / 2 ^ (if two then 16 + g else 15 + g)
  let h := (c / 2 ^ 7) % 2 ^ g
  let j := (c / 2 ^ (7 + g)) % 4
  { sub := (c / 64) % 2
    group := h ^^^ (row % 2 ^ g)
    bank := j ^^^ ((row / 2 ^ g) % 4)
    rank := if two then (c / 2 ^ (15 + g)) % 2 else 0
    row := row
    col := (c / 2 ^ (9 + g)) % 64 }

/-- A latent error is uncorrectable: of a burst, one of more than 8 symbols, which no codeword is near (R302). -/
def upsetBad : Upset → Bool
  | .correctable => false
  | .uncorrectable => true
  | .symbols es => decide (8 < es.length)

/-- The pattern of a burst's latent error. -/
def State.pattern (s : State) (k : Nat) : Pattern :=
  match mapGet s.upsets k with
  | some (.symbols es) => es
  | _ => []

/-- The 64 data bytes of a burst. -/
def State.burst (s : State) (k : Nat) : List Byte := (List.range 64).map (fun i => s.byte (k + i))

/-- Load registers at rising offsets with the words that bytes spell. -/
def State.loadWords (s : State) (k : Nat) (d : List Byte) : State :=
  (List.range (d.length / 4)).foldl (fun (a : State) i => a.setReg (k + 4 * i) (bytesWord d (4 * i))) s

/-- The syndrome and the burst as received are captured (R304, R307). -/
def State.captureBurst (s : State) (c : Nat) (syn burst : List Byte) : State :=
  (s.loadWords (Reg.DC_FRZ_SYN0 c) syn).loadWords (Reg.DC_FRZ_BURST0 c) burst

/-- The channels of every set that a range of device addresses meets. -/
def State.rangeChannels (s : State) (base size : Nat) : List Nat :=
  ((List.range 8).filter (fun i => s.setValid i && decide (base < ((s.mapSet i).base + (s.mapSet i).p * (s.mapSet i).size) * 2 ^ 30) &&
    decide ((s.mapSet i).base * 2 ^ 30 < base + size))).flatMap (fun i => maskChannels (s.mapSet i).mask)

/-- The bytes of a pool's region, among the region records of its bundle. -/
def poolSize (rs : List Region) (p : Pool) : Nat :=
  max (p.bufSize * p.count) (match rs[p.region]? with
    | some r => if r.base = p.base then r.size else 0
    | none => 0)

/-- A channel freezes (R304): contents lost, capture registers loaded, and the stalls whose pitch holds it are torn down
(R45). A channel that is frozen already captures nothing more. `at_` is the channel offset, none for a parity error. -/
def State.freeze (s : State) (c cause : Nat) (at_ : Option Nat) : State :=
  if s.chanState c = 2 then s
  else
    let o := at_.getD 0
    let l := dramLoc (s.reg (Reg.DC_CFG c)) o
    let k := c * 2 ^ 34 + o / 64 * 64
    let s1 := (s.setReg (Reg.DC_STATE c) 2).loseChannel c
    let s2 := s1.setReg (Reg.DC_FRZ_CAUSE c) (BitVec.ofNat 32 (cause + 65536 * (s.tick.toNat % 65536)))
    let s3 := match at_ with
      | none => s2
      | some _ =>
        ((s2.setReg (Reg.DC_FRZ_ADDR_LO c) (BitVec.ofNat 32 o)).setReg (Reg.DC_FRZ_ADDR_HI c)
          (BitVec.ofNat 32 (o / 2 ^ 32 % 4 + 16 * l.sub + 32 * l.rank + 256 * l.group + 4096 * l.bank + 16384 * l.row))).captureBurst c
          ((rsSyns (s.pattern k)).map (BitVec.ofNat 8)) (rsReceived (s.burst k) (s.pattern k))
    let s4 := (s3.tally (Reg.DC_FREEZE c)).event (pageDc c) 1
    let s5 := (((s4.dram c).queueA ++ (s4.dram c).queueB).foldl
      (fun (a : State) q => a.send (.dramResponse q.initiator.val [] true false)) s4).setDram c
      { s4.dram c with closed := false, away := true, sweepSaved := false, queueA := [], queueB := [], openRows := [] }
    let s6 := (List.range 8).foldl (fun (a : State) st =>
      if (bits (a.reg (Reg.STALL_PITCH st)) 7 0).testBit c ∧ bits (a.reg (Reg.STALL_STATE st)) 1 0 ≠ 0 then
        (a.teardownStall st).setReg (Reg.STALL_STATE st) 2
      else a) s5
    { s6 with
      pools := s6.pools.map (fun (e : Nat × Pool) =>
        if e.2.store = .dram ∧ (s.rangeChannels e.2.base (poolSize s.active.recs e.2)).contains c then (e.1, { e.2 with lost := true }) else e)
      loader := { s6.loader with load := s6.loader.load.map (fun l => { l with frozen := l.frozen ||| BitVec.ofNat 8 (2 ^ c) }) } }

/-- The page that counts a store's accesses (R292); none for a store without one. -/
def storePage : Store → Option Nat
  | .common => some 0x319
  | .video => some 0x31A
  | .spad c => some (pageSpad c.val)
  | _ => none

/-- A tally of a store's page, where it has one. -/
def State.storeTally (s : State) (st : Store) (off : Nat) : State :=
  match storePage st with
  | some p => s.tally (rkey p off)
  | none => s

/-- How a read or write ended (R275, R279, R294, R304): 0 served, 1 error response, 2 poisoned response. -/
structure Resp where
  st : State
  status : Nat
  data : List Byte

/-- The words or bursts that n bytes from an address touch, by flat number, each once in order. -/
def State.units (s : State) (p : Ptr) (n : Nat) : List Nat :=
  let u := if p.store = .dram then 64 else 8
  let a := p.addr / u * u
  (List.range ((p.addr + n - a + u - 1) / u)).filterMap (fun i => s.flat { p with addr := a + i * u })

/-- Record a store's error (R279): CE or UE with the address of the 64-bit word. -/
def State.storeError (s : State) (st : Store) (k : Nat) (ue : Bool) : State :=
  match storePage st with
  | none => s
  | some p =>
    let a := k - storeBase st
    let w : Word := BitVec.ofNat 32 (2 ^ 31 + a / 8 * 8)
    if ue then ((s.tally (Reg.STORE_UE p)).setReg (Reg.STORE_UE_ADDR p) w).event p 1
    else (s.tally (Reg.STORE_CE p)).setReg (Reg.STORE_CE_ADDR p) w

/-- A DRAM channel's corrected foreground read (R302). -/
def State.dramCe (s : State) (k : Nat) : State :=
  let c := k / 2 ^ 34
  (s.tally (Reg.DC_CE c)).setReg (Reg.DC_CE_ADDR c) (BitVec.ofNat 32 (2 ^ 31 + (k % 2 ^ 34) / 64))

/-- The latent errors that a read meets: counted, and 2 where one is uncorrectable. -/
def State.meetErrors (s : State) (st : Store) (ks : List Nat) : State × Nat :=
  ks.foldl (fun (a : State × Nat) k =>
    match mapGet a.1.upsets k with
    | none => a
    | some u =>
      if flatIsDram k then
        if upsetBad u then (a.1.freeze (k / 2 ^ 34) 1 (some (k % 2 ^ 34)), 2) else (a.1.dramCe k, a.2)
      else (a.1.storeError st k (upsetBad u), if upsetBad u then 2 else a.2)) (s, 0)

/-- The DRAM channels that n bytes touch: none where some address lies in no set. -/
def State.touched (s : State) (p : Ptr) (n : Nat) : Option (List Nat) :=
  let blocks := (List.range ((p.addr % 256 + n + 255) / 256)).map (fun i => s.dramPlace (p.addr / 256 * 256 + 256 * i))
  if blocks.all Option.isSome then some (blocks.filterMap (fun x => x.map Prod.fst)).eraseDups else none

/-- Why a request is answered with an error response before any byte moves, with the tally it counts (R275, R280, R282, R294,
R304, R358): none where it is served. -/
def State.refusesAccess (s : State) (p : Ptr) (n : Nat) : Option State :=
  match p.store with
  | .dram =>
    match s.touched p n with
    | none => some (s.tally Reg.MAP_MAP_MISS)
    | some cs =>
      match cs.find? (fun c => !s.chanServes c) with
      | none => none
      | some c => some (s.countDown c)
  | .secure =>
    if s.sec.wiping then
      some { s with sec := { s.sec with refused := if s.sec.refused = 0xFFFFFFFF then s.sec.refused else s.sec.refused + 1 } }
    else if storeSize .secure < p.addr + n then some s
    else none
  | st =>
    if storeSize st < p.addr + n then some (s.storeTally st 0xE10)
    else
      match st with
      | .common => if s.domOn 24 then none else some (s.storeTally st 0xE0C)
      | .spad c => if s.domOn c.val then none else some (s.storeTally st 0xE0C)
      | _ => none

/-- The stores whose clear on wake holds requests (R280): the store's domain. -/
def storeDomain : Store → Option Nat
  | .common => some 24
  | .spad c => some c.val
  | _ => none

/-- The store is being cleared on wake. -/
def State.storeClearing (s : State) (st : Store) : Bool :=
  match storeDomain st with
  | some d => s.power.clearing.contains d
  | none => false

/-- The first bytes of the requests of at most 256 bytes that n bytes from an address make (R9, R277). -/
def requestsOf (p : Ptr) (n : Nat) : List Ptr :=
  (List.range ((p.addr % 256 + n + 255) / 256)).map (fun i => { p with addr := p.addr / 256 * 256 + 256 * i })

/-- Requests that reach a store while it is cleared, or a channel while a MAINT entry has it closed, wait and count (R280,
R301). The command that moves their bytes stands at the end of the wait. -/
def State.holdRequests (s : State) (p : Ptr) (n : Nat) : State :=
  if p.store = .dram then
    (requestsOf p n).foldl (fun (a : State) q =>
      match s.dramPlace q.addr with
      | some (c, _) => if (s.dram c).closed then a.tally (Reg.DC_MAINT_HOLD c) else a
      | none => a) s
  else if s.storeClearing p.store then (requestsOf p n).foldl (fun (a : State) _ => a.storeTally p.store 0xE08) s
  else s

/-- A read of n bytes through the fabric or a unit's own path. -/
def State.read (s : State) (p : Ptr) (n : Nat) : Resp :=
  match s.refusesAccess p n with
  | some t => ⟨t, 1, []⟩
  | none =>
    let h := s.holdRequests p n
    let r := h.meetErrors p.store (h.units p n)
    ⟨r.1, r.2, h.peeks p n⟩

/-- The words or bursts of a write that it covers only in part and must read first (R279, R432). -/
def State.partialUnits (s : State) (p : Ptr) (n : Nat) : List Nat :=
  let u := if p.store = .dram then 64 else 8
  (s.units p n).filter (fun k =>
    match s.flat p, s.flat (ptrAdd p (n - 1)) with
    | some a, some z => (decide (k = a / u * u) && decide (a % u ≠ 0)) || (decide (k = z / u * u) && decide (z % u ≠ u - 1))
    | _, _ => true)

/-- A write of bytes: a word or burst that is only partly covered is read first, and where that read is uncorrectable the
bytes are discarded (R279, R432); a word written whole loses a latent error. -/
def State.write (s : State) (p : Ptr) (d : List Byte) : Resp :=
  if d = [] then ⟨s, 0, []⟩
  else
    match s.refusesAccess p d.length with
    | some t => ⟨t, 1, []⟩
    | none =>
      let h := s.holdRequests p d.length
      let r := h.meetErrors p.store (h.partialUnits p d.length)
      if r.2 = 2 then ⟨r.1, if p.store = .dram then 1 else 0, []⟩
      else
        let ks := h.units p d.length
        let t := r.1.pokes p d
        ⟨{ t with upsets := t.upsets.filter (fun e => !ks.contains e.1) }, 0, []⟩

/-- A read of n bytes meets a latent error that is uncorrectable. -/
def State.meetsBad (s : State) (p : Ptr) (n : Nat) : Bool :=
  (s.units p n).any (fun k => ((mapGet s.upsets k).map upsetBad).getD false)

/-- n words from an address of any store; none where a word of them cannot be read. What the read itself does is the read's. -/
def State.wordsAt (s : State) (p : Ptr) (n : Nat) : Option (List Word) :=
  if (s.refusesAccess p (4 * n)).isSome ∨ s.meetsBad p (4 * n) = true then none else some (s.words p n)

/-- A record with its words read from the action area; none where a word cannot be read (R305). -/
def State.actionWords (s : State) (off n : Nat) : Option (List Word) := s.wordsAt (s.actionPtr off) n

/-- What a read of n words of the action area does besides (R279, R294, R302, R304). -/
def State.actionRead (s : State) (off n : Nat) : State := (s.read (s.actionPtr off) (4 * n)).st

/-- Word i of a list, 0 beyond its end. -/
def wordAt (ws : List Word) (i : Nat) : Word := ws.getD i 0

end Sys2Proof.Machine
end

