-- ==== Sys2Proof/Machine/Bpm.lean ====
section
/-!
DEFINITION. The buffer pool manager (R283 to R291): allocation, owners, pointer checks, warnings, and its commands.
-/
namespace Sys2Proof.Machine

/-- The free count of a pool. -/
def Pool.free (p : Pool) : Nat := p.count - p.owners.length

/-- The producer class of a requester (R283, R285): 0 decoders, 1 CSI, 2 encoders, 3 none. -/
def bpmClass (q : Nat) : Nat := if q < 8 then 0 else if q < 10 then 2 else if q = 14 then 1 else 3

/-- The requester is a pre-processing unit. -/
def isPp (q : Nat) : Bool := decide (10 ≤ q) && decide (q < 14)

/-- Who may allocate with an owner name (R286). -/
def mayAlloc (q o : Nat) : Bool := (o == 1 && bpmClass q == 0) || (o == 3 && bpmClass q == 1) || (o == 5 && bpmClass q == 2)

/-- Who may add an owner name (R286). -/
def mayAdd (q o : Nat) : Bool := ((o == 1 || o == 2) && bpmClass q == 0) || (o == 4 && bpmClass q == 2)

/-- Who may release an owner name (R286). -/
def mayRelease (q o : Nat) : Bool :=
  (o == 1 && bpmClass q == 0) || (o == 2 && isPp q) || (o == 3 && (isPp q || bpmClass q == 1)) ||
  ((o == 4 || o == 5) && bpmClass q == 2)

/-- A bit of the pair of map registers at `lo` and `lo + 4`. -/
def State.poolBit (s : State) (lo p : Nat) : Bool := bit (s.reg (lo + 4 * (p / 32))) (p % 32)

/-- Set a bit of the pair of map registers. -/
def State.setPoolBit (s : State) (lo p : Nat) (v : Bool) : State :=
  s.setField (lo + 4 * (p / 32)) (p % 32) (p % 32) (if v then 1 else 0)

/-- Back-pressure holds at a pool (R289). -/
def Pool.bpHolds (p : Pool) : Bool := decide (p.free ≤ p.bp) && decide (p.bpMask ≠ 0)

/-- Store a pool after its free count changed from `old`: the warning and back-pressure bits follow (R289). -/
def State.putPool (s : State) (n : Nat) (p : Pool) (old : Nat) : State :=
  let s1 := s.setPool n { p with lowFree := min p.lowFree p.free }
  let s2 :=
    if old = p.warn + 1 ∧ p.free = p.warn then
      ((s1.setPoolBit Reg.BPM_WARN_MAP_LO n true).tally Reg.BPM_WARN_CROSS).event 0x318 1
    else if p.warn < p.free then s1.setPoolBit Reg.BPM_WARN_MAP_LO n false
    else s1
  let s3 := if p.bpHolds ∧ s2.poolBit Reg.BPM_BP_MAP_LO n = false then s2.event 0x318 2 else s2
  s3.setPoolBit Reg.BPM_BP_MAP_LO n p.bpHolds

/-- Record a refused request (R288). -/
def State.bpmRefuse (s : State) (reason q : Nat) (alloc : Bool) (addr : Nat) : State :=
  let s1 := s.tally (if reason = 6 then Reg.BPM_OWNER_FULL else Reg.BPM_PTR_REFUSED)
  let s2 := s1.setReg Reg.BPM_REFUSE_INFO
    (BitVec.ofNat 32 (reason + 256 * q + (if alloc then 8192 else 0) + 65536 * (s.tick.toNat % 65536)))
  let s3 := (s2.setReg Reg.BPM_REFUSE_ADDR_LO (BitVec.ofNat 32 addr)).setReg Reg.BPM_REFUSE_ADDR_HI
    (BitVec.ofNat 32 (addr / 2 ^ 32 % 32))
  if reason = 6 then s3 else s3.event 0x318 4

/-- The first byte of buffer b. -/
def Pool.buf (p : Pool) (b : Nat) : Ptr := { store := p.store, addr := p.base + b * p.bufSize }

/-- The lowest-numbered free buffer (R284). -/
def Pool.lowest (p : Pool) : Option Nat := (List.range p.count).find? (fun b => (mapGet p.owners b).isNone)

/-- An allocation (R284): the state after it and the buffer's address, none for EMPTY or a refusal. -/
def State.bpmAlloc (s : State) (q n o : Nat) : State × Option Ptr :=
  if mayAlloc q o = false then (s.bpmRefuse 5 q true n, none)
  else
    let p := s.pool n
    if p.valid = false then (s.bpmRefuse 1 q true n, none)
    else if bpmClass q < 3 ∧ p.bpMask.getLsbD (bpmClass q) = true ∧ p.free ≤ p.bp then
      ((s.tally Reg.BPM_BP_REFUSED).tally (Reg.BPM_P_ALLOC_EMPTY n), none)
    else
      match p.lowest with
      | none => ((s.tally Reg.BPM_ALLOC_EMPTY).tally (Reg.BPM_P_ALLOC_EMPTY n), none)
      | some b =>
        ((s.putPool n { p with owners := mapIns b [o] p.owners } p.free).tally Reg.BPM_ALLOC_DONE, some (p.buf b))

/-- The valid pool whose buffers hold an address in its store (R288). -/
def State.poolOf (s : State) (a : Ptr) : Option Nat :=
  (List.range 64).find? (fun n =>
    let p := s.pool n
    p.valid && decide (p.store = a.store) && decide (p.base ≤ a.addr) && decide (a.addr < p.base + p.count * p.bufSize))

/-- The pool and buffer that an address names (R288), or the reason that refuses it: 1, 2 or 3. -/
def State.bpmFind (s : State) (a : Ptr) : Except Nat (Nat × Nat) :=
  match s.poolOf a with
  | none => .error 1
  | some n =>
    let p := s.pool n
    if (a.addr - p.base) % p.bufSize ≠ 0 then .error 2
    else
      let b := (a.addr - p.base) / p.bufSize
      if (mapGet p.owners b).isNone then .error 3 else .ok (n, b)

/-- A name in the lowest-numbered free slot of a buffer (R287; which free slot is the model's choice, log 90). -/
def addName : List Nat → Nat → List Nat
  | [], o => [o]
  | x :: r, o => if x = 0 then o :: r else x :: addName r o

/-- The lowest slot that holds a name is emptied; the others keep their places (R287). -/
def dropName : List Nat → Nat → List Nat
  | [], _ => []
  | x :: r, o => if x = o then 0 :: r else x :: dropName r o

/-- The names that a buffer's slots hold. -/
def slotNames (os : List Nat) : List Nat := os.filter (fun x => x != 0)

/-- An add (R287, R288): the state, and whether it was made. -/
def State.bpmAdd (s : State) (q : Nat) (a : Ptr) (o : Nat) : State × Bool :=
  if mayAdd q o = false then (s.bpmRefuse 5 q false a.addr, false)
  else
    match s.bpmFind a with
    | .error r => (s.bpmRefuse r q false a.addr, false)
    | .ok (n, b) =>
      let p := s.pool n
      let os := mapGetD p.owners b []
      if 4 ≤ (slotNames os).length then (s.bpmRefuse 6 q false a.addr, false)
      else (s.setPool n { p with owners := mapIns b (addName os o) p.owners }, true)

/-- A release (R287, R288): the state, and whether it was made. The release of the last slot frees the buffer. -/
def State.bpmRelease (s : State) (q : Nat) (a : Ptr) (o : Nat) : State × Bool :=
  if mayRelease q o = false then (s.bpmRefuse 5 q false a.addr, false)
  else
    match s.bpmFind a with
    | .error r => (s.bpmRefuse r q false a.addr, false)
    | .ok (n, b) =>
      let p := s.pool n
      let os := mapGetD p.owners b []
      if os.contains o = false then (s.bpmRefuse 4 q false a.addr, false)
      else if slotNames (dropName os o) = [] then (s.putPool n { p with owners := mapDel b p.owners } p.free, true)
      else (s.setPool n { p with owners := mapIns b (dropName os o) p.owners }, true)

/-- A check-only request (R288): the state, and whether it passed. -/
def State.bpmCheck (s : State) (q : Nat) (a : Ptr) : State × Bool :=
  match s.bpmFind a with
  | .error r => (s.bpmRefuse r q false a.addr, false)
  | .ok _ => (s, true)

/-- One request whole (R284, R287, R288): the reply of an allocation goes to its requester, a cluster's refused check faults the job
that runs on it with cause 0x04. -/
def State.bpmServe (s : State) (q : Nat) (op : BpmOp) : State :=
  match op with
  | .alloc pool owner =>
    let r := s.bpmAlloc q pool.toNat owner.toNat
    r.1.send (.bpmReply (r.2.map Ptr.addr))
  | .add p owner => (s.bpmAdd q p owner.toNat).1
  | .release p owner => (s.bpmRelease q p owner.toNat).1
  | .check p =>
    let r := s.bpmCheck q p
    if r.2 = false ∧ 15 ≤ q ∧ q ≤ 22 then
      (match r.1.clusterStall (q - 15) with
       | some st => r.1.jobFault st 4
       | none => r.1)
    else r.1

/-- Request a is taken before request b (R285): presented in an earlier FCLK, or in the same one by a lower requester. -/
def reqBefore (a b : BpmReq) : Bool := decide (a.after < b.after) || (decide (a.after = b.after) && decide (a.q < b.q))

/-- A request among those that are in the order of service. -/
def insertReq (a : BpmReq) : List BpmReq → List BpmReq
  | [] => [a]
  | b :: r => if reqBefore a b then a :: b :: r else b :: insertReq a r

/-- The arbiter (R285): the pending requests one after another, each whole before the next begins. -/
def State.bpmArbiter (s : State) (q : Fin 32) (op : BpmOp) (others : List BpmReq) : State :=
  ((⟨q, op, 0⟩ :: others).foldr insertReq []).foldl (fun (a : State) r => a.bpmServe r.q.val r.op) s

/-- BPM_ALLOC (R284, R285). -/
def execBpmAlloc (q : Fin 32) (pool : BitVec 6) (owner : BitVec 4) (s : State) (others : List BpmReq := []) : Out :=
  done (s.bpmArbiter q (.alloc pool owner) others)

/-- BPM_ADD_OWNER (R285, R287). -/
def execBpmAddOwner (q : Fin 32) (p : Ptr) (owner : BitVec 4) (s : State) (others : List BpmReq := []) : Out :=
  done (s.bpmArbiter q (.add p owner) others)

/-- BPM_RELEASE (R285, R287). -/
def execBpmRelease (q : Fin 32) (p : Ptr) (owner : BitVec 4) (s : State) (others : List BpmReq := []) : Out :=
  done (s.bpmArbiter q (.release p owner) others)

/-- BPM_CHECK (R285, R288). -/
def execBpmCheck (q : Fin 32) (p : Ptr) (s : State) (others : List BpmReq := []) : Out := done (s.bpmArbiter q (.check p) others)

/-- Every pool is destroyed (R290). -/
def State.destroyPools (s : State) : State := { s with pools := [] }

/-- A pool of a POOLS record (R283), every buffer free. -/
def poolOfRecord (rs : List Region) (ws : List Word) : Nat × Pool :=
  let w := fun i => wordAt ws i
  let r := rs.getD (bits (w 0) 27 16) { kind := 0, store := 0, cluster := 0, owner := 0, section_ := 0, base := 0, size := 0, job := 0 }
  (bits (w 0) 5 0,
   { valid := true, region := bits (w 0) 27 16, store := r.ptr.store, base := r.base, bufSize := (w 1).toNat
     count := bits (w 2) 12 0, warn := bits (w 3) 12 0, bp := bits (w 3) 28 16
     bpMask := BitVec.ofNat 3 (bits (w 4) 2 0), lowFree := bits (w 2) 12 0 })

end Sys2Proof.Machine
end

