-- ==== Sys2Proof/Machine/Sessions.lean ====
section
/-!
DEFINITION. Picture records as they are passed on (R197, R205), and the encoder sessions that take them (R258 to R260, R271).
-/
namespace Sys2Proof.Machine

/-- Pass mode in effect (R222). -/
def State.passMode (s : State) (x : Nat) : Nat := bits (s.effReg (Reg.PROXY_PASS x)) 1 0

/-- A picture record of an access unit. -/
def picOf (x : Nat) (au : Au) (o : Nat) : PicRec :=
  { stream := x, clipId := au.clipId, frameNo := au.frameNo, time := au.time, buf := none, cropX := 0, cropY := 0, cropW := 0
    cropH := 0, depth10 := false, mono := false, outcome := o, concealed := decide (1 ≤ o) && decide (o ≤ 7)
    refConcealed := false, kind := 0, dataType := 0, width := 0, height := 0 }

/-- A session record of the evidence plan (R271). -/
structure SessPlan where
  maxW : Nat
  maxH : Nat
  picsTick : Nat
  refPool : Nat
  clipOk : Bool
  jpegOk : Bool
  stage : Ptr
  stageLen : Nat
  delivMax : Nat
  deriving DecidableEq, Repr

/-- The entries of a variant of a bank, in order, with their indices. -/
def State.entriesOf (s : State) (b : Bool) (v : Nat) : List (Nat × Entry) :=
  (List.range (s.variantCount b v)).map (fun i => (i, s.bankEntry b v i))

/-- The offset of the evidence plan that the running variant names (R271). -/
def State.evidencePlan (s : State) : Option Nat :=
  if s.bankActive then
    ((s.entriesOf s.actBank s.variant).find? (fun e => e.2.unit == 0x1F && e.2.action == 2 &&
      (match s.actionWords e.2.operand 1 with
       | some ws => wordAt ws 0 == 5
       | none => false))).map (fun e => e.2.operand)
  else none

/-- The fields of a session record's words. -/
def parseSessPlan (ws : List Word) : SessPlan :=
  { maxW := bits (wordAt ws 0) 15 0, maxH := bits (wordAt ws 0) 31 16, picsTick := bits (wordAt ws 1) 3 0
    refPool := bits (wordAt ws 1) 9 4, clipOk := bit (wordAt ws 1) 10, jpegOk := bit (wordAt ws 1) 11
    stage := { store := .dram, addr := (wordAt ws 2).toNat + bits (wordAt ws 3) 4 0 * 2 ^ 32 }
    stageLen := (wordAt ws 4).toNat, delivMax := (wordAt ws 5).toNat }

/-- Session n's record of a plan; none at or above NSESS, or where it cannot be read. -/
def State.sessPlanAt (s : State) (plan n : Nat) : Option SessPlan :=
  match s.actionWords plan 2, s.actionWords (plan + 64 + 32 * n) 8 with
  | some hs, some ws =>
    if bits (wordAt hs 1) 4 0 ≤ n then none else some (parseSessPlan ws)
  | _, _ => none

/-- Session n's record of the running variant's plan. -/
def State.sessPlan (s : State) (n : Nat) : Option SessPlan :=
  match s.evidencePlan with
  | some p => s.sessPlanAt p n
  | none => none

/-- STREAM and KIND of a running session, and its other registers by place in the commit. -/
def sessStream (x : Session) : Nat := bits (wordAt x.cfg 0) 15 8
/-- KIND of R257. -/
def sessKind (x : Session) : Nat := bits (wordAt x.cfg 0) 2 1

/-- A session meets a picture record of its stream (R260): a decoded picture or a selected sensor frame takes the owner ENC,
a concealed one needs none; everything else leaves a gap. -/
def State.feedSession (s : State) (p : PicRec) (n : Nat) : State :=
  let x := s.session n
  if x.running = false ∨ sessStream x ≠ p.stream then s
  else
    match s.sessPlan n with
    | none => s
    | some pl =>
      let y := { x with taken := x.taken + 1 }
      match p.buf with
      | none => s.setSession n { y with gap := true }
      | some b =>
        if pl.picsTick ≤ x.taken then s.setSession n { y with gap := true }
        else if p.concealed then s.setSession n { y with sources := y.sources ++ [p] }
        else
          let a := s.bpmAdd 8 b 4
          if a.2 then a.1.setSession n { y with sources := y.sources ++ [p] } else a.1.setSession n { y with gap := true }

/-- A picture record is passed on (R197, R205, R260). -/
def State.passOn (s : State) (x : Nat) (p : PicRec) : State :=
  let st := s.stream x
  let t := s.setStream x { st with pics := st.pics ++ [p], lastOut := if p.buf.isSome then some p else st.lastOut }
  let u := if p.refConcealed then t.tally (Reg.INTAKE_S_REF_CONCEALED x) else t
  (List.range 16).foldl (fun (a : State) n => a.feedSession p n) u

end Sys2Proof.Machine
end

