-- ==== Sys2Proof/Machine/Intake.lean ====
section
/-!
DEFINITION. Intake rings and the demultiplexer (R171 to R184): CUTOFF, the index read, the intake DMA, the records and
what the demultiplexer makes of them.
-/
namespace Sys2Proof.Machine

/-- A stream's record of the intake plan (R176). -/
structure PlanRec where
  guar : Nat
  base : Nat
  recMax : Nat
  framesTick : Nat
  dpbMax : Nat
  depth10 : Bool
  direct : Bool
  pool : Nat
  maxW : Nat
  maxH : Nat

/-- The fields of a record's words. -/
def parsePlanRec (ws : List Word) : PlanRec :=
  let w := fun i => wordAt ws i
  { guar := bits (w 0) 23 0, base := bits (w 1) 22 0, recMax := bits (w 2) 11 0, framesTick := bits (w 2) 15 12
    dpbMax := bits (w 2) 20 16, depth10 := bit (w 2) 21, direct := bit (w 2) 22, pool := bits (w 2) 29 24
    maxW := bits (w 3) 15 0, maxH := bits (w 3) 31 16 }

/-- Record x of the intake plan at an operand; none where it cannot be read. -/
def State.planRecAt (s : State) (plan x : Nat) : Option PlanRec :=
  (s.actionWords (plan + 0x40 + 16 * x) 4).map parsePlanRec

/-- Record x of the plan of the tick's intake. -/
def State.planRec (s : State) (x : Nat) : Option PlanRec := s.planRecAt s.intake.plan x

/-- The plan's header: SHARED and SHARED_BASE; none unless KIND is an intake plan. -/
def State.planHeader (s : State) (off : Nat) : Option (Nat × Nat) :=
  match s.actionWords off 4 with
  | some ws => if wordAt ws 0 = 1 then some (bits (wordAt ws 1) 23 0, bits (wordAt ws 2) 22 0) else none
  | none => none

/-- A valid sensor input in effect names the stream (R217). -/
def State.sensorStream (s : State) (x : Nat) : Bool :=
  (List.range 16).any (fun n => bit (s.effReg (Reg.ALIGN_IN_CTL n)) 0 && bits (s.effReg (Reg.ALIGN_IN_CTL n)) 23 16 == x)

/-- ENABLE in effect, for a stream that no sensor input names (R201, R217). -/
def State.streamOn (s : State) (x : Nat) : Bool := bit (s.effReg (Reg.INTAKE_CTX_CTL x)) 0 && !s.sensorStream x

/-- CONTAINER in effect. -/
def State.container (s : State) (x : Nat) : Nat := bits (s.effReg (Reg.INTAKE_CTX_CTL x)) 3 1

/-- An enabled stream whose container the host carries in a ring (R171, R173). -/
def State.ringStream (s : State) (x : Nat) : Bool := s.streamOn x && s.container x != 4

/-- Units of a stream's ring (R171). -/
def State.ringUnits (s : State) (x : Nat) : Nat := 2 ^ (bits (s.effReg (Reg.INTAKE_RING_SIZE x)) 4 0 - 6)

/-- The host address in a pair of registers. -/
def hostAddr (lo hi : Word) : Nat := lo.toNat + hi.toNat * 2 ^ 32

/-- The gather lists of the flow-table path at a cut-off (R180): the access units completed so far are the tick's. -/
def State.cutFlows (s : State) : State :=
  { s with streams := s.streams.map (fun (e : Nat × Stream) => (e.1,
      { e.2 with
        rtpCut := e.2.rtpCut ++ e.2.rtpDone, rtpDone := []
        rtpBytes := match e.2.openAu with
          | some a => a.raw
          | none => 0 })) }

/-- A stream is flagged substituted for the tick (R173, R174). -/
def State.flagStream (s : State) (x : Nat) : State := s.setStream x { s.stream x with flagged := true }

/-- CUTOFF (R173, R322): the one read of the index table. Where the endpoint issues no request, every ring stream is treated
as though the indices had not come. -/
def execCutoff (i : EntryIx) (s : State) : Out :=
  done (match s.entryFor i.val 0x1F 0x1F 9 with
    | none => s
    | some e =>
      let s1 := { s.cutFlows with intake := { plan := e.operand } }
      let s2 := { s1 with streams := s1.streams.map (fun (x : Nat × Stream) => (x.1, { x.2 with fetched := none, flagged := false, placed := [] })) }
      if s2.mayIssue = false then ((List.range 256).filter s2.ringStream).foldl (fun (a : State) x => a.flagStream x) s2
      else ({ s2 with intake := { s2.intake with pending := true } }).pull
        .indexRead (hostAddr (s2.reg Reg.INTAKE_INDEX_TABLE_LO) (s2.reg Reg.INTAKE_INDEX_TABLE_HI)) 1024)

/-- The write index of one stream (R174). -/
def State.takeIndex (s : State) (x : Nat) (w : Word) : State :=
  let span := (w - s.reg (Reg.INTAKE_READ_IDX x)).toNat
  if span = 0 then s
  else if s.ringUnits x < span then ((s.tally Reg.INTAKE_RING_BAD).event 0x200 2).flagStream x
  else s.setStream x { s.stream x with fetched := some w }

/-- The read of the index table. -/
def Egress.isIndexRead : Egress → Bool
  | .indexRead _ _ => true
  | _ => false

/-- INDEX_READ_DONE (R173, R174): indices that arrive after the intake DMA entry has started are discarded. -/
def execIndexReadDone (ix : List Word) (s : State) : Out :=
  done (if s.frozenLink then s
  else
    let s0 := s.endReads Egress.isIndexRead
    if s.intake.pending = false then s0
    else
      ((List.range 256).filter s.ringStream).foldl (fun (a : State) x => a.takeIndex x (ix.getD x 0))
        { s0 with intake := { s.intake with pending := false, ready := true } })

/-- Bytes of a stream's span. -/
def State.spanBytes (s : State) (x : Nat) : Nat :=
  match (s.stream x).fetched with
  | some w => (w - s.reg (Reg.INTAKE_READ_IDX x)).toNat * 64
  | none => 0

/-- The ring reads of n bytes from unit d on (R171): a span that wraps is read in two pieces. -/
def ringReads (base units d n : Nat) : List (Nat × Nat) :=
  let o := d % units * 64
  let a := min n (units * 64 - o)
  (base + o, a) :: (if a < n then [(base, n - a)] else [])

/-- The grant of one stream (R177): its area first, then what is left of the shared area, at offset `used`. -/
def State.grantStream (s : State) (shared sharedBase : Nat) (a : State × Nat) (x : Nat) : State × Nat :=
  let n := a.1.spanBytes x
  match s.planRec x with
  | none => a
  | some p =>
    if n = 0 ∨ p.guar = 0 then a
    else
      let own := min n p.guar
      let more := if p.direct then 0 else min (n - own) (shared - a.2)
      let places := (p.base, own) :: (if 0 < more then [(sharedBase + a.2, more)] else [])
      let t := a.1.setStream x { a.1.stream x with placed := places }
      let t1 := { t with intake := { t.intake with want := mapIns x (own + more) t.intake.want, spans := mapIns x n t.intake.spans } }
      let d := (t.reg (Reg.INTAKE_READ_IDX x)).toNat
      let rs := ringReads (hostAddr (t.effReg (Reg.INTAKE_RING_BASE_LO x)) (t.effReg (Reg.INTAKE_RING_BASE_HI x)))
        (t.ringUnits x) d (own + more)
      (if t1.mayIssue then rs.foldl (fun (b : State) r => b.pull (.ringRead x) r.1 r.2) t1 else t1, a.2 + more)

/-- INTAKE_DMA_ENTRY (R173, R177): without the indices nothing is taken in and INDEX_LATE counts. -/
def execIntakeDmaEntry (i : EntryIx) (s : State) : Out :=
  done (match s.entryFor i.val 0x1F 0x1F 2 with
    | none => s
    | some e =>
      let sr := s.actionRead e.operand 1040
      match s.planHeader e.operand with
      | none => sr
      | some (shared, sharedBase) =>
        let on := (List.range 256).filter s.ringStream
        let s0 := { sr with intake := { s.intake with plan := e.operand } }
        if s.intake.ready = false then
          if s.intake.pending then
            let s1 := ({ s0 with intake := { s0.intake with pending := false } }.tally Reg.INTAKE_INDEX_LATE).event 0x200 1
            on.foldl (fun (a : State) x => a.flagStream x) s1
          else s0
        else
          let r := on.foldl (s0.grantStream shared sharedBase) (s0, 0)
          { r.1 with intake := { r.1.intake with active := true, ready := false } })

/-- Bytes that have arrived for a stream go to its places in the video store, in order. -/
def State.placeBytes (s : State) (x : Nat) (d : List Byte) : State :=
  ((s.stream x).placed.foldl (fun (a : State × List Byte) p =>
    ((a.1.write { store := .video, addr := p.1 } (a.2.take p.2)).st, a.2.drop p.2)) (s, d)).1

/-- The read table (R179, R322): D takes W for every valid span, and the table is written as the last posted write where the
endpoint may issue it. -/
def State.writeReadTable (s : State) : State :=
  let s1 := (List.range 256).foldl (fun (a : State) x => match (a.stream x).fetched with
    | some w => a.setReg (Reg.INTAKE_READ_IDX x) w
    | none => a) s
  if s1.mayIssue then
    s1.post (hostAddr (s1.reg Reg.INTAKE_READ_TABLE_LO) (s1.reg Reg.INTAKE_READ_TABLE_HI))
      (wordBytes ((List.range 256).map (fun x => s1.reg (Reg.INTAKE_READ_IDX x))))
  else s1

/-- A read of a stream's ring. -/
def Egress.isRingRead : Egress → Bool
  | .ringRead _ _ _ => true
  | _ => false

/-- INTAKE_READ_DONE (R179): every read has completed. Completions after the demultiplexer entry's start are discarded. -/
def execIntakeReadDone (data : List (Fin 256 × List Byte)) (s : State) : Out :=
  done (if s.frozenLink then s
  else
    let s0 := s.endReads Egress.isRingRead
    if s.intake.active = false then s0
    else
      let s1 := data.foldl (fun (a : State) d => a.placeBytes d.1.val (d.2.take (mapGetD s.intake.want d.1.val 0))) s0
      let s2 := s1.writeReadTable
      { s2 with intake := { s2.intake with active := false } })

/-- The bytes of a stream's places, in order. -/
def State.placedBytes (s : State) (x : Nat) : List Byte :=
  (s.stream x).placed.flatMap (fun p => s.peeks { store := .video, addr := p.1 } p.2)

/-- A new access unit of a stream (R182). -/
def newAu (st : Stream) : Au :=
  { extents := [], time := 0, damaged := false, clipId := st.clipId, clipStart := st.clipNext, frameNo := st.frameNo }

/-- The open access unit, a new one where none is open. -/
def Stream.current (st : Stream) : Au := st.openAu.getD (newAu st)

/-- Close the open access unit: it is taken in (R182). -/
def Stream.closeAu (st : Stream) : Stream :=
  match st.openAu with
  | none => st
  | some a =>
    { st with openAu := none, rtpPkts := [], clipNext := false
              aus := st.aus ++ [{ a with frameNo := st.frameNo }], frameNo := st.frameNo + 1 }

/-- Damage the open access unit. -/
def Stream.damage (st : Stream) : Stream := { st with openAu := st.openAu.map (fun a => { a with damaged := true }) }

/-- Extents join the open access unit (R182): a gather list holds 1,024; one that needs more is damaged, and counts once. -/
def State.addExtents (s : State) (x : Nat) (es : List (Nat × Nat × Bool)) : State :=
  let st := s.stream x
  let a := st.current
  let all_ := a.extents ++ es
  if all_.length ≤ 1024 then s.setStream x { st with openAu := some { a with extents := all_ } }
  else
    (if a.extOver then s else s.tally Reg.DEMUX_EXTENT_OVER).setStream x
      { st with openAu := some { a with extents := all_.take 1024, damaged := true, extOver := true } }

/-- n bytes from place `o` of some pieces of the video store, as extents of at most 65,535 bytes. -/
def pieceExtents : List (Nat × Nat) → Nat → Nat → Bool → List (Nat × Nat × Bool)
  | [], _, _, _ => []
  | (p, len) :: r, o, n, nal =>
    if len ≤ o then pieceExtents r (o - len) n nal
    else
      let a := min n (len - o)
      (List.range ((a + 65534) / 65535)).map (fun i => (p + o + 65535 * i, min 65535 (a - 65535 * i), nal && i == 0)) ++
        pieceExtents r 0 (n - a) (nal && a == 0)

/-- Units of a record's payload, which begins at place `o` of the stream's span, join the open access unit. -/
def State.addUnits (s : State) (x o : Nat) (us : List MediaUnit) : State :=
  us.foldl (fun (a : State) u => a.addExtents x (pieceExtents (a.stream x).placed (o + u.offset.toNat) u.len.toNat u.start)) s

/-- CODEC and PID in effect (R201). -/
def State.codec (s : State) (x : Nat) : Nat := bits (s.effReg (Reg.INTAKE_CTX_CTL x)) 5 4
/-- PID in effect. -/
def State.tsPid (s : State) (x : Nat) : Nat := bits (s.effReg (Reg.INTAKE_CTX_CTL x)) 28 16

/-- A transport stream packet of the stream's PID (R182, R183): the next PES start closes the open access unit. -/
def State.tsPacket (s : State) (x o : Nat) (p : TsPacket) : State :=
  if p.pid.toNat ≠ s.tsPid x then s
  else if p.scrambled then s.tally Reg.DEMUX_TS_SCRAMBLED
  else
    let s1 := if p.ccError then (s.tally Reg.DEMUX_TS_CC_ERR).setStream x (s.stream x).damage else s
    let s2 := match p.pes with
      | none => s1
      | some t =>
        let st := (s1.stream x).closeAu
        s1.setStream x { st with openAu := some { newAu st with time := t } }
    s2.addUnits x o p.units

/-- A fragment (R182, R183): each sample is an access unit. -/
def State.bmffFragment (s : State) (x o trafs : Nat) (samples : List (Word × List MediaUnit)) : State :=
  if (s.stream x).bmffInit = false ∨ 1 < trafs then s.tally Reg.DEMUX_BMFF_BAD
  else
    samples.foldl (fun (a : State) m =>
      let st := (a.stream x).closeAu
      let b := (a.setStream x { st with openAu := some { st.current with time := m.1 } }).addUnits x o m.2
      b.setStream x (b.stream x).closeAu) s

/-- Sequence number a is at or before b. -/
def seqAtOrBefore (a b : BitVec 16) : Bool := decide ((a - b).toInt ≤ 0)

/-- Where a sequence number belongs among the packets of an access unit. -/
def insertPkt (p : BitVec 16 × List (Nat × Nat × Bool)) :
    List (BitVec 16 × List (Nat × Nat × Bool)) → List (BitVec 16 × List (Nat × Nat × Bool))
  | [] => [p]
  | q :: r => if p.1 = q.1 then q :: r else if seqAtOrBefore p.1 q.1 then p :: q :: r else q :: insertPkt p r

/-- Gaps in rising sequence numbers. -/
def seqGaps : List (BitVec 16) → Nat
  | a :: b :: r => (if b = a + 1 then 0 else 1) + seqGaps (b :: r)
  | _ => 0

/-- The open access unit of an RTP stream closes (R182, R184): its packets are in order, and each gap counts. That of a ring is
taken in at once, that of the flow-table path at the cut-off. -/
def State.closeRtp (s : State) (x : Nat) (ring : Bool) : State :=
  let st := s.stream x
  match st.openAu with
  | none => s
  | some a =>
    let seqs := (match st.rtpSeq with
      | some q => [q]
      | none => []) ++ st.rtpPkts.map Prod.fst
    let gaps := seqGaps seqs
    let ext := st.rtpPkts.flatMap Prod.snd
    let cut := decide (1024 < ext.length)
    let a1 := { a with extents := ext.take 1024, damaged := a.damaged || decide (0 < gaps) || cut, extOver := cut }
    let st1 := { st with rtpPkts := [], rtpSeq := seqs.getLast?, rtpLast := st.rtpTime }
    ((if cut then s.tally Reg.DEMUX_EXTENT_OVER else s).count Reg.FLOW_RTP_LOSS gaps).setStream x
      (if ring then ({ st1 with openAu := some a1 } : Stream).closeAu else { st1 with openAu := none, rtpDone := st.rtpDone ++ [a1] })

/-- The packet belongs to an access unit already taken in, or is a copy of one that the open access unit holds (R184). -/
def Stream.rtpIsLate (st : Stream) (r : RtpPacket) : Bool :=
  (match st.rtpSeq with
   | some q => seqAtOrBefore r.seq q || decide (r.timestamp = st.rtpLast)
   | none => false) ||
  (st.openAu.isSome && decide (st.rtpTime = r.timestamp) && (st.rtpPkts.map Prod.fst).contains r.seq)

/-- A packet that a ring's record holds (R183, R184). -/
def State.ringRtp (s : State) (x o : Nat) (r : RtpPacket) : State :=
  if r.version2 = false ∨ r.modeOk = false then s.tally Reg.FLOW_RTP_BAD
  else if (s.stream x).rtpIsLate r then s.tally Reg.FLOW_RTP_LATE
  else
    let s1 := if (s.stream x).openAu.isSome ∧ (s.stream x).rtpTime ≠ r.timestamp then s.closeRtp x true else s
    let st := s1.stream x
    let ext := r.units.flatMap (fun u => pieceExtents st.placed (o + u.1.toNat) u.2.1.toNat u.2.2)
    let s2 := s1.setStream x { st with
      openAu := some { st.current with time := r.timestamp }, rtpTime := r.timestamp, rtpPkts := insertPkt (r.seq, ext) st.rtpPkts }
    if r.marker then s2.closeRtp x true else s2

/-- What a record's payload gives (R183): a parse that is not of the record's container gives nothing, and AV1 in a transport
stream is not supported. -/
def State.takePayload (s : State) (x o : Nat) (r : RecordParse) : State :=
  match s.container x, r with
  | 1, .ts ps => if s.codec x = 2 then s else ps.foldl (fun (a : State) p => a.tsPacket x o p) s
  | 2, .bmffInit ok => if ok then s.setStream x { s.stream x with bmffInit := true } else s
  | 2, .bmffFragment n ms => s.bmffFragment x o n ms
  | 3, .rtp p => s.ringRtp x o p
  | 5, .elementary us => s.addUnits x o us
  | _, _ => s

/-- The TYPE values that suit a container (R175). -/
def typeOk (container ty : Nat) : Bool :=
  match container with
  | 1 => ty == 1
  | 2 => ty == 2 || ty == 3
  | 3 => ty == 4
  | 5 => ty == 5
  | _ => false

/-- A record's header sets a reserved field, or its TYPE or LEN does not suit (R175). -/
def recordBad (container : Nat) (h : List Byte) : Bool :=
  let w := fun i => bytesWord h (4 * i)
  decide (bits (w 0) 31 28 ≠ 0) || decide (bits (w 1) 31 3 ≠ 0) || decide (w 3 ≠ 0) || decide (w 6 ≠ 0) || decide (w 7 ≠ 0) ||
  !typeOk container (bits (w 0) 27 24) || (decide (bits (w 0) 27 24 = 1) && decide (bits (w 0) 23 0 % 188 ≠ 0))

/-- A record at byte `off` of the span is taken in (R175, R182); CLIP_START ends the stream's keep buffers and tracks (R214,
R237), and an access unit of the record before it (DEDUCED, notes/assumptions/79.md). -/
def State.takeRecord (s : State) (x off : Nat) (h : List Byte) (r : Option RecordParse) : State :=
  let w := fun i => bytesWord h (4 * i)
  let ty := bits (w 0) 27 24
  let st := s.stream x
  let st1 := if bit (w 1) 1 then st.damage.closeAu else st
  let st2 := if bit (w 1) 2 then { st1.closeAu with frameNo := 0, clipId := w 2, clipNext := true } else { st1 with clipId := w 2 }
  let st4 := if ty = 5 then { st2 with openAu := some { st2.current with time := w 4 } } else st2
  let s0 := if bit (w 1) 2 then { s with keeps := s.keeps.filter (fun k => k.1 != x) } else s
  let st5 := if bit (w 1) 2 then { st4 with trackEnd := 3 } else st4
  let s1 := s0.setStream x st5
  let s2 := match r with
    | some p => s1.takePayload x (off + 32) p
    | none => s1
  if bit (w 1) 0 ∧ (ty = 1 ∨ ty = 5) then s2.setStream x (s2.stream x).closeAu else s2

/-- How the records of a stream's span are walked (R175, R177, R179): bytes of the span, granted, arrived. -/
structure Span where
  total : Nat
  granted : Nat
  arrived : Nat
  recMax : Nat
  container : Nat
  bytes : List Byte

/-- The records of a span from the k-th on, at byte `off`. `parse` lists what each record of the span holds, so that its length
also tells how many records the host wrote behind those that were read. -/
def State.walkRecords (s : State) (x : Nat) (p : Span) (parse : List RecordParse) (k off : Nat) : Nat → State
  | 0 => s
  | fuel + 1 =>
    let rest := max 1 (parse.length - k)
    if p.total ≤ off then s
    else if p.granted < off + 32 then s.count Reg.INTAKE_INTAKE_OVER rest
    else if p.arrived < off + 32 then s.count Reg.INTAKE_INTAKE_LATE rest
    else
      let h := (p.bytes.drop off).take 32
      let n := (32 + bits (bytesWord h 0) 23 0 + 63) / 64 * 64
      if p.total < off + n then s.tally Reg.DEMUX_REC_BAD
      else if p.granted < off + n then s.count Reg.INTAKE_INTAKE_OVER rest
      else if p.recMax ≤ k then (s.tally Reg.DEMUX_REC_OVER).walkRecords x p parse (k + 1) (off + n) fuel
      else if p.arrived < off + n then (s.tally Reg.INTAKE_INTAKE_LATE).walkRecords x p parse (k + 1) (off + n) fuel
      else if recordBad p.container h then (s.tally Reg.DEMUX_REC_BAD).walkRecords x p parse (k + 1) (off + n) fuel
      else (s.takeRecord x off h parse[k]?).walkRecords x p parse (k + 1) (off + n) fuel

/-- The 8 bytes of an extent in a gather list (R182). -/
def extentBytes (e : Nat × Nat × Bool) : List Byte := leBytes 8 (e.1 + e.2.1 * 2 ^ 23 + (if e.2.2 then 2 ^ 39 else 0))

/-- The first byte of the reserved part of the video store (R176). -/
def gatherBase : Nat := 0x780000

/-- The gather lists of access units are written at their places in the reserved part of the video store (R182). -/
def State.writeLists (s : State) (aus : List Au) (at_ : List (BitVec 19)) : State :=
  (aus.zip at_).foldl (fun (a : State) x =>
    (a.write { store := .video, addr := gatherBase + x.2.toNat } (x.1.extents.flatMap extentBytes)).st) s

/-- The demultiplexing of one ring stream (R181, R182): what stays open at the end is discarded. -/
def State.demuxRing (s : State) (x arrived : Nat) (parse : List RecordParse) (total : Nat) : State :=
  match s.planRec x with
  | none => s
  | some p =>
    let granted := mapGetD s.intake.want x 0
    let s1 := s.walkRecords x { total := total, granted := granted, arrived := min arrived granted, recMax := p.recMax
                                container := s.container x, bytes := s.placedBytes x } parse 0 0 (total / 64 + 1)
    match (s1.stream x).openAu with
    | some _ => (s1.tally Reg.DEMUX_AU_PARTIAL).setStream x { s1.stream x with openAu := none, rtpPkts := [] }
    | none => s1

/-- The access units of a stream's flow-table path are taken in, and numbered (R180, R182). -/
def State.demuxFlow (s : State) (x : Nat) : State :=
  let st := s.stream x
  s.setStream x { st with
    aus := st.aus ++ (st.rtpCut.zipIdx.map (fun a => { a.1 with frameNo := st.frameNo + BitVec.ofNat 32 a.2 }))
    frameNo := st.frameNo + BitVec.ofNat 32 st.rtpCut.length
    rtpCut := [] }

/-- A record without a buffer for each planned frame of a flagged stream (R205): its time and outcome are free values. -/
def State.flaggedRecords (s : State) (x : Nat) : Nat → State
  | 0 => s
  | n + 1 =>
    let t := s.free
    let o := t.2.free
    let au := { newAu (s.stream x) with time := t.1 }
    (o.2.passOn x { picOf x au (bits o.1 3 0) with concealed := false, kind := 1 }).flaggedRecords x n

/-- What the demultiplexer itself passes on (R205, R222): the planned frames of a flagged stream, and a proxy record for each
access unit of a stream in proxy pass. -/
def State.demuxRecords (s : State) (x : Nat) : State :=
  if (s.stream x).flagged then
    match s.planRec x with
    | some p => s.flaggedRecords x p.framesTick
    | none => s
  else if s.passMode x = 2 then
    let aus := (s.stream x).aus
    aus.foldl (fun (a : State) au => a.passOn x { picOf x au 0 with kind := 2 }) (s.setStream x { s.stream x with aus := [] })
  else s

/-- DEMULTIPLEXER_ENTRY (R179 to R184): outstanding ring reads are abandoned with what `data` says has arrived. -/
def execDemultiplexerEntry (i : EntryIx) (data : List (Fin 256 × List Byte)) (parse : List (Fin 256 × List RecordParse))
    (s : State) (lists : List (Fin 256 × List (BitVec 19)) := []) : Out :=
  done (match s.entryFor i.val 0x21 0x21 2 with
    | none => s
    | some e =>
      let s0 := { s.actionRead e.operand 1040 with intake := { s.intake with plan := e.operand } }
      let got := fun (x : Nat) => if s0.intake.active then
          (data.filterMap (fun d => if d.1.val = x then some d.2 else none)).flatten.take (mapGetD s0.intake.want x 0) else []
      let s1 := if s0.intake.active then
          let a := (s0.intake.want.map Prod.fst).foldl (fun (a : State) x => a.placeBytes x (got x)) s0
          let b := a.writeReadTable
          { b with intake := { b.intake with active := false } }
        else s0
      let on := (List.range 256).filter s1.streamOn
      let s2 := on.foldl (fun (a : State) x =>
        let before := (a.stream x).aus.length
        let b := if a.container x = 4 then a.demuxFlow x
          else a.demuxRing x (if s0.intake.active then (got x).length else mapGetD s0.intake.want x 0)
            ((parse.filterMap (fun p => if p.1.val = x then some p.2 else none)).flatten) (mapGetD s0.intake.spans x 0)
        let new := (b.stream x).aus.drop before
        let c := b.writeLists new ((lists.filterMap (fun p => if p.1.val = x then some p.2 else none)).flatten)
        (c.count (Reg.INTAKE_S_AU_TAKEN x) new.length).demuxRecords x) s1
      { s2 with intake := { s2.intake with want := [], spans := [] } })

end Sys2Proof.Machine
end

