-- ==== Sys2Proof/Machine/Decoders.lean ====
section
/-!
DEFINITION. The decoders (R188 to R199, R222): decode slots, frame outcomes, concealment, references and picture records.
-/
namespace Sys2Proof.Machine

/-- The stream's state (R189). -/
def State.ctxState (s : State) (x : Nat) : Nat := bits (s.reg (Reg.INTAKE_CTX_STATE x)) 2 0

/-- The requester number of a decoder, and the owner names DPB and OUT (R285, R286). -/
def ownDpb : Nat := 1
/-- OUT. -/
def ownOut : Nat := 2

/-- The stream leaves RUN: the owner DPB of every reference is removed (R197). -/
def State.dropRefs (s : State) (k x : Nat) : State :=
  let t := (s.stream x).dpb.foldl (fun (a : State) r => (a.bpmRelease k r.buf ownDpb).1) s
  t.setStream x { t.stream x with dpb := [] }

/-- The stream's state takes a new value; leaving RUN removes its references (R189, R197). -/
def State.setCtx (s : State) (k x v : Nat) : State :=
  let t := if s.ctxState x = 2 ∧ v ≠ 2 then s.dropRefs k x else s
  t.setField (Reg.INTAKE_CTX_STATE x) 2 0 v

/-- The tally of an outcome (R193). -/
def outcomeTally (k o : Nat) : Nat :=
  match o with
  | 0 => Reg.VD_FRAME_DONE k
  | 1 => Reg.VD_ABANDON_BUDGET k
  | 2 => Reg.VD_ABANDON_SYNTAX k
  | 3 => Reg.VD_ABANDON_BOUNDS k
  | 4 => Reg.VD_ABANDON_MEMORY k
  | 5 => Reg.DEMUX_AU_DAMAGED
  | 6 => Reg.VD_POOL_EMPTY k
  | 7 => Reg.VD_HOLD_SKIP k
  | 8 => Reg.DEMUX_NO_SYNC
  | _ => Reg.DEMUX_FRAME_OVER

/-- The tally of a stream for an outcome (R201). -/
def streamTally (x o : Nat) : Nat :=
  if o = 0 then Reg.INTAKE_S_DECODED x else if o ≤ 7 then Reg.INTAKE_S_CONCEALED x else Reg.INTAKE_S_SUBSTITUTED x

/-- An access unit ends with an outcome (R193, R201, R203): tallies, CTX_STATE, LAST and events. -/
def State.outcome (s : State) (k x o : Nat) : State :=
  let s1 := (s.tally (outcomeTally k o)).tally (streamTally x o)
  let s2 := (s1.setField (Reg.INTAKE_CTX_STATE x) 11 8 o).setField (Reg.INTAKE_CTX_STATE x) 31 16 (s.tick.toNat % 65536)
  if o = 9 then s2
  else
    let s3 := s2.setReg (Reg.VD_LAST k) (BitVec.ofNat 32 (x + 256 * o + 65536 * (s.tick.toNat % 65536)))
    s3.event (pageVd k) (BitVec.ofNat 32 ((if 1 ≤ o ∧ o ≤ 4 then 1 else 0) + (if o = 3 then 2 else 0)))

/-- A name leaves a stream's reference structure (R194, R197): the picture that is left without one goes, and with it the owner DPB
of its buffer. The state, and whether the BPM made the release. -/
def State.dropRef (s : State) (k x : Nat) (name : Word) : State × Bool :=
  let st := s.stream x
  match st.dpb.find? (fun r => r.names.contains name) with
  | none => (s, true)
  | some r =>
    let less := { r with names := r.names.erase name }
    if less.names = [] then
      (s.setStream x { st with dpb := st.dpb.eraseP (fun r => r.names.contains name) }).bpmRelease k r.buf ownDpb
    else (s.setStream x { st with dpb := st.dpb.map (fun q => if q = r then less else q) }, true)

/-- Names leave the reference structure: the state, and whether every release was made. -/
def State.dropNames (s : State) (k x : Nat) (ns : List Word) : State × Bool :=
  ns.foldl (fun (a : State × Bool) n =>
    let r := a.1.dropRef k x n
    (r.1, a.2 && r.2)) (s, true)

/-- The concealed picture of a frame (R194, R288): the previous output picture as a new reference to its buffer; it takes
the frame's place in the reference structure where the frame's header was intact and the stream is in RUN (R197). -/
def State.conceal (s : State) (k x : Nat) (au : Au) (h : AuHeader) (o : Nat) : State :=
  match (s.stream x).lastOut with
  | none => s.passOn x (picOf x au o)
  | some last =>
    match last.buf with
    | none => s.passOn x (picOf x au o)
    | some b =>
      let a := s.bpmAdd k b ownOut
      if a.2 = false then a.1.passOn x (picOf x au o)
      else
        let enters := h.headerIntact && decide (a.1.ctxState x = 2)
        let t := if enters then (a.1.dropNames k x h.drops).1 else a.1
        let d := if enters ∧ h.names ≠ [] then t.bpmAdd k b ownDpb else (t, false)
        let u := if d.2 then
            d.1.setStream x { d.1.stream x with dpb := (d.1.stream x).dpb ++ [{ names := h.names, buf := b, concealed := true }] }
          else d.1
        u.passOn x { last with clipId := au.clipId, frameNo := au.frameNo, time := au.time, outcome := o, concealed := true
                               refConcealed := last.refConcealed || h.headerIntact }

/-- A frame ends in an outcome that is not DECODED: concealed, or without a record's buffer (R193, R205). -/
def State.endBad (s : State) (k x : Nat) (au : Au) (h : AuHeader) (o : Nat) : State :=
  let s1 := s.outcome k x o
  if o ≤ 7 then s1.conceal k x au h o else s1.passOn x (picOf x au o)

/-- The frame of a decoder ends: its status is idle (R203). -/
def State.vdIdle (s : State) (k : Nat) : State :=
  let t := s.setVd k { s.vd k with frame := none }
  ((t.setReg (Reg.STATUS (pageVd k)) 1).setReg (Reg.VD_CURRENT k) 0).setReg (Reg.VD_BUDGET_LEFT k) 0

/-- A record of a slot list: stream, FRAMES, BUDGET (R190). -/
def State.decodeRec (s : State) (list ix : Nat) : Option (Nat × Nat × Nat) :=
  (s.actionWords (list + 16 + 8 * ix) 2).map (fun ws => (bits (wordAt ws 0) 7 0, bits (wordAt ws 0) 11 8, bits (wordAt ws 1) 27 0))

/-- The record at which a walk stands, past every record with no frame left to decode: the walk, stream and budget. -/
def State.nextDecode (s : State) (w : Walk) : Nat → Option (Walk × Nat × Nat)
  | 0 => none
  | n + 1 =>
    if w.count ≤ w.ix then none
    else
      match s.decodeRec w.list w.ix with
      | none => none
      | some (x, frames, budget) =>
        if w.done < frames ∧ (s.stream x).aus ≠ [] ∧ s.passMode x ≠ 2 then some (w, x, budget)
        else s.nextDecode { w with ix := w.ix + 1, done := 0 } n

/-- The walk of a slot list that a slot-list header starts; COUNT in [7:0]. -/
def State.startWalk (s : State) (i : Nat) (e : Entry) : Option Walk :=
  (s.actionWords e.operand 4).map (fun ws => { entry := i, list := e.operand, count := bits (wordAt ws 0) 7 0, ix := 0, done := 0 })

/-- The reads of up to n records of a list in the action area, `words` words each: up to one that cannot be read (R305). -/
def State.readRecs (s : State) (off words n : Nat) : State :=
  let k := ((List.range n).findIdx? (fun i => (s.actionWords (off + 4 * words * i) words).isNone)).getD n
  (List.range (min n (k + 1))).foldl (fun (a : State) i => a.actionRead (off + 4 * words * i) words) s

/-- The reads that a walk makes to come to a record, from the one it stands at (R190). -/
def State.walkReads (s : State) (w : Walk) (words : Nat) (to_ : Option Walk) : State :=
  s.readRecs (w.list + 16 + 4 * words * w.ix) words (match to_ with
    | some w1 => w1.ix + 1 - w.ix
    | none => w.count - w.ix)

/-- DECODE_ENTRY (R190). -/
def execDecodeEntry (i : EntryIx) (s : State) : Out :=
  done (match s.entryFor i.val 0x10 0x17 3 with
    | none => s
    | some e =>
      let k := e.unit - 0x10
      let t := s.actionRead e.operand 4
      match s.startWalk i.val e with
      | none => t
      | some w => (t.setVd k { s.vd k with walk := some w, frame := none }).setReg (Reg.STATUS (pageVd k)) 1)

/-- The parameter sets that a header activates exceed the stream's limits or use what R188 does not support (R189): 10 bits are
not of H.264, 4:0:0 is not of H.265. -/
def exceeds (p : PlanRec) (codec : Nat) (h : AuHeader) : Bool :=
  decide (p.maxW < h.width.toNat) || decide (p.maxH < h.height.toNat) || decide (8192 < h.width.toNat) || decide (4320 < h.height.toNat) ||
  decide (p.dpbMax < h.dpb.toNat) || (h.depth10 && !p.depth10) || (decide (codec = 0) && h.depth10) ||
  (decide (codec = 1) && h.mono) || decide (codec = 3) || h.unsupported

/-- PARAM_SIZE and PARAM_FMT of an activated parameter set (R201). -/
def State.showParams (s : State) (x : Nat) (h : AuHeader) : State :=
  (s.setReg (Reg.INTAKE_PARAM_SIZE x) (BitVec.ofNat 32 (h.width.toNat + 65536 * h.height.toNat))).setReg (Reg.INTAKE_PARAM_FMT x)
    (BitVec.ofNat 32 ((if h.depth10 then 10 else 8) + (if h.mono then 16 else 0) + 256 * h.dpb.toNat))

/-- A reference that the header names is not in the DPB: the grey source serves it (R195). -/
def Stream.missingRef (st : Stream) (h : AuHeader) : Bool := h.refs.any (fun n => !st.dpb.any (fun r => r.names.contains n))

/-- A frame that the stream's state lets be decoded starts (R195, R197, R198): a buffer is allocated with the owner DPB. -/
def State.startFrame (s : State) (k x budget : Nat) (p : PlanRec) (au : Au) (h : AuHeader) : State :=
  if au.damaged then s.endBad k x au h 5
  else if (s.pool p.pool).lost then s.endBad k x au h 6
  else
    let r := s.bpmAlloc k p.pool ownDpb
    match r.2 with
    | none => r.1.endBad k x au h 6
    | some b =>
      let t := r.1.setVd k { r.1.vd k with frame := some { stream := x, au := au, header := h, buf := some b, budget := budget } }
      let t1 := ((t.setReg (Reg.STATUS (pageVd k)) 2).setField (Reg.VD_CURRENT k) 8 0 (x + 256)).setReg (Reg.VD_BUDGET_LEFT k)
        (BitVec.ofNat 32 budget)
      if (s.stream x).missingRef h then t1.tally (Reg.VD_GREY_REF k) else t1

/-- An access unit comes to a decoder (R189, R193). -/
def State.takeAu (s : State) (k x budget : Nat) (p : PlanRec) (au : Au) (h : AuHeader) : State :=
  let tooBig := h.params && exceeds p (s.codec x) h
  let s1 := if h.params then s.showParams x h else s
  if tooBig then (s1.setCtx k x 3).endBad k x au h 7
  else if s1.ctxState x = 3 ∧ h.params = false then s1.endBad k x au h 7
  else
    let s2 := if s1.ctxState x = 3 then s1.setCtx k x 1 else s1
    if h.params = false then (s2.setCtx k x 1).endBad k x au h 8
    else if s2.ctxState x ≠ 2 ∧ h.rap = false then s2.endBad k x au h 8
    else if h.rasl ∧ (s2.stream x).skipRasl = true then s2.endBad k x au h 8
    else s2.startFrame k x budget p au h

/-- DECODE_FRAME (R190, R193): the decoder starts its next frame. -/
def execDecodeFrame (vd : Fin 8) (h : AuHeader) (s : State) : Out :=
  let k := vd.val
  done (match (s.vd k).walk with
    | none => s
    | some w =>
      if (s.vd k).frame.isSome then s
      else
        match s.nextDecode w 65 with
        | none => (s.walkReads w 2 none).setVd k { s.vd k with walk := none }
        | some (w1, x, budget) =>
          match (s.stream x).aus, s.planRec x with
          | au :: rest, some p =>
            let s1 := (s.walkReads w 2 (some w1)).setVd k { s.vd k with walk := some { w1 with done := w1.done + 1 } }
            let s2 := (s1.setStream x { s1.stream x with aus := rest }).setField (Reg.VD_CURRENT k) 31 16 w1.ix
            s2.takeAu k x budget p au h
          | _, _ => s)

/-- A running frame is abandoned: its buffer goes back (R193, R198). -/
def State.abandonFrame (s : State) (k : Nat) (f : VdFrame) (o : Nat) : State :=
  let s1 := match f.buf with
    | some b => (s.bpmRelease k b ownDpb).1
    | none => s
  (s1.endBad k f.stream f.au f.header o).vdIdle k

/-- The mark that a decoded picture carries (R189, R195): it clears at a random access point that needs no recovery, and where a
recovery point is complete. -/
def Stream.refMark (st : Stream) (h : AuHeader) (starting : Bool) : Bool :=
  if h.recoveryDone ∨ (h.rap = true ∧ h.recovery = false) then false
  else
    st.missingRef h || st.dpb.any (fun r => r.concealed && h.refs.any r.names.contains) || st.recovering ||
    (starting && h.recovery)

/-- A decoded picture is passed on (R195, R197, R288): a release that the BPM refuses ends the frame with outcome BOUNDS. -/
def State.passDecoded (s : State) (k : Nat) (f : VdFrame) (b : Ptr) (ref : Bool) (drops : List Word) : State :=
  let x := f.stream
  let h := f.header
  let st := s.stream x
  let starting := decide (s.ctxState x ≠ 2)
  let mark := st.refMark h starting
  let r := s.dropNames k x drops
  if r.2 = false then r.1.abandonFrame k f 3
  else
    let a := r.1.bpmAdd k b ownOut
    if a.2 = false then a.1.abandonFrame k f 3
    else
      let s1 := a.1.setStream x { a.1.stream x with
        dpb := (a.1.stream x).dpb ++ (if ref then [{ names := h.names, buf := b, concealed := mark }] else [])
        skipRasl := if h.rap then starting else st.skipRasl
        recovering := !h.recoveryDone && (if h.rap then h.recovery && mark else st.recovering) }
      let s2 := if ref then s1 else (s1.bpmRelease k b ownDpb).1
      let s3 := (s2.setField (Reg.INTAKE_CTX_STATE x) 2 0 2).outcome k x 0
      let p := { picOf x f.au 0 with
        buf := some b, cropX := h.cropX.toNat, cropY := h.cropY.toNat, cropW := h.cropW.toNat, cropH := h.cropH.toNat
        depth10 := h.depth10, mono := h.mono, refConcealed := mark, width := h.width.toNat, height := h.height.toNat }
      (s3.passOn x p).vdIdle k

/-- Reads of the device's stores one after the other: the state, and whether all were served. -/
def State.readsOk (s : State) (rs : List (Ptr × Nat)) : State × Bool :=
  rs.foldl (fun (a : State × Bool) r =>
    let x := a.1.read r.1 r.2
    (x.st, a.2 && x.status == 0)) (s, true)

/-- A range lies within another. -/
def within (p : Ptr) (n : Nat) (q : Ptr) (m : Nat) : Bool :=
  decide (p.store = q.store) && decide (q.addr ≤ p.addr) && decide (p.addr + n ≤ q.addr + m)

/-- The byte ranges of an access unit. -/
def Au.ranges (a : Au) : List (Ptr × Nat) := a.extents.map (fun e => ({ store := .video, addr := e.1 }, e.2.1))

/-- A read lies in the frame's grant list (R198): the buffers of the references that it names, and its gather list's extents. -/
def State.granted (s : State) (f : VdFrame) (size : Nat) (r : Ptr × Nat) : Bool :=
  f.au.ranges.any (fun e => within r.1 r.2 e.1 e.2) ||
  (s.stream f.stream).dpb.any (fun q => f.header.refs.any q.names.contains && within r.1 r.2 q.buf size)

/-- The pitch of a picture buffer (R196). -/
def picPitch (w b : Nat) : Nat := cdiv (cdiv w 64 * 64 * b) 128 * 128

/-- The chroma plane of a monochrome picture (R188, R196): where it begins in the buffer, and its bytes, at mid-value. -/
def monoChroma (h : AuHeader) : Nat × List Byte :=
  let n := if h.depth10 then 2 else 1
  let size := picPitch h.width.toNat n * (cdiv h.height.toNat 64 * 64)
  (size, if h.depth10 then (List.replicate (size / 4) [(0x00 : Byte), 0x02]).flatten else List.replicate (size / 2) 0x80)

/-- What a frame that runs to its end writes (R188, R198): its samples, and mid-value chroma where it is monochrome. The state, and
whether every write was served. -/
def State.writePic (s : State) (h : AuHeader) (b : Ptr) (d : List Byte) : State × Bool :=
  let w := s.write b d
  if h.mono then
    let c := w.st.write (ptrAdd b (monoChroma h).1) (monoChroma h).2
    (c.st, w.status == 0 && c.status == 0)
  else (w.st, w.status == 0)

/-- The end of the bytes that a frame writes in its buffer. -/
def picEnd (h : AuHeader) (d : List Byte) : Nat := if h.mono then max d.length ((monoChroma h).1 + (monoChroma h).2.length) else d.length

/-- A frame that meets no error of its own ends (R188, R193, R197 to R199): its access unit and references are read, its picture is
written, and an access outside its grant list ends it with outcome BOUNDS. -/
def State.finishFrame (s : State) (k : Nat) (f : VdFrame) (b : Ptr) (d : List Byte) (ref : Bool) (drops : List Word)
    (reads : List (Ptr × Nat)) : State :=
  match s.poolOf b with
  | none => s.abandonFrame k f 4
  | some n =>
    let au := s.readsOk f.au.ranges
    if (s.pool n).lost ∨ au.2 = false then au.1.abandonFrame k f 4
    else if (s.pool n).bufSize < picEnd f.header d ∨ reads.all (s.granted f (s.pool n).bufSize) = false then au.1.abandonFrame k f 3
    else
      let r := au.1.readsOk reads
      let w := r.1.writePic f.header b d
      if r.2 = false ∨ w.2 = false then w.1.abandonFrame k f 4 else w.1.passDecoded k f b ref drops

/-- DECODE_FRAME_DONE (R193, R197, R198, R199). -/
def execDecodeFrameDone (vd : Fin 8) (r : DecodeEnd) (s : State) : Out :=
  let k := vd.val
  done (match (s.vd k).frame with
    | none => s
    | some f =>
      match r, f.buf with
      | .syntaxError, _ => s.abandonFrame k f 2
      | .bounds, _ => s.abandonFrame k f 3
      | .memory, _ => s.abandonFrame k f 4
      | .decoded _ _ _ _, none => s.abandonFrame k f 6
      | .decoded d ref drops reads, some b => s.finishFrame k f b d ref drops reads)

/-- DECODE_BUDGET_EXPIRY (R193). -/
def execDecodeBudgetExpiry (vd : Fin 8) (s : State) : Out :=
  let k := vd.val
  done (match (s.vd k).frame with
    | none => s
    | some f => s.abandonFrame k f 1)

/-- The access units of a stream that no decode record takes end with OVER (R191, R205). -/
def State.overFrames (s : State) (x : Nat) : State :=
  let aus := (s.stream x).aus
  aus.foldl (fun (a : State) au => (a.outcome 0 x 9).passOn x (picOf x au 9)) (s.setStream x { s.stream x with aus := [] })

end Sys2Proof.Machine
end

