-- ==== Sys2Proof/Machine/Float.lean ====
section
/-!
DEFINITION. Number formats and arithmetic (R121 to R141): exact values, decoding, the rounding to FP32, the conversions,
the group sum of the matrix engine and the exponential of the vector engine. A value is a sign and a magnitude m * 2^e
with natural m, or NaN, or an infinity.
-/
namespace Sys2Proof.Machine

/-- A number as the arithmetic sees it. -/
inductive Num where
  | nan
  | inf (neg : Bool)
  | fin (neg : Bool) (m : Nat) (e : Int)
  deriving DecidableEq, Repr

/-- Zero. -/
def Num.zero : Num := .fin false 0 0

/-- A floating-point format of R123; `special` is 0 without specials, 1 for E4M3's NaN alone, 2 for infinity and NaN. -/
structure FloatFmt where
  eb : Nat
  fb : Nat
  bias : Nat
  special : Nat
  /-- the largest finite magnitude's code -/
  maxCode : Nat
  nanCode : Nat

/-- E2M1. -/
def fmtE2m1 : FloatFmt := ⟨2, 1, 1, 0, 0x7, 0⟩
/-- E4M3. -/
def fmtE4m3 : FloatFmt := ⟨4, 3, 7, 1, 0x7E, 0x7F⟩
/-- E5M2. -/
def fmtE5m2 : FloatFmt := ⟨5, 2, 15, 2, 0x7B, 0x7E⟩
/-- FP16. -/
def fmtFp16 : FloatFmt := ⟨5, 10, 15, 2, 0x7BFF, 0x7E00⟩
/-- BF16. -/
def fmtBf16 : FloatFmt := ⟨8, 7, 127, 2, 0x7F7F, 0x7FC0⟩
/-- FP32. -/
def fmtFp32 : FloatFmt := ⟨8, 23, 127, 2, 0x7F7FFFFF, 0x7FC00000⟩

/-- emin of a format. -/
def FloatFmt.emin (f : FloatFmt) : Int := 1 - (f.bias : Int)

/-- The value of a code (R123, R124). -/
def FloatFmt.decode (f : FloatFmt) (x : Nat) : Num :=
  let s := decide (x / 2 ^ (f.eb + f.fb) % 2 = 1)
  let ex := x / 2 ^ f.fb % 2 ^ f.eb
  let fr := x % 2 ^ f.fb
  if f.special = 2 ∧ ex = 2 ^ f.eb - 1 then (if fr = 0 then .inf s else .nan)
  else if f.special = 1 ∧ ex = 2 ^ f.eb - 1 ∧ fr = 2 ^ f.fb - 1 then .nan
  else if ex = 0 then .fin s fr (f.emin - (f.fb : Int))
  else .fin s (2 ^ f.fb + fr) ((ex : Int) - f.bias - f.fb)

/-- The kinds of a format by its code (R80, R143). -/
inductive Kind where
  | int (bits : Nat) (signed : Bool)
  | flt (f : FloatFmt)
  /-- a codebook index of so many bits -/
  | cb (bits : Nat)

/-- The format of a code; none where the code is reserved (R80, R143). -/
def kindOf (code : Nat) : Option Kind :=
  match code with
  | 1 => some (.int 4 true)
  | 2 => some (.int 8 true)
  | 3 => some (.int 8 false)
  | 4 => some (.int 16 true)
  | 5 => some (.flt fmtE2m1)
  | 6 => some (.flt fmtE4m3)
  | 7 => some (.flt fmtE5m2)
  | 8 => some (.flt fmtFp16)
  | 9 => some (.flt fmtBf16)
  | 10 => some (.cb 4)
  | 11 => some (.cb 8)
  | 12 => some (.int 32 true)
  | 13 => some (.flt fmtFp32)
  | _ => none

/-- The bits of an element of a format code. -/
def elemBits (code : Nat) : Nat :=
  match code with
  | 1 | 5 | 10 => 4
  | 2 | 3 | 6 | 7 | 11 => 8
  | 4 | 8 | 9 => 16
  | _ => 32

/-- The integer that b bits spell. -/
def intOf (b : Nat) (signed : Bool) (x : Nat) : Int :=
  let y := x % 2 ^ b
  if signed ∧ 2 ^ (b - 1) ≤ y then (y : Int) - 2 ^ b else y

/-- An integer as a number. -/
def numOfInt (i : Int) : Num := .fin (decide (i < 0)) i.natAbs 0

/-- The exact value of a code in a format other than CB; FP32 subnormals read as zero (R130). -/
def numOf (code x : Nat) : Num :=
  match kindOf code with
  | some (.int b sg) => numOfInt (intOf b sg x)
  | some (.flt f) => if f.eb = 8 ∧ f.fb = 23 ∧ x / 2 ^ 23 % 256 = 0 then .zero else f.decode x
  | _ => .zero

/-- n / d rounded to a whole number: mode 0 to nearest even, 1 toward zero, 2 stochastic with r (R133 to R135). -/
def roundDiv (n d mode r : Nat) : Nat :=
  let k := n / d
  let m := n % d
  if mode = 1 then k
  else if mode = 2 then (if 65536 ≤ m * 65536 / d + r then k + 1 else k)
  else if 2 * m < d then k
  else if d < 2 * m then k + 1
  else if k % 2 = 0 then k else k + 1

/-- floor(log2) of n / d * 2^e for non-zero n and d. -/
def logOf (n d : Nat) (e : Int) : Int :=
  let l : Int := (n.log2 : Int) - d.log2
  (if n * 2 ^ (-l).toNat < d * 2 ^ l.toNat then l - 1 else l) + e

/-- n / d * 2^e in steps of 2^q, rounded. -/
def toSteps (n d : Nat) (e q : Int) (mode r : Nat) : Nat :=
  roundDiv (n * 2 ^ (e - q).toNat) (d * 2 ^ (q - e).toNat) mode r

/-- The code of the magnitude k * 2^q in a format whose grid it lies on. -/
def FloatFmt.encodeMag (f : FloatFmt) (k : Nat) (q : Int) : Nat :=
  let k' := if 2 ^ (f.fb + 1) ≤ k then k / 2 else k
  let q' := if 2 ^ (f.fb + 1) ≤ k then q + 1 else q
  if k' < 2 ^ f.fb then k' else (q' + f.fb + f.bias).toNat * 2 ^ f.fb + (k' - 2 ^ f.fb)

/-- The sign's place in a code. -/
def FloatFmt.sign (f : FloatFmt) (neg : Bool) : Nat := if neg then 2 ^ (f.eb + f.fb) else 0

/-- Canonical NaN of FP32. -/
def nan32 : Word := 0x7FC00000

/-- An infinity of FP32. -/
def inf32 (neg : Bool) : Word := if neg then 0xFF800000 else 0x7F800000

/-- The FP32 value nearest to (-1)^neg * n/d * 2^e, ties to even, without a subnormal grid: below 2^-126 it is +0, beyond
the largest finite value an infinity (R130, R140, R141). -/
def round32 (neg : Bool) (n d : Nat) (e : Int) : Word :=
  if n = 0 then 0
  else
    let q := logOf n d e - 23
    let k := toSteps n d e q 0 0
    let q' := if k = 2 ^ 24 then q + 1 else q
    let k' := if k = 2 ^ 24 then 2 ^ 23 else k
    let ex := q' + 150
    if 255 ≤ ex then inf32 neg
    else if ex ≤ 0 then 0
    else BitVec.ofNat 32 ((if neg then 2 ^ 31 else 0) + ex.toNat * 2 ^ 23 + (k' - 2 ^ 23))

/-- A number rounded to FP32. -/
def toFp32 (x : Num) : Word :=
  match x with
  | .nan => nan32
  | .inf s => inf32 s
  | .fin s m e => round32 s m 1 e

/-- An FP32 word as a number. -/
def num32 (w : Word) : Num := numOf 13 w.toNat

/-- The exact sum of finite numbers, as an integer times a power of two. -/
def addFin (s1 : Bool) (m1 : Nat) (e1 : Int) (s2 : Bool) (m2 : Nat) (e2 : Int) : Int × Int :=
  let e := min e1 e2
  let a : Int := (m1 * 2 ^ (e1 - e).toNat : Nat)
  let b : Int := (m2 * 2 ^ (e2 - e).toNat : Nat)
  ((if s1 then -a else a) + (if s2 then -b else b), e)

/-- The sum of numbers, rounded to FP32. -/
def addNum (x y : Num) : Word :=
  match x, y with
  | .nan, _ => nan32
  | _, .nan => nan32
  | .inf a, .inf b => if a = b then inf32 a else nan32
  | .inf a, .fin _ _ _ => inf32 a
  | .fin _ _ _, .inf b => inf32 b
  | .fin s1 m1 e1, .fin s2 m2 e2 =>
    let r := addFin s1 m1 e1 s2 m2 e2
    round32 (decide (r.1 < 0)) r.1.natAbs 1 r.2

/-- The exact product (R126). -/
def mulNum (x y : Num) : Num :=
  match x, y with
  | .nan, _ => .nan
  | _, .nan => .nan
  | .inf a, .inf b => .inf (a != b)
  | .inf a, .fin b m _ => if m = 0 then .nan else .inf (a != b)
  | .fin a m _, .inf b => if m = 0 then .nan else .inf (a != b)
  | .fin a m e, .fin b m' e' => .fin (a != b) (m * m') (e + e')

/-- The quotient, rounded to FP32; a zero divisor of either sign counts as +0 (R141). -/
def divNum (x y : Num) : Word :=
  match x, y with
  | .nan, _ => nan32
  | _, .nan => nan32
  | .inf _, .inf _ => nan32
  | .inf a, .fin b m _ => inf32 (if m = 0 then a else a != b)
  | .fin _ _ _, .inf _ => 0
  | .fin a m e, .fin b m' e' =>
    if m' = 0 then (if m = 0 then nan32 else inf32 a)
    else round32 (a != b) m m' (e - e')

/-- The FP32 operations of the vector engine, one rounding each (R140). -/
def fadd (x y : Word) : Word := addNum (num32 x) (num32 y)
/-- Negation of a number. -/
def negNum (x : Num) : Num :=
  match x with
  | .nan => .nan
  | .inf a => .inf (!a)
  | .fin a m e => .fin (!a) m e
/-- FP32 subtraction. -/
def fsub (x y : Word) : Word := addNum (num32 x) (negNum (num32 y))
/-- FP32 multiplication. -/
def fmul (x y : Word) : Word := toFp32 (mulNum (num32 x) (num32 y))
/-- FP32 division. -/
def fdiv (x y : Word) : Word := divNum (num32 x) (num32 y)

/-- Comparison of numbers that are no NaN: x < y (R132). -/
def ltNum (x y : Num) : Bool :=
  match x, y with
  | .nan, _ => false
  | _, .nan => false
  | .inf a, .inf b => a && !b
  | .inf a, .fin _ _ _ => a
  | .fin _ _ _, .inf b => !b
  | .fin s1 m1 e1, .fin s2 m2 e2 => decide ((addFin s1 m1 e1 (!s2) m2 e2).1 < 0)

/-- x ≤ y; false where either is a NaN. -/
def leNum (x y : Num) : Bool := decide (x ≠ .nan) && decide (y ≠ .nan) && !ltNum y x

/-- A number is a zero. -/
def isZero (x : Num) : Bool :=
  match x with
  | .fin _ m _ => m == 0
  | _ => false

/-- A number is finite. -/
def isFin (x : Num) : Bool :=
  match x with
  | .fin _ _ _ => true
  | _ => false

/-- The larger of two FP32 words (R132). -/
def fmax (x y : Word) : Word :=
  if num32 x = .nan ∨ num32 y = .nan then nan32 else toFp32 (if ltNum (num32 x) (num32 y) then num32 y else num32 x)

/-- The smaller of two FP32 words (R132). -/
def fmin (x y : Word) : Word :=
  if num32 x = .nan ∨ num32 y = .nan then nan32 else toFp32 (if ltNum (num32 y) (num32 x) then num32 y else num32 x)

/-- The magnitude of an FP32 word. -/
def fabs (x : Word) : Word :=
  match num32 x with
  | .nan => nan32
  | .inf _ => inf32 false
  | .fin _ m e => toFp32 (.fin false m e)

/-- The outcome of a conversion: the code, and the tally it counts: 0 none, 1 CVT_SAT, 2 CVT_NAN_ZERO, 3 CVT_UNDERFLOW. -/
structure Conv where
  code : Nat
  tally : Nat
  deriving DecidableEq, Repr

/-- Conversion into an integer format (R134, R137, class C). -/
def convInt (b : Nat) (signed : Bool) (x : Num) (mode r : Nat) : Conv :=
  let top := if signed then 2 ^ (b - 1) - 1 else 2 ^ b - 1
  let low := if signed then 2 ^ (b - 1) else 0
  let code := fun (neg : Bool) (k : Nat) => if neg then (2 ^ b - k) % 2 ^ b else k
  match x with
  | .nan => ⟨0, 2⟩
  | .inf s => ⟨code s (if s then low else top), 1⟩
  | .fin s m e =>
    if m = 0 then ⟨0, 0⟩
    else
      let k := toSteps m 1 e 0 mode r
      if k = 0 then ⟨0, 3⟩
      else if (if s then low else top) < k then ⟨code s (if s then low else top), 1⟩
      else ⟨code s k, 0⟩

/-- Conversion into a floating-point format (R134, R137). -/
def convFloat (f : FloatFmt) (x : Num) (mode : Nat) (infOk : Bool) (r : Nat) : Conv :=
  match x with
  | .nan => if f.special = 0 then ⟨0, 2⟩ else ⟨f.nanCode, 0⟩
  | .inf s => if f.special = 2 then ⟨f.sign s + f.maxCode / 2 ^ f.fb * 2 ^ f.fb + 2 ^ f.fb, 0⟩ else ⟨f.sign s + f.maxCode, 1⟩
  | .fin s m e =>
    if m = 0 then ⟨0, 0⟩
    else
      let lg := logOf m 1 e
      let q := (if f.fb = 23 then lg else max lg f.emin) - (f.fb : Int)
      let k := toSteps m 1 e q mode r
      if k = 0 then ⟨0, 3⟩
      else if f.fb = 23 ∧ ltNum (.fin false k q) (.fin false 1 f.emin) = true then ⟨0, 3⟩
      else if ltNum (f.decode f.maxCode) (.fin false k q) then
        (if f.special = 2 ∧ infOk = true ∧ mode ≠ 1 then ⟨f.sign s + f.maxCode / 2 ^ f.fb * 2 ^ f.fb + 2 ^ f.fb, 1⟩
         else ⟨f.sign s + f.maxCode, 1⟩)
      else ⟨f.sign s + f.encodeMag k q, 0⟩

/-- Conversion into a format code other than CB (R133 to R137). -/
def convert (x : Num) (code mode : Nat) (infOk : Bool) (r : Nat) : Conv :=
  match kindOf code with
  | some (.int b sg) => convInt b sg x mode r
  | some (.flt f) => convFloat f x mode infOk r
  | _ => ⟨0, 0⟩

/-- An element read into the vector engine (R143). -/
def fpIn (code x : Nat) : Word := toFp32 (numOf code x)

/-- One step of a lane's LFSR (R136). -/
def lfsrStep (s : Word) : Word :=
  let fb := s.getLsbD 31 ^^ s.getLsbD 21 ^^ s.getLsbD 1 ^^ s.getLsbD 0
  (s <<< 1) ||| (if fb then 1 else 0)

/-- The sixteen steps of an element (R136). -/
def lfsr16 (s : Word) : Word := (List.range 16).foldl (fun a _ => lfsrStep a) s

/-- The LFSR state of lane L at the start of a PROGRAM slot (R136). -/
def lfsrSeed (seed : Word) (lane : Nat) : Word :=
  let x := seed ^^^ BitVec.ofNat 32 (lane * 0x9E3779B9)
  if x = 0 then 1 else x

/-- The INT32 value saturated (R127): the word, and whether it saturated. -/
def sat32 (i : Int) : Word × Bool :=
  if 0x7FFFFFFF < i then (0x7FFFFFFF, true)
  else if i < -0x80000000 then (0x80000000, true)
  else (BitVec.ofInt 32 i, false)

/-- The group sum of R128. `fb` is the sum of the fraction bits of the two operand formats: a product m * 2^e of whole
significands has the exponent x = e + fb of R126. -/
def groupAccumulate (fb : Nat) (p : List Num) (acc : Word) (init : Bool) : Word :=
  let a := if init then Num.zero else num32 acc
  let pos := p.any (fun x => decide (x = .inf false))
  let neg := p.any (fun x => decide (x = .inf true))
  if p.any (fun x => decide (x = .nan)) ∨ (pos = true ∧ neg = true) ∨ a = .nan then nan32
  else if pos = true ∨ neg = true then
    (match a with
     | .inf s => if s = neg then inf32 neg else nan32
     | _ => inf32 neg)
  else
    match a with
    | .inf s => inf32 s
    | _ =>
      let nz := p.filterMap (fun x => match x with
        | .fin s m e => if m = 0 then none else some (s, m, e)
        | _ => none)
      match nz with
      | [] => addNum a .zero
      | h :: t =>
        let emax := t.foldl (fun m x => max m x.2.2) h.2.2
        let g : Int := nz.foldl (fun g x =>
          let q : Nat := x.2.1 * 2 ^ (x.2.2 - emax + 40 - fb).toNat / 2 ^ (emax + fb - 40 - x.2.2).toNat
          if x.1 then g - q else g + q) 0
        addNum a (.fin (decide (g < 0)) g.natAbs (emax + fb - 40))

/-- The exponential of the vector engine (R152). -/
def vexp (x : Word) : Word :=
  match num32 x with
  | .nan => nan32
  | v =>
    if ltNum (.fin false 89 0) v then inf32 false
    else if ltNum v (.fin true 104 0) then 0
    else
      let t := fmul x 0x3FB8AA3B
      let n : Int := match num32 t with
        | .fin s m e => if s then -(toSteps m 1 e 0 0 0 : Int) else (toSteps m 1 e 0 0 0 : Int)
        | _ => 0
      let f := addNum (num32 t) (numOfInt (-n))
      let p := [(0x3AAEC39B : Word), 0x3C1D955B, 0x3D635847, 0x3E75FDF0, 0x3F317218, 0x3F800000].foldl
        (fun p c => fadd (fmul p f) c) 0x392183D7
      match num32 p with
      | .fin s m e => round32 s m 1 (e + n)
      | _ => nan32

/-- 1.0, 2.0 and 6.0 of FP32. -/
def one32 : Word := 0x3F800000

/-- SIGMOID of R151. -/
def sigmoid (v : Word) : Word := fdiv one32 (fadd one32 (vexp (toFp32 (negNum (num32 v)))))

/-- The activations of R151; a reserved code does not reach this function. -/
def activate32 (act : Nat) (param v : Word) : Word :=
  match num32 v with
  | .nan => nan32
  | _ =>
    match act with
    | 1 => fmax v 0
    | 2 => fmin (fmax v 0) 0x40C00000
    | 3 => if ltNum (num32 v) .zero then fmul v param else toFp32 (num32 v)
    | 4 => vexp v
    | 5 => sigmoid v
    | 6 => fsub (fmul 0x40000000 (sigmoid (fmul 0x40000000 v))) one32
    | 7 => fmul v (sigmoid v)
    | 8 =>
      let a := fmul v v
      let b := fmul a 0x3D372713
      let c := fmul b v
      let t := fmul (fadd v c) 0x3FCC422A
      fmul v (sigmoid t)
    | _ => v

end Sys2Proof.Machine
end

