-- ==== Sys2Proof/Machine/Operands.lean ====
section
/-!
DEFINITION. Operands of macro-instructions (R101, R102, R122, R144): descriptors, the addresses of elements, reads and
writes of a job with the fault cause that a failed one has (R44, R56, R168, R279), and codebook lookups (R72, R161).
-/
namespace Sys2Proof.Machine

/-- The store of a matrix descriptor's code: 0 the cluster's own scratchpad, 1 the common store (R102). -/
def descStore (c : Fin 8) (code : Nat) : Store := if code = 1 then .common else .spad c

/-- The address of word a of a descriptor (R102). -/
def descPtr (c : Fin 8) (a : Word) : Ptr := { store := descStore c (bits a 27 26), addr := bits a 25 0 }

/-- The stride of word b (R102). -/
def descStride (b : Word) : Nat := bits b 23 0

/-- A descriptor sets a reserved bit or a reserved store (R102). -/
def descBad (a b : Word) : Bool := decide (bits a 31 28 ≠ 0) || decide (1 < bits a 27 26) || decide (bits b 31 24 ≠ 0)

/-- The model of an identity as a stall uses it (R56): of sections that carry the same MODEL_ID, the one that a region of the
stall's own places (DEDUCED, log entry 93), else the first. -/
def modelFor (ms : List (Nat × Nat × Nat × Nat × Nat)) (rs : List Region) (st id : Nat) : Option (Nat × Nat × Nat × Nat × Nat) :=
  let same := ms.filter (fun m => m.2.1 == id)
  match same.find? (fun m => rs.any (fun x => x.kind == 1 && x.section_ == m.1 && x.owner == st)) with
  | some m => some m
  | none => same.head?

/-- The record of a model of the active bundle in a stall: section, MODEL_ID, CLUSTERS, PROG_LEN, SPAD_LEN (R56). -/
def State.modelOf (s : State) (st id : Nat) : Option (Nat × Nat × Nat × Nat × Nat) :=
  modelFor s.active.models s.active.recs st id

/-- Bytes of the resident model's region in each cluster of a stall (R56): 0 without a resident model. -/
def State.modelArea (s : State) (st : Nat) : Nat :=
  let r := s.reg (Reg.STALL_RESIDENT st)
  if bit r 31 then
    match s.modelOf st (bits r 15 0) with
    | some (_, _, n, pl, sl) => pl / n + sl
    | none => 0
  else 0

/-- The fault cause of a failed access of a job (R44, R168, R279): a poisoned word of the cluster's own scratchpad has
cause 0x07 in the resident model's region and 0x02 elsewhere, everything else cause 0x05. -/
def State.accessCause (s : State) (st : Nat) (p : Ptr) (status : Nat) : Nat :=
  match p.store with
  | .spad _ => if status = 2 then (if p.addr < s.modelArea st then 7 else 2) else 5
  | _ => 5

/-- The address of a word of a failed read whose error is uncorrectable: the first such unit from the start on. -/
def State.firstBad (s : State) (p : Ptr) (n : Nat) : Ptr :=
  match (s.units p n).find? (fun k => ((mapGet s.upsets k).map upsetBad).getD false) with
  | some k => if p.store = .dram then p else { p with addr := k - storeBase p.store }
  | none => p

/-- A job's reads of byte ranges in order, each at the address that parity relocates it to (R430): the state that has
counted them, and the cause of the first that fails. -/
def State.readAll (s : State) (st : Nat) : List (Ptr × Nat) → State × Option Nat
  | [] => (s, none)
  | (p, n) :: r =>
    let q := s.relocate s.unitOdd p
    let x := s.read q n
    if x.status = 0 then x.st.readAll st r else (x.st, some (s.accessCause st (s.firstBad q n) x.status))

/-- A job's writes in order: the state, and the cause of the first that fails. Only the MGC writes the ledger banks
(R275). -/
def State.writeAll (s : State) (st : Nat) : List (Ptr × List Byte) → State × Option Nat
  | [] => (s, none)
  | (p, d) :: r =>
    let q := s.relocate s.unitOdd p
    if q.store = .common ∧ 0x2E00000 < q.addr + d.length then (s, some 5)
    else
    let x := s.write q d
    if x.status = 0 then x.st.writeAll st r else (x.st, some (s.accessCause st q x.status))

/-- The byte at a descriptor's address, relocated (R430). -/
def State.fetch (s : State) (p : Ptr) : Byte := s.peek (s.relocate s.unitOdd p)

/-- The code of element k of a run of elements of b bits that starts at p (R122). -/
def State.elem (s : State) (p : Ptr) (b k : Nat) : Nat :=
  if b = 4 then (s.fetch (ptrAdd p (k / 2))).toNat / 16 ^ (k % 2) % 16
  else leNat ((List.range (b / 8)).map (fun i => s.fetch (ptrAdd p (k * (b / 8) + i))))

/-- The 32-bit word at a descriptor's address. -/
def State.elem32 (s : State) (p : Ptr) (k : Nat) : Word := BitVec.ofNat 32 (s.elem p 32 k)

/-- The byte range of elements [k, k + n) of a run that starts at p. -/
def elemRange (p : Ptr) (b k n : Nat) : Ptr × Nat := (ptrAdd p (k * b / 8), ((k + n) * b + 7) / 8 - k * b / 8)

/-- The bytes of element codes, from an even place on; an odd 4-bit tail leaves bits [7:4] zero (R122). -/
def packCodes (b : Nat) : List Nat → List Byte
  | [] => []
  | [x] => if b = 4 then [BitVec.ofNat 8 (x % 16)] else leBytes (b / 8) x
  | x :: y :: r =>
    if b = 4 then BitVec.ofNat 8 (x % 16 + y % 16 * 16) :: packCodes b r
    else leBytes (b / 8) x ++ (leBytes (b / 8) y ++ packCodes b r)

/-- The format code of a codebook's entry format (R160). -/
def efmtCode (e : BitVec 2) : Nat := match e.toNat with
  | 0 => 6
  | 1 => 2
  | 2 => 8
  | _ => 0

/-- The format an operand enters the multiplier in (R72): a CB operand takes its table's entry format. -/
def operandFmt (fmt : Nat) (t : CodeTable) : Nat := if fmt = 10 ∨ fmt = 11 then efmtCode t.efmt else fmt

/-- The code an operand enters the multiplier with. -/
def operandCode (fmt : Nat) (t : CodeTable) (x : Nat) : Nat :=
  if fmt = 10 ∨ fmt = 11 then (t.entries.getD x 0).toNat else x

/-- Fraction bits of an operand's format (R126). -/
def fracBits (fmt : Nat) : Nat := match kindOf fmt with
  | some (.flt f) => f.fb
  | _ => 0

/-- The operand codes R80 allows. -/
def operandCodeOk (fmt : Nat) : Bool := decide (1 ≤ fmt) && decide (fmt ≤ 11)

/-- Issue slots per column of a pair (R71); none where the pair is not supported. -/
def pairSlots (a b : Nat) : Option Nat :=
  let int := fun x => decide (1 ≤ x) && decide (x ≤ 4)
  let flt := fun x => decide (5 ≤ x) && decide (x ≤ 9)
  if int a && int b then (if a = 4 ∧ b = 4 then some 4 else if a = 4 ∨ b = 4 then some 2 else some 1)
  else if flt a && flt b then (if 8 ≤ a ∨ 8 ≤ b then some 2 else some 1)
  else none

/-- The pair multiplies integers. -/
def pairInt (a : Nat) : Bool := decide (1 ≤ a) && decide (a ≤ 4)

/-- Width of a K-tile (R104): 32 / F, or 64 / F for INT4 by INT4. -/
def tileWidth (a b f : Nat) : Nat := if a = 1 ∧ b = 1 then 64 / f else 32 / f

end Sys2Proof.Machine
end

