-- ==== Sys2Proof/Machine/Preproc.lean ====
section
/-!
DEFINITION. The pre-processing units (R204 to R215, R222 to R225): slot lists, descriptors, the pipeline from a source to the
bytes of a tensor, the sources of a slot, keep buffers, proxies and manifest entries.
-/
namespace Sys2Proof.Machine

/-- The store that words 10 and 14 of a descriptor name (R207). -/
def ppStore (code cluster : Nat) : Store :=
  if code = 0 then .spad (Fin.ofNat 8 cluster) else if code = 1 then .common else .dram

/-- An address in the form of words 9 and 10 of a descriptor (R207, R208). -/
def ppPtr (lo hi : Word) : Ptr :=
  { store := ppStore (bits hi 9 8) (bits hi 14 12), addr := lo.toNat + bits hi 4 0 * 2 ^ 32 }

/-- A PP descriptor with its parameter block and coefficient table (R207, R208). -/
structure PpDesc where
  cropX : Nat
  cropY : Nat
  cropW : Nat
  cropH : Nat
  sclW : Nat
  sclH : Nat
  outW : Nat
  outH : Nat
  placeX : Nat
  placeY : Nat
  tapsH : Nat
  tapsV : Nat
  ch : Nat
  csc : Bool
  fmt : Nat
  blk : Nat
  keepEn : Bool
  proxyOut : Bool
  dest : Ptr
  rowStride : Nat
  sampleStride : Nat
  man : Ptr
  param : List Byte
  coef : List Byte

/-- A 16-bit two's complement number of a block. -/
def blockInt (d : List Byte) (off : Nat) : Int := (BitVec.ofNat 16 (bytesHalf d off)).toInt

/-- The fields of a descriptor's words, with its parameter block and coefficient table. -/
def parsePpDesc (ws ps cs : List Word) : PpDesc :=
  let w := fun i => wordAt ws i
  { cropX := bits (w 1) 15 0, cropY := bits (w 1) 31 16, cropW := bits (w 2) 15 0, cropH := bits (w 2) 31 16
    sclW := bits (w 3) 15 0, sclH := bits (w 3) 31 16, outW := bits (w 4) 15 0, outH := bits (w 4) 31 16
    placeX := bits (w 5) 15 0, placeY := bits (w 5) 31 16, tapsH := bits (w 6) 3 0, tapsV := bits (w 6) 7 4
    ch := bits (w 6) 9 8, csc := bit (w 6) 10, fmt := bits (w 6) 14 11, blk := bits (w 6) 18 15
    keepEn := bit (w 6) 19, proxyOut := bit (w 6) 20, dest := ppPtr (w 9) (w 10), rowStride := bits (w 11) 23 0
    sampleStride := (w 12).toNat, man := ppPtr (w 13) (w 14), param := wordBytes ps, coef := wordBytes cs }

/-- The descriptor at an offset of the action area; none where it, its parameter block or its coefficient table cannot be
read. -/
def State.ppDesc (s : State) (off : Nat) : Option PpDesc :=
  match s.actionWords off 16 with
  | none => none
  | some ws =>
    match s.actionWords (wordAt ws 8).toNat 32, s.actionWords (wordAt ws 7).toNat 256 with
    | some ps, some cs => some (parsePpDesc ws ps cs)
    | _, _ => none

/-- Channels of the output. -/
def PpDesc.chans (d : PpDesc) : Nat := if d.ch = 0 then 1 else 3
/-- Bytes of an element. -/
def PpDesc.elem (d : PpDesc) : Nat := elemBits d.fmt / 8
/-- SB of R211. -/
def PpDesc.size (d : PpDesc) : Nat := d.outH / d.blk * d.rowStride
/-- T of R212. -/
def PpDesc.sampleTime (d : PpDesc) : Nat :=
  96 + cdiv (max (d.cropW * d.cropH) (d.sclW * d.sclH)) 4 + cdiv (d.outW * d.outH - d.sclW * d.sclH) 16
/-- Fs of R212. -/
def PpDesc.fillTime (d : PpDesc) : Nat := 64 + cdiv d.size 64

/-- Where the samples of a slot's source lie. `kind`: 0 planar 4:2:0 (R196), 1 YUV422, 2 RGB888, 3 RAW (R217), 4 proxy
(R224). -/
structure PpSource where
  kind : Nat
  base : Ptr
  /-- bytes of a sample, and the factor into sixteenths of an 8-bit code -/
  b : Nat
  mul : Nat
  pitch : Nat
  /-- offset of the Cb/Cr plane -/
  chroma : Nat
  mono : Bool
  /-- the picture's own window in the buffer -/
  winX : Nat
  winY : Nat
  width : Nat
  height : Nat
  deriving DecidableEq, Repr

/-- Bytes per sample of a sensor frame in store, by data type (R217). -/
def csiStoreBytes (dt : Nat) : Nat :=
  if dt = 0x1E then 2 else if dt = 0x1F then 4 else if dt = 0x24 then 3 else if dt = 0x2A then 1 else 2

/-- The pitch of a stored sensor frame (R217). -/
def csiPitch (dt width : Nat) : Nat := cdiv (width * csiStoreBytes dt) 128 * 128

/-- The source that a picture record's buffer is. -/
def picSource (p : PicRec) (b : Ptr) : PpSource :=
  if p.kind = 3 then
    let d := p.dataType
    { kind := if d = 0x1E ∨ d = 0x1F then 1 else if d = 0x24 then 2 else 3
      base := b, b := if d = 0x1F ∨ d = 0x2B ∨ d = 0x2C then 2 else 1
      mul := if d = 0x1F ∨ d = 0x2B then 4 else if d = 0x2C then 1 else 16
      pitch := csiPitch d p.width, chroma := 0, mono := false, winX := 0, winY := 0, width := p.width, height := p.height }
  else
    let n := if p.depth10 then 2 else 1
    { kind := 0, base := b, b := n, mul := if p.depth10 then 4 else 16, pitch := picPitch p.width n
      chroma := picPitch p.width n * (cdiv p.height 64 * 64), mono := p.mono
      winX := p.cropX, winY := p.cropY, width := p.cropW, height := p.cropH }

/-- The plane is subsampled across. -/
def PpSource.subH (c : PpSource) (plane : Nat) : Bool := decide (plane ≠ 0) && (c.kind == 0 || c.kind == 1)
/-- The plane is subsampled down. -/
def PpSource.subV (c : PpSource) (plane : Nat) : Bool := decide (plane ≠ 0) && c.kind == 0

/-- The offset of sample (x, y) of a plane from the buffer's start; none where the source has no such plane. -/
def PpSource.offset (c : PpSource) (plane x y : Nat) : Option Nat :=
  match c.kind with
  | 0 =>
    if plane = 0 then some ((c.winY + y) * c.pitch + (c.winX + x) * c.b)
    else if c.mono then none
    else some (c.chroma + (c.winY / 2 + y) * c.pitch + (2 * (c.winX / 2 + x) + (plane - 1)) * c.b)
  | 1 => some (y * c.pitch + (if plane = 0 then 2 * x + 1 else 4 * x + 2 * (plane - 1)) * c.b)
  | 2 => some (y * c.pitch + 3 * x + (2 - plane))
  | 3 => if plane = 0 then some (y * c.pitch + x * c.b) else none
  | _ => some (64 + y * c.pitch + 3 * x + plane)

/-- A sample in sixteenths of an 8-bit code; chroma that is not there enters as 2,048. -/
def State.ppSample (s : State) (c : PpSource) (plane x y : Nat) : Nat :=
  match c.offset plane x y with
  | none => 2048
  | some o =>
    let v := leNat (s.peeks (ptrAdd c.base o) c.b)
    (if c.mul = 4 then v % 1024 else if c.mul = 1 then v % 4096 else v) * c.mul

/-- p of R209 for place x of an axis of L luma samples scaled to n. -/
def scalePos (l n x : Nat) (sub horizontal : Bool) : Int :=
  let step : Int := (l * 65536 / n : Nat)
  let p : Int := ((2 * x + 1 : Nat) * step).fdiv 2 - 0x8000
  if sub then (if horizontal then p.fdiv 2 else (p - 0x8000).fdiv 2) else p

/-- Clamp an integer to 0 .. top. -/
def clampNat (i : Int) (top : Nat) : Nat := min i.toNat top

/-- One output of a filter of R209: `tab` 0 the horizontal taps, 0x200 the vertical; `at_` reads sample i of the line. -/
def filterAt (coef : List Byte) (tab taps : Nat) (p : Int) (len : Nat) (at_ : Nat → Nat) : Nat :=
  let i := p.fdiv 65536
  let ph := (p.fdiv 2048).toNat % 32
  let phase := if p < 0 then ((p.fdiv 2048) % 32).toNat else ph
  let acc := (List.range taps).foldl (fun (a : Int) k =>
    a + blockInt coef (tab + 16 * phase + 2 * k) * (at_ (clampNat (i - (taps / 2 : Nat) + 1 + k) (len - 1)) : Int)) 0
  clampNat ((acc + 512).fdiv 1024) 4095

/-- The scaled sample (x, y) of a plane (R209): across over every line of the crop window, then down. -/
def State.scaled (s : State) (d : PpDesc) (c : PpSource) (plane x y : Nat) : Nat :=
  let sh := c.subH plane
  let sv := c.subV plane
  let lw := if sh then d.cropW / 2 else d.cropW
  let lh := if sv then d.cropH / 2 else d.cropH
  let x0 := if sh then d.cropX / 2 else d.cropX
  let y0 := if sv then d.cropY / 2 else d.cropY
  filterAt d.coef 0x200 d.tapsV (scalePos d.cropH d.sclH y sv false) lh (fun j =>
    filterAt d.coef 0 d.tapsH (scalePos d.cropW d.sclW x sh true) lw (fun i => s.ppSample c plane (x0 + i) (y0 + j)))

/-- The colour conversion (R210): o_c of the three scaled samples. -/
def PpDesc.convertColour (d : PpDesc) (v : List Nat) (c : Nat) : Nat :=
  if d.csc then
    let sum := (List.range 3).foldl (fun (a : Int) j =>
      a + blockInt d.param (0x40 + 6 * c + 2 * j) * ((v.getD j 0 : Int) + blockInt d.param (0x52 + 2 * j))) 0
    clampNat ((sum + 2048).fdiv 4096 + blockInt d.param (0x58 + 2 * c)) 4095
  else v.getD c 0

/-- The encoding of o_c (R211). -/
def PpDesc.encode (d : PpDesc) (o c : Nat) : Conv :=
  let v := toFp32 (.fin false o (-4))
  convert (num32 (fmul (fsub v (bytesWord d.param (4 * c))) (bytesWord d.param (0x10 + 4 * c)))) d.fmt 0 false 0

/-- The o that tensor channel c carries (R207 CH). -/
def PpDesc.order (d : PpDesc) (c : Nat) : Nat := if d.ch = 2 then 2 - c else c

/-- A code of the parameter block for tensor channel c, at 0x20 PAD or at 0x28 FILL. -/
def PpDesc.blockCode (d : PpDesc) (off c : Nat) : Nat := bytesHalf d.param (off + 2 * c) % 256 ^ d.elem

/-- The code of output pixel (X, Y), tensor channel c, and whether it saturated. -/
def State.ppPixel (s : State) (d : PpDesc) (src : PpSource) (x y c : Nat) : Nat × Bool :=
  if d.placeX ≤ x ∧ x < d.placeX + d.sclW ∧ d.placeY ≤ y ∧ y < d.placeY + d.sclH then
    let v := (List.range d.chans).map (fun p => s.scaled d src p (x - d.placeX) (y - d.placeY))
    let r := d.encode (d.convertColour v (d.order c)) (d.order c)
    (r.code, r.tally == 1)
  else (d.blockCode 0x20 c, false)

/-- The elements of a tensor in address order, row by row: for each row the places (X, Y, c). -/
def PpDesc.rows (d : PpDesc) : List (List (Nat × Nat × Nat)) :=
  (List.range (d.outH / d.blk)).map (fun yb =>
    (List.range (d.outW / d.blk * d.blk * d.blk * d.chans)).map (fun i =>
      let q := i / d.chans
      (q / (d.blk * d.blk) * d.blk + q % d.blk, yb * d.blk + q / d.blk % d.blk, i % d.chans)))

/-- The bytes of a tensor from the codes of its rows; zeros between a row's end and ROW_STRIDE. -/
def PpDesc.bytes (d : PpDesc) (rows : List (List Nat)) : List Byte :=
  rows.flatMap (fun r =>
    let b := (r.flatMap (fun x => leBytes d.elem x)).take d.rowStride
    b ++ List.replicate (d.rowStride - b.length) 0)

/-- The filler (R213). -/
def PpDesc.filler (d : PpDesc) : List Byte := d.bytes (d.rows.map (fun r => r.map (fun p => d.blockCode 0x28 p.2.2)))

/-- The tensor of a sample, and whether a value saturated. -/
def State.ppTensor (s : State) (d : PpDesc) (src : PpSource) : List Byte × Bool :=
  let codes := d.rows.map (fun r => r.map (fun p => s.ppPixel d src p.1 p.2.1 p.2.2))
  (d.bytes (codes.map (fun r => r.map Prod.fst)), codes.any (fun r => r.any Prod.snd))

/-- A unit's write: errors are not its concern, and only the MGC writes the ledger banks (R275). -/
def State.unitWrite (s : State) (p : Ptr) (d : List Byte) : State :=
  if p.store = .common ∧ 0x2E00000 < p.addr + d.length then s else (s.write p d).st

/-- A write whose success is known. -/
def State.unitWriteOk (s : State) (p : Ptr) (d : List Byte) : State × Bool :=
  if p.store = .common ∧ 0x2E00000 < p.addr + d.length then (s, false)
  else
    let w := s.write p d
    (w.st, w.status == 0)

/-- Write a slot's tensor at the batch base of the running tick's parity (R211, R430). -/
def State.writeSample (s : State) (d : PpDesc) (slot : Nat) (t : List Byte) : State :=
  s.unitWrite (ptrAdd (s.relocate s.ppOdd d.dest) (slot * d.sampleStride)) t

/-- The keep buffer of a record (R214). -/
def State.keepPtr (s : State) (d : PpDesc) (ix : Nat) : Ptr :=
  ptrAdd (s.relocate s.ppOdd (ppPtr (bytesWord d.param 0x30) (bytesWord d.param 0x34))) (ix * d.sampleStride)

/-- A record of a PREPROC slot list (R204). -/
structure PpRec where
  stream : Nat
  frames : Nat
  budget : Nat
  desc : Nat
  slot : Nat
  keepIx : Nat
  deriving DecidableEq, Repr

/-- The fields of a record's words. -/
def parsePpRec (ws : List Word) : PpRec :=
  let w := fun i => wordAt ws i
  { stream := bits (w 0) 7 0, frames := bits (w 0) 11 8, budget := bits (w 1) 27 0, desc := (w 2).toNat
    slot := bits (w 3) 15 0, keepIx := bits (w 3) 27 16 }

/-- Record ix of a PREPROC slot list. -/
def State.ppRec (s : State) (list ix : Nat) : Option PpRec := (s.actionWords (list + 16 + 16 * ix) 4).map parsePpRec

/-- The records of a PREPROC slot list. -/
def State.ppRecs (s : State) (list : Nat) : List PpRec :=
  match s.actionWords list 1 with
  | some ws => (List.range (bits (wordAt ws 0) 7 0)).filterMap (fun i => s.ppRec list i)
  | none => []

/-- The width and height of the proxies of the active bundle (R223): those of its first descriptor with PROXY_OUT. -/
def State.proxySize (s : State) : Option (Nat × Nat) :=
  (List.range 4).findSome? (fun v =>
    (s.entriesOf s.actBank v).findSome? (fun e =>
      if 0x1A ≤ e.2.unit ∧ e.2.unit ≤ 0x1D ∧ e.2.action = 4 then
        (s.ppRecs e.2.operand).findSome? (fun r =>
          match s.actionWords r.desc 7 with
          | some ws => if bit (wordAt ws 6) 20 then some (bits (wordAt ws 3) 15 0, bits (wordAt ws 3) 31 16) else none
          | none => none)
      else none))

/-- ENTRY of R223. -/
def proxyEntry (w h : Nat) : Nat := cdiv (64 + w * h * 3) 4096 * 4096

/-- The proxy cache: the bundle's region of KIND 8 in DRAM (R223). -/
def State.proxyRegion (s : State) : Option Region := s.active.recs.find? (fun r => r.kind == 8 && r.store == 0)

/-- The entry of a frame (R223); none for a frame number at or above FRAMES, or without a cache. -/
def State.proxyPtr (s : State) (p : PicRec) : Option Ptr :=
  match s.proxyRegion, s.proxySize with
  | some r, some (w, h) =>
    let n := bits (s.reg Reg.PROXY_RECORDS) 15 0
    let f := bits (s.reg Reg.PROXY_FRAMES) 19 0
    if n = 0 ∨ f ≤ p.frameNo.toNat then none
    else some (ptrAdd r.ptr ((p.clipId.toNat % n * f + p.frameNo.toNat) * proxyEntry w h))
  | _, _ => none

/-- The frame number has no entry (R223). -/
def State.proxyBeyond (s : State) (p : PicRec) : Bool := decide (bits (s.reg Reg.PROXY_FRAMES) 19 0 ≤ p.frameNo.toNat)

/-- The first four words of a frame's tag (R224). -/
def State.proxyTag (s : State) (p : PicRec) (w h : Nat) : List Word :=
  [p.clipId, p.frameNo, BitVec.ofNat 32 (bits (s.reg Reg.PROXY_GEN) 15 0), BitVec.ofNat 32 (w + 65536 * h)]

/-- A proxy lookup (R225): the state that has counted, the source on a hit, or the reason of the substitute. -/
def State.proxyLookup (s : State) (p : PicRec) : State × Except Nat PpSource :=
  let s0 := if s.proxyBeyond p then s.tally Reg.PROXY_PROXY_BEYOND else s
  let miss := s0.tally Reg.PROXY_PROXY_MISS
  match s0.proxyPtr p, s0.proxySize with
  | some a, some (w, h) =>
    let r := s0.read a 64
    if r.status ≠ 0 then (r.st, .error 6)
    else
      let t := (List.range 4).map (fun i => bytesWord r.data (4 * i))
      let same := t.getD 0 0 = p.clipId ∧ t.getD 1 0 = p.frameNo ∧
        bits (t.getD 2 0) 15 0 = bits (s0.reg Reg.PROXY_GEN) 15 0 ∧ t.getD 3 0 = BitVec.ofNat 32 (w + 65536 * h)
      if same then
        (r.st.tally Reg.PROXY_PROXY_HIT, .ok { kind := 4, base := a, b := 1, mul := 16, pitch := 3 * w, chroma := 0, mono := false
                                               winX := 0, winY := 0, width := w, height := h })
      else (r.st.tally Reg.PROXY_PROXY_MISS, .error 7)
  | _, _ => (miss, .error 7)

/-- The ranges of a source that the rows of a window take in each plane, without chroma where `luma` asks for none of it. -/
def windowRanges (c : PpSource) (x y w h : Nat) (luma : Bool) : List (Ptr × Nat) :=
  let rows := fun (y0 n from_ len : Nat) => (List.range n).map (fun j => (ptrAdd c.base ((y0 + j) * c.pitch + from_), len))
  match c.kind with
  | 0 =>
    rows (c.winY + y) h ((c.winX + x) * c.b) (w * c.b) ++
    (if luma ∨ c.mono then []
     else (List.range (h / 2)).map (fun j =>
       (ptrAdd c.base (c.chroma + (c.winY / 2 + y / 2 + j) * c.pitch + 2 * (c.winX / 2 + x / 2) * c.b), w / 2 * 2 * c.b)))
  | 1 => rows y h (2 * x * c.b) (2 * w * c.b)
  | 2 => rows y h (3 * x) (3 * w)
  | 3 => rows y h (x * c.b) (w * c.b)
  | _ => rows y h (64 + 3 * x) (3 * w)

/-- The ranges of a source that a slot reads: the rows of its crop window in each plane. -/
def sourceRanges (d : PpDesc) (c : PpSource) : List (Ptr × Nat) :=
  windowRanges c d.cropX d.cropY d.cropW d.cropH (decide (d.ch = 0))

/-- Reads of ranges in order: the state that has met their errors, and whether all succeeded. -/
def State.readRanges (s : State) : List (Ptr × Nat) → State × Bool
  | [] => (s, true)
  | (p, n) :: r =>
    if n = 0 then s.readRanges r
    else
      let x := s.read p n
      if x.status = 0 then x.st.readRanges r else (x.st, false)

/-- What fills a slot (R213): the sample's source, or the reason of a substitute; `pic` is the record whose buffer the unit
releases at the slot's end. -/
structure PpChoice where
  st : State
  src : Except Nat PpSource
  pic : PicRec

/-- Cases of R213 for a picture record. Of a pool that a frozen channel has lost, an unconcealed picture is not read, so that no
sample of it goes on unflagged (R18). -/
def State.ppChoose (s : State) (k : Nat) (d : PpDesc) (p : PicRec) : PpChoice :=
  let take := fun (t : State) (c : PpSource) (q : PicRec) =>
    if c.width < d.cropX + d.cropW ∨ c.height < d.cropY + d.cropH ∨ (c.kind = 3 ∧ d.ch ≠ 0) then
      (⟨t.tally (Reg.PP_PP_ODD k), .error 3, q⟩ : PpChoice)
    else
      let r := t.readRanges (sourceRanges d c)
      ⟨r.1, if r.2 then .ok c else .error 6, q⟩
  if p.kind = 1 then ⟨s, .error 2, p⟩
  else if p.kind = 2 then
    let l := s.proxyLookup p
    match l.2 with
    | .ok c => take l.1 c p
    | .error r => ⟨l.1, .error r, p⟩
  else if p.kind = 4 then ⟨s, .error 4, p⟩
  else if p.kind = 5 then ⟨s, .error 5, p⟩
  else
    match p.buf with
    | none => ⟨s, .error 1, p⟩
    | some b =>
      let a := s.bpmCheck (10 + k) b
      if a.2 = false then ⟨a.1, .error 6, { p with buf := none }⟩
      else if p.concealed = false ∧ (s.poolOf b).any (fun n => (s.pool n).lost) = true then ⟨a.1, .error 6, p⟩
      else take a.1 (picSource p b) p

/-- The quality that lets a slot write its keep buffer and its proxy (R214, R224). -/
def keepWorthy (p : PicRec) : Bool :=
  p.kind == 3 || p.kind == 2 || (p.kind == 0 && p.outcome == 0 && !p.refConcealed)

/-- A substitute or idle slot's bytes (R213): the keep buffer where it is valid and can be read, else the filler. -/
def State.substitute (s : State) (d : PpDesc) (w : PpWork) : State × Nat × List Byte :=
  if d.keepEn ∧ s.keeps.contains (w.stream, w.desc, w.keepIx) then
    let r := s.read (s.keepPtr d w.keepIx) d.size
    if r.status = 0 then (r.st, 1, r.data) else (r.st, 2, d.filler)
  else (s, 2, d.filler)

/-- The bytes of a proxy (R224). -/
def State.proxyBytes (s : State) (d : PpDesc) (c : PpSource) : List Byte :=
  (List.range d.sclH).flatMap (fun y => (List.range d.sclW).flatMap (fun x => (List.range 3).map (fun p =>
    BitVec.ofNat 8 (min ((s.scaled d c p x y + 8) / 16) 255))))

/-- A first pass writes the slot's proxy: the data, then the tag (R224). -/
def State.writeProxy (s : State) (d : PpDesc) (c : PpSource) (p : PicRec) : State :=
  if d.proxyOut ∧ s.passMode p.stream = 1 ∧ keepWorthy p then
    let s0 := if s.proxyBeyond p then s.tally Reg.PROXY_PROXY_BEYOND else s
    match s0.proxyPtr p with
    | none => s0
    | some a =>
      let x := s0.unitWriteOk (ptrAdd a 64) (s0.proxyBytes d c)
      if x.2 then
        (x.1.unitWrite a (wordBytes (s0.proxyTag p d.sclW d.sclH) ++ List.replicate 48 0)).tally Reg.PROXY_PROXY_WRITE
      else x.1
  else s

/-- What a completed sample slot leaves beside its tensor (R214, R224): the keep buffer, and the proxy of a first pass. -/
def State.keepSample (s : State) (d : PpDesc) (p : PicRec) (w : PpWork) : State :=
  let s1 := if d.keepEn ∧ keepWorthy p then
      let t := s.peeks (ptrAdd (s.relocate s.ppOdd d.dest) (w.slot * d.sampleStride)) d.size
      let k := s.unitWriteOk (s.keepPtr d w.keepIx) t
      { k.1 with keeps := if k.2 ∧ k.1.keeps.contains (w.stream, w.desc, w.keepIx) = false then k.1.keeps ++ [(w.stream, w.desc, w.keepIx)]
                          else k.1.keeps }
    else s
  match p.buf with
  | some b => s1.writeProxy d (picSource p b) p
  | none => s1

/-- PREPROC_ENTRY (R204). -/
def execPreprocEntry (i : EntryIx) (s : State) : Out :=
  done (match s.entryFor i.val 0x1A 0x1D 4 with
    | none => s
    | some e =>
      let k := e.unit - 0x1A
      let t := s.actionRead e.operand 4
      match s.startWalk i.val e with
      | none => t
      | some w => (t.setPp k { s.pp k with walk := some w, work := none }).setReg (Reg.STATUS (pagePp k)) 1)

/-- The record at which a walk stands with a slot left to fill. -/
def State.nextSlot (s : State) (w : Walk) : Nat → Option (Walk × PpRec)
  | 0 => none
  | n + 1 =>
    if w.count ≤ w.ix then none
    else
      match s.ppRec w.list w.ix with
      | none => none
      | some r => if w.done < r.frames then some (w, r) else s.nextSlot { w with ix := w.ix + 1, done := 0 } n

/-- A slot begins: CURRENT, BUDGET_LEFT and STATUS (R227). -/
def State.slotBegins (s : State) (k ix : Nat) (w : PpWork) : State :=
  (((s.setPp k { s.pp k with work := some w }).setReg (Reg.STATUS (pagePp k)) 2).setReg (Reg.PP_CURRENT k)
    (BitVec.ofNat 32 (w.stream + 256 + 65536 * ix))).setReg (Reg.PP_BUDGET_LEFT k) (BitVec.ofNat 32 w.budget)

/-- The frames of a stream that PREPROC records before a walk's record fill, in variant order, with those that the record itself has
filled (R205): the place of the walk's next picture record of the stream. -/
def State.picOrdinal (s : State) (w : Walk) (x : Nat) : Nat :=
  let sum := fun (rs : List PpRec) => ((rs.filter (fun r => r.stream == x)).map PpRec.frames).sum
  let before := ((s.entriesOf s.actBank s.variant).take w.entry).filter (fun e =>
    decide (0x1A ≤ e.2.unit) && decide (e.2.unit ≤ 0x1D) && e.2.action == 4)
  (before.map (fun e => sum (s.ppRecs e.2.operand))).sum + sum ((List.range w.ix).filterMap (fun i => s.ppRec w.list i)) + w.done

/-- A slot is filled from a picture record of the stream, the n-th of the tick, or as idle (R205, R213). -/
def State.fillSlot (s : State) (k ix n : Nat) (d : PpDesc) (w : PpWork) : State :=
  match (s.stream w.stream).pics[n]? with
  | none =>
    (s.writeSample d w.slot d.filler).slotBegins k ix { w with source := 3 }
  | some p =>
    let s1 := s.setStream w.stream { s.stream w.stream with picsTaken := max (s.stream w.stream).picsTaken (n + 1) }
    let c := s1.ppChoose k d p
    match c.src with
    | .ok src =>
      let x := c.st.ppTensor d src
      (c.st.writeSample d w.slot x.1).slotBegins k ix
        { w with pic := some c.pic, source := 0, sat := x.2, proxy := p.kind == 2 }
    | .error r =>
      let x := c.st.substitute d w
      (x.1.writeSample d w.slot x.2.2).slotBegins k ix { w with pic := some c.pic, source := x.2.1, reason := r }

/-- The unit's reads of a descriptor, its parameter block and its coefficient table (R207, R305). -/
def State.readPpDesc (s : State) (off : Nat) : State :=
  let t := s.actionRead off 16
  match s.actionWords off 16 with
  | none => t
  | some ws => (t.actionRead (wordAt ws 8).toNat 32).actionRead (wordAt ws 7).toNat 256

/-- PP_SLOT (R205, R213): the unit fills its next slot. A slot whose descriptor cannot be read writes nothing. -/
def execPpSlot (pp : Fin 4) (s : State) : Out :=
  let k := pp.val
  done (match (s.pp k).walk with
    | none => s
    | some w =>
      if (s.pp k).work.isSome then s
      else
        match s.nextSlot w 129 with
        | none => (s.walkReads w 4 none).setPp k { s.pp k with walk := none }
        | some (w1, r) =>
          let s1 := ((s.walkReads w 4 (some w1)).setPp k { s.pp k with walk := some { w1 with done := w1.done + 1 } }).overFrames r.stream
          let s2 := s1.readPpDesc r.desc
          match s1.ppDesc r.desc with
          | none => s2
          | some d => s2.fillSlot k w1.ix (s.picOrdinal w1 r.stream) d
              { stream := r.stream, desc := r.desc, slot := r.slot + w1.done, keepIx := r.keepIx, budget := r.budget, pic := none
                source := 0, reason := 0, sat := false, proxy := false })

/-- The tally of a slot's source (R213). -/
def sourceTally (k n : Nat) : Nat :=
  match n with
  | 0 => Reg.PP_SAMPLE_DONE k
  | 1 => Reg.PP_SUBST_KEPT k
  | 2 => Reg.PP_SUBST_FILL k
  | _ => Reg.PP_IDLE_SLOT k

/-- The owner that a slot releases of the buffer it read (R213): the state, and whether the BPM made the release. -/
def State.releasePic (s : State) (k : Nat) (p : Option PicRec) : State × Bool :=
  match p with
  | some { buf := some b, kind := kd, .. } => s.bpmRelease (10 + k) b (if kd = 3 then 3 else 2)
  | _ => (s, true)

/-- The manifest entry of a slot (R215): of an idle slot the frame's words are free values, but word 3 is 0 where no ring carries the
stream, so that it is not re-scan. -/
def State.manifest (s : State) (w : PpWork) : State × List Word :=
  match w.pic with
  | none =>
    let a := s.free
    let b := a.2.free
    let c := b.2.free
    let d := c.2.free
    (d.2, [BitVec.ofNat 32 (w.stream + 256 * w.source + 65536 * bits d.1 3 0 + 2 ^ 20 * w.reason), a.1, b.1,
      if s.ringStream w.stream then c.1 else 0])
  | some p =>
    let o := if 2 ≤ p.kind then 15 else p.outcome
    (s, [BitVec.ofNat 32 (w.stream + 256 * w.source + flagBit p.concealed 11 + flagBit p.refConcealed 12 + flagBit w.proxy 13 +
          flagBit w.sat 14 + 65536 * o + 2 ^ 20 * w.reason), p.frameNo, p.time, p.clipId])

/-- The slot of a unit has ended: LAST, STATUS, tallies (R211, R213, R227). -/
def State.slotEnds (s : State) (k : Nat) (w : PpWork) : State :=
  let s1 := s.tally (sourceTally k w.source)
  let s2 := if w.sat then s1.tally (Reg.PP_PP_SAT k) else s1
  let s3 := (((s2.setPp k { s2.pp k with work := none }).setReg (Reg.STATUS (pagePp k)) 1).setReg (Reg.PP_CURRENT k) 0).setReg
    (Reg.PP_BUDGET_LEFT k) 0
  s3.setReg (Reg.PP_LAST k) (BitVec.ofNat 32 (w.stream + 256 * w.source + 4096 * w.reason + 65536 * (s.tick.toNat % 65536)))

/-- The last writes of a slot: keep buffer and proxy of a sample, then the manifest entry (R214, R215, R224). -/
def State.closeSlot (s : State) (d : PpDesc) (w : PpWork) : State :=
  let s1 := match w.source, w.pic with
    | 0, some p => s.keepSample d p w
    | _, _ => s
  let m := s1.manifest w
  m.1.unitWrite (ptrAdd (m.1.relocate m.1.ppOdd d.man) (16 * w.slot)) (wordBytes m.2)

/-- A slot whose release the BPM refuses is substituted with reason 6 (R213, R288). -/
def State.refusedSlot (s : State) (d : PpDesc) (w : PpWork) : State × PpWork :=
  if w.source = 0 then
    let x := s.substitute d w
    (x.1.writeSample d w.slot x.2.2, { w with source := x.2.1, reason := 6, sat := false, proxy := false })
  else (s, { w with reason := 6 })

/-- PP_SLOT_DONE (R213 to R215): its buffer's owner is released, and the manifest entry follows the slot's last tensor write. -/
def execPpSlotDone (pp : Fin 4) (s : State) : Out :=
  let k := pp.val
  done (match (s.pp k).work with
    | none => s
    | some w =>
      let r := s.releasePic k w.pic
      match s.ppDesc w.desc with
      | none => r.1.slotEnds k w
      | some d =>
        let x := if r.2 then (r.1, w) else r.1.refusedSlot d w
        (x.1.closeSlot d x.2).slotEnds k x.2)

/-- PP_BUDGET_EXPIRY (R212): the buffer's owner is released and the whole sample area written as filler with reason 8. A
substitute or idle slot never reaches expiry. -/
def execPpBudgetExpiry (pp : Fin 4) (s : State) : Out :=
  let k := pp.val
  done (match (s.pp k).work with
    | none => s
    | some w =>
      if w.source ≠ 0 ∨ w.reason = 8 then s
      else
        let s1 := ((s.releasePic k w.pic).1.tally (Reg.PP_PP_ABANDON k)).event (pagePp k) 1
        let s2 := match s1.ppDesc w.desc with
          | none => s1
          | some d => s1.writeSample d w.slot d.filler
        let w1 := { w with source := 2, reason := 8, sat := false, proxy := false, pic := w.pic.map (fun p => { p with buf := none }) }
        s2.setPp k { s2.pp k with work := some w1 })

/-- The sizes that a write of RECORDS or FRAMES would need, against the region (R223). -/
def State.proxyFits (s : State) (records frames : Nat) : Bool :=
  match s.proxyRegion, s.proxySize with
  | some r, some (w, h) => decide (records * frames * proxyEntry w h ≤ r.size)
  | _, _ => decide (records * frames = 0)

/-- PROXY_GEOMETRY_WRITE (R223): a product that exceeds the region is dropped and counted. -/
def execProxyGeometryWrite (m : Master) (frames : Bool) (v : Word) (s : State) : Out :=
  done (s.gate m 0x21D (fun t =>
    let r := if frames then bits (t.reg Reg.PROXY_RECORDS) 15 0 else bits v 15 0
    let f := if frames then bits v 19 0 else bits (t.reg Reg.PROXY_FRAMES) 19 0
    if t.proxyFits r f then
      (if frames then t.setReg Reg.PROXY_FRAMES (BitVec.ofNat 32 f) else t.setReg Reg.PROXY_RECORDS (BitVec.ofNat 32 r))
    else t.tally Reg.PROXY_CFG_REFUSED))

/-- PROXY_GEN (R225): every entry with another generation is no hit any more. -/
def execProxyGen (m : Master) (v : Word) (s : State) : Out :=
  done (s.gate m 0x21D (fun t => t.setReg Reg.PROXY_GEN (BitVec.ofNat 32 (bits v 15 0))))

end Sys2Proof.Machine
end

