-- ==== Sys2Proof/Machine/Extents.lean ====
section
/-!
DEFINITION. The operands of a macro-instruction as its words plan them (R99, R100, R102 to R104, R112, R114, R115, R144 to R166): its
fields, the byte ranges of its operands at their planned extents, and the units that it uses.
-/
namespace Sys2Proof.Machine

/-- What an instruction runs with: its stall, job, cluster and words. -/
structure Issue where
  st : Nat
  job : Nat
  c : Fin 8
  ws : List Word

/-- Word i of the instruction. -/
def Issue.w (x : Issue) (i : Nat) : Word := wordAt x.ws i

/-- The fields of a MATMUL (R103, R104). -/
structure Mm where
  order : Nat
  f : Nat
  split : Bool
  src : Bool
  biasEn : Bool
  fmtA : Nat
  fmtB : Nat
  group : Bool
  nt : Nat
  mMax : Nat
  nMax : Nat
  kMax : Nat
  a : Ptr
  aStride : Nat
  b : Ptr
  bStride : Nat
  d : Ptr
  dStride : Nat
  bias : Ptr
  /-- classes of the operands after the codebook lookup -/
  clsA : Nat
  clsB : Nat
  kw : Nat

/-- The fields of an instruction whose operands have the classes given. -/
def mmOf (x : Issue) (clsA clsB : Nat) : Mm :=
  let f := 2 ^ bits (x.w 1) 12 11
  { order := bits (x.w 1) 10 8, f := f, split := bit (x.w 1) 13, src := bit (x.w 1) 14, biasEn := bit (x.w 1) 15
    fmtA := bits (x.w 1) 19 16, fmtB := bits (x.w 1) 23 20, group := bit (x.w 1) 24, nt := bits (x.w 2) 11 0
    mMax := bits (x.w 4) 19 0, nMax := bits (x.w 5) 19 0, kMax := bits (x.w 6) 19 0
    a := descPtr x.c (x.w 7), aStride := descStride (x.w 8), b := descPtr x.c (x.w 9), bStride := descStride (x.w 10)
    d := descPtr x.c (x.w 11), dStride := descStride (x.w 12), bias := descPtr x.c (x.w 13)
    clsA := clsA, clsB := clsB, kw := tileWidth clsA clsB f }

/-- Problem f's offset in an operand (R114). -/
def Mm.shift (q : Mm) (x : Issue) (i f : Nat) : Nat := if q.group then f * bits (x.w i) 31 20 * 128 else 0

/-- Columns of a whole N-tile over its facets (R104, R114). -/
def Mm.tileCols (q : Mm) : Nat := if q.group then q.nt else q.f * q.nt

/-- A tensor operand: its first byte, stride, element format and layout. -/
structure Tensor where
  p : Ptr
  stride : Nat
  fmt : Nat
  blocked : Bool

/-- X of an instruction. -/
def Issue.x (x : Issue) : Tensor := ⟨descPtr x.c (x.w 4), descStride (x.w 5), bits (x.w 1) 11 8, bit (x.w 1) 23⟩

/-- Y of an instruction as a tensor (Y_MODE 3). -/
def Issue.y (x : Issue) : Tensor := ⟨descPtr x.c (x.w 6), descStride (x.w 7), bits (x.w 1) 15 12, bit (x.w 1) 23⟩

/-- D of an instruction. -/
def Issue.d (x : Issue) : Tensor := ⟨descPtr x.c (x.w 8), descStride (x.w 9), bits (x.w 1) 19 16, false⟩

/-- Bytes of an element. -/
def elemBytes (fmt : Nat) : Nat := elemBits fmt / 8

/-- The source and destination of words 6 to 9 (R115). -/
def Issue.src (x : Issue) : Ptr := descPtr x.c (x.w 6)
/-- Destination. -/
def Issue.dst (x : Issue) : Ptr := descPtr x.c (x.w 8)

/-- Output size along an axis (R115): input, both paddings, dilation, kernel, stride. -/
def outSize (n pad dil k st : Nat) : Nat := (n + pad - dil * (k - 1) - 1) / st + 1

/-- OW of EXPAND (R115). -/
def expandWidth (i : Issue) : Nat :=
  outSize (bits (i.w 2) 31 16) (bits (i.w 4) 11 8 + bits (i.w 4) 15 12) (bits (i.w 1) 23 20) (bits (i.w 1) 7 4) (bits (i.w 1) 15 12)

/-- The address of a MOVE descriptor (R112): 0 the cluster's own scratchpad, 1 the common store, 2 DRAM. -/
def movePtr (c : Fin 8) (lo hi : Word) : Ptr :=
  { store := (match bits hi 9 8 with
      | 0 => .spad c
      | 1 => .common
      | _ => .dram)
    addr := lo.toNat + bits hi 4 0 * 2 ^ 32 }

/-- The byte range of an operand at its planned extent. -/
structure Extent where
  p : Ptr
  n : Nat
  wr : Bool
  deriving DecidableEq, Repr

/-- Two extents share a byte. -/
def Extent.overlaps (a b : Extent) : Bool := decide (a.p.store = b.p.store) && meets a.p.addr a.n b.p.addr b.n

/-- Bytes from the first of `rows` rows at a stride to the end of the last, `len` bytes of it; 0 where either is 0. -/
def spanOf (rows stride len : Nat) : Nat := if rows = 0 ∨ len = 0 then 0 else (rows - 1) * stride + len

/-- Bytes of n elements of a format. -/
def fmtBytes (fmt n : Nat) : Nat := (n * elemBits fmt + 7) / 8

/-- The directory record of a codebook (R160): PRESENT, 256 entries, EFMT, first byte of its entries in the section. -/
structure CbRec where
  present : Bool
  size256 : Bool
  efmt : Nat
  off : Nat

/-- Bytes of a codebook's entries. -/
def CbRec.bytes (d : CbRec) : Nat := (if d.size256 then 256 else 16) * (if d.efmt = 2 then 2 else 1)

/-- The class in which an operand of a format code enters the engine (R72): a CB operand takes its codebook's entry format. -/
def planClass (fmt : Nat) (d : CbRec) : Nat := if fmt = 10 ∨ fmt = 11 then efmtCode (BitVec.ofNat 2 d.efmt) else fmt

/-- A MATMUL as planned. -/
def planMm (x : Issue) (cb : Nat → CbRec) : Mm :=
  mmOf x (planClass (bits (x.w 1) 19 16) (cb (bits (x.w 2) 23 16))) (planClass (bits (x.w 1) 23 20) (cb (bits (x.w 2) 31 24)))

/-- A tensor's planned extent. -/
def Tensor.extent (t : Tensor) (rows cols : Nat) (wr : Bool) : Extent :=
  ⟨t.p, if t.blocked then spanOf (cdiv rows 32) t.stride (if cols = 0 then 0 else cols * 128)
    else spanOf rows t.stride (fmtBytes t.fmt cols), wr⟩

/-- Planned rows and columns of a vector engine instruction (R144). -/
def Issue.rowsMax (x : Issue) : Nat := bits (x.w 2) 19 0
/-- Columns. -/
def Issue.colsMax (x : Issue) : Nat := bits (x.w 3) 19 0

/-- The extents of MATMUL's operands (R102, R114). -/
def mmExtents (x : Issue) (q : Mm) : List Extent :=
  (List.range (if q.group then q.f else 1)).flatMap (fun f =>
    [⟨ptrAdd q.a (q.shift x 4 f), spanOf q.mMax q.aStride (fmtBytes q.fmtA q.kMax), false⟩,
     ⟨ptrAdd q.b (q.shift x 5 f), spanOf q.nMax q.bStride (fmtBytes q.fmtB q.kMax), false⟩,
     ⟨ptrAdd q.d (q.shift x 6 f), spanOf (cdiv q.mMax 32) q.dStride (q.nMax * 128), true⟩] ++
    if q.biasEn then [⟨ptrAdd q.bias (4 * f * q.nMax), 4 * q.nMax, false⟩] else [])

/-- Output rows and columns of EXPAND, S2D and POOL as planned: rows written, OW. -/
def patchShape (op : Nat) (x : Issue) : Nat × Nat :=
  let h := bits (x.w 2) 15 0
  let w := bits (x.w 2) 31 16
  match op with
  | 0x02 => (bits (x.w 5) 31 16, expandWidth x)
  | 0x03 => (cdiv h (bits (x.w 1) 3 0), cdiv w (bits (x.w 1) 3 0))
  | _ => (bits (x.w 5) 31 16, outSize w (bits (x.w 4) 11 8 + bits (x.w 4) 15 12) 1 (bits (x.w 1) 7 4) (bits (x.w 1) 15 12))

/-- The extents of EXPAND, S2D and POOL (R115 to R119). -/
def patchExtents (op : Nat) (x : Issue) : List Extent :=
  let ce := bits (x.w 3) 15 0 * elemBytes (bits (x.w 1) 27 24)
  let sh := patchShape op x
  let ds := descStride (x.w 9)
  [⟨x.src, spanOf (bits (x.w 2) 15 0) (descStride (x.w 7)) (bits (x.w 2) 31 16 * ce), false⟩,
   ⟨x.dst, (match op with
      | 0x02 => sh.1 * sh.2 * ds
      | 0x03 => spanOf sh.1 ds (sh.2 * (bits (x.w 1) 3 0 ^ 2 * ce))
      | _ => spanOf sh.1 ds (sh.2 * ce)), true⟩]

/-- The extents of X, Y, Z and D of a vector engine instruction, in that order (R144 to R166). -/
def vectorExtents (op : Nat) (x : Issue) (cb : Nat → CbRec) : List Extent × List Extent :=
  let rn := x.rowsMax
  let cn := x.colsMax
  let blocks := cdiv cn (2 ^ bits (x.w 12) 11 8)
  let y : List Extent :=
    match bits (x.w 12) 2 0 with
    | 1 => [⟨x.y.p, 4 * rn, false⟩]
    | 2 => [⟨x.y.p, spanOf rn x.y.stride (4 * blocks), false⟩]
    | 3 => [x.y.extent rn cn false]
    | 4 => [⟨x.y.p, 4 * cn, false⟩]
    | _ => []
  let z : List Extent := if bit (x.w 12) 3 then [⟨descPtr x.c (x.w 13), 4 * cn, false⟩] else []
  match op with
  | 0x42 => ([x.x.extent rn cn false], [⟨x.d.p, 4 * rn, true⟩])
  | 0x44 => ([x.x.extent rn cn false], [⟨x.d.p, spanOf rn x.d.stride (4 * blocks), true⟩])
  | 0x46 => ([x.x.extent rn cn false], [⟨x.d.p, spanOf rn x.d.stride (4 * cn), true⟩])
  | 0x47 => ([x.x.extent rn cn false], [x.d.extent (bits (x.w 14) 15 0) cn true])
  | 0x48 => ([⟨x.x.p, spanOf rn x.x.stride 320, false⟩, ⟨x.y.p, 32, false⟩], [⟨x.x.p, spanOf rn x.x.stride 320, true⟩])
  | 0x49 =>
    let d := cb (bits (x.w 12) 19 12)
    ([⟨ptrAdd x.x.p (4 * bits (x.w 12) 19 12), 4, false⟩, ⟨ptrAdd x.x.p d.off, d.bytes, false⟩], [])
  | 0x40 | 0x41 | 0x45 => (x.x.extent rn cn false :: (y ++ z), [x.d.extent rn cn true])
  | _ => ([x.x.extent rn cn false], [x.d.extent rn cn true])

/-- The read and write sets of an instruction at its planned extents (R100). -/
def planExtents (x : Issue) (cb : Nat → CbRec) : List Extent :=
  match bits (x.w 0) 7 0 with
  | 0x00 => []
  | 0x01 => mmExtents x (planMm x cb)
  | 0x02 => patchExtents 0x02 x
  | 0x03 => patchExtents 0x03 x
  | 0x04 => patchExtents 0x04 x
  | 0x05 => [⟨descPtr x.c (x.w 2), 4, false⟩]
  | 0x06 => [⟨movePtr x.c (x.w 2) (x.w 3), (x.w 1).toNat, false⟩, ⟨movePtr x.c (x.w 4) (x.w 5), (x.w 1).toNat, true⟩]
  | op => (vectorExtents op x cb).1 ++ (vectorExtents op x cb).2

/-- The units that an instruction uses (R99, R142): 0 to 7 logical engines, 8 PXE, 9 WU, 10 VX, 11 the move engine. -/
def unitsOf (x : Issue) : List Nat :=
  match bits (x.w 0) 7 0 with
  | 0x01 => maskChannels (bits (x.w 1) 7 0)
  | 0x02 | 0x03 => [8]
  | 0x04 => [9]
  | 0x06 => [11]
  | 0x00 | 0x05 => []
  | 0x49 => 10 :: (if bits (x.w 1) 25 24 = 2 then [] else maskChannels (bits (x.w 1) 7 0))
  | _ => [10]

end Sys2Proof.Machine
end

