-- ==== Sys2Proof/Machine/Sequencer.lean ====
section
/-!
DEFINITION. The cluster sequencers: which instruction starts, its refusal, predicate and lengths (R97 to R99, R107, R108,
R113, R162); and NOP, LDLEN and MOVE (R107, R112).
-/
namespace Sys2Proof.Machine

/-- Bits used in the descriptor words a and b, and in a vector engine length word (R102, R144). -/
def maskA : Nat := 0x0FFFFFFF
/-- Word b. -/
def maskB : Nat := 0x00FFFFFF
/-- ROWS_MAX and COLS_MAX words. -/
def maskL : Nat := 0x01FFFFFF
/-- A whole word. -/
def maskW : Nat := 0xFFFFFFFF

/-- The bits that words 1 to 14 of an opcode use (R103, R107, R112, R115, R144); every other bit is reserved. None for a
reserved opcode (R99, R147). -/
def usedBits (op : Nat) : Option (List Nat) :=
  match op with
  | 0x00 => some (List.replicate 14 0)
  | 0x01 => some [0x01FFFFFF, 0xFFFF0FFF, 0x0007FFF3, maskW, maskW, maskW, maskA, maskB, maskA, maskB, maskA, maskB, maskA, 0xFFFF]
  | 0x02 => some [0x0FFFFFFF, maskW, 0xFFFF, maskW, maskW, maskA, maskB, maskA, maskB, 0, 0, 0, 0, 0]
  | 0x03 => some [0x0F00000F, maskW, 0xFFFF, 0, 0, maskA, maskB, maskA, maskB, 0, 0, 0, 0, 0]
  | 0x04 => some [0x0F03FFFF, maskW, 0xFFFF, 0xFFFF, maskW, maskA, maskB, maskA, maskB, 0, 0, 0, 0, 0]
  | 0x05 => some [0xF, maskA, maskB, 0, 0, 0, 0, 0, 0, 0, 0, 0, 0, 0]
  | 0x06 => some [maskW, maskW, 0x31F, maskW, 0x31F, 0, 0, 0, 0, 0, 0, 0, 0, 0]
  | 0x40 => some [0x00FF0F00, maskL, maskL, maskA, maskB, maskA, maskB, maskA, maskB, maskW, maskW, 0x0FFFFFFF, maskA, maskW]
  | 0x41 => some [0x00FFFFFF, maskL, maskL, maskA, maskB, maskA, maskB, maskA, maskB, maskW, maskW, 0xF07, 0, 0]
  | 0x42 => some [0x000F0FFF, maskL, maskL, maskA, maskB, 0, 0, maskA, maskB, 0, 0, 0, 0, 0]
  | 0x43 => some [0x007F0F00, maskL, maskL, maskA, maskB, 0, 0, maskA, maskB, 0, 0, 0, 0, 0]
  | 0x44 => some [0x000F0F00, maskL, maskL, maskA, maskB, 0, 0, maskA, maskB, 0, 0, 0xF00, 0, 0]
  | 0x45 => some [0x007F0F00, maskL, maskL, maskA, maskB, maskA, maskB, maskA, maskB, 0, 0, 0x0FF00F07, 0, 0]
  | 0x46 => some [0x000F0F00, maskL, maskL, maskA, maskB, 0, 0, maskA, maskB, 0, 0, 0xF00, 0, 0]
  | 0x47 => some [0x000F0F00, maskL, maskL, maskA, maskB, 0, 0, maskA, maskB, maskW, 0, 0, 0, maskW]
  | 0x48 => some [0, maskL, 0, maskA, maskB, maskA, maskB, 0, 0, maskW, 0, 0, 0, 0]
  | 0x49 => some [0x030000FF, 0, 0, maskA, maskB, 0, 0, 0, 0, 0, 0, 0xFF000, 0, 0]
  | _ => none

/-- The words that hold word a of a descriptor of an opcode. -/
def descWords (op : Nat) : List Nat :=
  match op with
  | 0x01 => [7, 9, 11, 13]
  | 0x02 | 0x03 | 0x04 => [6, 8]
  | 0x05 => [2]
  | 0x40 => [4, 6, 8, 13]
  | 0x41 | 0x45 => [4, 6, 8]
  | 0x42 | 0x43 | 0x44 | 0x46 | 0x47 => [4, 8]
  | 0x48 => [4, 6]
  | 0x49 => [4]
  | _ => []

/-- The descriptors of an opcode that may lie only in the cluster's own scratchpad (R102, R107, R115). -/
def ownOnly (op : Nat) : List Nat :=
  match op with
  | 0x01 => [11]
  | 0x02 | 0x03 | 0x04 => [6, 8]
  | 0x05 => [2]
  | _ => []

/-- MATMUL's reserved settings (R80, R103, R114, R156). -/
def matmulBad (w : Nat → Word) : Bool :=
  let g := bit (w 1) 24
  decide (5 < bits (w 1) 10 8) || decide (bits (w 1) 12 11 = 3) || decide (bits (w 1) 7 0 = 0) ||
  (bit (w 1) 14 && (decide (bits (w 1) 7 0 ≠ 0xFF) || bit (w 1) 13)) ||
  !operandCodeOk (bits (w 1) 19 16) || !operandCodeOk (bits (w 1) 23 20) ||
  (!g && (decide (bits (w 4) 31 20 ≠ 0) || decide (bits (w 5) 31 20 ≠ 0) || decide (bits (w 6) 31 20 ≠ 0))) ||
  (g && decide (bits (w 1) 12 11 = 0)) ||
  (bit (w 3) 0 && decide (bits (w 1) 19 16 = 1) && decide (bits (w 14) 7 4 ≠ 0)) ||
  (bit (w 3) 1 && decide (bits (w 1) 23 20 = 1) && decide (bits (w 14) 15 12 ≠ 0))

/-- A zero point that its format does not allow (R148, R156, R158): nonzero outside INT4, INT8, UINT8, or with bits [7:4]
for INT4. -/
def zpvBad (fmt z : Nat) : Bool :=
  (decide (z ≠ 0) && decide (fmt ≠ 1) && decide (fmt ≠ 2) && decide (fmt ≠ 3)) || (decide (fmt = 1) && decide (15 < z))

/-- A BLKP or p outside 4 to 12 where the instruction uses it (R144, R159, R167). -/
def blkpBad (op : Nat) (w : Nat → Word) : Bool :=
  (decide (bits (w 12) 11 8 < 4) || decide (12 < bits (w 12) 11 8)) &&
  ((decide (op = 0x44) || decide (op = 0x46)) ||
    ((decide (op = 0x40) || decide (op = 0x41) || decide (op = 0x45)) && decide (bits (w 12) 2 0 = 2)))

/-- Reserved settings of a vector engine instruction, those of 0x0501 (R133, R143, R148, R151, R153, R154, R157, R164,
R167). DESIGN CHOICE (log 45): RED and
WHT, whose D is always FP32, accept 0 and 0xD in FMT_D. -/
def vectorBad (op : Nat) (w : Nat → Word) : Bool :=
  let sub := bits (w 1) 7 0
  let fx := bits (w 1) 11 8
  let fd := bits (w 1) 19 16
  let rnd := bits (w 1) 21 20
  let inf := bit (w 1) 22
  let blk := bit (w 1) 23
  let ym := bits (w 12) 2 0
  let infOk := decide (fd = 7) || decide (fd = 8) || decide (fd = 9)
  decide (rnd = 3) || (inf && !infOk) ||
  (match op with
   | 0x40 => decide (2 < ym) || decide (8 < bits (w 12) 7 4) || zpvBad fx (bits (w 12) 27 20) ||
      (blk && decide (fx ≠ 12) && decide (fx ≠ 13)) ||
      ((decide (fd = 10) || decide (fd = 11)) && (decide (rnd ≠ 0) || inf))
   | 0x41 => decide (4 < ym) || decide (11 < sub) || (decide (sub = 7) && decide (ym ≠ 0)) ||
      (blk && decide (fx ≠ 12) && decide (fx ≠ 13)) ||
      (blk && decide (ym = 3) && decide (bits (w 1) 15 12 ≠ 12) && decide (bits (w 1) 15 12 ≠ 13)) ||
      (decide (8 ≤ sub) && (decide (rnd ≠ 0) || inf))
   | 0x42 => decide (4 < sub) || (decide (fd ≠ 0) && decide (fd ≠ 13)) || blk
   | 0x44 => decide (fd = 0) || decide (8 < fd)
   | 0x46 => (decide (fd ≠ 0) && decide (fd ≠ 13))
   | 0x49 => decide (bits (w 1) 25 24 = 3)
   | 0x45 => (decide (ym ≠ 1) && decide (ym ≠ 2)) || zpvBad fd (bits (w 12) 27 20)
   | _ => false)

/-- A reserved opcode, a reserved bit or a reserved setting (R99, 0x0501). -/
def instrReserved (ws : List Word) : Bool :=
  let w := fun i => wordAt ws i
  let op := bits (w 0) 7 0
  match usedBits op with
  | none => true
  | some us =>
    decide (bits (w 0) 15 13 ≠ 0) || decide (bits (w 15) 31 9 ≠ 0) ||
    (List.range 14).any (fun i => decide (w (i + 1) &&& ~~~(BitVec.ofNat 32 (us.getD i 0)) ≠ 0)) ||
    (descWords op).any (fun i => decide (1 < bits (w i) 27 26)) ||
    (ownOnly op).any (fun i => decide (bits (w i) 27 26 ≠ 0)) ||
    (match op with
     | 0x01 => matmulBad w
     | 0x06 => decide (bits (w 3) 9 8 = 3) || decide (bits (w 5) 9 8 = 3)
     | _ => decide (0x40 ≤ op) && vectorBad op w)

/-- The sequencer refuses the instruction (R99); a BLKP or p outside its range counts as a reserved setting at run time. -/
def instrBad (ws : List Word) : Bool :=
  instrReserved ws || blkpBad (bits (wordAt ws 0) 7 0) (fun i => wordAt ws i)

/-- A length register of a job (R107). -/
def State.len (s : State) (c job r : Nat) : Word := mapGetD (s.cluster c).lens (job * 16 + r) 0

/-- Write a length register. -/
def State.setLen (s : State) (c job r : Nat) (v : Word) : State :=
  s.setCluster c { s.cluster c with lens := tblSet 0 (job * 16 + r) v (s.cluster c).lens }

/-- The word-15 fields of the instructions of a cluster's stream from the i-th on. -/
def State.streamWords (s : State) (c : Fin 8) (i : Nat) : List Word :=
  let cl := s.cluster c.val
  (List.range (cl.count - i)).map (fun k => s.word { store := .spad c, addr := cl.streamOff + 64 * (i + k) + 60 })

/-- The streams that word-15 fields name with STREAM_VALID (R98). -/
def namedStreams (ws : List Word) : List Nat := ((ws.filter (fun w => bit w 8)).map (fun w => bits w 7 0)).eraseDups

/-- Every stream a slot serves: those that its instructions name. -/
def State.slotStreams (s : State) (st : Nat) : List Nat :=
  ((s.stallClusters st).flatMap (fun c => namedStreams (s.streamWords (Fin.ofNat 8 c) 0))).eraseDups

/-- The streams that one instruction's word 15 flags (R98). -/
def State.flagged (s : State) (st : Nat) (w : Word) : List Nat :=
  if bit w 8 then [bits w 7 0] else s.slotStreams st

/-- The clipped flag of an instruction's streams (R108, R165). -/
def State.clip (s : State) (st : Nat) (w : Word) : State :=
  { s with ledger := { s.ledger with clipped := (s.ledger.clipped ++ s.flagged st w).eraseDups } }

/-- The in-service engine of a cluster with a logical number (R95, R96, R398). -/
def State.logicalEngine (s : State) (c l : Nat) : Option Nat :=
  (clusterEngines c).find? (fun e => !s.svc.engOut.getLsbD e && bits (s.reg (Reg.MX_MAP e)) 10 8 == l)

/-- The engines that a mask of logical engines names, in ascending logical order (R103). -/
def State.maskEngines (s : State) (c m : Nat) : List Nat := (maskChannels m).filterMap (s.logicalEngine c)

/-- The state with an instruction's effective length (R108), dimension code `dim` of CLIP_INFO. -/
def State.effLen (s : State) (x : Issue) (en : Bool) (r mx dim : Nat) : State × Nat :=
  if en then
    let v := (s.len x.c.val x.job r).toNat
    if mx < v then
      let s1 := (s.tally (Reg.CLUSTER_LEN_CLIPPED x.c.val)).event (pageCluster x.c.val) 2
      let s2 := s1.setReg (Reg.CLUSTER_CLIP_INFO x.c.val)
        (BitVec.ofNat 32 (x.job + 256 * r + 4096 * dim + 65536 * (s.tick.toNat % 65536)))
      (s2.clip x.st (x.w 15), mx)
    else (s, v)
  else (s, mx)

/-- The tags of every table of a stall's clusters become invalid (R161, R168). -/
def State.dropTags (s : State) (st : Nat) : State :=
  (s.stallClusters st).foldl (fun (a : State) c =>
    (clusterEngines c).foldl (fun (b : State) e =>
      b.setEngine e { b.engine e with aTable := { (b.engine e).aTable with valid := false }, bTable := { (b.engine e).bTable with valid := false } })
      (a.setCluster c { a.cluster c with vxTable := { (a.cluster c).vxTable with valid := false } })) s

/-- The job that runs on a cluster faults (R43, R44, R168): SEQ_STATE reads faulted. -/
def State.seqFault (s : State) (x : Issue) (cause : Nat) : State :=
  ((s.setField (Reg.CLUSTER_SEQ_STATE x.c.val) 2 0 4).dropTags x.st).jobFault x.st cause

/-- The sequencer refuses an instruction (R99). -/
def State.refuseInstr (s : State) (x : Issue) : State :=
  ((s.tally (Reg.CLUSTER_INSTR_REFUSED x.c.val)).event (pageCluster x.c.val) 1).seqFault x 1

/-- A table holds the codebook (R162). -/
def tagOk (t : CodeTable) (n : Nat) : Bool := t.valid && t.number.toNat == n

/-- A refusal for a codebook that is not loaded (R162). -/
def State.cbMiss (s : State) (x : Issue) : State :=
  ((s.tally (Reg.VX_CB_MISS x.c.val)).event (pageVx x.c.val) 1).refuseInstr x

/-- The stall and slot in which the instruction at `pc` of a cluster's program part is the next to start (R97, R100). -/
def State.nextInstr (s : State) (c : Fin 8) (pc : Nat) : Option (Nat × Slot) :=
  match s.clusterStall c.val with
  | none => none
  | some st =>
    match (s.stall st).slot with
    | none => none
    | some x =>
      let cl := s.cluster c.val
      if cl.started < cl.count ∧ pc = cl.streamOff + 64 * cl.started then some (st, x) else none

/-- An instruction has started: SEQ_STATE, SEQ_PC and the count of started ones (R120). -/
def State.markStarted (s : State) (x : Issue) (pc : Nat) : State :=
  let cl := s.cluster x.c.val
  let n := cl.started + 1
  ((s.setCluster x.c.val { cl with started := n }).setReg (Reg.CLUSTER_SEQ_STATE x.c.val)
    (BitVec.ofNat 32 ((if n < cl.count then 1 else 0) + 256 * x.job + 65536 * (n % 65536)))).setReg
    (Reg.CLUSTER_SEQ_PC x.c.val) (BitVec.ofNat 32 pc)

/-- The predicate of an instruction holds (R98). -/
def State.predicate (s : State) (x : Issue) : Bool :=
  !bit (x.w 0) 12 || decide (bits (x.w 0) 31 16 < (s.len x.c.val x.job (bits (x.w 0) 11 8)).toNat)

/-- The directory record of a codebook as CBLOAD's X shows it (R160, R161). -/
def State.liveCb (s : State) (x : Issue) (k : Nat) : CbRec :=
  let w := s.elem32 (ptrAdd x.x.p (4 * k)) 0
  ⟨bit w 0, bit w 1, bits w 3 2, bits w 31 8 * 64⟩

/-- The MATMULs of a cluster that have not completed: some pass or drain of theirs has not run (R100). -/
def State.openMatmuls (s : State) (c : Fin 8) : List Issue :=
  (((clusterEngines c.val).filter (fun e => !(s.engine e).work.isEmpty)).map (fun e => (s.engine e).instr)).eraseDups.map
    (fun ws => { st := 0, job := 0, c := c, ws := ws })

/-- The instruction waits (R100, R142): an engine that it uses is not free, or its operands and those of a MATMUL that has not
completed overlap, one of them written. Every other instruction completes in the command that starts it, so no unit but
the engines, and no length register, is ever waited for. -/
def State.held (s : State) (x : Issue) : Bool :=
  (unitsOf x).any (fun l => decide (l < 8) && (s.logicalEngine x.c.val l).any (fun e => !(s.engine e).work.isEmpty)) ||
  (s.openMatmuls x.c).any (fun q => (mmExtents q (mmOf q 0 0)).any (fun b =>
    (planExtents x (s.liveCb x)).any (fun a => (a.wr || b.wr) && a.overlaps b)))

/-- A sequencer comes to the instruction at `pc`: it fetches it (R97, R279), refuses it (R99), skips it (R98), waits for its
units and hazards, which SEQ_STATE shows (R100, R120), or starts it. A command that names another opcode than the one
fetched, or an instruction that is not the next, starts nothing. -/
def State.issue (s : State) (c : Fin 8) (pc op : Nat) (run : State → Issue → State) : State :=
  match s.nextInstr c pc with
  | none => s
  | some (st, sl) =>
    let p : Ptr := { store := .spad c, addr := pc }
    let r := s.read p 64
    let x : Issue := { st := st, job := sl.job, c := c, ws := s.words p 16 }
    if r.status ≠ 0 then r.st.seqFault x (s.accessCause st (s.firstBad p 64) r.status)
    else if instrBad x.ws then r.st.refuseInstr x
    else if bits (x.w 0) 7 0 ≠ op then s
    else if s.predicate x = false then (r.st.markStarted x pc).tally (Reg.CLUSTER_PRED_SKIP c.val)
    else if s.held x then s.setField (Reg.CLUSTER_SEQ_STATE c.val) 2 0 2
    else run (r.st.markStarted x pc) x

/-- A group: the byte ranges that it reads, and what it then does: the state, and the cause of a failed write. -/
structure Group where
  reads : List (Ptr × Nat)
  act : State → State × Option Nat

/-- Run groups in order; the flag tells that none has failed. -/
def State.runGroups (s : State) (x : Issue) (par : Option Nat) (i : Nat) : List Group → State × Bool
  | [] => (s, true)
  | g :: r =>
    if par = some i then (s.seqFault x 3, false)
    else
      let a := s.readAll x.st g.reads
      match a.2 with
      | some cause => (a.1.seqFault x cause, false)
      | none =>
        let b := g.act a.1
        match b.2 with
        | some cause => (b.1.seqFault x cause, false)
        | none => b.1.runGroups x par (i + 1) r

/-- NOP does nothing (R99). -/
def execNop (c : Fin 8) (pc : BitVec 23) (s : State) : Out := done (s.issue c pc.toNat 0x00 (fun t _ => t))

/-- LDLEN (R107). -/
def execLdlen (c : Fin 8) (pc : BitVec 23) (s : State) : Out :=
  done (s.issue c pc.toNat 0x05 (fun t x =>
    let p := descPtr c (x.w 2)
    let r := t.readAll x.st [(p, 4)]
    match r.2 with
    | some cause => r.1.seqFault x cause
    | none => r.1.setLen c.val x.job (bits (x.w 1) 3 0) (t.elem32 p 0)))

/-- The pitch channels of a stall. -/
def State.pitch (s : State) (st : Nat) : Nat := bits (s.reg (Reg.STALL_PITCH st)) 7 0

/-- The bytes touch a DRAM channel outside the stall's pitch (R46). -/
def State.moveOutside (s : State) (st : Nat) (p : Ptr) (n : Nat) : Bool :=
  decide (p.store = .dram) &&
  (match s.touched p n with
   | some cs => cs.any (fun ch => !(s.pitch st).testBit ch)
   | none => false)

/-- A region of KIND 7 holds the address (R288). -/
def State.inPoolRegion (s : State) (p : Ptr) : Bool := s.active.recs.any (fun r => r.kind == 7 && r.holds p)

/-- MOVE (R112, R131): a copy of the bit patterns. A source in a pool region is checked with the BPM (R288), an access
outside the stall's pitch is refused by the fabric (R46). -/
def execMove (c : Fin 8) (pc : BitVec 23) (s : State) : Out :=
  done (s.issue c pc.toNat 0x06 (fun t x =>
    let n := (x.w 1).toNat
    let src := movePtr c (x.w 2) (x.w 3)
    let dst := movePtr c (x.w 4) (x.w 5)
    let b := if t.inPoolRegion src then t.bpmCheck (15 + c.val) src else (t, true)
    if b.2 = false then b.1.seqFault x 4
    else if b.1.moveOutside x.st (t.relocate t.unitOdd src) n || b.1.moveOutside x.st (t.relocate t.unitOdd dst) n then
      b.1.seqFault x 6
    else
      let r := b.1.readAll x.st [(src, n)]
      match r.2 with
      | some cause => r.1.seqFault x cause
      | none =>
        let w := r.1.writeAll x.st [(dst, t.peeks (t.relocate t.unitOdd src) n)]
        match w.2 with
        | some cause => w.1.seqFault x cause
        | none => w.1))

end Sys2Proof.Machine
end

