-- ==== Sys2Proof/Machine/Tau.lean ====
section
/-!
DEFINITION. The track association unit (R230 to R241, R255): sources, rows, gating and assignment, the states of tracks, and
the sections of the tally sheet.
-/
namespace Sys2Proof.Machine

/-- A number taken as a 32-bit integer, rounded toward zero (RTZ, R137): an infinity is the largest or the least. -/
def rtzInt (x : Num) : Int :=
  match x with
  | .fin s m e => if s then -(toSteps m 1 e 0 1 0 : Int) else (toSteps m 1 e 0 1 0 : Int)
  | .inf s => if s then -(2 ^ 31) else 2 ^ 31 - 1
  | .nan => 0

/-- code(v) of R235. -/
def boxCode (v : Word) : Nat :=
  match num32 (fmul v 0x47800000) with
  | .nan => 0
  | .inf s => if s then 0 else 65535
  | x => min (rtzInt x).toNat 65535

/-- A box as codes (R235). -/
structure BoxCodes where
  l : Nat
  t : Nat
  r : Nat
  b : Nat
  deriving DecidableEq, Repr

/-- The codes of a box (cx, cy, w, h) (R235). -/
def boxCodes (cx cy w h : Word) : BoxCodes :=
  let hw := fmul w 0x3F000000
  let hh := fmul h 0x3F000000
  { l := boxCode (fsub cx hw), t := boxCode (fsub cy hh), r := boxCode (fadd cx hw), b := boxCode (fadd cy hh) }

/-- An area in 32 bits. -/
def boxArea (x : BoxCodes) : Nat := ((((x.r : Int) - x.l) * ((x.b : Int) - x.t)) % 2 ^ 32).toNat

/-- The cost of a pair (R235). -/
def pairCost (d t : BoxCodes) : Nat :=
  let iw := min d.r t.r - max d.l t.l
  let ih := min d.b t.b - max d.t t.t
  let inter := iw * ih
  let uni := boxArea d + boxArea t - inter
  if uni = 0 then 0xFFFF else 65535 * (uni - inter) / uni

/-- A kept detection row (R233). -/
structure Row where
  box : BoxCodes
  /-- columns 2 to 5 -/
  v : List Word
  cls : Nat
  score : Nat
  user : Word
  deriving DecidableEq, Repr

/-- A track record as the TAU holds it (R239). -/
structure Trk where
  s : List Word
  z : List Word
  id : Word
  state : Nat
  matched : Bool
  misses : Nat
  cls : Nat
  hits : Word
  birth : Word
  /-- the box it is gated against -/
  box : BoxCodes
  dirty : Bool
  born : Bool
  deriving DecidableEq, Repr

/-- A record of an uninitialised table: STATE FREE (R239). -/
def freeTrk : Trk :=
  { s := [0, 0, 0, 0], z := [0, 0, 0, 0], id := 0, state := 0, matched := false, misses := 0, cls := 0, hits := 0, birth := 0
    box := ⟨0, 0, 0, 0⟩, dirty := false, born := false }

/-- The fields of the 320 bytes of a record (R239). -/
def parseTrk (d : List Byte) : Trk :=
  let w := fun i => bytesWord d (4 * i)
  let st := bits (w 77) 2 0
  { s := [w 0, w 1, w 2, w 3], z := [w 72, w 73, w 74, w 75], id := w 76
    state := if 3 < st then 0 else st
    matched := bit (w 77) 3, misses := bits (w 77) 15 8, cls := bits (w 77) 31 16, hits := w 78, birth := w 79
    box := boxCodes (w 0) (w 1) (w 2) (w 3), dirty := false, born := false }

/-- The bytes 0x120 to 0x13F of a record (R239). -/
def trkTail (t : Trk) : List Byte :=
  wordBytes (t.z ++ [t.id, BitVec.ofNat 32 (t.state + flagBit t.matched 3 + 256 * t.misses + 65536 * t.cls), t.hits, t.birth])

/-- The bytes 0x000 to 0x11F of a newborn record (R239): `p0` is the diagonal. -/
def trkHead (t : Trk) (p0 : List Word) : List Byte :=
  wordBytes (t.s ++ [0, 0, 0, 0] ++ (List.range 64).map (fun i => if i % 9 = 0 then p0.getD (i / 9) 0 else 0))

/-- The values of a track are finite (R235). -/
def Trk.finite (t : Trk) : Bool := t.s.all (fun w => isFin (num32 w))

/-- The plan's terms of a stream (R232). -/
structure TauStream where
  stream : Nat
  classAny : Bool
  dMax : Nat
  tMax : Nat
  gate : Nat
  confirm : Nat
  maxMiss : Nat
  tracks : Nat
  deriving DecidableEq, Repr

/-- The fields of a stream record. -/
def parseTauStream (ws : List Word) : TauStream :=
  let w := fun i => wordAt ws i
  { stream := bits (w 0) 7 0, classAny := bit (w 0) 8, dMax := bits (w 0) 19 12, tMax := bits (w 0) 27 20
    gate := bits (w 1) 15 0, confirm := bits (w 1) 19 16, maxMiss := bits (w 1) 31 24, tracks := bits (w 2) 27 0 }

/-- An association plan: its diagonal, sources and streams, the first record of each (R230). -/
structure TauPlan where
  p0 : List Word
  sources : List (List Word)
  streams : List TauStream
  deriving DecidableEq, Repr

/-- Keep the first record of each stream. -/
def firstOf : List TauStream → List Nat → List TauStream
  | [], _ => []
  | t :: r, seen => if seen.contains t.stream then firstOf r seen else t :: firstOf r (t.stream :: seen)

/-- The association plan at an offset; none where it cannot be read. -/
def State.tauPlan (s : State) (off : Nat) : Option TauPlan :=
  match s.actionWords off 16 with
  | none => none
  | some h =>
    let ns := bits (wordAt h 1) 3 0
    let nt := bits (wordAt h 2) 8 0
    match s.actionWords (off + 64) (8 * (ns + nt)) with
    | none => none
    | some ws =>
      let rec_ := fun i => (ws.drop (8 * i)).take 8
      some { p0 := h.drop 8, sources := (List.range ns).map rec_
             streams := firstOf ((List.range nt).map (fun i => parseTauStream (rec_ (ns + i)))) [] }

/-- What the reading of the sources leaves (R233). -/
structure TauRead where
  st : State
  /-- manifest entries of each stream's frames, in frame index order -/
  frames : Tbl (List (List Word))
  /-- the frame that a manifest's slot holds -/
  slots : List ((Ptr × Nat) × (Nat × Nat))
  seen : List Ptr
  /-- kept rows, under stream * 2^20 + frame index -/
  rows : Tbl (List Row)

/-- The frames that a manifest's entries add: every entry whose SOURCE is not 3 (R246). -/
def addManifest (a : TauRead) (m : Ptr) (es : List (List Word)) : TauRead :=
  es.zipIdx.foldl (fun (a : TauRead) e =>
    let w := wordAt e.1 0
    if bits w 10 8 = 3 then a
    else
      let x := bits w 7 0
      let fs := mapGetD a.frames x []
      { a with frames := mapIns x (fs ++ [e.1]) a.frames, slots := a.slots ++ [((m, e.2), (x, fs.length))] }) { a with seen := m :: a.seen }

/-- One row of a source (R233). -/
def takeRow (p : TauPlan) (m : Ptr) (n : Nat) (a : TauRead) (v : List Word) : TauRead :=
  let w := fun i => wordAt v i
  if (v.take 6).all (fun x => isFin (num32 x)) = false ∨ ltNum .zero (num32 (w 4)) = false ∨ ltNum .zero (num32 (w 5)) = false then
    { a with st := a.st.tally Reg.TAU_DET_BAD }
  else
    let k := rtzInt (num32 (w 6))
    let slot := k.toNat
    match (if 0 ≤ k ∧ slot < n then (a.slots.find? (fun e => decide (e.1 = (m, slot)))).map Prod.snd else none) with
    | none => { a with st := a.st.tally Reg.TAU_DET_ORPHAN }
    | some (x, f) =>
      match p.streams.find? (fun t => t.stream == x) with
      | none => { a with st := a.st.tally Reg.TAU_DET_ORPHAN }
      | some t =>
        let rs := mapGetD a.rows (x * 2 ^ 20 + f) []
        if t.dMax ≤ rs.length then
          let s1 := a.st.tally Reg.TAU_DET_OVER
          { a with st := { s1 with ledger := { s1.ledger with clipped := (s1.ledger.clipped ++ [x]).eraseDups } } }
        else
          { a with rows := mapIns (x * 2 ^ 20 + f) (rs ++ [{
              box := boxCodes (w 2) (w 3) (w 4) (w 5), v := (v.drop 2).take 4
              cls := min (rtzInt (num32 (w 1))).toNat 65535, score := (convFloat fmtFp16 (num32 (w 0)) 0 false 0).code
              user := w 7 }]) a.rows }

/-- One source (R231, R233). -/
def takeSource (p : TauPlan) (a : TauRead) (ws : List Word) : TauRead :=
  let w := fun i => wordAt ws i
  let c := bits (w 0) 2 0
  let len := (a.st.len c (bits (w 0) 8 4) (bits (w 0) 15 12)).toNat
  let rowsMax := bits (w 0) 27 16
  let n := bits (w 5) 15 0
  let m := a.st.relocate a.st.unitOdd (ppPtr (w 3) (w 4))
  let r := a.st.read m (16 * n)
  let es := if r.status = 0 then (List.range n).map (fun i => (List.range 4).map (fun j => bytesWord r.data (16 * i + 4 * j))) else []
  let a1 := { a with st := r.st }
  let a2 := if a1.seen.contains m then a1 else addManifest a1 m es
  let a3 := if rowsMax < len then
      let s1 := a2.st.tally Reg.TAU_SRC_CLIP
      let xs := es.map (fun e => bits (wordAt e 0) 7 0)
      { a2 with st := { s1 with ledger := { s1.ledger with clipped := (s1.ledger.clipped ++ xs).eraseDups } } }
    else a2
  let k := min len rowsMax
  if k = 0 then a3
  else
    let t := a3.st.read (a3.st.relocate a3.st.unitOdd (descPtr (Fin.ofNat 8 c) (w 1))) (32 * k)
    let rows := if t.status = 0 then (List.range k).map (fun i => (List.range 8).map (fun j => bytesWord t.data (32 * i + 4 * j))) else []
    rows.foldl (fun (b : TauRead) v => takeRow p m n b v) { a3 with st := t.st }

/-- Insert a pair behind those of lower cost and before those of equal or higher cost. -/
def insPair (p : Nat × Nat × Nat) : List (Nat × Nat × Nat) → List (Nat × Nat × Nat)
  | [] => [p]
  | q :: r => if p.1 ≤ q.1 then p :: q :: r else q :: insPair p r

/-- The stable sort by cost (R236). -/
def sortPairs (ps : List (Nat × Nat × Nat)) : List (Nat × Nat × Nat) := ps.foldr insPair []

/-- The gated pairs (cost, record, detection), tracks outer, detections inner (R235, R236). -/
def gatedPairs (t : TauStream) (ts : List Trk) (rows : List Row) : List (Nat × Nat × Nat) :=
  ts.zipIdx.flatMap (fun k =>
    if k.1.state = 0 then []
    else rows.zipIdx.filterMap (fun d =>
      let c := pairCost d.1.box k.1.box
      if c ≤ t.gate ∧ (t.classAny = true ∨ d.1.cls = k.1.cls) then some (c, k.2, d.2) else none))

/-- The greedy assignment (R236): (detection, record, cost). -/
def assign : List (Nat × Nat × Nat) → List (Nat × Nat × Nat) → List (Nat × Nat × Nat)
  | [], out => out
  | (c, k, d) :: r, out =>
    if out.any (fun x => x.1 == d || x.2.1 == k) then assign r out else assign r (out ++ [(d, k, c)])

/-- A match (R237, R239). -/
def Trk.hit (k : Trk) (confirm : Nat) (r : Row) : Trk :=
  let h := BitVec.ofNat 32 (min (k.hits.toNat + 1) 0xFFFFFFFF)
  { k with
    hits := h
    state := if k.state = 1 then (if confirm ≤ h.toNat then 2 else 1) else 2
    misses := if k.state = 3 then 0 else k.misses
    matched := true, z := r.v, box := r.box, dirty := true }

/-- A miss (R237): the track, and the end reason or 0. -/
def Trk.miss (k : Trk) (maxMiss : Nat) : Trk × Nat :=
  let m := if k.state = 3 then min (k.misses + 1) 255 else 1
  let k1 := { k with matched := false, dirty := true }
  if k.state = 1 then ({ k1 with state := 0 }, 2)
  else if maxMiss < m then ({ k1 with state := 0, misses := m }, 1)
  else ({ k1 with state := 3, misses := m }, 0)

/-- A track's record in the sheet (R249). -/
def Trk.report (k : Trk) (x reason : Nat) : TrkRec :=
  { id := k.id, state := k.state, ended := reason != 0, reason := reason, stream := x, misses := k.misses
    boxL := k.box.l, boxT := k.box.t, boxR := k.box.r, boxB := k.box.b, hits := k.hits, birth := k.birth, cls := k.cls }

/-- What the association of one stream carries from frame to frame. -/
structure TauAcc where
  ts : List Trk
  next : Nat
  births : Nat
  ends : Nat
  noFree : Nat
  dets : List Det
  ended : List TrkRec
  missed : List TrkRec

/-- The local number that a birth takes and the next one (R238): 0x3F_FFFF is never issued. -/
def localNumber (n : Nat) : Nat × Nat :=
  let a := if n = 0x3FFFFF then 0 else n
  (a, if a + 1 = 0x3FFFFF then 0 else a + 1)

/-- A newborn track (R237 to R239). -/
def newTrk (id : Word) (tick : Word) (confirm : Nat) (r : Row) : Trk :=
  { s := r.v, z := r.v, id := id, state := if confirm = 1 then 2 else 1, matched := true, misses := 0, cls := r.cls, hits := 1
    birth := tick, box := r.box, dirty := true, born := true }

/-- A detection record (R248). -/
def detOf (x f : Nat) (r : Row) (flags : Nat) (track : Word) (cost : Nat) : Det :=
  { stream := x, frame := f, cls := r.cls, score := BitVec.ofNat 32 r.score, boxL := r.box.l, boxT := r.box.t, boxR := r.box.r
    boxB := r.box.b, track := track, cost := cost, flags := flags, user := r.user }

/-- Births of a frame's untaken detections, in ascending detection index (R236); `born` collects (detection, record). -/
def bearAll (t : TauStream) (node : Nat) (tick : Word) (taken : List Nat) : List (Row × Nat) → TauAcc × List (Nat × Nat) → TauAcc × List (Nat × Nat)
  | [], a => a
  | (r, d) :: rest, (a, born) =>
    if taken.contains d then bearAll t node tick taken rest (a, born)
    else
      match a.ts.findIdx? (fun k => k.state == 0) with
      | none => bearAll t node tick taken rest ({ a with noFree := a.noFree + 1 }, born)
      | some k =>
        let n := localNumber a.next
        let id := BitVec.ofNat 32 (node * 2 ^ 22 + n.1)
        bearAll t node tick taken rest
          ({ a with ts := a.ts.set k (newTrk id tick t.confirm r), next := n.2, births := a.births + 1 }, born ++ [(d, k)])

/-- The association of one frame (R235 to R237). -/
def assocFrame (t : TauStream) (node : Nat) (tick : Word) (f flags : Nat) (rows : List Row) (a : TauAcc) : TauAcc :=
  let live := (a.ts.zipIdx.filter (fun k => k.1.state != 0)).map Prod.snd
  let hits := assign (sortPairs (gatedPairs t a.ts rows)) []
  let boxes := a.ts
  let a1 := { a with ts := hits.foldl (fun ts h => ts.modify h.2.1 (fun k => k.hit t.confirm (rows.getD h.1 ⟨⟨0, 0, 0, 0⟩, [], 0, 0, 0⟩))) a.ts }
  let b := bearAll t node tick (hits.map Prod.fst) rows.zipIdx (a1, [])
  let miss := live.filter (fun k => !hits.any (fun h => h.2.1 == k))
  let a2 := miss.foldl (fun (a : TauAcc) k =>
    match a.ts[k]?, boxes[k]? with
    | some x, some old =>
      let r := x.miss t.maxMiss
      let rep := { r.1 with box := old.box }.report t.stream r.2
      if r.2 = 0 then { a with ts := a.ts.set k r.1, missed := a.missed ++ [rep] }
      else { a with ts := a.ts.set k r.1, ended := a.ended ++ [rep], ends := a.ends + 1 }
    | _, _ => a) { b.1 with missed := [] }
  let dets := rows.zipIdx.map (fun r =>
    match hits.find? (fun h => h.1 == r.2), b.2.find? (fun h => h.1 == r.2) with
    | some h, _ =>
      let k := a2.ts[h.2.1]?
      detOf t.stream f r.1 (flags + (if (k.map Trk.state).getD 0 = 1 then 512 else 0)) ((k.map Trk.id).getD 0) h.2.2
    | none, some h =>
      let k := a2.ts[h.2]?
      detOf t.stream f r.1 (flags + (if (k.map Trk.state).getD 0 = 1 then 512 else 0) + 1024) ((k.map Trk.id).getD 0) 0xFFFF
    | none, none => detOf t.stream f r.1 (flags + 2048) 0xFFFFFFFF 0xFFFF)
  { a2 with dets := a2.dets ++ dets }

/-- THINNED of the running variant's sheet plan (R251). -/
def State.thinned (s : State) (x : Nat) : Bool :=
  match (s.entriesOf s.actBank s.variant).find? (fun e => e.2.unit == 0x1F && e.2.action == 10) with
  | some e =>
    (match s.actionWords e.2.operand 16 with
     | some ws => bit (wordAt ws (6 + x / 32)) (x % 32)
     | none => false)
  | none => false

/-- The flags of a frame that its manifest entry and its stream's marks give (R247), without NOT_ASSOC. -/
def State.frameFlags (s : State) (x : Nat) (m : List Word) : Nat :=
  let w := wordAt m 0
  flagBit (bits w 10 8 == 1 || bits w 10 8 == 2 || s.ledger.gaps.contains x || s.ledger.coldTick) 0 + flagBit (bit w 11) 1 +
  flagBit (bit w 12) 2 + flagBit (bit w 13) 3 + flagBit (s.ledger.late.contains x) 4 + flagBit (s.thinned x) 5 +
  flagBit (s.ledger.clipped.contains x) 6 + flagBit (bit w 14) 7

/-- The frame is associated (R234). -/
def State.associates (s : State) (x : Nat) (m : List Word) : Bool :=
  let w := wordAt m 0
  bits w 10 8 == 0 && !bit w 11 && !s.thinned x && !s.ledger.late.contains x

/-- Record i of a stream's track table (R430). -/
def State.trackPtr (s : State) (t : TauStream) (i : Nat) : Ptr :=
  ptrAdd (s.relocate s.unitOdd { store := .common, addr := t.tracks % 2 ^ 26 }) (320 * i)

/-- The track table of a stream (R232, R239): none without association or where it cannot be read. While the record's initialised
bit is clear, STATE FREE is written into every record in place of reading it, and the bit is set. -/
def State.loadTracks (s : State) (t : TauStream) : State × Option (List Trk) :=
  if t.tMax = 0 then (s, none)
  else if s.tau.init.contains (t.stream, t.tracks, t.tMax) then
    let r := s.read (s.trackPtr t 0) (320 * t.tMax)
    (r.st, if r.status ≠ 0 then none
      else some ((List.range t.tMax).map (fun i => parseTrk ((r.data.drop (320 * i)).take 320))))
  else
    let u := (List.range t.tMax).foldl (fun (a : State) i => a.unitWrite (ptrAdd (a.trackPtr t i) 0x134) (wordBytes [0])) s
    ({ u with tau := { u.tau with init := u.tau.init ++ [(t.stream, t.tracks, t.tMax)] } }, some (List.replicate t.tMax freeTrk))

/-- The records that changed are written back (R239). -/
def State.storeTracks (s : State) (t : TauStream) (p0 : List Word) (ts : List Trk) : State :=
  ts.zipIdx.foldl (fun (a : State) k =>
    let p := a.trackPtr t k.2
    if k.1.born then (a.unitWrite p (trkHead k.1 p0)).unitWrite (ptrAdd p 0x120) (trkTail k.1)
    else if k.1.dirty then a.unitWrite (ptrAdd p 0x120) (trkTail k.1)
    else a) s

/-- Tracks that end before the stream's first frame (R235, R237): an event of the stream ends all, a value that is not finite
its own track. The tracks left, the reports, how many ended and how many were not finite. -/
def endTracks (x reason : Nat) : List Trk → List Trk × List TrkRec × Nat
  | [] => ([], [], 0)
  | k :: r =>
    let e := endTracks x reason r
    let why := if k.state = 0 then 0 else if reason ≠ 0 then reason else if k.finite then 0 else 5
    if why = 0 then (k :: e.1, e.2.1, e.2.2)
    else
      let k1 := { k with state := 0, dirty := true }
      (k1 :: e.1, k1.report x why :: e.2.1, e.2.2 + (if why = 5 then 1 else 0))

/-- The section of a stream that the TAU has not reached (R241). -/
def State.cutSection (s : State) (t : TauStream) (fs : List (List Word)) : Section :=
  let ts := (s.loadTracks t).2.getD []
  { stream := t.stream, frames := fs.map (fun m => (m, s.frameFlags t.stream m + 256)), dets := [], trks := []
    live := (ts.filter (fun k => k.state != 0)).length, ctxState := if s.sensorStream t.stream then 0 else s.ctxState t.stream
    cut := true }

/-- The frames of a stream in ascending index, up to those the TAU finishes: the flags of each frame and the accumulator. -/
def State.assocFrames (s : State) (t : TauStream) (node : Nat) (rows : Nat → List Row) (tracks : Bool) :
    List (List Word × Nat) → Option Nat → TauAcc × List Nat → TauAcc × List Nat
  | [], _, a => a
  | (m, f) :: r, left, (a, fl) =>
    let fg := s.frameFlags t.stream m
    if left = some 0 then s.assocFrames t node rows tracks r left (a, fl ++ [fg + 256])
    else
      let left1 := left.map (fun n => n - 1)
      if tracks ∧ s.associates t.stream m then
        s.assocFrames t node rows tracks r left1 (assocFrame t node s.tick f fg (rows f) a, fl ++ [fg])
      else
        s.assocFrames t node rows tracks r left1
          ({ a with dets := a.dets ++ (rows f).map (fun x => detOf t.stream f x (fg + 256) 0xFFFFFFFF 0xFFFF) }, fl ++ [fg + 256])

/-- The association of one stream (R234 to R239): `left` frames may still be finished. -/
def State.assocStream (s : State) (p : TauPlan) (d : TauRead) (left : Option Nat) (t : TauStream) : State × Option Nat :=
  let x := t.stream
  let fs := mapGetD d.frames x []
  if left = some 0 then
    ({ s with tau := { s.tau with sections := s.tau.sections ++ [s.cutSection t fs] } }, left)
  else
    let ld := s.loadTracks t
    let s1 := ld.1
    let node := bits (s1.reg Reg.SYSTEM_NODE) 9 0
    let e := endTracks x (s1.stream x).trackEnd (ld.2.getD [])
    let a0 : TauAcc := { ts := e.1, next := bits (s1.reg Reg.TAU_NEXT_LOCAL) 21 0, births := 0, ends := e.2.1.length, noFree := 0
                         dets := [], ended := e.2.1, missed := [] }
    let a := s1.assocFrames t node (fun f => mapGetD d.rows (x * 2 ^ 20 + f) []) ld.2.isSome fs.zipIdx left (a0, [])
    let s2 := s1.setStream x { s1.stream x with trackEnd := 0 }
    let s3 := ((((s2.count Reg.TAU_TRK_BIRTH a.1.births).count Reg.TAU_TRK_END a.1.ends).count Reg.TAU_NO_FREE a.1.noFree).count
      Reg.TAU_TRK_BAD e.2.2).setReg Reg.TAU_NEXT_LOCAL (BitVec.ofNat 32 a.1.next)
    let last := (match left with
      | some n => min n fs.length
      | none => fs.length) - 1
    let s4 := ((if a.1.noFree = 0 then s3 else s3.event 0x220 2).setField Reg.TAU_CURRENT 11 0 (x + 256 * (last % 16))).storeTracks t p.p0 a.1.ts
    let sec : Section := { stream := x, frames := fs.zip a.2, dets := a.1.dets, trks := a.1.ended ++ a.1.missed
                           live := (a.1.ts.filter (fun k => k.state != 0)).length
                           ctxState := if s4.sensorStream x then 0 else s4.ctxState x, cut := false }
    ({ s4 with tau := { s4.tau with sections := s4.tau.sections ++ [sec] } }, left.map (fun n => n - fs.length))

/-- The whole of an ASSOC entry (R233 to R241). -/
def State.associate (s : State) (p : TauPlan) (frames : Option Nat) : State :=
  let d := p.sources.foldl (fun (a : TauRead) w => takeSource p a w)
    { st := { s with tau := { s.tau with sections := [] } }, frames := [], slots := [], seen := [], rows := [] }
  let r := p.streams.foldl (fun (a : State × Option Nat) t => a.1.assocStream p d a.2 t) (d.st, frames)
  let s1 := r.1.setReg Reg.TAU_LIVE (BitVec.ofNat 32 ((r.1.tau.sections.map Section.live).sum % 65536))
  if r.2 = some 0 then
    ({ s1 with tau := { s1.tau with busy := true } }).setField Reg.TAU_CURRENT 12 12 1
  else s1

/-- The TAU's reads of an association plan (R230, R305). -/
def State.readTauPlan (s : State) (off : Nat) : State :=
  let t := s.actionRead off 16
  match s.actionWords off 16 with
  | none => t
  | some h => t.actionRead (off + 64) (8 * (bits (wordAt h 1) 3 0 + bits (wordAt h 2) 8 0))

/-- ASSOC_CUT (R241): the TAU has not finished. -/
def execAssocCut (s : State) : Out :=
  done (if s.tau.busy then
    (({ s with tau := { s.tau with busy := false } }.setField Reg.TAU_CURRENT 12 12 0).tally Reg.TAU_ASSOC_CUT).event 0x220 1
  else s)

/-- TAU_FLUSH (R237): the stream's tracks end at the next ASSOC entry with reason 4. -/
def execTauFlush (m : Master) (v : Word) (s : State) : Out :=
  done (s.gate m 0x220 (fun t =>
    if bit v 31 ∧ (t.stream (bits v 7 0)).trackEnd = 0 then
      t.setStream (bits v 7 0) { t.stream (bits v 7 0) with trackEnd := 4 }
    else t))

/-- NEXT_LOCAL (R255): dropped while an ASSOC entry runs, or under its lock bit. -/
def execNextLocal (m : Master) (v : Word) (s : State) : Out :=
  done (s.gate m 0x220 (fun t =>
    if t.tau.busy = true ∨ t.locked 0x220 0 = true then t.drop 0x220
    else t.setReg Reg.TAU_NEXT_LOCAL (BitVec.ofNat 32 (bits v 21 0))))

end Sys2Proof.Machine
end

