-- ==== Sys2Proof/Machine/Time.lean ====
section
/-!
DEFINITION. Network time (R335 to R347, R353, R354): local time, the rate terms, following a domain, steps, and the commands
of the time, domain and tick pages.
-/
namespace Sys2Proof.Machine

/-- round(x / d), ties toward zero (R342). -/
def roundTowardZero (x : Int) (d : Nat) : Int :=
  let q : Nat := (2 * x.natAbs + d - 1) / (2 * d)
  if x < 0 then -(q : Int) else q

/-- Clamp to [lo, hi]. -/
def clampInt (lo hi x : Int) : Int := if x < lo then lo else if hi < x then hi else x

/-- INC of a rate correction in ppb, in units of 2^-32 ns (R342). -/
def incOf (r : Int) : BitVec 36 := BitVec.ofInt 36 (2 ^ 34 + roundTowardZero (r * 2 ^ 34) 1000000000)

/-- Apply the terms F and Φ: INC and the registers that show it (R342, R353). -/
def State.setRate (s : State) (f phi : Int) : State :=
  let i := incOf (f + phi)
  let s1 := { s with tsu := { s.tsu with freq := f, phase := phi, inc := i } }
  (((s1.setReg Reg.TIME_INC_FRAC (i.setWidth 32)).setReg Reg.TIME_INC_NS (BitVec.ofNat 32 (i.toNat / 2 ^ 32))).setReg
    Reg.TIME_RATE (BitVec.ofInt 32 (f + phi))).setReg Reg.TIME_FREQ (BitVec.ofInt 32 f)

/-- B of a domain: CFG.BOUND in ppb (R342). -/
def State.boundPpb (s : State) (d : Nat) : Int := (bits (s.reg (Reg.DOMAIN_CFG d)) 25 16 : Int) * 1000

/-- The domain followed; 2 for none (R353). -/
def State.followed (s : State) : Nat := bits (s.reg Reg.TIME_FOLLOW) 1 0

/-- The domain's STATE reads LOCKED. -/
def State.domLocked (s : State) (d : Nat) : Bool := bits (s.reg (Reg.DOMAIN_STATE d)) 2 0 == 3

/-- H in whole nanoseconds, toward zero. -/
def State.residualNs (s : State) : Int := s.tsu.residual.tdiv (2 ^ 32)

/-- Set H with HAND_REM and FOLLOW[2]. -/
def State.setResidual (s : State) (h : Int) : State :=
  let s1 := { s with tsu := { s.tsu with residual := h } }
  (s1.setReg Reg.TIME_HAND_REM (BitVec.ofInt 32 (h.tdiv (2 ^ 32)))).setField Reg.TIME_FOLLOW 2 2 (if h = 0 then 0 else 1)

/-- −sign(H) × B (R344). -/
def handPhase (h b : Int) : Int := if h = 0 then 0 else if h < 0 then b else -b

/-- Follow domain d: a handover from its last OFFSET (R344). -/
def State.follow (s : State) (d : Nat) : State :=
  let h := (s.reg (Reg.DOMAIN_OFFSET d)).toInt * 2 ^ 32
  let s1 := (s.tally Reg.TIME_HANDOVER).setField Reg.TIME_FOLLOW 1 0 d
  (s1.setResidual h).setRate s.tsu.freq (handPhase h (s.boundPpb d))

/-- No domain is followed: holdover (R345). -/
def State.holdover (s : State) : State :=
  let s1 := ((s.tally Reg.TIME_HOLDOVER).event 0x500 2).setField Reg.TIME_FOLLOW 1 0 2
  (s1.setResidual 0).setRate s.tsu.freq 0

/-- Domain d has left LOCKED while it was followed: failover or holdover (R344, R345). -/
def State.loseFollowed (s : State) (d : Nat) : State :=
  if s.domLocked (1 - d) then ((s.tally Reg.TIME_FAILOVER).event 0x500 1).follow (1 - d) else s.holdover

/-- SEL. -/
def State.sel (s : State) : Nat := bits (s.reg Reg.TIME_SEL) 1 0

/-- A domain's STATE changes to a code, with what follows for the followed domain (R341, R344, R345). -/
def State.setDomState (s : State) (d code : Nat) : State :=
  let was := s.domLocked d
  let s1 := s.setField (Reg.DOMAIN_STATE d) 2 0 code
  if s1.followed = d ∧ code ≠ 3 then s1.loseFollowed d
  else if code = 3 ∧ was = false ∧ s1.sel < 2 ∧ s1.followed ≠ s1.sel ∧ s1.domLocked s1.sel = true then s1.follow s1.sel
  else s1

/-- The full local time in nanoseconds (R337). -/
def State.fullNs (s : State) : Nat := s.tsu.wraps * 2 ^ 32 + s.tsu.ns.toNat

/-- The tick period in nanoseconds. -/
def State.periodNs (s : State) : Nat := s.regN Reg.TICK_PERIOD_US * 1000

/-- The MGC sets the next tick value to the first boundary at least 1 ms ahead (R347); without a period, nothing. -/
def State.reloadTick (s : State) : State :=
  if s.periodNs = 0 then s
  else
    let ph := s.regN Reg.TICK_PHASE_NS
    let k := (s.fullNs + 1000000 - ph + s.periodNs - 1) / s.periodNs
    { s with
      tsu := { s.tsu with nextTick := BitVec.ofNat 32 (ph + k * s.periodNs) }
      ledger := { s.ledger with nextSeq := BitVec.ofNat 32 k } }

/-- A step of local time or of the phase is allowed: no bank is active, or the device is halted (R336, R347). -/
def State.stepAllowed (s : State) : Bool := !s.bankActive || s.haltStage == 2

/-- S of two CFG values: the largest BOUND of the enabled domains (R343). -/
def corrOf (a b : Word) : Nat :=
  max (if bit a 0 then bits a 25 16 else 0) (if bit b 0 then bits b 25 16 else 0)

/-- The guard of R25 for a period, horizon and S: G ≥ 50 µs and G ≥ 38.912 µs + PERIOD × (50 ppm + S). -/
def guardOk (periodUs horizon corr : Nat) : Bool :=
  decide (horizon * 1024 + 50000 ≤ periodUs * 1000) &&
  decide (38912000 + periodUs * (50 + corr) + horizon * 1024000 ≤ periodUs * 1000000)

/-- The bank, if it is ACTIVE or WEIGHED, meets R25 with S. -/
def State.bankGuardOk (s : State) (b : Bool) (corr : Nat) : Bool :=
  if s.bankState b = 2 ∨ s.bankState b = 3 then
    guardOk (bits (s.bankWord b 0x004) 17 0) (bits (s.bankWord b 0x008) 17 0) corr
  else true

/-- The fraction latched for a master (R414). -/
def State.latchFrac (s : State) : Master → State
  | .host => { s with tsu := { s.tsu with latchHost := s.tsu.frac } }
  | .mgc => { s with tsu := { s.tsu with latchMgc := s.tsu.frac } }
  | .ledger => { s with tsu := { s.tsu with latchLedger := s.tsu.frac } }

/-- TIME_NS_READ (R336, R414): the fraction is latched for the reading master, whoever owns the page. -/
def execTimeNsRead (m : Master) (s : State) : Out :=
  done (match (if m = .host then s.hostReadBlocked else none) with
    | some t => t
    | none => (s.latchFrac m).send (.readCompletion s.tsu.ns))

/-- SET_NS (R23, R336, R337): with the step the firmware takes its reference point, and the seconds that belong to it. -/
def execSetNs (m : Master) (v : Word) (s : State) : Out :=
  done (s.gate m 0x500 (fun t =>
    if t.stepAllowed then
      let u := { t with
        tsu := { t.tsu with ns := v, frac := 0, wraps := (Config.ptpWraps t.freeCtr).toNat }
        freeCtr := t.freeCtr + 1 }.tally Reg.TIME_STEP
      if u.ledger.firstNs = 0 then u.reloadTick else u
    else t.drop 0x500))

/-- PHASE takes a value (R21, R347): the next tick value follows, and with it the boundary that a requested switch waits for. -/
def State.setPhaseNs (s : State) (v : Word) : State :=
  let t := (s.setReg Reg.TICK_PHASE_NS v).reloadTick
  if s.ledger.firstNs = 0 then t
  else
    let f := s.ledger.firstNs + v.toNat - s.regN Reg.TICK_PHASE_NS
    { t with
      ledger := { t.ledger with firstNs := f, nextSeq := s.ledger.nextSeq }
      tsu := { t.tsu with nextTick := BitVec.ofNat 32 f } }

/-- PHASE_NS (R347). -/
def execPhaseNs (m : Master) (v : Word) (s : State) : Out :=
  done (s.gate m 0x010 (fun t => if t.stepAllowed then t.setPhaseNs v else t.drop 0x010))

/-- The terms F and Φ after an OFFSET write of the followed domain outside a handover, and whether Φ was clamped
(R342). -/
def rateTerms (cfg gains : Word) (interval : Int) (ratio f o b : Int) : Int × Int × Bool :=
  if bit cfg 1 = false then
    let kp : Int := bits gains 15 0
    let ki : Int := bits gains 31 16
    let phi := -((kp * o) / 256)
    (clampInt (-50000) 50000 (f + (ki * o) / 256), clampInt (-b) b phi, decide (phi < -b ∨ b < phi))
  else
    let phi := (-(o * 1000000000)).tdiv (2 ^ (interval + 30).toNat)
    (clampInt (-50000) 50000 (-ratio), clampInt (-b) b phi, decide (phi < -b ∨ b < phi))

/-- INTERVAL of a domain, signed log2 seconds. -/
def State.intervalOf (s : State) (d : Nat) : Int :=
  (BitVec.ofNat 8 (bits (s.reg (Reg.DOMAIN_INTERVAL d)) 7 0)).toInt

/-- The update of R342: during a handover F follows o − H and Φ is held (R344). -/
def State.applyOffset (s : State) (d : Nat) : State :=
  let o := (s.reg (Reg.DOMAIN_OFFSET d)).toInt - s.residualNs
  let r := rateTerms (s.reg (Reg.DOMAIN_CFG d)) (s.reg (Reg.DOMAIN_GAINS d)) (s.intervalOf d)
    (s.reg (Reg.DOMAIN_RATIO d)).toInt s.tsu.freq o (s.boundPpb d)
  if s.tsu.residual ≠ 0 then s.setRate r.1 s.tsu.phase
  else (if r.2.2 then s.tally (Reg.DOMAIN_CLAMPED d) else s).setRate r.1 r.2.1

/-- OFFSET_WRITE (R342). -/
def execOffsetWrite (m : Master) (d : Fin 2) (v : Word) (s : State) : Out :=
  done (s.gate m (pageDomain d.val) (fun t =>
    let t1 := t.setReg (Reg.DOMAIN_OFFSET d.val) v
    if t1.followed = d.val then t1.applyOffset d.val else t1))

/-- GM_CHANGE: a write of GM_ID_HI (R341). -/
def execGmChange (m : Master) (d : Fin 2) (v : Word) (s : State) : Out :=
  done (s.gate m (pageDomain d.val) (fun t =>
    let t1 := t.setReg (Reg.DOMAIN_GM_ID_HI d.val) v
    let id : BitVec 64 := BitVec.ofNat 64 (v.toNat * 2 ^ 32 + t1.regN (Reg.DOMAIN_GM_ID_LO d.val))
    let old := if d.val = 0 then t.tsu.gmA else t.tsu.gmB
    let t2 := if d.val = 0 then { t1 with tsu := { t1.tsu with gmA := id } } else { t1 with tsu := { t1.tsu with gmB := id } }
    if id = old then t2
    else
      let t3 := (t2.tally (Reg.DOMAIN_GM_CHANGE d.val)).event (pageDomain d.val) 1
      if t3.domLocked d.val then t3.setDomState d.val 2 else t3))

/-- DOMAIN_CFG (R25, R343). -/
def execDomainCfg (m : Master) (d : Fin 2) (v : Word) (s : State) : Out :=
  done (s.gate m (pageDomain d.val) (fun t =>
    if t.locked (pageDomain d.val) 0 then t.drop (pageDomain d.val)
    else
      let w := v &&& 0x03FFFF7F
      let other := t.reg (Reg.DOMAIN_CFG (1 - d.val))
      let new := corrOf w other
      let old := corrOf (t.reg (Reg.DOMAIN_CFG d.val)) other
      if old < new ∧ (t.bankGuardOk false new = false ∨ t.bankGuardOk true new = false) then t.tally Reg.TICK_GUARD_REFUSE
      else (t.setReg (Reg.DOMAIN_CFG d.val) w).setReg Reg.TICK_CORR_S (BitVec.ofNat 32 new)))

/-- DOMAIN_STATE_WRITE (R341, R344, R345). -/
def execDomainStateWrite (m : Master) (d : Fin 2) (v : Word) (s : State) : Out :=
  done (s.gate m (pageDomain d.val) (fun t => t.setDomState d.val (bits v 2 0)))

/-- SEL (R344): the domain it names is followed if it is LOCKED; with 2 none is. -/
def execSel (m : Master) (v : Word) (s : State) : Out :=
  done (s.gate m 0x500 (fun t =>
    let t1 := t.setReg Reg.TIME_SEL (v &&& 3)
    if t1.sel < 2 ∧ t1.followed ≠ t1.sel ∧ t1.domLocked t1.sel = true then t1.follow t1.sel
    else if 2 ≤ t1.sel ∧ t1.followed < 2 then t1.holdover
    else t1))

/-- HANDOVER_END (R344): H is 0; the new domain's servo or slew takes over, Φ 0 until its next OFFSET. -/
def execHandoverEnd (s : State) : Out :=
  done (if s.tsu.residual = 0 then s else (s.setResidual 0).setRate s.tsu.freq 0)

/-- The ingress and the egress correction of a port's mode and rate in 1/256 ns (R338), each to the nearest (DESIGN CHOICE,
notes/assumptions/95.md); without a rate, none. -/
def stampCorrections (usx : Bool) (rate : Nat) : Int × Int :=
  if usx = false then (13107, 9830)
  else
    match rate with
    | 1 => (124928, 93389)
    | 2 => (51200, 38093)
    | 3 => (26624, 19661)
    | 4 => (14336, 10650)
    | _ => (0, 0)

/-- The corrections of port p's MODE and LINK rate (R338, R355). -/
def State.portCorrections (s : State) (p : Nat) : Int × Int :=
  stampCorrections (bit (s.reg (Reg.EP_MODE p)) 0) (bits (s.reg (Reg.EP_LINK p)) 3 1)

/-- ADJ_RX or ADJ_TX in 1/256 ns: 16 signed bits of 1/16 ns (R355). -/
def adjOf (w : Word) : Int := (w.setWidth 16).toInt * 16

/-- A stamp moved by x/256 ns: 32 bits of nanoseconds and 8 of fraction, modulo 2^40. -/
def moveStamp (ns : Word) (frac : Byte) (x : Int) : Word × Byte :=
  let v : BitVec 40 := (ns ++ frac) + BitVec.ofInt 40 x
  (v.extractLsb' 8 32, v.extractLsb' 0 8)

/-- The ingress stamp of a frame from the captured local time (R338). -/
def State.ingressStamp (s : State) (p : Nat) (ns : Word) (frac : Byte) : Word × Byte :=
  moveStamp ns frac (-((s.portCorrections p).1 + adjOf (s.reg (Reg.EP_ADJ_RX p))))

/-- The egress stamp of a frame from the captured local time (R338). -/
def State.egressStamp (s : State) (p : Nat) (ns : Word) (frac : Byte) : Word × Byte :=
  moveStamp ns frac ((s.portCorrections p).2 + adjOf (s.reg (Reg.EP_ADJ_TX p)))

/-- The port that serves a domain (R354). -/
def State.domainPort (s : State) (d : Nat) : Nat := bits (s.reg (Reg.DOMAIN_CFG d)) 6 6

/-- PTP_EVENT_TX (R338, R339): the egress stamp, made from the captured local time at the domain's port, reaches the domain
page. -/
def execPtpEventTx (d : Fin 2) (seqId : BitVec 16) (msgType : BitVec 4) (stamp : Word) (frac : Byte) (s : State) : Out :=
  let k := Reg.DOMAIN_TX_STAMP_INFO d.val
  let s1 := if bit (s.reg k) 31 then s.tally (Reg.DOMAIN_TX_STAMP_LOST d.val) else s
  let e := s.egressStamp (s.domainPort d.val) stamp frac
  done ((s1.setReg (Reg.DOMAIN_TX_STAMP_NS d.val) e.1).setReg k
    (BitVec.ofNat 32 (2 ^ 31 + e.2.toNat * 2 ^ 20 + msgType.toNat * 2 ^ 16 + seqId.toNat)))

/-- TX_STAMP_READ (R339, R414): the owner's read clears the valid bit. -/
def execTxStampRead (m : Master) (d : Fin 2) (s : State) : Out :=
  let k := Reg.DOMAIN_TX_STAMP_INFO d.val
  done (s.readGate m (pageDomain d.val) (s.reg k) (fun t => t.setField k 31 31 0))

/-- Local time after one TCLK edge (R335): INC is added to the pair of counts. -/
def tsuEdge (t : Tsu) : Tsu :=
  let x := t.ns.toNat * 2 ^ 32 + t.frac.toNat + t.inc.toNat
  { t with
    ns := BitVec.ofNat 32 (x / 2 ^ 32)
    frac := BitVec.ofNat 32 x
    wraps := t.wraps + x / 2 ^ 64 }

/-- H after one TCLK edge (R344): toward 0 by the share of INC that Φ contributes. -/
def residualEdge (h phi : Int) : Int :=
  let share := (roundTowardZero (phi * 2 ^ 34) 1000000000).natAbs
  if h.natAbs ≤ share then 0 else if h < 0 then h + share else h - share

/-- A TCLK edge of the TSU: local time, and the handover residual. "When the remainder of H is smaller than that share, only
the remainder is applied": the rest of the share is given back to local time. -/
def State.tsuTick (s : State) : State :=
  if s.tsu.running = false then s
  else
    let h := s.tsu.residual
    let s1 := { s with tsu := tsuEdge s.tsu }
    if h = 0 then s1
    else
      let h1 := residualEdge h s.tsu.phase
      if h1 = 0 then
        let share := roundTowardZero (s.tsu.phase * 2 ^ 34) 1000000000
        let x := BitVec.ofInt 96 ((s1.tsu.wraps * 2 ^ 64 + s1.tsu.ns.toNat * 2 ^ 32 + s1.tsu.frac.toNat : Nat) - share - h)
        let s2 := { s1 with tsu := { s1.tsu with
          ns := BitVec.ofNat 32 (x.toNat / 2 ^ 32), frac := BitVec.ofNat 32 x.toNat, wraps := x.toNat / 2 ^ 64 } }
        (s2.setResidual 0).setRate s.tsu.freq 0
      else s1.setResidual h1

end Sys2Proof.Machine
end

