-- ==== Sys2Proof/Machine/Sheet.lean ====
section
/-!
DEFINITION. Tally sheets (R15, R242 to R256): the telemetry snapshot, the bytes of a sheet, holdback and delivery.
-/
namespace Sys2Proof.Machine

/-- A key is a tally's (R6): 0xE00 to 0xEFF, and DROP_TALLY. -/
def isTally (k : Nat) : Bool := (decide (0xE00 ≤ keyOff k) && decide (keyOff k ≤ 0xEFF)) || keyOff k == 0x024

/-- SUM of a cluster page (R250): 1 MX, 2 cluster control, 3 VX, 4 PXE, 5 WU; 0 for the scratchpad's. -/
def pageSum (p : Nat) : Nat :=
  let k := p % 16
  if k = 0 then 2 else if k ≤ 8 then 1 else if k = 9 then 3 else if k = 10 then 4 else if k = 11 then 5 else 0

/-- Page and SUM under which a tally of a page is reported; none for a cluster in no stall. -/
def State.reportAs (s : State) (p : Nat) : Option (Nat × Nat) :=
  if 0x100 ≤ p ∧ p < 0x180 ∧ pageSum p ≠ 0 then
    match s.clusterStall ((p - 0x100) / 16) with
    | some st => some (pageStall st, pageSum p)
    | none => none
  else some (p, 0)

/-- Add a tally's increase to the records, under page * 2^16 + SUM * 2^12 + offset: increase and SAT. -/
def State.addRecord (s : State) (t : Tbl (Nat × Bool)) (e : Nat × Word) : Tbl (Nat × Bool) :=
  let p := keyPage e.1
  let o := keyOff e.1
  if isTally e.1 = false ∨ keyBank e.1 ≠ s.bankOf p o then t
  else
    let old := (mapGetD s.sheet.snapshot e.1 0).toNat
    let now := e.2.toNat
    let inc := if now < old then now else now - old
    match s.reportAs p with
    | none => t
    | some (q, sum) =>
      if inc = 0 then t
      else
        let k := q * 2 ^ 16 + sum * 2 ^ 12 + o
        let x := mapGetD t k (0, false)
        mapIns k (x.1 + inc, x.2 || now == 0xFFFFFFFF) t

/-- The telemetry records in ascending page, SUM and offset (R250). -/
def State.teleRecords (s : State) : List (Word × Word) :=
  (s.regs.foldl (fun t e => s.addRecord t e) []).map (fun e =>
    (BitVec.ofNat 32 (e.1 / 2 ^ 16 + e.1 % 2 ^ 12 * 2 ^ 12 + e.1 / 2 ^ 12 % 16 * 2 ^ 24 + flagBit e.2.2 31),
     BitVec.ofNat 32 (min e.2.1 0xFFFFFFFF)))

/-- Two bits for each of eight units. -/
def packTwo (f : Nat → Nat) : Nat := ((List.range 8).map (fun i => f i % 4 * 4 ^ i)).sum

/-- The 128 fixed bytes of the telemetry (R250). -/
def State.teleFixed (s : State) (ageing : List (BitVec 16)) : List Byte :=
  (wordBytes ((List.range 8).map (fun w => s.reg (Reg.THERMAL_TEMP0 + 4 * w)) ++
    [BitVec.ofNat 32 (packTwo (fun c => (s.cluster c).clampHigh.toNat) + 65536 * packTwo s.chanState),
     s.reg Reg.THERMAL_PWR_EST,
     BitVec.ofNat 32 (packTwo (fun n => bits (s.reg (Reg.STALL_STATE n)) 1 0))]) ++
   (List.range 32).flatMap (fun i => leBytes 2 (ageing.getD i 0).toNat)) ++
  wordBytes [s.reg (Reg.DOMAIN_OFFSET 0), s.reg (Reg.DOMAIN_OFFSET 1), s.reg Reg.TIME_RATE, 0, 0]

/-- TELEMETRY_SNAPSHOT (R250): the highest clamp levels count anew from the levels in force. -/
def State.takeSnapshot (s : State) (ageing : List (BitVec 16)) : State :=
  let s1 := { s with sheet := { s.sheet with
    fixed := s.teleFixed ageing, records := s.teleRecords, snapshot := s.regs.filter (fun e => isTally e.1) } }
  (List.range 8).foldl (fun (a : State) c => a.setCluster c { a.cluster c with
    clampHigh := BitVec.ofNat 2 (bits (s.reg Reg.THERMAL_CLAMP) (2 * c + 1) (2 * c)) }) s1

/-- A sheet plan (R251). -/
structure SheetPlan where
  maxBytes : Nat
  hold : Ptr
  perTick : Nat
  teleRecs : Nat
  deriving DecidableEq, Repr

/-- The sheet plan at an offset; none where it cannot be read. -/
def State.sheetPlan (s : State) (off : Nat) : Option SheetPlan :=
  (s.actionWords off 16).map (fun ws =>
    { maxBytes := (wordAt ws 1).toNat, hold := { store := .common, addr := bits (wordAt ws 2) 25 0 }
      perTick := bits (wordAt ws 3) 4 0, teleRecs := bits (wordAt ws 4) 12 0 })

/-- Insert a section in ascending stream number. -/
def insSection (x : Section) : List Section → List Section
  | [] => [x]
  | y :: r => if x.stream ≤ y.stream then x :: y :: r else y :: insSection x r

/-- A detection record's bytes (R248). -/
def detBytes (d : Det) : List Byte :=
  wordBytes [BitVec.ofNat 32 (d.stream + 256 * d.frame + 65536 * d.cls), BitVec.ofNat 32 (d.score.toNat % 65536 + 65536 * d.flags),
    BitVec.ofNat 32 (d.boxL + 65536 * d.boxT), BitVec.ofNat 32 (d.boxR + 65536 * d.boxB), d.track,
    BitVec.ofNat 32 (d.cost % 65536), d.user, 0]

/-- A track record's bytes (R249). -/
def trkBytes (t : TrkRec) : List Byte :=
  wordBytes [t.id, BitVec.ofNat 32 (t.state + flagBit t.ended 3 + 16 * t.reason + 256 * t.stream + 65536 * t.misses),
    BitVec.ofNat 32 (t.boxL + 65536 * t.boxT), BitVec.ofNat 32 (t.boxR + 65536 * t.boxB), t.hits, t.birth,
    BitVec.ofNat 32 t.cls, 0]

/-- A frame record's bytes (R246). -/
def frameBytes (ix : Nat) (f : List Word × Nat) : List Byte :=
  wordBytes ([(wordAt f.1 0 &&& 0xFFFFFF00) ||| BitVec.ofNat 32 (ix % 256), wordAt f.1 1, wordAt f.1 2, wordAt f.1 3,
    BitVec.ofNat 32 f.2, 0, 0, 0])

/-- A section's bytes with room for `left` detection and track records, and how many it used (R246, R252). -/
def sectionBytes (x : Section) (left : Nat) : List Byte × Nat :=
  let ds := x.dets.take left
  let ts := x.trks.take (left - ds.length)
  let omitted := x.dets.length + x.trks.length - ds.length - ts.length
  (wordBytes [BitVec.ofNat 32 (x.stream + 256 * x.frames.length + 65536 * ds.length),
      BitVec.ofNat 32 (ts.length + 65536 * (if x.cut then 0xFFFF else min omitted 0xFFFE)),
      BitVec.ofNat 32 (x.live % 65536 + 65536 * x.ctxState),
      BitVec.ofNat 32 (x.frames.foldl (fun a f => a ||| f.2) 0), 0, 0, 0, 0] ++
    x.frames.zipIdx.flatMap (fun f => frameBytes f.2 f.1) ++ ds.flatMap detBytes ++ ts.flatMap trkBytes,
   ds.length + ts.length)

/-- The sections from offset `off` on with `left` records of room: their bytes and the directory's entries. -/
def laySections : List Section → Nat → Nat → List Byte × List (Nat × Nat)
  | [], _, _ => ([], [])
  | x :: r, off, left =>
    let b := sectionBytes x left
    let full := x.dets.length + x.trks.length
    let rest := laySections r (off + b.1.length) (if b.2 < full then 0 else left - b.2)
    (b.1 ++ rest.1, (x.stream, off) :: rest.2)

/-- The bytes that are always written (R252). -/
def fixedSize (xs : List Section) (tele : Nat) : Nat :=
  0x500 + (xs.map (fun x => 32 + 32 * x.frames.length)).sum + 128 + 8 * tele

/-- Replace the word at an offset of bytes. -/
def putWord (d : List Byte) (off : Nat) (w : Word) : List Byte := d.take off ++ leBytes 4 w.toNat ++ d.drop (off + 4)

/-- The bytes of the tick's sheet, SEQ and HELD_DROPPED still 0 (R243 to R252), and whether records were left out. -/
def State.buildSheet (s : State) (p : SheetPlan) : List Byte × Bool :=
  let xs := s.tau.sections.foldr insSection []
  let tele := s.sheet.records.take p.teleRecs
  let limit := min p.maxBytes (2 ^ bits (s.effReg Reg.SHEET_RING_CFG) 12 8)
  let room := (limit - fixedSize xs tele.length) / 32
  let secs := laySections xs 0x500 room
  let all_ := (xs.map (fun x => x.dets.length + x.trks.length)).sum
  let trunc := decide (room < all_)
  let dir := wordBytes ((List.range 256).map (fun x => BitVec.ofNat 32 (((secs.2.find? (fun e => e.1 == x)).map Prod.snd).getD 0)))
  let teleOff := 0x500 + secs.1.length
  let fixed := if s.sheet.fixed = [] then List.replicate 128 0 else s.sheet.fixed
  let full := s.ledger.boundaryWraps * 2 ^ 32 + s.ledger.boundaryNs.toNat
  let sec := full / 1000000000
  let flags := flagBit trunc 0 + flagBit s.ledger.coldTick 2 + 8 * s.variant + flagBit s.actBank 5 + 65536 * s.ledger.lateEclk.toNat
  let header := wordBytes [0, s.tick, s.tick - 1, BitVec.ofNat 32 sec,
    BitVec.ofNat 32 (sec / 2 ^ 32 % 65536 + flagBit (s.ledger.boundaryFollow == 1) 16 + flagBit (s.ledger.boundaryFollow == 2) 17),
    BitVec.ofNat 32 (full % 1000000000), s.ledger.boundaryNs, BitVec.ofNat 32 flags,
    s.reg (if s.actBank then Reg.LOADER_BUNDLE_ID_B else Reg.LOADER_BUNDLE_ID_A),
    BitVec.ofNat 32 (bits (s.reg Reg.SYSTEM_NODE) 9 0), BitVec.ofNat 32 (teleOff + 128 + 8 * tele.length),
    BitVec.ofNat 32 xs.length, BitVec.ofNat 32 teleOff, BitVec.ofNat 32 tele.length, 0,
    BitVec.ofNat 32 (s.sheet.records.length - tele.length)]
  (header ++ List.replicate 0xC0 0 ++ dir ++ secs.1 ++ fixed ++ tele.flatMap (fun r => wordBytes [r.1, r.2]), trunc)

/-- The host address of the ring slot of the next sheet (R242). -/
def State.slotAddr (s : State) : Nat :=
  let cfg := s.effReg Reg.SHEET_RING_CFG
  hostAddr (s.effReg Reg.SHEET_RING_BASE_LO) (s.effReg Reg.SHEET_RING_BASE_HI) +
    (s.reg Reg.SHEET_SEQ).toNat % 2 ^ bits cfg 3 0 * 2 ^ bits cfg 12 8

/-- A sheet's bytes as its delivery writes them: SEQ, HELD_DROPPED and HELD filled in (R243, R253). -/
def State.sealSheet (s : State) (d : List Byte) (held : Bool) : List Byte :=
  let d1 := putWord (putWord d 0 (s.reg Reg.SHEET_SEQ)) 0x38 (BitVec.ofNat 32 s.sheet.dropped)
  if held then putWord d1 0x1C (bytesWord d1 0x1C ||| 2) else d1

/-- A sheet is delivered to its slot of the ring (R242, R243, R253): bytes 0x000 to 0x03F last. -/
def State.deliver (s : State) (d : List Byte) (held : Bool) : State :=
  let a := s.slotAddr
  let d2 := s.sealSheet d held
  let s1 := (((s.post (a + 0x40) (d2.drop 0x40)).post a (d2.take 0x40)).tally Reg.SHEET_SHEET_DONE).setReg
    Reg.SHEET_SEQ (s.reg Reg.SHEET_SEQ + 1)
  { s1 with sheet := { s1.sheet with dropped := 0 } }

/-- A delivery that containment stops (R253): the first n bytes behind the header have gone out; SEQ stays. -/
def State.stopDelivery (s : State) (d : List Byte) (held : Bool) (n : Nat) : State :=
  if n = 0 then s else s.post (s.slotAddr + 0x40) (((s.sealSheet d held).drop 0x40).take n)

/-- HELD shows the sheets in the holdback (R256). -/
def State.showHeld (s : State) : State := s.setReg Reg.SHEET_HELD (BitVec.ofNat 32 s.sheet.held.length)

/-- The bytes of a sheet area as the host DMA reads them. -/
def State.readSheet (s : State) (p : Ptr) (n : Nat) : State × List Byte :=
  let r := s.read p n
  (r.st, r.data)

/-- Deliver up to n held sheets, oldest first (R253). -/
def State.deliverHeld (s : State) : Nat → State
  | 0 => s
  | n + 1 =>
    match s.sheet.held with
    | [] => s
    | h :: r =>
      let d := s.readSheet h.at_ h.size
      ({ d.1 with sheet := { d.1.sheet with held := r } }.deliver d.2 true).deliverHeld n

/-- The lowest holdback area that no held sheet occupies (R251). -/
def State.freeArea (s : State) : Nat :=
  ((List.range 17).find? (fun i => !s.sheet.held.any (fun h => h.area == i))).getD 0

/-- Where the tick's sheet is assembled (R251, R430). -/
def State.assembly (s : State) (p : SheetPlan) : Ptr := ptrAdd (s.relocate s.unitOdd p.hold) (s.freeArea * p.maxBytes)

/-- An assembled sheet stays in the holdback (R253): the 17th drops the oldest. -/
def State.holdSheet (s : State) (area : Nat) (at_ : Ptr) (size : Nat) : State :=
  let full := decide (16 ≤ s.sheet.held.length)
  let s1 := if full then
      { ((s.tally Reg.SHEET_HOLDBACK_DROP).event 0x221 1) with
        sheet := { s.sheet with held := s.sheet.held.drop 1, dropped := s.sheet.dropped + 1 } }
    else s
  { (s1.tally Reg.SHEET_SHEET_HELD) with
    sheet := { s1.sheet with held := s1.sheet.held ++ [{ tick := s.tick, area := area, at_ := at_, size := size }] } }

/-- The deliveries of a SHEET entry up to the one that containment stops (R15, R253): `k` complete first, `n` bytes of the next
go out. The stopped sheet and every later one stays in the holdback. -/
def State.stopSheets (s : State) (perTick area : Nat) (at_ : Ptr) (size k n : Nat) : State :=
  let h := min perTick s.sheet.held.length
  let t := s.deliverHeld (min k h)
  (match (if k < h then t.sheet.held.head? else none) with
   | some x =>
     let d := t.readSheet x.at_ x.size
     d.1.stopDelivery d.2 true n
   | none =>
     let d := t.readSheet at_ size
     d.1.stopDelivery d.2 false n).holdSheet area at_ size

/-- The sheet plan of the running variant's SHEET entry. -/
def State.variantSheet (s : State) : Option SheetPlan :=
  match (s.entriesOf s.actBank s.variant).find? (fun e => e.2.unit == 0x1F && e.2.action == 10) with
  | some e => s.sheetPlan e.2.operand
  | none => none

/-- The TAU writes the sections into the assembly area (R243, R251). -/
def State.writeSections (s : State) : State :=
  match s.variantSheet with
  | none => s
  | some p =>
    let d := (s.buildSheet p).1
    s.unitWrite (ptrAdd (s.assembly p) 0x500) ((d.take (bytesWord d 0x30).toNat).drop 0x500)

/-- ASSOC_ENTRY (R233, R251). -/
def execAssocEntry (i : EntryIx) (frames : Option (BitVec 16)) (s : State) : Out :=
  done (match s.entryFor i.val 0x1E 0x1E 6 with
    | none => s
    | some e =>
      let t := s.readTauPlan e.operand
      match s.tauPlan e.operand with
      | none => t
      | some p => (t.associate p (frames.map BitVec.toNat)).writeSections)

/-- The SHEET entry adds header, directory and telemetry to the sections in the assembly area (R251). -/
def State.finishSheet (s : State) (at_ : Ptr) (d : List Byte) : State :=
  let n := (bytesWord d 0x30).toNat
  (s.unitWrite at_ (d.take 0x500)).unitWrite (ptrAdd at_ n) (d.drop n)

/-- SHEET_ENTRY (R15, R251 to R253): held sheets, then the tick's, then the tick interrupt; where the endpoint issues no request
the sheet stays in the holdback. `stop`: containment begins during a delivery. -/
def execSheetEntry (i : EntryIx) (stop : Option (Fin 17 × BitVec 24)) (s : State) : Out :=
  done (match s.entryFor i.val 0x1F 0x1F 10 with
    | none => s
    | some e =>
      let t := s.actionRead e.operand 16
      match s.sheetPlan e.operand with
      | none => t
      | some p =>
        let b := t.buildSheet p
        let area := t.freeArea
        let at_ := t.assembly p
        let s1 := t.finishSheet at_ b.1
        let s2 := if b.2 then s1.tally Reg.SHEET_SHEET_TRUNC else s1
        (if s2.mayIssue = false then s2.holdSheet area at_ b.1.length
         else
          match stop with
          | none =>
            let d := (s2.deliverHeld p.perTick).readSheet at_ b.1.length
            (d.1.deliver d.2 false).pulse
          | some (k, n) => s2.stopSheets p.perTick area at_ b.1.length k.val n.toNat).showHeld)

/-- RING_CFG (R242, R256): a value outside its ranges is dropped. -/
def execRingCfg (m : Master) (v : Word) (s : State) : Out :=
  done (s.gate m 0x221 (fun t =>
    let n := bits v 3 0
    let h := bits v 12 8
    if n < 5 ∨ 10 < n ∨ h < 16 ∨ 24 < h then t.drop 0x221
    else t.setReg Reg.SHEET_RING_CFG (BitVec.ofNat 32 (n + 256 * h))))

end Sys2Proof.Machine
end

