-- ==== Sys2Proof/Machine/Encoder.lean ====
section
/-!
DEFINITION. The encoders and their sessions (R257 to R272): starting and ending a session, pictures and their rate control,
staged records and their delivery. The coded bytes themselves are the codec standards' and come with the commands.
-/
namespace Sys2Proof.Machine

/-- The registers of a session's description, in the order of a commit. -/
def State.sessRegs (s : State) (n : Nat) : List Word :=
  [s.reg (Reg.EVIDENCE_SESS_CTL n), s.reg (Reg.EVIDENCE_SESS_QUAL n), s.reg (Reg.EVIDENCE_SESS_CAP n),
   s.reg (Reg.EVIDENCE_SESS_GIR n), s.reg (Reg.EVIDENCE_SESS_CROP_XY n), s.reg (Reg.EVIDENCE_SESS_CROP_WH n),
   s.reg (Reg.EVIDENCE_SESS_RING_LO n), s.reg (Reg.EVIDENCE_SESS_RING_HI n), s.reg (Reg.EVIDENCE_SESS_RING_LOG2 n)]

/-- PICS, QI, JQ, DQ_STEP, CAP, WIN and N of a session's description (R272). -/
def cfgPics (c : List Word) : Nat := bits (wordAt c 0) 31 16
/-- QI. -/
def cfgQi (c : List Word) : Nat := bits (wordAt c 1) 5 0
/-- JQ. -/
def cfgJq (c : List Word) : Nat := bits (wordAt c 1) 14 8
/-- DQ_STEP. -/
def cfgDq (c : List Word) : Nat := bits (wordAt c 1) 18 16
/-- CAP. -/
def cfgCap (c : List Word) : Nat := (wordAt c 2).toNat
/-- WIN. -/
def cfgWin (c : List Word) : Nat := bits (wordAt c 3) 6 0
/-- N. -/
def cfgN (c : List Word) : Nat := bits (wordAt c 3) 16 8
/-- KIND: 0 HEVC clip, 1 H.264 clip, 2 JPEG snapshot. -/
def cfgKind (c : List Word) : Nat := bits (wordAt c 0) 2 1

/-- A field of the description is outside its range (reason 4 of R259). -/
def cfgBad (c : List Word) : Bool :=
  decide (51 < cfgQi c) || decide (cfgJq c = 0) || decide (100 < cfgJq c) || decide (cfgDq c = 0) ||
  decide (6 < cfgDq c) || decide (cfgWin c = 0) || decide (64 < cfgWin c) || decide (cfgN c < 8) || decide (256 < cfgN c) ||
  decide (bits (wordAt c 8) 4 0 < 16) || decide (26 < bits (wordAt c 8) 4 0)

/-- The data type of the sensor input that names a stream. -/
def State.sensorType (s : State) (x : Nat) : Option (Nat × Nat) :=
  ((List.range 16).find? (fun n => bit (s.effReg (Reg.ALIGN_IN_CTL n)) 0 && bits (s.effReg (Reg.ALIGN_IN_CTL n)) 23 16 == x)).map
    (fun n => (bits (s.effReg (Reg.ALIGN_IN_CTL n)) 10 5, (s.effReg (Reg.ALIGN_IN_SIZE n)).toNat))

/-- A size that a session would code exceeds the plan or the limits of R257 (R259). -/
def codedTooBig (p : SessPlan) (snap : Bool) (w h : Nat) : Bool :=
  let least := if snap then 16 else 64
  decide (min p.maxW 3840 < w) || decide (min p.maxH 2160 < h) || decide (w < least) || decide (h < least) ||
  decide (w % 2 ≠ 0) || decide (h % 2 ≠ 0)

/-- The size of the pictures that a clip of a stream would code: of a sensor's frames, or of the crop window of the stream's last
picture where its parameter sets are still those; none before a picture has come. -/
def State.clipSize (s : State) (x : Nat) : Option (Nat × Nat) :=
  match s.sensorType x, (s.stream x).lastOut with
  | some (_, z), _ => some (z % 65536, z / 65536)
  | none, some p =>
    if (s.reg (Reg.INTAKE_PARAM_SIZE x)).toNat = p.width + 65536 * p.height then some (p.cropW, p.cropH) else none
  | none, none => none

/-- The sizes a session would code exceed the plan or the limits of R257 (reason 3 of R259). A stream whose pictures have no size
yet exceeds nothing: its first picture is held against the limits. -/
def State.sessTooBig (s : State) (p : SessPlan) (c : List Word) : Bool :=
  if cfgKind c = 2 then codedTooBig p true (bits (wordAt c 5) 15 0) (bits (wordAt c 5) 31 16)
  else
    match s.clipSize (bits (wordAt c 0) 15 8) with
    | some (w, h) => codedTooBig p false w h
    | none => false

/-- The reason for which a session is refused (R259); 0 none. -/
def State.sessReason (s : State) (n : Nat) (c : List Word) : Nat :=
  let x := bits (wordAt c 0) 15 8
  match s.sessPlan n with
  | none => 1
  | some p =>
    if (cfgKind c < 2 ∧ p.clipOk = false) ∨ (cfgKind c = 2 ∧ p.jpegOk = false) ∨ cfgKind c = 3 then 1
    else if (match s.sensorType x with
        | some (dt, _) => dt != 0x1E
        | none => !s.streamOn x) then 2
    else if s.sessTooBig p c then 3
    else if cfgBad c then 4
    else 0

/-- Show a session's state and refusal reason (R272). -/
def State.showSess (s : State) (n st reason : Nat) : State :=
  s.setReg (Reg.EVIDENCE_SESS_STATE n) (BitVec.ofNat 32 (st + 16 * reason))

/-- The bytes of a record's header (R268). -/
def recHeader (n : Nat) (x : Session) (flags len : Nat) (time frame tick : Word) (q0 q1 reason : Nat) : List Byte :=
  wordBytes [BitVec.ofNat 32 x.seq,
    BitVec.ofNat 32 (n + 16 * bits (wordAt x.cfg 0) 15 8 + 4096 * cfgKind x.cfg + 65536 * flags),
    BitVec.ofNat 32 len, time, frame, tick, BitVec.ofNat 32 (q0 + 256 * q1 + 65536 * reason), 0]

/-- A session's staging area as the encoders and the host DMA address it (R430). -/
def State.stageAt (s : State) (p : SessPlan) : Ptr := s.relocate s.unitOdd p.stage

/-- Write bytes into a circular staging area. -/
def State.stageWrite (s : State) (p : SessPlan) (pos : Nat) (d : List Byte) : State × Bool :=
  let n := p.stageLen - pos
  let a := s.unitWriteOk (ptrAdd (s.stageAt p) pos) (d.take n)
  if n < d.length then
    let b := a.1.unitWriteOk (s.stageAt p) (d.drop n)
    (b.1, a.2 && b.2)
  else a

/-- Bytes staged of a session. -/
def stagedBytes (x : Session) : Nat := (x.staged.map Prod.snd).sum

/-- A record goes to its session's staging area (R268, R269): one that does not fit, or whose area cannot be written, is
dropped and ends the segment. The state, and whether it was staged. -/
def State.stageRecord (s : State) (n : Nat) (d : List Byte) : State × Bool :=
  match s.sessPlan n with
  | none => (s, false)
  | some p =>
    let x := s.session n
    let size := (d.length + 63) / 64 * 64
    let lose := fun (t : State) => t.setSession n { t.session n with lost := true, sinceIdr := 0 }
    if p.stageLen < stagedBytes x + size then (lose ((s.tally Reg.EVIDENCE_STAGE_FULL).event 0x204 2), false)
    else
      let w := s.stageWrite p x.stagePos (d ++ List.replicate (size - d.length) 0)
      if w.2 = false then (lose w.1, false)
      else
        (w.1.setSession n { x with
          staged := x.staged ++ [(x.stagePos, size)], stagePos := (x.stagePos + size) % p.stageLen, seq := x.seq + 1
          gap := false, lost := false }, true)

/-- A session ends (R259, R270): an END record without a picture says why; its references go at the boundary. -/
def State.endSession (s : State) (n reason : Nat) : State :=
  let x := s.session n
  let a := s.free
  let b := a.2.free
  let c := b.2.free
  let flags := flagBit x.gap 5 + flagBit x.lost 9 + 1024
  let r := c.2.stageRecord n (recHeader n x flags 0 a.1 b.1 s.tick (bits c.1 5 0) (bits c.1 13 8) reason)
  (r.1.setSession n { r.1.session n with running := false, sources := [] }).showSess n 0 0

/-- The owner ENC of a picture is released (R260): the state, and whether the BPM made the release. -/
def State.releaseEnc (s : State) (q : Nat) (p : PicRec) : State × Bool :=
  match p.buf with
  | some b => if p.concealed then (s, true) else s.bpmRelease q b 4
  | none => (s, true)

/-- A session's waiting pictures are let go. -/
def State.dropSources (s : State) (n : Nat) : State :=
  let x := s.session n
  (x.sources.foldl (fun (a : State) p => (a.releaseEnc 8 p).1) s).setSession n { x with sources := [] }

/-- The references of sessions that have ended are released at the boundary (R265). -/
def State.dropEnded (s : State) (n : Nat) : State :=
  let x := s.session n
  match x.running, x.ref with
  | false, some b => (s.bpmRelease 8 b 5).1.setSession n { x with ref := none }
  | _, _ => s

/-- A session starts, ends or is refused at the Latch step (R258, R259, R265). -/
def State.latchSession (s : State) (n : Nat) : State :=
  match (s.session n).commit with
  | none => s
  | some c =>
    let s1 := if (s.session n).running then ((s.dropSources n).endSession n 2).dropEnded n else s
    let s2 := s1.setSession n { s1.session n with commit := none }
    if bit (wordAt c 0) 0 = false then s2.showSess n 0 0
    else
      let r := s2.sessReason n c
      if r = 0 then
        (s2.setSession n { s2.session n with
          running := true, cfg := c, seq := 0, coded := 0, sinceIdr := 0, bits := [], gap := false, lost := false, ringPos := 0
          lastSeq := 0, sources := [], width := 0, height := 0 }).showSess n 2 0
      else
        let s3 := if r = 2 then s2.tally Reg.EVIDENCE_NO_SOURCE else s2
        (((s3.tally Reg.EVIDENCE_REQ_REFUSED).event 0x204 1)).showSess n 4 r

/-- SESS_COMMIT (R258). -/
def execSessCommit (m : Master) (v : Word) (s : State) : Out :=
  done (s.gate m 0x204 (fun t =>
    if bit v 0 then
      let n := bits (t.reg Reg.EVIDENCE_SESS_SEL) 3 0
      let x := t.session n
      let u := t.setSession n { x with commit := some (t.sessRegs n) }
      if x.running then u else u.showSess n 1 0
    else t))

/-- A record of an ENCODE slot list: session, PICS, budget (R261). -/
def State.encodeRec (s : State) (list ix : Nat) : Option (Nat × Nat × Nat) :=
  (s.actionWords (list + 16 + 8 * ix) 2).map (fun ws => (bits (wordAt ws 0) 3 0, bits (wordAt ws 0) 11 8, bits (wordAt ws 1) 27 0))

/-- ENCODE_ENTRY (R261): COUNT is word 0 [4:0]. -/
def execEncodeEntry (i : EntryIx) (s : State) : Out :=
  done (match s.entryFor i.val 0x18 0x19 5 with
    | none => s
    | some e =>
      let k := e.unit - 0x18
      let t := s.actionRead e.operand 4
      match s.startWalk i.val e with
      | none => t
      | some w => (t.setVe k { s.ve k with walk := some { w with count := w.count % 32 }, work := none }).setReg (Reg.STATUS (pageVe k)) 1)

/-- The record at which a walk stands with a picture left to code: the walk, session and budget. -/
def State.nextPicture (s : State) (w : Walk) : Nat → Option (Walk × Nat × Nat)
  | 0 => none
  | n + 1 =>
    if w.count ≤ w.ix then none
    else
      match s.encodeRec w.list w.ix with
      | none => none
      | some (x, pics, budget) =>
        if w.done < pics ∧ (s.session x).running = true ∧ (s.session x).sources ≠ [] then some (w, x, budget)
        else s.nextPicture { w with ix := w.ix + 1, done := 0 } n

/-- Rows of CTUs or macroblocks of a clip's picture (R266). -/
def clipRows (kind h : Nat) : Nat := if kind = 0 then cdiv h 64 else cdiv h 16

/-- The allowance A of R266, 0 where the window has used CAP. -/
def Session.allowance (x : Session) : Nat := cfgCap x.cfg - (x.bits.take (cfgWin x.cfg - 1)).sum

/-- The rate control of R266 from row r on: `b` the slice bits of the rows before, `rest` those of row r and the rows after.
QP at the end, and whether it was raised and whether the floor was reached. -/
def rateControl (rows a dq : Nat) : Nat → Nat → Nat → List Nat → Nat × Bool × Bool
  | _, _, qp, [] => (qp, false, false)
  | r, b, qp, x :: rest =>
    if r = 0 then rateControl rows a dq 1 (b + x) qp rest
    else if a ≤ b + (rows - r) * 64 then (qp, false, true)
    else if a * r < b * rows then
      let y := rateControl rows a dq (r + 1) (b + x) (min (qp + dq) 51) rest
      (y.1, true, y.2.2)
    else rateControl rows a dq (r + 1) (b + x) qp rest

/-- The channels of a session's staging area and reference pool serve it: none of them has frozen and not yet rejoined at a switch
(R270, R306). -/
def State.sessUp (s : State) (p : SessPlan) : Bool :=
  (s.refusesAccess (s.stageAt p) 64).isNone &&
  (s.rangeChannels (s.stageAt p).addr p.stageLen).all (fun c => s.chanServes c && !(s.dram c).away) && !(s.pool p.refPool).lost

/-- A 10-bit sample as it is coded (R260). -/
def codeSample10 (v : Nat) : Nat := min ((v + 2) / 4) 255

/-- Two chroma samples one above the other of a YUV422 frame, as they are coded (R260). -/
def codePair (a b : Nat) : Nat := (a + b + 1) / 2

/-- A sample of a source, in its own bits; mid-value where it has no such plane. -/
def State.rawSample (s : State) (c : PpSource) (plane x y : Nat) : Nat :=
  match c.offset plane x y with
  | none => 128
  | some o =>
    let v := leNat (s.peeks (ptrAdd c.base o) c.b)
    if c.b = 2 then codeSample10 (v % 1024) else v

/-- Sample (x, y) of plane 0 Y, 1 Cb, 2 Cr of what an encoder codes of a source (R260): 8-bit 4:2:0. -/
def State.codeSample (s : State) (c : PpSource) (plane x y : Nat) : Nat :=
  if c.kind = 1 ∧ plane ≠ 0 then codePair (s.rawSample c plane x (2 * y)) (s.rawSample c plane x (2 * y + 1))
  else s.rawSample c plane x y

/-- The samples that an encoder codes of a window of a source: the luma plane, then Cb and Cr by turns. -/
def State.codeSource (s : State) (c : PpSource) (x y w h : Nat) : List Byte :=
  (List.range (w * h)).map (fun i => BitVec.ofNat 8 (s.codeSample c 0 (x + i % w) (y + i / w))) ++
  (List.range (w / 2 * (h / 2))).flatMap (fun i => [1, 2].map (fun p =>
    BitVec.ofNat 8 (s.codeSample c p (x / 2 + i % (w / 2)) (y / 2 + i / (w / 2)))))

/-- Columns of CTUs or macroblocks of a clip's picture (R264). -/
def clipCols (kind w : Nat) : Nat := if kind = 0 then cdiv w 64 else cdiv w 16

/-- Picture i of a segment of WC columns with refresh period N (R264); 0 is the IDR. -/
def segPlan (wc n i : Nat) : SegPlan :=
  let j := i % n
  if i = 0 then { idr := true, intraFrom := 0, intraTo := wc, sets := true, recovery := none }
  else { idr := false, intraFrom := j * wc / n, intraTo := (j + 1) * wc / n, sets := decide (j = 0)
         recovery := if j = 0 then some (n - 1) else none }

/-- A picture begins at an encoder. -/
def State.pictureBegins (s : State) (k ix : Nat) (w : VeWork) : State :=
  (((s.setVe k { s.ve k with work := some w }).setReg (Reg.STATUS (pageVe k)) 2).setReg (Reg.VE_CURRENT k)
    (BitVec.ofNat 32 (w.session + 256 + 65536 * ix))).setReg (Reg.VE_BUDGET_LEFT k) (BitVec.ofNat 32 w.budget)

/-- The flags of R268 that a picture's place in its segment gives (R264), with those of its source and of what came before. A
skip picture has a reference to skip against, so it does not begin a segment: the next coded picture is the IDR. -/
def sessFlags (x : Session) (p : PicRec) (skip : Bool) : Nat :=
  let clip := decide (cfgKind x.cfg < 2)
  flagBit (clip && x.sinceIdr == 0 && !skip) 0 + flagBit (clip && decide (0 < x.sinceIdr) && x.sinceIdr % cfgN x.cfg == 0) 1 +
  flagBit p.concealed 3 + flagBit p.refConcealed 4 + flagBit x.gap 5 + flagBit x.lost 9

/-- A clip's picture begins (R262, R264, R265, R266, R270): a skip picture where the source is concealed, the floor is reached at
the start, a channel is frozen or the pool has no buffer. -/
def State.beginClip (s : State) (k ix n budget : Nat) (pl : SessPlan) (p : PicRec) : State :=
  let x := s.session n
  let fl := sessFlags x p true
  let w : VeWork := { session := n, pic := p, recon := none, skip := true, flags := fl + 4, qp := cfgQi x.cfg, budget := budget }
  if p.concealed ∨ s.sessUp pl = false then s.pictureBegins k ix w
  else if x.allowance ≤ clipRows (cfgKind x.cfg) p.cropH * 64 then
    (s.tally (Reg.VE_CAP_SKIP k)).pictureBegins k ix { w with flags := fl + 4 + 128 }
  else
    let a := s.bpmAlloc (8 + k) pl.refPool 5
    match a.2 with
    | none => (a.1.tally (Reg.VE_POOL_EMPTY k)).pictureBegins k ix w
    | some b =>
      a.1.pictureBegins k ix { w with
        recon := some b, skip := false, flags := sessFlags x p false
        plan := segPlan (clipCols (cfgKind x.cfg) p.cropW) (cfgN x.cfg) x.sinceIdr }

/-- The snapshot's window lies inside the picture's (R260). -/
def snapInside (c : List Word) (p : PicRec) : Bool :=
  decide (bits (wordAt c 4) 15 0 + bits (wordAt c 5) 15 0 ≤ p.cropW) && decide (bits (wordAt c 4) 31 16 + bits (wordAt c 5) 31 16 ≤ p.cropH)

/-- The window of a picture that a session codes (R260): x, y, width, height. -/
def codeWindow (c : List Word) (p : PicRec) : Nat × Nat × Nat × Nat :=
  if cfgKind c = 2 then (bits (wordAt c 4) 15 0, bits (wordAt c 4) 31 16, bits (wordAt c 5) 15 0, bits (wordAt c 5) 31 16)
  else (0, 0, p.cropW, p.cropH)

/-- A picture that is to be coded reads its source (R260, R279). -/
def State.readSource (s : State) (k : Nat) (c : List Word) : State :=
  match (s.ve k).work with
  | none => s
  | some w =>
    match w.skip, w.pic.buf with
    | false, some b =>
      let src := picSource w.pic b
      let (x, y, wd, h) := codeWindow c w.pic
      let r := s.readRanges (windowRanges src x y wd h false)
      r.1.setVe k { r.1.ve k with work := some { w with source := s.codeSource src x y wd h, failed := !r.2 } }
    | _, _ => s

/-- A snapshot that cannot be coded leaves a record without a payload that carries GAP (R260). -/
def State.gapRecord (s : State) (n : Nat) (p : PicRec) : State :=
  let x := { s.session n with gap := true }
  ((s.setSession n x).stageRecord n (recHeader n x (sessFlags x p true) 0 p.time p.frameNo s.tick 0 0 0)).1

/-- A picture of a session is taken (R259, R260): a change of the coded size ends the session, and so does a clip's picture beyond
the limits. -/
def State.beginPicture (s : State) (k ix n budget : Nat) (pl : SessPlan) (p : PicRec) : State :=
  let x := s.session n
  if (x.width ≠ 0 ∧ (x.width ≠ p.width ∨ x.height ≠ p.height)) ∨ (cfgKind x.cfg < 2 ∧ codedTooBig pl false p.cropW p.cropH = true) then
    ((s.releaseEnc (8 + k) p).1.dropSources n).endSession n 3
  else
    let s1 := s.setSession n { x with width := p.width, height := p.height }
    if cfgKind x.cfg = 2 then
      if p.concealed then s1
      else if snapInside x.cfg p = false then (s1.gapRecord n p).releaseEnc (8 + k) p |>.1
      else (s1.pictureBegins k ix
        { session := n, pic := p, recon := none, skip := !s1.sessUp pl, flags := sessFlags x p (!s1.sessUp pl), qp := 0
          budget := budget }).readSource k x.cfg
    else (s1.beginClip k ix n budget pl p).readSource k x.cfg

/-- ENCODE_PICTURE (R260 to R262). -/
def execEncodePicture (ve : Fin 2) (s : State) : Out :=
  let k := ve.val
  done (match (s.ve k).walk with
    | none => s
    | some w =>
      if (s.ve k).work.isSome then s
      else
        match s.nextPicture w 17 with
        | none => (s.walkReads w 2 none).setVe k { s.ve k with walk := none }
        | some (w1, n, budget) =>
          match (s.session n).sources, s.sessPlan n with
          | p :: rest, some pl =>
            let s1 := (s.walkReads w 2 (some w1)).setVe k { s.ve k with walk := some { w1 with done := w1.done + 1 } }
            (s1.setSession n { s1.session n with sources := rest }).beginPicture k w1.ix n budget pl p
          | _, _ => s)

/-- The picture of an encoder ends: STATUS, CURRENT, LAST (R273). -/
def State.pictureEnds (s : State) (k n flags : Nat) : State :=
  let s1 := (((s.setVe k { s.ve k with work := none }).setReg (Reg.STATUS (pageVe k)) 1).setReg (Reg.VE_CURRENT k) 0).setReg
    (Reg.VE_BUDGET_LEFT k) 0
  s1.setReg (Reg.VE_LAST k) (BitVec.ofNat 32 (n + 16 * (flags % 4096) + 65536 * (s.tick.toNat % 65536)))

/-- A picture's record is written; the PICS-th picture ends the session with the END flag (R259, R268). -/
def State.writePicture (s : State) (k : Nat) (w : VeWork) (flags q1 : Nat) (d : List Byte) : State :=
  let n := w.session
  let x := s.session n
  let last := decide (cfgPics x.cfg ≠ 0 ∧ cfgPics x.cfg ≤ x.coded + 1)
  let fl := flags + flagBit last 10
  let r := s.stageRecord n (recHeader n x fl d.length w.pic.time w.pic.frameNo s.tick w.qp q1 (if last then 1 else 0) ++ d)
  let s1 := if r.2 then
      (r.1.setSession n { r.1.session n with
        sinceIdr := if 2 ≤ cfgKind x.cfg ∨ (x.sinceIdr = 0 ∧ (flags / 4) % 2 = 1) then 0 else x.sinceIdr + 1 }).tally (Reg.VE_PIC_DONE k)
    else r.1
  let s2 := s1.setSession n { s1.session n with coded := x.coded + 1, running := x.running && !last }
  (if last then (s2.dropSources n).showSess n 0 0 else s2).pictureEnds k n fl

/-- The quantiser weight W of a snapshot (R267). -/
def snapW (jq : Nat) : Nat :=
  let d : Int := 50 - (jq : Int)
  let a := d.fdiv 10
  let b := (d - 10 * a).toNat
  (10 + b) * 2 ^ (a + 6).toNat / 10

/-- A quantiser entry of R267 for the entry T of Annex K. -/
def snapEntry (jq t : Nat) : Nat := min 255 (max 1 ((t * snapW jq + 32) / 64))

/-- The luma table of ISO/IEC 10918-1 Annex K, by rows. -/
def annexLuma : List Nat :=
  [16, 11, 10, 16, 24, 40, 51, 61, 12, 12, 14, 19, 26, 58, 60, 55, 14, 13, 16, 24, 40, 57, 69, 56,
   14, 17, 22, 29, 51, 87, 80, 62, 18, 22, 37, 56, 68, 109, 103, 77] ++
  [24, 35, 55, 64, 81, 104, 113, 92, 49, 64, 78, 87, 103, 121, 120, 101, 72, 92, 95, 98, 112, 100, 103, 99]

/-- The chroma table of Annex K, by rows. -/
def annexChroma : List Nat :=
  [17, 18, 24, 47, 99, 99, 99, 99, 18, 21, 26, 66, 99, 99, 99, 99, 24, 26, 56, 99, 99, 99, 99, 99,
   47, 66, 99, 99, 99, 99, 99, 99] ++ List.replicate 32 99

/-- The zigzag order of Annex K's tables in a DQT segment. -/
def zigzag : List Nat :=
  [0, 1, 8, 16, 9, 2, 3, 10, 17, 24, 32, 25, 18, 11, 4, 5, 12, 19, 26, 33, 40, 48, 41, 34, 27, 20, 13, 6, 7, 14, 21, 28] ++
  [35, 42, 49, 56, 57, 50, 43, 36, 29, 22, 15, 23, 30, 37, 44, 51, 58, 59, 52, 45, 38, 31, 39, 46, 53, 60, 61, 54, 47, 55, 62, 63]

/-- A table of a DQT segment: its number and its entries in zigzag order. -/
def dqtTable (n jq : Nat) (t : List Nat) : List Byte :=
  BitVec.ofNat 8 n :: zigzag.map (fun i => BitVec.ofNat 8 (snapEntry jq (t.getD i 0)))

/-- The first code of a Huffman table of Annex K: its class and number, the counts of codes of each length, the values. -/
def dhtTable (tc : Nat) (counts vals : List Nat) : List Byte := (tc :: counts ++ vals).map (BitVec.ofNat 8)

/-- The values of an AC table of Annex K from the tenth group on: sizes `a` to 10 after each run, in order. -/
def acRuns (rs : List (Nat × Nat)) : List Nat :=
  rs.flatMap (fun r => (List.range (11 - r.2)).map (fun i => 16 * r.1 + r.2 + i))

/-- Annex K's AC values of luma, 162 of them. -/
def acLuma : List Nat :=
  [0x01, 0x02, 0x03, 0x00, 0x04, 0x11, 0x05, 0x12, 0x21, 0x31, 0x41, 0x06, 0x13, 0x51, 0x61, 0x07, 0x22, 0x71, 0x14, 0x32] ++
  [0x81, 0x91, 0xA1, 0x08, 0x23, 0x42, 0xB1, 0xC1, 0x15, 0x52, 0xD1, 0xF0, 0x24, 0x33, 0x62, 0x72, 0x82, 0x09, 0x0A] ++
  acRuns [(1, 6), (2, 5), (3, 4), (4, 3), (5, 3), (6, 3), (7, 3), (8, 3), (9, 2), (10, 2), (11, 2), (12, 2), (13, 2), (14, 1), (15, 1)]

/-- Annex K's AC values of chroma, 162 of them. -/
def acChroma : List Nat :=
  [0x00, 0x01, 0x02, 0x03, 0x11, 0x04, 0x05, 0x21, 0x31, 0x06, 0x12, 0x41, 0x51, 0x07, 0x61, 0x71, 0x13, 0x22, 0x32, 0x81] ++
  [0x08, 0x14, 0x42, 0x91, 0xA1, 0xB1, 0xC1, 0x09, 0x23, 0x33, 0x52, 0xF0, 0x15, 0x62, 0x72, 0xD1, 0x0A, 0x16, 0x24, 0x34] ++
  [0xE1, 0x25, 0xF1] ++
  acRuns [(1, 7), (2, 6), (3, 5), (4, 3), (5, 3), (6, 3), (7, 3), (8, 2), (9, 2), (10, 2), (11, 2), (12, 2), (13, 2), (14, 2), (15, 2)]

/-- DHT of a snapshot: the four tables of Annex K. -/
def snapDht : List Byte :=
  [0xFF, 0xC4, 0x01, 0xA2] ++
  dhtTable 0x00 [0, 1, 5, 1, 1, 1, 1, 1, 1, 0, 0, 0, 0, 0, 0, 0] (List.range 12) ++
  dhtTable 0x10 [0, 2, 1, 3, 3, 2, 4, 3, 5, 5, 4, 4, 0, 0, 1, 0x7D] acLuma ++
  dhtTable 0x01 [0, 3, 1, 1, 1, 1, 1, 1, 1, 1, 1, 0, 0, 0, 0, 0] (List.range 12) ++
  dhtTable 0x11 [0, 2, 1, 2, 4, 4, 3, 4, 7, 5, 4, 4, 0, 1, 2, 0x77] acChroma

/-- SOF0 of a snapshot: baseline, 8 bits, three components at 4:2:0. -/
def snapSof (w h : Nat) : List Byte :=
  [0xFF, 0xC0, 0x00, 0x11, 0x08, BitVec.ofNat 8 (h / 256), BitVec.ofNat 8 h, BitVec.ofNat 8 (w / 256), BitVec.ofNat 8 w, 0x03,
   0x01, 0x22, 0x00, 0x02, 0x11, 0x01, 0x03, 0x11, 0x01]

/-- SOS of a snapshot. -/
def snapSos : List Byte := [0xFF, 0xDA, 0x00, 0x0C, 0x03, 0x01, 0x00, 0x02, 0x11, 0x03, 0x11, 0x00, 0x3F, 0x00]

/-- SOI and DQT of a snapshot (R267). -/
def snapHead (jq : Nat) : List Byte :=
  [0xFF, 0xD8, 0xFF, 0xDB, 0x00, 0x84] ++ dqtTable 0 jq annexLuma ++ dqtTable 1 jq annexChroma

/-- A snapshot (R267): SOI, DQT, SOF0, DHT, SOS, the scan and EOI. -/
def snapshotBytes (c : List Word) (scan : List Byte) : List Byte :=
  snapHead (cfgJq c) ++ snapSof (bits (wordAt c 5) 15 0) (bits (wordAt c 5) 31 16) ++ snapDht ++ snapSos ++ scan ++ [0xFF, 0xD9]

/-- A completed clip picture becomes the reference; the previous one is released (R265). -/
def State.takeReference (s : State) (k n : Nat) (b : Option Ptr) : State :=
  match b with
  | none => s
  | some b =>
    let s1 := match (s.session n).ref with
      | some o => (s.bpmRelease (8 + k) o 5).1
      | none => s
    s1.setSession n { s1.session n with ref := some b }

/-- The buffer of a picture that does not become the reference is released (R265). -/
def State.dropRecon (s : State) (k : Nat) (b : Option Ptr) : State :=
  match b with
  | some b => (s.bpmRelease (8 + k) b 5).1
  | none => s

/-- A picture whose buffers are released ends without its own bytes (R262): a clip writes a skip picture of so many bits of slice
data, a snapshot nothing. -/
def State.abandonPicture (s : State) (k : Nat) (w : VeWork) (bits : Nat) (skip : List Byte) : State :=
  let n := w.session
  let s0 := (s.tally (Reg.VE_ENC_ABANDON k)).event (pageVe k) 1
  let fl := (w.flags / 2 * 2) ||| 4
  let x := s0.session n
  if x.running = false ∨ cfgKind x.cfg = 2 then s0.pictureEnds k n fl
  else (s0.setSession n { x with bits := (bits :: x.bits).take 64 }).writePicture k w fl w.qp skip

/-- Bytes of a reconstruction's samples (R196, R265): 8-bit, at MAX_W and MAX_H. -/
def reconSize (pl : SessPlan) : Nat := picPitch pl.maxW 1 * (cdiv pl.maxH 64 * 64) * 3 / 2

/-- The reads and writes that a coded clip picture makes of buffers (R265, R279): of the reference, where it is no IDR, and of its
reconstruction. The state, and whether all were served. -/
def State.reconWrite (s : State) (w : VeWork) (d : List Byte) : State × Bool :=
  match s.sessPlan w.session, w.recon with
  | some pl, some b =>
    let r := match (s.session w.session).ref with
      | some o => if w.plan.idr then (s, true) else s.readsOk [(o, reconSize pl)]
      | none => (s, true)
    let t := r.1.unitWriteOk b (d.take (reconSize pl))
    (t.1, r.2 && t.2)
  | _, _ => (s, true)

/-- The session's channels no longer serve it. -/
def State.sessDown (s : State) (n : Nat) : Bool :=
  match s.sessPlan n with
  | some pl => !s.sessUp pl
  | none => false

/-- A clip's picture ends (R265, R266, R268, R270): one that a freeze overtakes is a skip picture. A record that is dropped ends the
segment, and the picture's buffer is released. -/
def State.clipEnds (s : State) (k : Nat) (w : VeWork) (rowBits : List Nat) (payload : List Byte) : State :=
  let n := w.session
  let x := s.session n
  let skip := w.skip || s.sessDown n
  let flags := if skip && !w.skip then (w.flags / 2 * 2) ||| 4 else w.flags
  let r := if skip then (w.qp, false, false)
    else rateControl (clipRows (cfgKind x.cfg) w.pic.cropH) x.allowance (cfgDq x.cfg) 0 0 w.qp rowBits
  let exceeded := !skip && decide (cfgCap x.cfg < (x.bits.take (cfgWin x.cfg - 1)).sum + rowBits.sum)
  let s1 := if r.2.2 then s.tally (Reg.VE_CAP_SKIP k) else s
  let s2 := if exceeded then s1.tally Reg.EVIDENCE_CAP_OVER else s1
  let s3 := s2.setSession n { s2.session n with bits := (rowBits.sum :: x.bits).take 64 }
  let seq := (s3.session n).seq
  let s4 := s3.writePicture k w (flags + flagBit r.2.1 6 + flagBit r.2.2 7 + flagBit exceeded 8) r.1 payload
  if (s4.session n).seq = seq ∨ skip = true then s4.dropRecon k w.recon else s4.takeReference k n w.recon

/-- ENCODE_PICTURE_DONE (R265 to R268, R279, R288): `rowBits` are the slice bits of the rows, `recon` the reconstruction's samples; a
snapshot's payload is its scan. A read that fails or a release that the BPM refuses abandons the picture. -/
def execEncodePictureDone (ve : Fin 2) (rowBits : List Nat) (payload : List Byte) (s : State) (recon : List Byte := []) : Out :=
  let k := ve.val
  done (match (s.ve k).work with
    | none => s
    | some w =>
      let n := w.session
      let x := s.session n
      let e := s.releaseEnc (8 + k) w.pic
      if x.running = false then (e.1.dropRecon k w.recon).pictureEnds k n w.flags
      else if cfgKind x.cfg = 2 then
        if e.2 = false ∨ w.failed = true then e.1.abandonPicture k w 0 []
        else if w.skip = true ∨ e.1.sessDown n = true then e.1.pictureEnds k n (w.flags ||| 4)
        else e.1.writePicture k w w.flags 0 (snapshotBytes x.cfg payload)
      else
        let r := if w.skip = true ∨ e.1.sessDown n = true then (e.1, true) else e.1.reconWrite w recon
        if e.2 = false ∨ w.failed = true ∨ r.2 = false then (r.1.dropRecon k w.recon).abandonPicture k w rowBits.sum payload
        else r.1.clipEnds k w rowBits payload)

/-- ENC_ABANDON (R262): the buffers are released; a clip writes a skip picture of `sliceBits` bits of slice data, a snapshot
nothing. -/
def execEncAbandon (ve : Fin 2) (sliceBits : BitVec 32) (skip : List Byte) (s : State) : Out :=
  let k := ve.val
  done (match (s.ve k).work with
    | none => s
    | some w => ((s.releaseEnc (8 + k) w.pic).1.dropRecon k w.recon).abandonPicture k w sliceBits.toNat skip)

/-- The bytes of a staged record; none where they cannot be read. -/
def State.stageRead (s : State) (p : SessPlan) (at_ n : Nat) : State × Option (List Byte) :=
  let a := min n (p.stageLen - at_)
  let r := s.read (ptrAdd (s.stageAt p) at_) a
  if r.status ≠ 0 then (r.st, none)
  else if a < n then
    let q := r.st.read (s.stageAt p) (n - a)
    if q.status ≠ 0 then (q.st, none) else (q.st, some (r.data ++ q.data))
  else (r.st, some r.data)

/-- Bytes go into a host ring at a free-running offset (R269). -/
def State.ringWrite (s : State) (base log pos : Nat) (d : List Byte) : State :=
  let n := 2 ^ log
  let o := pos % n
  let a := min d.length (n - o)
  let t := s.post (base + o) (d.take a)
  if a < d.length then t.post base (d.drop a) else t

/-- Whole staged records of a session, oldest first, up to DELIV_MAX bytes (R269). -/
def State.deliverRecords (s : State) (n : Nat) (p : SessPlan) : List (Nat × Nat) → Nat → State
  | [], _ => s
  | (o, size) :: r, left =>
    if left < size then s
    else
      let b := s.stageRead p o size
      match b.2 with
      | none => b.1
      | some d =>
        let x := b.1.session n
        let t := b.1.ringWrite (hostAddr (wordAt x.cfg 6) (wordAt x.cfg 7)) (bits (wordAt x.cfg 8) 4 0) x.ringPos d
        (t.setSession n { x with staged := r, ringPos := x.ringPos + size, lastSeq := bytesWord d 0 }).deliverRecords n p r (left - size)

/-- A session's status record (R269). -/
def State.statusRecord (s : State) (n : Nat) : List Byte :=
  let x := s.session n
  wordBytes [x.lastSeq, BitVec.ofNat 32 x.ringPos, s.reg (Reg.EVIDENCE_SESS_STATE n), BitVec.ofNat 32 x.coded,
    BitVec.ofNat 32 (stagedBytes x), s.tick, 0, 0]

/-- EVIDENCE_DELIVERY (R269): while the endpoint issues no request nothing is delivered and running sessions read held. -/
def execEvidenceDelivery (i : EntryIx) (s : State) : Out :=
  done (match s.entryFor i.val 0x1F 0x1F 2 with
    | none => s
    | some e =>
      let t := s.actionRead e.operand 2
      match s.actionWords e.operand 2 with
      | none => t
      | some ws =>
        if wordAt ws 0 ≠ 5 then t
        else if s.mayIssue = false then
          (List.range 16).foldl (fun (a : State) n => if (a.session n).running then a.showSess n 3 0 else a) t
        else
          let s1 := (List.range 16).foldl (fun (a : State) n =>
            let b := if (a.session n).running then a.showSess n 2 0 else a
            match b.sessPlanAt e.operand n with
            | some p => b.deliverRecords n p (b.session n).staged p.delivMax
            | none => b) (t.readRecs (e.operand + 64) 8 (bits (wordAt ws 1) 4 0))
          s1.post (hostAddr (s1.reg Reg.EVIDENCE_STATUS_BASE_LO) (s1.reg Reg.EVIDENCE_STATUS_BASE_HI))
            ((List.range 16).flatMap s1.statusRecord))

end Sys2Proof.Machine
end

