-- ==== Sys2Proof/Machine/DramCmds.lean ====
section
/-!
DEFINITION. The DRAM channels' commands (R293 to R308): configuration, map sets, training, release, batches, refresh and
scrub, maintenance, freeze.
-/
namespace Sys2Proof.Machine

/-- A burst takes a further pattern (R302): where the sum lies within 8 symbols of another codeword, the burst holds that codeword's
data from then on, with what is left as its error. -/
def State.addPattern (s : State) (k : Nat) (es : Pattern) : State :=
  let e := Pattern.plus (s.pattern k) es
  let hold := fun (a : State) (x : Pattern) => { a with upsets := if x = [] then mapDel k a.upsets else mapIns k (.symbols x) a.upsets }
  if e.length ≤ 8 then hold s e
  else
    match rsDecode e with
    | none => hold s e
    | some near =>
      let word := Pattern.plus e near
      hold { s with
        mem := (List.finRange 64).foldl (fun m (i : Fin 64) =>
          mapPut memDefault (k + i.val) (s.byte (k + i.val) ^^^ Pattern.at word ⟨i.val, by omega⟩) m) s.mem } near

/-- Soft errors that have arisen: latent in the words or bursts they name. An error that names symbols lies in a burst, any other
in an on-chip word. -/
def State.addSoft (s : State) (es : List SoftError) : State :=
  es.foldl (fun (a : State) e =>
    match a.flat e.place, e.kind with
    | none, _ => a
    | some k, .symbols x => if flatIsDram k then a.addPattern (k / 64 * 64) x else a
    | some k, u => if flatIsDram k then a else { a with upsets := mapIns (k / 8 * 8) u a.upsets }) s

/-- DC_CFG (R293, R307). -/
def execDcCfg (m : Master) (dc : Fin 8) (v : Word) (s : State) : Out :=
  let c := dc.val
  done (s.gate m (pageDc c) (fun t =>
    let rateOk := (List.range 8).all (fun n => decide (n = c) || !bit (t.reg (Reg.DC_CFG n)) 0 ||
      bits (t.reg (Reg.DC_CFG n)) 2 1 == bits v 2 1)
    if t.locked (pageDc c) 0 ∨ t.chanState c ≠ 0 then t.drop (pageDc c)
    else if bit v 0 = true ∧ (dcRowOk v = false ∨ rateOk = false) then t.drop (pageDc c)
    else t.setReg (Reg.DC_CFG c) (v &&& 0x7F)))

/-- MAP_SET_WRITE (R294, R308): SET_CFG if `cfg`, else SET_BASE, of the set in SET_SEL. -/
def execMapSetWrite (m : Master) (cfg : Bool) (v : Word) (s : State) : Out :=
  done (s.gate m 0x310 (fun t =>
    let b := bits (t.reg Reg.MAP_SET_SEL) 2 0
    if t.locked 0x310 0 ∨ t.bankState false ≠ 0 ∨ t.bankState true ≠ 0 then t.drop 0x310
    else if cfg then t.setReg (Reg.MAP_SET_CFG b) (v &&& 0x001F1FFF)
    else t.setReg (Reg.MAP_SET_BASE b) (v &&& 0x7F)))

/-- Training of a channel starts (R300): RETRAINING, contents undefined. -/
def State.startTraining (s : State) (c : Nat) : State := (s.setReg (Reg.DC_STATE c) 3).loseChannel c

/-- A channel may be trained by BOOT.TRAIN (R370). -/
def State.trainable (s : State) (c : Nat) : Bool :=
  bits (s.reg Reg.BOOT_STATE) 3 0 == 4 && bit (s.reg (Reg.DC_CFG c)) 0 && s.chanState c == 0

/-- The firmware wakes a domain that is not on (R359, R368). -/
def State.wakeDomain (s : State) (d : Nat) : State :=
  if s.domOn d then s else { s with power := { s.power with moving := mapIns d 2 s.power.moving } }

/-- TRAIN (R368, R370). -/
def execTrain (m : Master) (v : Word) (s : State) : Out :=
  done (s.gate m 0x003 (fun t =>
    let cs := maskChannels (bits v 7 0)
    let t1 := (cs.filter t.trainable).foldl (fun (a : State) c => (a.wakeDomain (25 + c / 2)).startTraining c) t
    if cs.all t.trainable then t1 else t1.drop 0x003))

/-- The taps of a byte lane, and its VrefDQ code and eye width, as LANE_VAL shows them (R307). -/
structure LaneVal where
  read : Nat
  write : Nat
  eye : Nat
  vref : Nat
  deriving DecidableEq, Repr

/-- The index of a lane's registers in LANE_SEL's coding (R307). -/
def laneKey (lane : Nat) (sub rank : Bool) : Nat := lane + (if sub then 16 else 0) + (if rank then 32 else 0)

/-- The index of a sweep's lane. -/
def laneIx (x : LaneSweep) : Nat := laneKey x.lane.val x.sub x.rank

/-- LANE_VAL of a lane (R307). Eye widths of 128 taps show as 127. -/
def laneWord (x : LaneVal) : Word := BitVec.ofNat 32 (x.read + x.write * 2 ^ 8 + min x.eye 127 * 2 ^ 16 + x.vref * 2 ^ 24)

/-- The widest run of passing taps: its first tap and its length, the lowest of equal ones; and the run that ends at the last
tap. -/
def runs (m : BitVec 128) : Nat → (Nat × Nat) × Nat
  | 0 => ((0, 0), 0)
  | n + 1 =>
    let x := runs m n
    let len := if m.getLsbD n then x.2 + 1 else 0
    (if x.1.2 < len then (n + 1 - len, len) else x.1, len)

/-- First tap and length of the widest run of passing taps (R300). -/
def widest (m : BitVec 128) : Nat × Nat := (runs m 128).1

/-- The middle tap of a run, rounding down. -/
def middle (r : Nat × Nat) : Nat := r.1 + (r.2 - 1) / 2

/-- The lane numbers of the component that holds a lane (R300): two for an x16 component. -/
def componentLanes (cfg : Word) (lane : Nat) : List Nat :=
  if bit cfg 3 = true ∧ lane < 4 then [lane / 2 * 2, lane / 2 * 2 + 1] else [lane]

/-- The sweep of a lane; one that is not given passes nowhere. -/
def sweepOf (ls : List LaneSweep) (lane : Fin 5) (sub rank : Bool) : LaneSweep :=
  (ls.find? (fun x => x.lane = lane ∧ x.sub = sub ∧ x.rank = rank)).getD ⟨lane, sub, rank, 0, 0, 0⟩

/-- The codes that pass at every lane of a component. -/
def vrefPass (cfg : Word) (ls : List LaneSweep) (lane : Fin 5) (sub rank : Bool) : BitVec 128 :=
  (componentLanes cfg lane.val).foldl (fun m l => m &&& (sweepOf ls (Fin.ofNat 5 l) sub rank).vref) (BitVec.allOnes 128)

/-- The byte lanes of a channel: of each rank, each subchannel's five (R300). -/
def channelLanes (cfg : Word) : List (Fin 5 × Bool × Bool) :=
  (if bit cfg 6 then [false, true] else [false]).flatMap (fun rank =>
    [false, true].flatMap (fun sub => (List.finRange 5).map (fun l => (l, sub, rank))))

/-- What training sets a lane to (R300). -/
def laneVal (cfg : Word) (ls : List LaneSweep) (x : Fin 5 × Bool × Bool) : LaneVal :=
  let w := sweepOf ls x.1 x.2.1 x.2.2
  { read := middle (widest w.read), write := middle (widest w.write), eye := (widest w.read).2
    vref := middle (widest (vrefPass cfg ls x.1 x.2.1 x.2.2)) }

/-- The first failure of the sweeps: step and lane (R300). A lane whose widest run has fewer than 16 taps fails, and a component
at which no code passes. -/
def sweepFails (cfg : Word) (ls : List LaneSweep) : Option (Nat × Nat × Bool × Bool) :=
  let lanes := channelLanes cfg
  match lanes.find? (fun x => decide ((widest (sweepOf ls x.1 x.2.1 x.2.2).read).2 < 16)) with
  | some x => some (5, x.1.val, x.2)
  | none =>
    match lanes.find? (fun x => decide ((widest (sweepOf ls x.1 x.2.1 x.2.2).write).2 < 16)) with
    | some x => some (6, x.1.val, x.2)
    | none =>
      match lanes.find? (fun x => vrefPass cfg ls x.1 x.2.1 x.2.2 == 0) with
      | some x => some (7, (componentLanes cfg x.1.val).headD 0, x.2)
      | none => none

/-- The delays and codes of lanes are applied together (R300, R301). -/
def State.applyLanes (s : State) (c : Nat) (ls : List (Nat × LaneVal)) : State :=
  ls.foldl (fun (a : State) x => a.setReg (Reg.DC_LANE_VAL c x.1) (laneWord x.2)) s

/-- STATE of a failed training (R300, R307). -/
def trainFailWord (step lane : Nat) (sub rank : Bool) : Word :=
  let l := if step < 5 then 15 else lane
  let at_ := if l = 15 then 0 else (if sub then 4096 else 0) + (if rank then 8192 else 0)
  BitVec.ofNat 32 (4 + 16 * step + 256 * l + at_)

/-- The failure of a training run: step, lane, subchannel and rank (R300). -/
def trainFails (cfg : Word) (r : TrainEnd) : Option (Nat × Nat × Bool × Bool) :=
  match r with
  | .swept ls => sweepFails cfg ls
  | .timedOut step lane sub rank =>
    some (step.val + 1, if step.val = 6 then (componentLanes cfg lane.val).headD 0 else lane.val, sub, rank)

/-- What the sweeps of a training run set the lanes to. -/
def trainLanes (cfg : Word) (r : TrainEnd) : List (Nat × LaneVal) :=
  match r with
  | .swept ls => (channelLanes cfg).map (fun x => (laneKey x.1.val x.2.1 x.2.2, laneVal cfg ls x))
  | .timedOut _ _ _ _ => []

/-- TRAINING_DONE (R300). -/
def execTrainingDone (dc : Fin 8) (r : TrainEnd) (s : State) : Out :=
  let c := dc.val
  let cfg := s.reg (Reg.DC_CFG c)
  done (if s.chanState c ≠ 3 then s
  else
    match trainFails cfg r with
    | none =>
      let t := s.applyLanes c (trainLanes cfg r)
      ((t.setDram c { t.dram c with trained := true }).setReg (Reg.DC_STATE c) 1).event (pageDc c) 2
    | some (step, lane, sub, rank) => (s.setReg (Reg.DC_STATE c) (trainFailWord step lane sub rank)).event (pageDc c) 2)

/-- The capture registers of a channel are cleared (R306). -/
def State.clearCapture (s : State) (c : Nat) : State :=
  { s with regs := s.regs.filter (fun e => !(decide (Reg.DC_FRZ_CAUSE c ≤ e.1) && decide (e.1 ≤ Reg.DC_FRZ_BURST19 c))) }

/-- CHANNEL_RELEASE (R306). -/
def execChannelRelease (m : Master) (dc : Fin 8) (v : Word) (s : State) : Out :=
  let c := dc.val
  done (s.gate m (pageDc c) (fun t =>
    if bit v 0 = false then t
    else if t.chanState c = 2 then (t.clearCapture c).startTraining c
    else t.drop (pageDc c)))

/-- The queue of a subchannel. -/
def Dram.queue (d : Dram) (sub : Bool) : List DramReq := if sub then d.queueB else d.queueA

/-- Set the queue of a subchannel. -/
def Dram.setQueue (d : Dram) (sub : Bool) (q : List DramReq) : Dram :=
  if sub then { d with queueB := q } else { d with queueA := q }

/-- The number of a bank: subchannel, rank, group and bank. -/
def DramLoc.bankKey (l : DramLoc) : Nat := ((l.sub * 2 + l.rank) * 8 + l.group) * 4 + l.bank

/-- Count an activation of a bank (R297): where the rolling count reaches RAAIMT a refresh management command goes to the
bank before its next activation. -/
def State.activate (s : State) (c offset : Nat) : State :=
  let k := (dramLoc (s.reg (Reg.DC_CFG c)) offset).bankKey
  let d := s.dram c
  let n := mapGetD d.activations k 0
  let lim := 40 + Config.raaimtOver c
  let s1 := if lim ≤ n then s.tally (Reg.DC_RFM_ISSUED c) else s
  let n1 := if lim ≤ n then n - lim else n
  s1.setDram c { d with activations := tblSet 0 k (n1 + 1) d.activations }

/-- A request opens its row, unless its bank has it open, and leaves it as the page hint says (R296). -/
def State.openRow (s : State) (c offset : Nat) (keep : Bool) : State :=
  let l := dramLoc (s.reg (Reg.DC_CFG c)) offset
  let s1 := if mapGet (s.dram c).openRows l.bankKey = some l.row then s else s.activate c offset
  let d := s1.dram c
  s1.setDram c { d with openRows := if keep then mapIns l.bankKey l.row d.openRows else mapDel l.bankKey d.openRows }

/-- The rows of banks are closed (R296). -/
def State.closeRows (s : State) (c : Nat) (p : Nat → Bool) : State :=
  s.setDram c { s.dram c with openRows := (s.dram c).openRows.filter (fun e => !p e.1) }

/-- One request of a batch is served (R296, R302, R304, R432); one that meets a channel that is not in service is answered
with an error response. -/
def State.dramServe (s : State) (c : Nat) (r : DramReq) : State :=
  if s.chanServes c = false then s.send (.dramResponse r.initiator.val [] true false)
  else
    let k := c * 2 ^ 34 + r.offset.toNat / 64 * 64
    let s0 := s.openRow c r.offset.toNat r.keepOpen
    match r.write with
    | none =>
      let x := s0.meetErrors .dram [k]
      x.1.send (.dramResponse r.initiator.val (s0.burst k) false (x.2 == 2))
    | some (at_, bs) =>
      let x := if at_ = 0 ∧ 64 ≤ bs.length then (s0, 0) else s0.meetErrors .dram [k]
      if x.2 = 2 then x.1.send (.dramResponse r.initiator.val [] true false)
      else
        let y := pokeList (fun p => some p.addr) { store := .dram, addr := k + at_.toNat } (bs.take (64 - at_.toNat)) x.1.mem
        ({ x.1 with mem := y, upsets := mapDel k x.1.upsets }).send (.dramResponse r.initiator.val [] false false)

/-- A request needs a read, and a write: a write of a part of a burst needs both (R432). -/
def dramNeeds (r : DramReq) : Bool × Bool :=
  match r.write with
  | none => (true, false)
  | some (at_, bs) => (!(decide (at_ = 0) && decide (64 ≤ bs.length)), true)

/-- What is being taken into a batch: reads and writes still free, and the requests taken and left, newest first. -/
structure Batch where
  reads : Nat := 8
  writes : Nat := 8
  taken : List DramReq := []
  left : List DramReq := []

/-- The next request of a queue joins the batch where it is not held and its read and its write find room. -/
def Batch.take (b : Batch) (held : Bool) (r : DramReq) : Batch :=
  let x := dramNeeds r
  if held = true ∨ (x.1 = true ∧ b.reads = 0) ∨ (x.2 = true ∧ b.writes = 0) then { b with left := r :: b.left }
  else { reads := b.reads - (if x.1 then 1 else 0), writes := b.writes - (if x.2 then 1 else 0), taken := r :: b.taken, left := b.left }

/-- The requests of a queue that a batch takes: up to 8 reads, then up to 8 writes, oldest first, none that the spread rule
holds (R296, R297); and the rest. -/
def takeBatch (q : List DramReq) (held : BitVec 32) : List DramReq × List DramReq :=
  let b := q.zipIdx.foldl (fun (a : Batch) x => a.take (held.getLsbD x.2) x.1) {}
  (b.taken.reverse.filter (fun r => r.write.isNone) ++ b.taken.reverse.filter (fun r => r.write.isSome), b.left.reverse)

/-- DRAM_BATCH (R296, R297, R301, R304, R358). `held` marks the queued requests, oldest first, that the bank limiter holds. -/
def execDramBatch (dc : Fin 8) (sub : Bool) (new : List DramReq) (held : BitVec 32) (soft : List SoftError) (s : State) : Out :=
  let c := dc.val
  let s0 := s.addSoft soft
  done (
    if s0.chanServes c = false then new.foldl (fun (a : State) r => (a.countDown c).dramServe c r) s0
    else
      let q := (s0.dram c).queue sub ++ new
      if (s0.dram c).closed then
        (s0.setDram c ((s0.dram c).setQueue sub q)).count (Reg.DC_MAINT_HOLD c) new.length
      else
        let b := takeBatch q held
        let nHeld := (q.zipIdx.filter (fun x => held.getLsbD x.2)).length
        let banks := b.1.map (fun r => (dramLoc (s0.reg (Reg.DC_CFG c)) r.offset.toNat).bankKey)
        b.1.foldl (fun (a : State) r => a.dramServe c r)
          (((s0.setDram c ((s0.dram c).setQueue sub b.2)).closeRows c (fun k => banks.contains k)).count (Reg.DC_SPREAD_HOLD c) nHeld))

/-- 64-byte bursts of one subchannel of a channel (R293, R303). -/
def State.scrubBursts (s : State) (c : Nat) : Nat := dcCapacity (s.reg (Reg.DC_CFG c)) * 2 ^ 30 / 128

/-- One patrol scrub read (R303). -/
def State.patrolScrub (s : State) (c : Nat) (sub : Bool) : State :=
  let d := s.dram c
  let n := if sub then d.scrubB else d.scrubA
  let o := n * 128 + (if sub then 64 else 0)
  let k := c * 2 ^ 34 + o
  let wrap := decide (s.scrubBursts c ≤ n + 1)
  let n1 := if wrap then 0 else n + 1
  let s1 := s.setDram c (if sub then { d with scrubB := n1 } else { d with scrubA := n1 })
  let s2 := if wrap then s1.tally (Reg.DC_SCRUB_PASS c) else s1
  let s3 := s2.openRow c o false
  match mapGet s3.upsets k with
  | none => s3
  | some u =>
    if upsetBad u then s3.freeze c 2 (some o) else ({ s3 with upsets := mapDel k s3.upsets }).tally (Reg.DC_SCRUB_CE c)

/-- REFAB (R296, R297, R303): all banks are closed and the rolling counts fall. Same-bank refreshes of idle banks in its place close
no row; only REFab is said to reduce the counts. A scrub read follows. -/
def execRefab (dc : Fin 8) (sub : Bool) (s : State) (same : Bool := false) : Out :=
  let c := dc.val
  done (if s.chanServes c = false then s
  else
    let d := s.dram c
    let lim := 40 + Config.raaimtOver c
    let mine := fun (k : Nat) => k / 64 == (if sub then 1 else 0)
    let a := (d.activations.map (fun e => if mine e.1 then (e.1, e.2 - lim) else e)).filter (fun e => e.2 ≠ 0)
    let s1 := if same then s else (s.setDram c { d with activations := a }).closeRows c mine
    if d.closed then s1 else s1.patrolScrub c sub)

/-- ALERT_N (R304). -/
def execAlertN (dc : Fin 8) (s : State) : Out :=
  done (if s.chanState dc.val = 1 then s.freeze dc.val 3 none else s)

/-- The highest row of a channel (R301). -/
def topRow (cfg : Word) : Nat :=
  let g := if bit cfg 3 then 2 else 3
  dcCapacity cfg * 2 ^ 30 / 2 ^ (if bit cfg 6 then 16 + g else 15 + g) - 1

/-- Latent errors of a channel's sweep row (R301): the highest row of bank 0 of each subchannel and rank. -/
def State.sweepErrors (s : State) (c : Nat) : List (Nat × Upset) :=
  let cfg := s.reg (Reg.DC_CFG c)
  s.upsets.filter (fun e => flatIsDram e.1 && decide (e.1 / 2 ^ 34 = c) &&
    (let l := dramLoc cfg (e.1 % 2 ^ 34)
     decide (l.group = 0) && decide (l.bank = 0) && decide (l.row = topRow cfg)))

/-- The reading of the sweep row with correction, and its write-back (R301, R302); a freeze abandons it. -/
def State.sweepRow (s : State) (c : Nat) : State :=
  (s.sweepErrors c).foldl (fun (a : State) e =>
    if a.chanState c ≠ 1 then a
    else if upsetBad e.2 then a.freeze c 1 (some (e.1 % 2 ^ 34))
    else ({ a with upsets := mapDel e.1 a.upsets }).dramCe e.1) s

/-- A DC MAINT entry starts on a channel (R301). -/
def State.dcMaintStart (s : State) (c : Nat) : State :=
  if s.chanServes c = false then s
  else (s.setDram c { s.dram c with closed := true, sweepSaved := true, openRows := [] }).sweepRow c

/-- DC_MAINT_ENTRY (R301). -/
def execDcMaintEntry (i : EntryIx) (s : State) : Out :=
  done (match s.entryFor i.val 0x28 0x2F 8 with
    | some e => s.dcMaintStart (e.unit - 0x28)
    | none => s)

/-- The taps of a sweep of 8 taps on either side of a tap (R301). -/
def nearTaps (m : BitVec 128) (tap : Nat) : BitVec 128 :=
  m &&& (BitVec.ofNat 128 (2 ^ (tap + 9) - 2 ^ (tap - 8)))

/-- The middle of the widest run, the present value where nothing passes. -/
def middleOr (m : BitVec 128) (now : Nat) : Nat := if m = 0 then now else middle (widest m)

/-- What re-centring sets a lane to (R301): each sweep has 8 taps on either side of the current tap. -/
def State.recentred (s : State) (c : Nat) (lanes : List LaneSweep) (x : LaneSweep) : LaneVal :=
  let w := s.reg (Reg.DC_LANE_VAL c (laneIx x))
  let r := nearTaps x.read (bits w 6 0)
  { read := middleOr r (bits w 6 0)
    write := middleOr (nearTaps x.write (bits w 14 8)) (bits w 14 8)
    eye := if r = 0 then bits w 22 16 else (widest r).2
    vref := middleOr (vrefPass (s.reg (Reg.DC_CFG c)) lanes x.lane x.sub x.rank) (bits w 30 24) }

/-- DC_MAINT_END (R301): new delays applied, the channel reopens. -/
def execDcMaintEnd (dc : Fin 8) (lanes : List LaneSweep) (s : State) : Out :=
  let c := dc.val
  done (if (s.dram c).closed = false then s
  else
    let vs := lanes.map (fun x => (laneIx x, s.recentred c lanes x))
    let moved := (vs.filter (fun x => decide (s.reg (Reg.DC_LANE_VAL c x.1) ≠ laneWord x.2))).length
    ((s.applyLanes c vs).count (Reg.DC_RECENTRE_MOVE c) moved).setDram c { s.dram c with closed := false, sweepSaved := false })

/-- RECENTRE_LATE (R301). -/
def execRecentreLate (dc : Fin 8) (s : State) : Out :=
  done (if s.chanState dc.val = 1 then (s.tally (Reg.DC_RECENTRE_LATE dc.val)).event (pageDc dc.val) 4 else s)

end Sys2Proof.Machine
end

