-- ==== Sys2Proof/Machine/Fabric.lean ====
section
/-!
DEFINITION. The fabric's ports and their arbitration (R8 to R10, R277), the regulators (R46, R47), and the scratchpad banks
(R276). The manual numbers no ports; DESIGN CHOICE (notes/assumptions/78.md), in the order of the table of R8: 0 to 7 clusters,
8 to 11 common store, 12 to 19 DRAM channels, 20 and 21 media, 22 TAU, 23 BPM, 24 PCIe, 25 Ethernet, 26 MGC.
-/
namespace Sys2Proof.Machine

/-- The pieces of a request that crosses boundaries of 256 bytes (R9, R277). -/
def fabPieces (r : FabReq) : List FabReq :=
  (requestsOf r.ptr r.bytes).map (fun q =>
    let lo := max q.addr r.ptr.addr
    let hi := min (q.addr + 256) (r.ptr.addr + r.bytes)
    { r with ptr := ptrAdd r.ptr (lo - r.ptr.addr), bytes := hi - lo
             write := r.write.map (fun d => (d.drop (lo - r.ptr.addr)).take (hi - lo)) })

/-- The port that serves an address (R8, R277): none where no port does. The video store's requests take the first of the media
block's two ports; DESIGN CHOICE (notes/assumptions/78.md). -/
def State.fabPort (s : State) (p : Ptr) : Option Nat :=
  match p.store with
  | .spad c => some c.val
  | .common => some (8 + p.addr / 256 % 4)
  | .dram => (s.dramPlace p.addr).map (fun x => 12 + x.1)
  | .video => some 20
  | .mgcMem => some 26
  | .secure => some 26

/-- The first waiting request of a target in round-robin order after the port granted last (R10). The order is that of the port
numbers above, a DESIGN CHOICE (notes/assumptions/78.md). -/
def rrPick (last : Nat) (ws : List FabReq) : Option FabReq :=
  (List.range 27).findSome? (fun d => ws.find? (fun r => r.initiator.val = (last + 1 + d) % 27))

/-- A cluster's request reaches a DRAM channel outside its stall's pitch: the stall (R46). -/
def State.outsidePitch (s : State) (r : FabReq) : Option Nat :=
  if r.initiator.val < 8 ∧ r.ptr.store = .dram then
    match s.clusterStall r.initiator.val, s.touched r.ptr r.bytes with
    | some st, some cs =>
      if cs.all (fun c => (bits (s.reg (Reg.STALL_PITCH st)) 7 0).testBit c) then none else some st
    | _, _ => none
  else none

/-- Only the MGC reaches the secure store, and only the MGC writes the ledger banks (R274, R275). -/
def fabProtected (r : FabReq) : Bool :=
  r.initiator.val ≠ 26 &&
  (r.ptr.store = .secure || (r.ptr.store = .common && r.write.isSome && decide (0x2E00000 < r.ptr.addr + r.bytes)))

/-- The bursts of a granted DRAM request, as its channel receives them; the MGC's always close their row (R296). -/
def dramBursts (r : FabReq) (o : Nat) : List DramReq :=
  let n := (o % 64 + r.bytes + 63) / 64
  (List.range n).map (fun i =>
    let b := o / 64 * 64 + 64 * i
    let lo := if i = 0 then o % 64 else 0
    let skip := if i = 0 then 0 else 64 * i - o % 64
    { offset := BitVec.ofNat 34 b
      write := r.write.map (fun d => (BitVec.ofNat 6 lo, (d.drop skip).take (64 - lo)))
      initiator := r.initiator
      keepOpen := r.keepOpen && decide (r.initiator ≠ 26) })

/-- A granted DRAM request joins its channel's queues, or is answered at once (R294, R301, R304, R358). -/
def State.fabDram (s : State) (r : FabReq) : State :=
  match s.dramPlace r.ptr.addr with
  | none => (s.tally Reg.MAP_MAP_MISS).send (.fabricResponse r.initiator.val [] true false)
  | some (c, o) =>
    if s.chanServes c = false then (s.countDown c).send (.fabricResponse r.initiator.val [] true false)
    else
      let bs := dramBursts r o
      let d := s.dram c
      let s1 := s.setDram c { d with
        queueA := d.queueA ++ bs.filter (fun b => !b.offset.getLsbD 6)
        queueB := d.queueB ++ bs.filter (fun b => b.offset.getLsbD 6) }
      if d.closed then s1.tally (Reg.DC_MAINT_HOLD c) else s1

/-- A granted request is served by its target. -/
def State.fabServe (s : State) (r : FabReq) : State :=
  match s.outsidePitch r with
  | some st => (s.jobFault st 6).send (.fabricResponse r.initiator.val [] true false)
  | none =>
    if fabProtected r then s.send (.fabricResponse r.initiator.val [] true false)
    else if r.ptr.store = .dram then s.fabDram r
    else
      match r.write with
      | none =>
        let x := s.read r.ptr r.bytes
        x.st.send (.fabricResponse r.initiator.val x.data (x.status == 1) (x.status == 2))
      | some d =>
        let x := s.write r.ptr d
        x.st.send (.fabricResponse r.initiator.val [] (x.status == 1) false)

/-- A new request arrives at the port that its address names; one that no port serves is answered at once (R294). One to a store
that is being cleared counts in HELD (R280). -/
def State.fabArrive (s : State) (r : FabReq) : State :=
  match s.fabPort r.ptr with
  | none => (s.tally Reg.MAP_MAP_MISS).send (.fabricResponse r.initiator.val [] true false)
  | some t =>
    let s1 := { s with fabric := { s.fabric with waiting := s.fabric.waiting ++ [(t, r)] } }
    if s.storeClearing r.ptr.store then s1.storeTally r.ptr.store 0xE08 else s1

/-- The new requests arrive, in pieces of at most 256 bytes (R9). -/
def State.fabArrivals (s : State) (new : List FabReq) : State :=
  (new.flatMap fabPieces).foldl (fun (a : State) r => a.fabArrive r) s

/-- FABRIC_GRANT (R10, R280): a request to a store that is being cleared stays at its port. -/
def execFabricGrant (target : Fin 27) (new : List FabReq) (s : State) : Out :=
  let t := target.val
  let s0 := s.fabArrivals new
  let here := (s0.fabric.waiting.filter (fun x => x.1 == t && !s0.storeClearing x.2.ptr.store)).map Prod.snd
  done (match rrPick (mapGetD s0.fabric.last t 26) here with
    | none => s0
    | some r =>
      { s0 with fabric := { s0.fabric with
          last := mapIns t r.initiator.val s0.fabric.last
          waiting := s0.fabric.waiting.erase (t, r) } }.fabServe r)

/-- RATE, DEPTH and P of a regulator's bucket (R46, R47): effective rates. -/
def State.regulator (s : State) (r : Regulator) (chan : Option (Fin 8)) : Nat × Nat × Nat :=
  let spread := if chan.isSome then 8 else 1
  match r with
  | .stallDram st => (min (s.regN (Reg.STALL_DRAM_RATE_BUNDLE st.val)) (s.effReg (Reg.STALL_DRAM_RATE st.val)).toNat,
      s.regN (Reg.STALL_DRAM_DEPTH st.val), (maskChannels (bits (s.reg (Reg.STALL_PITCH st.val)) 7 0)).length)
  | .stallFabric st => (min (s.regN (Reg.STALL_FAB_RATE_BUNDLE st.val)) (s.effReg (Reg.STALL_FAB_RATE st.val)).toNat,
      s.regN (Reg.STALL_FAB_DEPTH st.val), 1)
  | .media => (min (s.regN Reg.SHARED_MEDIA_RATE_BUNDLE) (s.effReg Reg.SHARED_MEDIA_RATE).toNat,
      s.regN Reg.SHARED_MEDIA_DEPTH, spread)
  | .hostDma => (min (s.regN Reg.SHARED_HDMA_RATE_BUNDLE) (s.effReg Reg.SHARED_HDMA_RATE).toNat,
      s.regN Reg.SHARED_HDMA_DEPTH, spread)
  | .tau => (min (s.regN Reg.SHARED_TAU_RATE_BUNDLE) (s.effReg Reg.SHARED_TAU_RATE).toNat,
      s.regN Reg.SHARED_TAU_DEPTH, spread)
  | .mgc => (16, 8, spread)

/-- The number of a regulator's bucket: 16 for each regulator, one for each channel and the whole bucket. -/
def bucketKey (r : Regulator) (chan : Option (Fin 8)) : Nat :=
  let c := match chan with
    | some c => c.val
    | none => 8
  let n := match r with
    | .stallDram st => st.val
    | .stallFabric st => 8 + st.val
    | .media => 16
    | .hostDma => 17
    | .tau => 18
    | .mgc => 19
  16 * n + c

/-- CAP of a bucket (R46). -/
def bucketCap (depth p : Nat) : Nat := (depth / p) * 64 * 16 * p

/-- A bucket's tokens: one that is not listed is full. -/
def State.bucket (s : State) (r : Regulator) (chan : Option (Fin 8)) : Nat :=
  let x := s.regulator r chan
  min (mapGetD s.fabric.buckets (bucketKey r chan) (bucketCap x.2.1 x.2.2)) (bucketCap x.2.1 x.2.2)

/-- Set a bucket's tokens; a full one is not listed. -/
def State.setBucket (s : State) (r : Regulator) (chan : Option (Fin 8)) (n : Nat) : State :=
  let x := s.regulator r chan
  { s with fabric := { s.fabric with
      buckets := tblSet (bucketCap x.2.1 x.2.2) (bucketKey r chan) n s.fabric.buckets } }

/-- The tokens after `elapsed` FCLK, before the request takes any (R46). -/
def State.refilled (s : State) (r : Regulator) (chan : Option (Fin 8)) (elapsed : Nat) : Nat :=
  let x := s.regulator r chan
  min (s.bucket r chan + x.1 * elapsed) (bucketCap x.2.1 x.2.2)

/-- The bytes that a regulator charges for a DRAM request of n bytes (R46): a write that covers part of a 64-byte burst counts 128
for it; `at_` is the place of its first byte in its burst. -/
def chargedBytes (write : Bool) (at_ n : Nat) : Nat :=
  if write = true ∧ n ≠ 0 then
    ((List.range ((at_ % 64 + n + 63) / 64)).map (fun i =>
      let lo := max (64 * i) (at_ % 64)
      let hi := min (64 * i + 64) (at_ % 64 + n)
      if hi - lo = 64 then 64 else 128)).sum
  else n

/-- The bytes that REGULATOR_ADMIT charges: buckets before a channel meet DRAM requests (R46, R47). -/
def admitBytes (chan : Option (Fin 8)) (write : Option (BitVec 6)) (n : Nat) : Nat :=
  match chan, write with
  | some _, some at_ => chargedBytes true at_.toNat n
  | _, _ => n

/-- REGULATOR_ADMIT (R46, R47): a request to a channel outside the stall's pitch is refused and its job faults. -/
def execRegulatorAdmit (r : Regulator) (chan : Option (Fin 8)) (bytes elapsed : Nat) (s : State)
    (write : Option (BitVec 6) := none) : Out :=
  let outside := match r, chan with
    | .stallDram st, some c => !(bits (s.reg (Reg.STALL_PITCH st.val)) 7 0).testBit c.val
    | _, _ => false
  done (match r, outside with
    | .stallDram st, true => s.jobFault st.val 6
    | _, _ =>
      let have_ := s.refilled r chan elapsed
      let need := admitBytes chan write bytes * 16 * (s.regulator r chan).2.2
      s.setBucket r chan (if need ≤ have_ then have_ - need else have_))

/-- Insert a request behind those of the same or lower port. -/
def portInsert (r : SpadReq) : List SpadReq → List SpadReq
  | [] => [r]
  | x :: xs => if r.port.val < x.port.val then r :: x :: xs else x :: portInsert r xs

/-- Requests in port order. -/
def portSort (rs : List SpadReq) : List SpadReq := rs.foldl (fun a r => portInsert r a) []

/-- The request that one side of a bank grants (R276): a head request of this ECLK by group and port, else the oldest. -/
def spadPick (side : SpadReq → Bool) (old new : List SpadReq) : Option SpadReq :=
  let heads := (portSort new).filter (fun r => r.head && side r)
  match heads.find? (fun r => r.group.val = 0) with
  | some r => some r
  | none =>
    match heads.find? (fun r => r.group.val = 1) with
    | some r => some r
    | none =>
      match heads with
      | r :: _ => some r
      | [] => (old ++ portSort new).find? side

/-- The first byte of a row of a scratchpad bank (R275). -/
def spadPtr (c : Fin 8) (bank : Fin 32) (row : BitVec 11) : Ptr :=
  { store := .spad c, addr := row.toNat * 4096 + bank.val * 128 }

/-- SCRATCHPAD_GRANT (R276, R279): one read and one write of a bank; the read sees the word as it was before the write. While the
store is cleared on wake no master is granted (R280). -/
def execScratchpadGrant (c : Fin 8) (bank : Fin 32) (new : List SpadReq) (s : State) : Out :=
  let key := c.val * 32 + bank.val
  let old := (s.fabric.spadWaiting.filter (fun x => x.1 == key)).map Prod.snd
  let rest := s.fabric.spadWaiting.filter (fun x => x.1 != key)
  let busy := s.storeClearing (.spad c)
  let rd := if busy then none else spadPick (fun r => r.write.isNone) old new
  let wr := if busy then none else spadPick (fun r => r.write.isSome) old new
  let all_ := old ++ portSort new
  let left := (match rd with
    | some r => all_.erase r
    | none => all_)
  let left2 := (match wr with
    | some r => left.erase r
    | none => left)
  let s0 := { s with fabric := { s.fabric with
    spadWaiting := rest ++ left2.map (fun r => (key, { r with head := false })) } }
  let s1 := match rd with
    | some r =>
      let x := s0.read (spadPtr c bank r.row) 128
      x.st.send (.spadResponse r.port.val x.data (x.status == 2))
    | none => s0
  done (match wr with
    | some { row := w, write := some d, .. } => (s1.write (spadPtr c bank w) (d.take 128)).st
    | _ => s1)

end Sys2Proof.Machine
end

