-- ==== Sys2Proof/Machine/Pcie.lean ====
section
/-!
DEFINITION. The PCIe endpoint's commands (R309 to R325): BAR accesses, configuration, power states, containment.
-/
namespace Sys2Proof.Machine

/-- The bit of CONTAIN_CAUSE[15:8] for a trigger code. -/
def causeBit (code : Nat) : Word := BitVec.ofNat 32 (2 ^ (7 + code))

/-- An episode of containment starts (R321): code, tick number, first trigger. PM_HOLD is not counted in CONTAIN. Reads that
wait for a tag are never issued (R322). -/
def State.startEpisode (s : State) (code : Nat) : State :=
  let s0 : State := { s with ep := { s.ep with waiting := [] } }
  let s1 := s0.setReg Reg.ENDPOINT_CONTAIN (BitVec.ofNat 32 (code + 65536 * (s.tick.toNat % 65536)))
  let s2 := s1.setReg Reg.ENDPOINT_CONTAIN_CAUSE (BitVec.ofNat 32 code ||| (if code ≤ 5 then causeBit code else 0))
  let s3 := s2.event 0x400 1
  if code ≤ 5 then s3.tally Reg.ENDPOINT_CONTAIN_TALLY else s3

/-- A trigger of code 1 to 5 is detected (R321, R323). Its own AER message goes before the freeze; a link that is down carries
none, and a frozen one only completions (R322). -/
def State.trigger (s : State) (code : Nat) : State :=
  if bit (s.reg Reg.ENDPOINT_CONTAIN) 8 then (s.tally Reg.ENDPOINT_RELEASE_CANCEL).startEpisode code
  else if s.frozenLink then s.setReg Reg.ENDPOINT_CONTAIN_CAUSE (s.reg Reg.ENDPOINT_CONTAIN_CAUSE ||| causeBit code)
  else (if code = 1 then s else s.send (.aerMessage code)).startEpisode code

/-- What the Latch step does to containment (R318, R323): an accepted release takes effect, and PM_HOLD ends with the
return to D0. The tick number of the episode's start stays (R325). -/
def State.latchContain (s : State) : State :=
  let c := s.reg Reg.ENDPOINT_CONTAIN
  if bit c 8 ∨ bits c 2 0 = 6 then
    s.setReg Reg.ENDPOINT_CONTAIN ((c &&& 0xFFFF0000) ||| (if s.ep.d3hot then 6 else 0))
  else s

/-- BAR0_BAD (R311, R316). -/
def execBar0Bad (read : Bool) (s : State) : Out :=
  done (if read then
    (match s.hostReadBlocked with
     | some t => t
     | none => (((s.tally Reg.ENDPOINT_BAR0_BAD).tally Reg.ENDPOINT_UR_SENT).send .unsupportedRequest).send .aerUnsupported)
  else
    (match s.hostBlocked 0 with
     | some t => t
     | none => (s.tally Reg.ENDPOINT_BAR0_BAD).send .aerUnsupported))

/-- Entries of the running variant, by index. -/
def State.entries (s : State) : List Entry :=
  if s.bankActive then
    (List.range (s.variantCount s.actBank s.variant)).map (fun i => s.bankEntry s.actBank s.variant i)
  else []

/-- A host-DMA entry occupies the grain (R313). -/
def hdmaAt (es : List Entry) (g : Nat) : Bool :=
  es.any (fun e => e.unit == 0x1F && !e.altOnly && decide (e.start ≤ g) && decide (g < e.start + e.length))

/-- A BAR 2 request is admitted in grain g (R313). -/
def State.apAdmits (s : State) (g : Nat) : Bool :=
  !s.bankActive || !(List.range (bits (s.reg Reg.APERTURE_AP_GUARD) 7 0 + 1)).any (fun d => hdmaAt s.entries (g + d))

/-- A request that is held, for its grain or for tokens, counts once (R313). -/
def State.apHeld (s : State) (held : Bool) : State := if held then s.tally Reg.APERTURE_AP_HELD else s

/-- The host-DMA regulator's tokens that a fabric request takes (R46, R313), and whether it had to wait for them. -/
def State.takeHdma (s : State) (write : Bool) (a n : Nat) : State × Bool :=
  let chan := (s.dramPlace a).map (fun x => Fin.ofNat 8 x.1)
  let have_ := s.bucket .hostDma chan
  let need := (if chan.isSome then chargedBytes write a n else n) * 16 * (s.regulator .hostDma chan).2.2
  (s.setBucket .hostDma chan (have_ - need), decide (have_ < need))

/-- The device address of a BAR 2 offset (R312). -/
def State.apAddr (s : State) (offset : Word) : Nat := bits (s.reg Reg.APERTURE_WIN) 6 0 * 2 ^ 30 + offset.toNat

/-- What a BAR 2 access has come to: the state, whether it was held, its bytes, and its worst answer, an error response (1) before
a poisoned one (2). -/
structure Aperture where
  st : State
  held : Bool
  data : List Byte := []
  status : Nat := 0

/-- The answer of one more fabric request. -/
def Aperture.join (x : Aperture) (held : Bool) (r : Resp) : Aperture :=
  { st := r.st, held := x.held || held, data := x.data ++ r.data
    status := if x.status = 1 ∨ r.status = 1 then 1 else max x.status r.status }

/-- BAR2_READ (R312, R313): fabric requests of at most 256 bytes. -/
def execBar2Read (offset : Word) (n : BitVec 13) (grain : BitVec 18) (s : State) : Out :=
  done (match s.hostReadBlocked with
    | some t => t
    | none =>
      let x := (cutsAt 256 (s.apAddr offset) n.toNat).foldl (fun (a : Aperture) p =>
        let t := a.st.takeHdma false p.1 p.2
        a.join t.2 (t.1.read { store := .dram, addr := p.1 } p.2)) { st := s, held := !s.apAdmits grain.toNat }
      let y := x.st.apHeld x.held
      if x.status = 1 then (y.tally Reg.APERTURE_AP_ERR).send .completerAbort
      else y.send (.memCompletion x.data (x.status == 2)))

/-- The range is in a region record. -/
def regionMeets (rs : List Region) (st : Store) (a n : Nat) : Bool :=
  rs.any (fun r => decide (r.ptr.store = st) && decide (r.base < a + n) && decide (a < r.base + r.size))

/-- The staging address of the loader (R58). -/
def State.loadStage (s : State) : Nat :=
  (s.reg Reg.LOADER_STAGE_BASE_LO &&& 0xFFFFF000).toNat + bits (s.reg Reg.LOADER_STAGE_BASE_HI) 4 0 * 2 ^ 32

/-- Bytes that a load or a bank protects (R59): the staging region while a bank is LOADING, the regions of every bank that
is LOADING, WEIGHED or ACTIVE. -/
def State.protected_ (s : State) (a n : Nat) : Bool :=
  (match s.loader.load with
   | some l => decide (l.base < a + n) && decide (a < l.base + l.len)
   | none => false) ||
  [false, true].any (fun b =>
    (s.bankState b == 1 || s.bankState b == 2 || s.bankState b == 3) && regionMeets (s.bundle b).recs .dram a n)

/-- The staging region of a security command that runs (R382): address and length. -/
def State.secStage (s : State) : Nat :=
  (s.reg Reg.SECURITY_STAGE_BASE_LO &&& 0xFFFFF000).toNat + bits (s.reg Reg.SECURITY_STAGE_BASE_HI) 4 0 * 2 ^ 32

/-- An update image is being copied or checked: bytes of its staging region are protected (R382). -/
def State.secProtected (s : State) (a n : Nat) : Bool :=
  s.sec.cmd == some .update && decide (s.secStage < a + n) && decide (a < s.secStage + s.regN Reg.SECURITY_STAGE_LEN)

/-- BAR2_WRITE (R59, R312, R313, R322, R382). -/
def execBar2Write (offset : Word) (data : List Byte) (grain : BitVec 18) (s : State) : Out :=
  let a := s.apAddr offset
  done (match s.hostBlocked 0 with
    | some t => t
    | none =>
      if s.protected_ a data.length then s.tally Reg.LOADER_STAGE_WRITE_DROP
      else if s.secProtected a data.length then s.tally Reg.SECURITY_STAGE_WRITE_DROP
      else
        let x := (cutsAt 256 a data.length).foldl (fun (b : Aperture) p =>
          let t := b.st.takeHdma true p.1 p.2
          b.join t.2 (t.1.write { store := .dram, addr := p.1 } ((data.drop (p.1 - a)).take p.2)))
          { st := s, held := !s.apAdmits grain.toNat }
        let y := x.st.apHeld x.held
        if x.status = 1 then y.tally Reg.APERTURE_AP_ERR else y)

/-- INTERRUPT_DISABLE (R317): the messages follow in `settle`. -/
def execInterruptDisable (set : Bool) (s : State) : Out :=
  done (if s.ep.perst then s else if s.ep.flr then s.send .crs else { s with ep := { s.ep with intDisable := set } })

/-- D3HOT_ENTRY (R318, R321). -/
def execD3hotEntry (s : State) : Out :=
  done (if s.ep.perst ∨ s.ep.d3hot then s
  else if s.ep.flr then s.send .crs
  else
    let s1 := { s with ep := { s.ep with d3hot := true } }
    if s1.contained then s1 else s1.startEpisode 6)

/-- D0_RETURN (R318, R324): nothing is reset; PM_HOLD ends at the next Latch step. -/
def execD0Return (s : State) : Out :=
  done (if s.ep.perst then s else if s.ep.flr then s.send .crs else { s with ep := { s.ep with d3hot := false } })

/-- An Unsupported Request answer (R316). -/
def State.sendUr (s : State) : State := (s.tally Reg.ENDPOINT_UR_SENT).send .unsupportedRequest

/-- INBOUND_UR (R316). -/
def execInboundUr (k : UrKind) (s : State) : Out :=
  done (if s.ep.perst then s
  else
    match k with
    | .io => s.sendUr
    | .lockedRead => s.sendUr
    | .atomic => s.sendUr
    | .type1Config => if s.ep.flr then s.send .crs else s.sendUr
    | .d3hotMemory posted => if s.ep.d3hot then (if posted then s.send .aerUnsupported else s.sendUr) else s
    | .vendorType1 => s)

/-- The k-th outstanding read has ended, and its tag is free (R315). -/
def State.readEnds (s : State) (k : Nat) : State := { s with ep := { s.ep with reads := s.ep.reads.eraseIdx k } }

/-- A device read waits for a tag: the FCLK for which the oldest has waited count (R315). -/
def State.readWaits (s : State) (waited : Nat) : State :=
  if s.ep.waiting = [] then s else s.count Reg.ENDPOINT_READ_WAIT waited

/-- HOST_COMPLETION (R315, R321, R322): under a freeze the completion is discarded. The tag that it frees goes to the oldest read
that waits. -/
def execHostCompletion (c : CplStatus) (s : State) (k waited : Nat := 0) : Out :=
  done (match c with
  | .ecrcOther => if s.ep.ecrcCheck then s.trigger 4 else s
  | c =>
    if s.ep.reads.length ≤ k then s
    else
      let s0 := (s.readWaits waited).readEnds k
      let s1 := if s.frozenLink then s0.tally Reg.ENDPOINT_CPL_DISCARD else s0
      let s2 :=
        match c with
        | .poisoned => s1.trigger 3
        | .ecrc => if s1.ep.ecrcCheck then s1.trigger 4 else s1
        | .malformed => s1.trigger 5
        | _ => s1
      s2.refillReads)

/-- The Completion Timeout Value in µs (R310): reserved encodings select the default. -/
def cplTimeoutUs (v : BitVec 4) : Nat :=
  if v = 1 then 80 else if v = 2 then 8000 else if v = 5 then 40000 else if v = 6 then 160000 else 20000

/-- COMPLETION_TIMEOUT (R310, R321): an outstanding read ends after more than the Completion Timeout Value. -/
def execCompletionTimeout (s : State) (k us : Nat := 0) : Out :=
  done (if s.ep.reads.length ≤ k ∨ us ≤ cplTimeoutUs s.ep.cplTimeout then s else (s.readEnds k).trigger 2)

/-- LINK_DOWN (R321). -/
def execLinkDown (s : State) : Out :=
  done (if bit (s.reg Reg.ENDPOINT_LINK) 8 then (s.setReg Reg.ENDPOINT_LINK 0).trigger 1 else s)

/-- CONTAIN_RELEASE (R323). -/
def execContainRelease (m : Master) (v : Word) (s : State) : Out :=
  done (s.gate m 0x400 (fun t =>
    if bit v 0 = false then t
    else if bit (t.reg Reg.ENDPOINT_LINK) 8 = true ∧ t.frozenLink = true then t.setField Reg.ENDPOINT_CONTAIN 8 8 1
    else t.drop 0x400))

/-- READ_LIMIT (R315). -/
def execReadLimit (m : Master) (v : Word) (s : State) : Out :=
  done (s.gate m 0x400 (fun t =>
    let n := bits v 9 0
    if 32 ≤ n ∧ n ≤ 768 then t.setReg Reg.ENDPOINT_READ_LIMIT (BitVec.ofNat 32 n) else t.drop 0x400))

/-- The grains of a tick: the period in grains of 1,024 ns, at 1,228.8 FCLK a grain (R24). DESIGN CHOICE, log entry 91: rounded
down where the period is no multiple. -/
def State.tickGrains (s : State) : Nat := s.regN Reg.TICK_PERIOD_US * 1000 / 1024

/-- A host-DMA entry runs now or starts within the next L1_LEAD grains, in this tick or in the next (R319). -/
def State.hdmaSoon (s : State) : Bool :=
  let g := bits (s.reg Reg.TICK_GRAIN) 17 0
  let lead := bits (s.reg Reg.ENDPOINT_L1_LEAD) 11 0
  s.entries.any (fun e => e.unit == 0x1F && !e.altOnly &&
    ((decide (g ≤ e.start) && decide (e.start ≤ g + lead)) || decide (s.tickGrains + e.start ≤ g + lead) ||
      (decide (e.start ≤ g) && decide (g < e.start + e.length))))

/-- L1_ENTRY (R319): substate 0 L1, 1 L1.1, 2 L1.2; 3 is L2. -/
def execL1Entry (substate : Fin 4) (s : State) : Out :=
  done (if bit (s.reg Reg.ENDPOINT_LINK) 8 = false then s
  else if substate.val = 3 then
    { s.setField Reg.ENDPOINT_LINK 11 9 4 with ep := { s.ep with l2 := true } }
  else if s.ep.aspmL1 = true ∧ s.hdmaSoon = false then s.setField Reg.ENDPOINT_LINK 11 9 (substate.val + 1)
  else s)

/-- The link leaves L1 or a substate of it (R319). -/
def State.leaveL1 (s : State) : State :=
  if bits (s.reg Reg.ENDPOINT_LINK) 11 9 ≤ 3 then s.setField Reg.ENDPOINT_LINK 11 9 0 else s

/-- L1_EXIT (R319): for a host-DMA entry, or for traffic that the host starts, which reaches the endpoint in L0. -/
def execL1Exit (i : Option EntryIx) (inL0 : Bool) (s : State) : Out :=
  done (match i with
    | none => s.leaveL1
    | some i =>
      match s.entry i.val with
      | some e =>
        if e.unit = 0x1F then
          (if inL0 then s.leaveL1 else (s.leaveL1.tally Reg.ENDPOINT_L1_LATE).event 0x400 2)
        else s
      | none => s)

/-- CONFIGURATION_WRITE (R310, R314, R315, R317, R319 to R321, R324). -/
def execConfigurationWrite (f : CfgField) (v : BitVec 4) (s : State) : Out :=
  let b := v.getLsbD 0
  done (if s.ep.perst then s
  else if s.ep.flr then s.send .crs
  else
    match f with
    | .memorySpaceEnable => { s with ep := { s.ep with memorySpace := b } }
    | .busMasterEnable => { s with ep := { s.ep with busMaster := b } }.refillReads
    | .extendedTag => { s with ep := { s.ep with extTag := b } }.refillReads
    | .tenBitTag =>
      let s1 := { s with ep := { s.ep with tag10 := b } }
      (if b = true ∧ s.ep.tag10 = false then s1.setReg Reg.ENDPOINT_READ_LIMIT 256 else s1).refillReads
    | .ecrcCheck => { s with ep := { s.ep with ecrcCheck := b } }
    | .pmeEn => { s with ep := { s.ep with pmeEn := b } }
    | .pmeStatus => if b then { s with ep := { s.ep with pmeStatus := false, wakeLow := false } } else s
    | .aspmL1 => { s with ep := { s.ep with aspmL1 := b } }
    | .completionTimeout => { s with ep := { s.ep with cplTimeout := v } }
    | .maxPayload => if h : v.toNat < 3 then { s with ep := { s.ep with maxPayload := ⟨v.toNat, h⟩ } } else s
    | .maxReadRequest => if h : v.toNat < 6 then { s with ep := { s.ep with maxReadRequest := ⟨v.toNat, h⟩ } } else s
    | .bar two hi w =>
      if two then { s with ep := { s.ep with bar2 := if hi then w ++ (0 : Word) else s.ep.bar2 } }
      else { s with ep := { s.ep with bar0 := if hi then w ++ s.ep.bar0.setWidth 32 else s.ep.bar0.extractLsb' 32 32 ++ (w &&& 0xFF000000) } })

/-- A word of an extended capability's header: ID, version 1 and the next one. PRESUMED, log entry 92. -/
def extCap (id next : Nat) : Word := BitVec.ofNat 32 (id + 65536 + next * 2 ^ 20)

/-- Interrupt Status of the Status register follows the host output (R317). -/
def State.intStatus (s : State) : Bool := s.icu.host.output

/-- The words of the configuration header and the capabilities that R310 gives, by offset; none where the rule lists nothing and
the PCI Express specification's default stands. PRESUMED, log entry 92: the places of the fields in their words. -/
def State.cfgWord (s : State) (off : Nat) : Option Word :=
  match off with
  | 0x000 => some 0x64101F6B
  | 0x004 => some (BitVec.ofNat 32 (flagBit s.ep.memorySpace 1 + flagBit s.ep.busMaster 2 + flagBit s.ep.intDisable 10 +
      flagBit s.intStatus 19 + 2 ^ 20))
  | 0x008 => some 0x12000010
  | 0x00C => some 0
  | 0x010 => some (s.ep.bar0.setWidth 32 ||| 4)
  | 0x014 => some (s.ep.bar0.extractLsb' 32 32)
  | 0x018 => some (s.ep.bar2.setWidth 32 ||| 0xC)
  | 0x01C => some (s.ep.bar2.extractLsb' 32 32)
  | 0x020 => some 0
  | 0x024 => some 0
  | 0x02C => some s.sec.fuses.subsys
  | 0x034 => some 0x40
  | 0x03C => some 0x100
  | 0x040 => some 0xC8035001
  | 0x044 => some (BitVec.ofNat 32 ((if s.ep.d3hot then 3 else 0) + 8 + flagBit s.ep.pmeEn 8 + flagBit s.ep.pmeStatus 15))
  | 0x050 => some 0x00020010
  | 0x054 => some 0x10008022
  | 0x058 => some (BitVec.ofNat 32 (s.ep.maxPayload.val * 32 + flagBit s.ep.extTag 8 + s.ep.maxReadRequest.val * 4096))
  | 0x05C => some 0x00000885
  | 0x060 => some (BitVec.ofNat 32 (flagBit s.ep.aspmL1 1 + bits (s.reg Reg.ENDPOINT_LINK) 2 0 * 65536 +
      bits (s.reg Reg.ENDPOINT_LINK) 7 4 * 2 ^ 20))
  | 0x074 => some 0x00030803
  | 0x078 => some (BitVec.ofNat 32 (s.ep.cplTimeout.toNat + flagBit s.ep.tag10 12))
  | 0x100 => some (extCap 0x0001 0x148)
  | 0x148 => some (extCap 0x0003 0x158)
  | 0x14C => some (s.sec.fuses.dsn.setWidth 32)
  | 0x150 => some (s.sec.fuses.dsn.extractLsb' 32 32)
  | 0x158 => some (extCap 0x0019 0x178)
  | 0x178 => some (extCap 0x0025 0x184)
  | 0x184 => some (extCap 0x0026 0x1AC)
  | 0x1AC => some (extCap 0x002A 0x1D0)
  | 0x1D0 => some (extCap 0x0027 0x210)
  | 0x210 => some (extCap 0x0018 0x218)
  | 0x218 => some (extCap 0x001E 0)
  | 0x21C => some 0x0021001F
  | _ => none

/-- FUNCTION_READY (R324). -/
def execFunctionReady (s : State) : Out := done { s with ep := { s.ep with flr := false } }

end Sys2Proof.Machine
end

