-- ==== Sys2Proof/Machine/Security.lean ====
section
/-!
DEFINITION. Fuses, lifecycle, firmware images, records, quotes, tamper and wipe (R375 to R392), with their commands.
-/
namespace Sys2Proof.Machine

/-- The lifecycle state of the fuse pattern (R375): 0 BLANK, 1 PROVISIONED, 2 DEPLOYED, 3 RETURNED. -/
def lcOf (f : BitVec 3) : Nat := if f = 0 then 0 else if f = 1 then 1 else if f = 3 then 2 else 3

/-- The fused lifecycle state. -/
def State.lcFused (s : State) : Nat := lcOf s.sec.fuses.lc

/-- Set bits of a 64-bit thermometer, counted. -/
def popcount64 (x : BitVec 64) : Nat := ((List.range 64).filter (fun i => x.getLsbD i)).length

/-- SVN_MIN (R375). -/
def State.svnMin (s : State) : Nat := popcount64 s.sec.fuses.svnMin

/-- A key slot's hash. -/
def State.keyHash (s : State) (i : Nat) : BitVec 256 := s.sec.fuses.keyHash[i]?.getD 0

/-- A slot is programmed. -/
def State.keyProgrammed (s : State) (i : Nat) : Bool := s.sec.fuses.keyProg.getLsbD i

/-- A slot is spoiled (R376). -/
def State.keySpoiled (s : State) (i : Nat) : Bool := !s.keyProgrammed i && decide (s.keyHash i ≠ 0)

/-- A slot is revoked, or spoiled and so treated as revoked (R376). -/
def State.keyRevoked (s : State) (i : Nat) : Bool := s.sec.fuses.keyRevoked.getLsbD i || s.keySpoiled i

/-- The fuse hash of a slot as the digest of a key is compared with it (R61). -/
def State.keyMatches (s : State) (i : Nat) (pubkey : List Byte) : Bool := decide (Config.shake256 pubkey = s.keyHash i)

/-- The registers that show fuses and security state follow them (R391). -/
def State.syncSec (s : State) : State :=
  let x := s.sec
  let lc := x.lcBoot.toNat + 4 * s.lcFused + (if x.pendingLc then 16 else 0) + (if x.tampered then 32 else 0) +
    (if x.identity then 64 else 0)
  let fw := x.runSvn % 128 + 256 * s.svnMin + 65536 * x.runSlot.toNat + (if x.half then 262144 else 0)
  (s.setReg Reg.SECURITY_LC (BitVec.ofNat 32 lc)).setReg Reg.SECURITY_FW_INFO (BitVec.ofNat 32 fw)

/-- CMD_STATE: code and reason. -/
def State.setCmdState (s : State) (code reason : Nat) : State :=
  s.setReg Reg.SECURITY_CMD_STATE (BitVec.ofNat 32 (code + 256 * reason))

/-- A command ends with a code and reason (R391): event bit 1. -/
def State.endCmd (s : State) (code reason : Nat) : State :=
  ({ s with sec := { s.sec with cmd := none } }.setCmdState code reason).event 0x006 2

/-- The bytes [a, a+n) are all zero. -/
def zeros (d : List Byte) (a n : Nat) : Bool := ((d.drop a).take n).all (fun b => b == 0)

/-- The signature checks against a slot (R376, R381): 0x04 to 0x07, 0 for none. -/
def State.checkSigner (s : State) (slot : Nat) (vendorOnly : Bool) (d : List Byte) (signed sigAt : Nat) : Nat :=
  if (vendorOnly && decide (2 ≤ slot)) || (!s.keyProgrammed slot && !s.keySpoiled slot) then 0x04
  else if s.keyRevoked slot then 0x05
  else if s.keyMatches slot ((d.drop 0x020).take 48) = false then 0x06
  else if Config.slhVerify ((d.drop 0x020).take 48) (d.take signed) ((d.drop sigAt).take 16224) = false then 0x07
  else 0

/-- The checks of a firmware image (R380, R381): the first failure's reason, 0 for none. `len` is FW_LEN or STAGE_LEN. -/
def State.verifyImage (s : State) (d : List Byte) (len : Nat) : Nat :=
  let total := (bytesWord d 0x008).toNat
  let target := bytesWord d 0x014
  let slot := bits (bytesWord d 0x00C) 1 0
  if bytesWord d 0x000 ≠ 0x46574D47 ∨ bytesWord d 0x004 ≠ 1 ∨ bits (bytesWord d 0x00C) 31 2 ≠ 0 ∨
      bits (bytesWord d 0x010) 31 7 ≠ 0 ∨ bits target 31 24 ≠ 0 ∨ zeros d 0x01C 4 = false ∨ zeros d 0x070 16 = false ∨
      zeros d 0x3FE0 32 = false then 0x01
  else if total % 64 ≠ 0 ∨ total < 0x4040 ∨ 786432 < total ∨ total ≠ len then 0x02
  else if bits target 15 0 ≠ 0x6410 ∨ 0x10 < bits target 23 16 then 0x03
  else if s.checkSigner slot true d 0x080 0x080 ≠ 0 then s.checkSigner slot true d 0x080 0x080
  else if Config.shake256 ((d.drop 0x4000).take (total - 0x4000)) ≠ BitVec.ofNat 256 (leNat ((d.drop 0x050).take 32)) then 0x08
  else if bits (bytesWord d 0x010) 6 0 < s.svnMin then 0x09
  else 0

/-- First byte of a half of the image region (R381). -/
def halfPtr (h : Bool) : Ptr := { store := .mgcMem, addr := if h then 0x0C0000 else 0 }

/-- The image in a half. -/
def State.halfBytes (s : State) (h : Bool) : List Byte := s.peeks (halfPtr h) 786432

/-- The image of a half runs: what the MGC keeps of it (R383, R386). -/
def State.runImage (s : State) (h : Bool) : State :=
  let d := s.peeks (halfPtr h) 0x080
  { s with sec := { s.sec with
      half := h
      running := some (bytesWord d 0x018).toNat
      runSlot := BitVec.ofNat 2 (bits (bytesWord d 0x00C) 1 0)
      runSvn := bits (bytesWord d 0x010) 6 0
      fwHash := Config.shake256 d } }

/-- The 64 bits of a word pair as bytes. -/
def dsnBytes (s : State) : List Byte := leBytes 8 s.sec.fuses.dsn.toNat

/-- The identity public key of this device (R385). -/
def State.idPub (s : State) : List Byte := Config.identityKey s.sec.fuses.devSecret s.sec.fuses.dsn

/-- The ROM derives the identity key (R385). -/
def State.deriveIdentity (s : State) : State :=
  if (s.sec.lcBoot = 1 ∨ s.sec.lcBoot = 2) ∧ s.sec.pendingLc = false ∧ s.sec.tampered = false then
    (List.range 8).foldl (fun (a : State) i => a.setReg (Reg.SECURITY_IDPUB0 + 4 * i) (bytesWord s.idPub (4 * i)))
      { s with sec := { s.sec with identity := true } }
  else s

/-- The boot page's event marks a change of BOOT.STATE (R374). -/
def State.bootShows (s t : State) : State :=
  if t.reg Reg.BOOT_STATE = s.reg Reg.BOOT_STATE then t else t.event 0x003 1

/-- BOOT.STATE[3:0] takes a code (R374). -/
def State.setBoot (s : State) (code : Nat) : State := s.bootShows (s.setField Reg.BOOT_STATE 3 0 code)

/-- BOOT.STATE[3:0]. -/
def State.bootCode (s : State) : Nat := bits (s.reg Reg.BOOT_STATE) 3 0

/-- FW_DATA (R369). -/
def execFwData (m : Master) (v : Word) (s : State) : Out :=
  done (s.gate m 0x003 (fun t =>
    let a := t.regN Reg.BOOT_FW_ADDR
    if (t.bootCode = 1 ∨ t.bootCode = 3) ∧ a + 4 ≤ 1572864 then
      (t.pokes { store := .mgcMem, addr := a } (leBytes 4 v.toNat)).setReg Reg.BOOT_FW_ADDR (BitVec.ofNat 32 (a + 4) &&& 0x001FFFFC)
    else t.drop 0x003))

/-- FW_GO (R369). -/
def execFwGo (m : Master) (v : Word) (s : State) : Out :=
  done (s.gate m 0x003 (fun t =>
    if bit v 0 = false then t
    else if t.bootCode ≠ 1 ∧ t.bootCode ≠ 3 then t.drop 0x003
    else if t.regN Reg.BOOT_FW_LEN = 0 then t
    else t.setBoot 2))

/-- FIRMWARE_VERIFY_DONE (R368, R381, R385). -/
def execFirmwareVerifyDone (s : State) : Out :=
  done (if s.bootCode ≠ 2 then s
  else
    let r := s.verifyImage (s.halfBytes false) (s.regN Reg.BOOT_FW_LEN)
    if r = 0 then (((s.runImage false).deriveIdentity).syncSec).setBoot 4
    else (s.setCmdState 5 r).setBoot 3)

/-- A command is refused at its CMD write (R381, R391). -/
def State.refuseCmd (s : State) (reason : Nat) : State := (s.setCmdState 5 reason).event 0x006 2

/-- A CMD written while another command runs (R384): counted; the running command's code stays, the reason shows. -/
def State.cmdBusy (s : State) : State :=
  ((s.setField Reg.SECURITY_CMD_STATE 15 8 0x0C).tally Reg.SECURITY_CMD_REFUSED).event 0x006 2

/-- The staging region lies on a 4 KiB boundary and wholly in populated, trained DRAM (R58, R381). -/
def State.stageInDram (s : State) (base len : Nat) : Bool :=
  base % 4096 == 0 && decide (len ≠ 0) &&
  (match s.touched { store := .dram, addr := base } len with
   | some cs => cs.all (fun c => s.chanState c == 1)
   | none => false)

/-- A command runs, an update "from COPYING to READY" (R384). -/
def State.cmdRuns (s : State) : Bool := s.sec.cmd.isSome || bits (s.reg Reg.SECURITY_CMD_STATE) 2 0 == 3

/-- A write of CMD that reaches firmware: refused while a command runs, else judged (R381, R384). -/
def State.command (s : State) (m : Master) (f : State → State) : State :=
  s.gate m 0x006 (fun t => if t.bootCode ≠ 4 then t else if t.cmdRuns then t.cmdBusy else f t)

/-- FIRMWARE_UPDATE (R382). -/
def execFirmwareUpdate (m : Master) (_arg : Byte) (s : State) : Out :=
  done (s.command m (fun t =>
    if t.stageInDram t.secStage (t.regN Reg.SECURITY_STAGE_LEN) = false then t.refuseCmd 0x0A
    else if t.sec.tampered ∨ t.sec.pendingLc then t.refuseCmd 0x0B
    else { t with sec := { t.sec with cmd := some .update, updLatched := false } }.setCmdState 1 0))

/-- A half of the image region is cleared to zero (R382, R383). -/
def State.clearHalf (s : State) (h : Bool) : State := s.clearRange (halfPtr h) 786432

/-- UPDATE_READY (R382): the copy into the idle half and the checks on it. -/
def execUpdateReady (s : State) : Out :=
  done (if s.sec.cmd ≠ some SecCmd.update then s
  else
    let n := min (s.regN Reg.SECURITY_STAGE_LEN) 786432
    let x := s.read { store := .dram, addr := s.secStage } n
    let h := !s.sec.half
    if x.status ≠ 0 then x.st.endCmd 5 0x0A
    else
      let t := (x.st.clearHalf h).pokes (halfPtr h) x.data
      let r := t.verifyImage (t.halfBytes h) (s.regN Reg.SECURITY_STAGE_LEN)
      if r = 0 then t.endCmd 3 0 else (t.clearHalf h).endCmd 5 r)

/-- What the Latch step of tick k does to a ready update: latched when UPD_TICK is k + 1, else missed (R383). -/
def State.latchUpdate (s : State) : State :=
  if s.reg Reg.SECURITY_UPD_TICK = s.tick + 1 then
    if bits (s.reg Reg.SECURITY_CMD_STATE) 2 0 = 3 then { s with sec := { s.sec with updLatched := true } }
    else s.tally Reg.SECURITY_UPD_MISSED
  else s

/-- The firmware switch at boundary UPD_TICK (R383). -/
def State.firmwareSwitch (s : State) : State :=
  if s.sec.updLatched then
    let old := s.sec.half
    let s1 := s.runImage (!old)
    (((({ s1 with sec := { s1.sec with updLatched := false } }.clearHalf old).tally Reg.SECURITY_UPD_DONE).setCmdState 6 0)).syncSec
  else s

/-- An update that has not switched is cancelled and its half cleared (R383, R387). -/
def State.cancelUpdate (s : State) : State :=
  if s.sec.cmd = some SecCmd.update ∨ bits (s.reg Reg.SECURITY_CMD_STATE) 2 0 = 3 then
    let s1 := s.clearHalf (!s.sec.half)
    { s1 with sec := { s1.sec with cmd := (if s.sec.cmd = some SecCmd.update then none else s.sec.cmd), updLatched := false } }.setCmdState 0 0
  else s

/-- RECORD (R379). -/
def execRecord (m : Master) (_arg : Byte) (s : State) : Out :=
  done (s.command m (fun t =>
    if t.stageInDram t.secStage (t.regN Reg.SECURITY_STAGE_LEN) = false then t.refuseCmd 0x0A
    else if t.sec.tampered ∨ t.sec.pendingLc then t.refuseCmd 0x0B
    else { t with sec := { t.sec with cmd := some .record } }.setCmdState 2 0))

/-- The checks of a record (R379, R381), 0 for none. -/
def State.verifyRecord (s : State) (d : List Byte) (len : Nat) : Nat :=
  let kind := (bytesWord d 0x004).toNat
  let arg := (bytesWord d 0x010).toNat
  let signer := bits (bytesWord d 0x014) 1 0
  let r := s.checkSigner signer false d 0x080 0x080
  if r ≠ 0 then r
  else if kind = 2 ∧ s.lcFused ≠ 2 then 0x0B
  else if len ≠ 16352 ∨ bytesWord d 0x000 ≠ 0x44434552 ∨ (kind ≠ 1 ∧ kind ≠ 2) ∨
      BitVec.ofNat 64 (leNat ((d.drop 0x008).take 8)) ≠ s.sec.fuses.dsn then 0x0D
  else if kind = 1 ∧ (3 < arg ∨ arg / 2 ≠ signer / 2 ∨ arg = signer) then 0x0D
  else if kind = 2 ∧ (arg ≠ 0 ∨ signer < 2) then 0x0D
  else 0

/-- A wipe of the secure store starts, or is merged with one that runs (R388); the identity key goes with it. -/
def State.startWipe (s : State) : State :=
  let s1 := if s.sec.wiping then s else s.tally Reg.SECURITY_WIPES
  let s2 := { s1 with sec := { s1.sec with wiping := true, identity := false } }
  (if s2.sec.quoteHead = [] then s2
   else ({ s2 with sec := { s2.sec with quoteHead := [], quote := [] } }.setReg Reg.SECURITY_QUOTE_STATE 4)).syncSec

/-- RECORD_CHECK_DONE (R378, R379): a good record goes on to its burn, a return by way of the wipe. -/
def execRecordCheckDone (s : State) : Out :=
  done (if s.sec.cmd ≠ some SecCmd.record then s
  else
    let n := min (s.regN Reg.SECURITY_STAGE_LEN) 16352
    let x := s.read { store := .dram, addr := s.secStage } n
    let r := if x.status ≠ 0 then 0x0A else x.st.verifyRecord x.data (s.regN Reg.SECURITY_STAGE_LEN)
    if r ≠ 0 then x.st.endCmd 5 r
    else if (bytesWord x.data 0x004).toNat = 2 then
      ({ x.st with sec := { x.st.sec with cmd := some .returned } }.setCmdState 4 0).startWipe
    else
      { x.st with sec := { x.st.sec with cmd := some (.revoke (bits (bytesWord x.data 0x010) 1 0)) } }.setCmdState 4 0)

/-- An owner slot is programmed and not revoked (R377). -/
def State.ownerSlotReady (s : State) : Bool := [2, 3].any (fun i => s.keyProgrammed i && !s.keyRevoked i)

/-- ADVANCE (R377, R378). -/
def execAdvance (m : Master) (_arg : Byte) (s : State) : Out :=
  done (s.command m (fun t =>
    if t.sec.tampered = true ∨ t.sec.pendingLc = true ∨ 2 ≤ t.lcFused ∨ (t.lcFused = 0 ∧ t.ownerSlotReady = false) then t.refuseCmd 0x0B
    else ({ t with sec := { t.sec with cmd := some .advance } }.setCmdState 4 0).startWipe))

/-- RAISE_SVN_MIN (R384). -/
def execRaiseSvnMin (m : Master) (arg : Byte) (s : State) : Out :=
  done (s.command m (fun t =>
    if t.sec.runSvn < arg.toNat then t.refuseCmd 0x09
    else if arg.toNat ≤ t.svnMin then t.endCmd 6 0
    else { t with sec := { t.sec with cmd := some (.raise arg.toNat) } }.setCmdState 4 0))

/-- KEY_PROG (R376). -/
def execKeyProg (m : Master) (v : Word) (s : State) : Out :=
  done (s.gate m 0x007 (fun t =>
    let i := bits (t.reg Reg.FUSE_KEY_SEL) 1 0
    if bit v 0 = false then t
    else if i < 2 ∨ 2 ≤ t.lcFused ∨ t.keyHash i ≠ 0 ∨ t.keyProgrammed i = true ∨ t.sec.fuses.keyRevoked.getLsbD i = true ∨
        t.sec.cmd ≠ none then t.tally Reg.FUSE_KEY_REFUSED
    else { t with sec := { t.sec with cmd := some (.keyProg i) } }))

/-- A fuse read-back has failed (R376, R378). -/
def State.fuseFail (s : State) : State := (s.tally Reg.FUSE_FUSE_FAIL).event 0x007 1

/-- The hash in KEY_HASH0 to 7. -/
def State.keyHashReg (s : State) : BitVec 256 :=
  BitVec.ofNat 256 (leNat (wordBytes ((List.range 8).map (fun i => s.reg (Reg.FUSE_KEY_HASH0 + 4 * i)))))

/-- The fuses after a lifecycle burn: the next bit of the thermometer (R375). -/
def nextLc (f : BitVec 3) : BitVec 3 := if f = 0 then 1 else if f = 1 then 3 else 7

/-- Slot i with some of its hash bits burnt, KEY_PROG burnt or not (R376). -/
def Fuses.burnKey (f : Fuses) (i : Nat) (hash : BitVec 256) (prog : Bool) : Fuses :=
  { f with
    keyHash := f.keyHash.setIfInBounds i hash
    keyProg := if prog then f.keyProg ||| BitVec.ofNat 4 (2 ^ i) else f.keyProg }

/-- KEY_REVOKED of slot i is burnt (R375). -/
def Fuses.burnRevoked (f : Fuses) (i : Nat) : Fuses := { f with keyRevoked := f.keyRevoked ||| BitVec.ofNat 4 (2 ^ i) }

/-- Bits of SVN_MIN up to n are burnt where the mask has a 1 (R375, R384). -/
def Fuses.burnSvn (f : Fuses) (n : Nat) (mask : BitVec 64) : Fuses :=
  { f with svnMin := f.svnMin ||| (BitVec.ofNat 64 (2 ^ n - 1) &&& mask) }

/-- The fuses change. -/
def State.setFuses (s : State) (f : Fuses) : State := { s with sec := { s.sec with fuses := f } }

/-- A burn that fails its read-back ends the command with reason 0x0E (R378, R381). -/
def State.burnRefused (s : State) : State := (s.fuseFail).endCmd 5 0x0E

/-- FUSE_BURN_DONE (R376, R378, R384). A lifecycle bit is burnt only after the wipe has ended. Which bits of a hash or of SVN_MIN are
burnt after a failed read-back is open: free values (notes/assumptions/96.md). -/
def execFuseBurnDone (readBackOk : Bool) (s : State) : Out :=
  let f := s.sec.fuses
  let lcBurn : State :=
    if s.sec.wiping then s
    else if readBackOk then
      ({ s with sec := { s.sec with fuses := { f with lc := nextLc f.lc }, pendingLc := true } }.endCmd 6 0).syncSec
    else s.burnRefused
  done (match s.sec.cmd with
    | some .advance => lcBurn
    | some .returned => lcBurn
    | some (.raise n) =>
      if readBackOk then ((s.setFuses (f.burnSvn n (BitVec.allOnes 64))).endCmd 6 0).syncSec
      else
        let x := s.frees 2
        ((x.2.setFuses (f.burnSvn n (BitVec.ofNat 64 x.1))).burnRefused).syncSec
    | some (.revoke i) => if readBackOk then (s.setFuses (f.burnRevoked i)).endCmd 6 0 else s.burnRefused
    | some (.keyProg i) =>
      if readBackOk then { s with sec := { s.sec with fuses := f.burnKey i s.keyHashReg true, cmd := none } }
      else
        let x := s.frees 9
        { x.2 with sec := { x.2.sec with
            fuses := (f.burnKey i (s.keyHashReg &&& BitVec.ofNat 256 x.1) (x.1.testBit 256)).burnRevoked i
            cmd := none } }.fuseFail
    | _ => s)

/-- A reset interrupts the command that runs (R376, R378): a burn leaves its bits burnt or not, by free values
(notes/assumptions/96.md); a key slot is left programmed or spoiled. A wipe that runs leaves the lifecycle bit unburnt. -/
def State.interruptCmd (s : State) : State :=
  let f := s.sec.fuses
  let lcBurn : State :=
    if s.sec.wiping then s
    else
      let x := s.frees 1
      x.2.setFuses (if x.1.testBit 0 then { f with lc := nextLc f.lc } else f)
  let t := match s.sec.cmd with
    | some .advance => lcBurn
    | some .returned => lcBurn
    | some (.raise n) => (s.frees 2).2.setFuses (f.burnSvn n (BitVec.ofNat 64 (s.frees 2).1))
    | some (.revoke i) => (s.frees 1).2.setFuses (if (s.frees 1).1.testBit 0 then f.burnRevoked i else f)
    | some (.keyProg i) =>
      let x := s.frees 9
      let part := s.keyHashReg &&& BitVec.ofNat 256 x.1
      x.2.setFuses (if x.1.testBit 256 ∨ s.keyHashReg = 0 then f.burnKey i s.keyHashReg true
        else f.burnKey i (if part = 0 then s.keyHashReg else part) false)
    | _ => s
  let code := bits (t.reg Reg.SECURITY_CMD_STATE) 2 0
  let u := if 1 ≤ code ∧ code ≤ 4 then t.setCmdState 0 0 else t
  { u with sec := { u.sec with cmd := none } }

/-- The 4,096 LOCK words in page order, as bytes (R386). -/
def State.lockBytes (s : State) : List Byte :=
  (List.range 4096).flatMap (fun p => leBytes 4 (if (pageDesc p).isSome then s.regN (Reg.LOCK p) else 0))

/-- The hash of a bank's bundle header; zero where the bank is neither WEIGHED nor ACTIVE (R386). -/
def State.bundleHash (s : State) (b : Bool) : List Byte :=
  if s.bankState b = 2 ∨ s.bankState b = 3 then leBytes 32 (Config.shake256 (s.bundle b).header).toNat
  else List.replicate 32 0

/-- Bytes 0x000 to 0x0FF of a quote (R386). -/
def State.quoteBytes (s : State) : List Byte :=
  let lc := bits (s.reg Reg.SECURITY_LC) 4 0
  let fuse := s.sec.runSvn % 128 + 256 * s.svnMin + 65536 * s.sec.fuses.keyProg.toNat + 2 ^ 20 * s.sec.fuses.keyRevoked.toNat
  leBytes 4 0x51545A56 ++ leBytes 4 1 ++ leBytes 4 17344 ++ leBytes 4 lc ++
  leBytes 4 (bits (s.reg Reg.SYSTEM_NODE) 9 0) ++ leBytes 4 s.tick.toNat ++ dsnBytes s ++
  wordBytes ((List.range 8).map (fun i => s.reg (Reg.SECURITY_NONCE0 + 4 * i))) ++
  leBytes 32 s.sec.fwHash.toNat ++ s.bundleHash false ++ s.bundleHash true ++
  leBytes 32 (Config.shake256 s.lockBytes).toNat ++ leBytes 32 (leNat s.idPub) ++
  leBytes 4 (s.regN Reg.LEDGER_ACTIVE) ++ leBytes 4 fuse ++ List.replicate 24 0

/-- QUOTE_REQ (R386, R387). -/
def execQuoteReq (m : Master) (v : Word) (s : State) : Out :=
  done (s.gate m 0x006 (fun t =>
    if bit v 0 = false then t
    else if t.sec.identity = false ∨ t.sec.quoteHead ≠ [] ∨ t.sec.wiping = true ∨ t.sec.tampered = true ∨ t.sec.pendingLc = true then
      ((t.tally Reg.SECURITY_QUOTE_REFUSED).setReg Reg.SECURITY_QUOTE_STATE 3).event 0x006 4
    else
      { t with sec := { t.sec with quoteHead := t.quoteBytes, quote := [] } }.setReg Reg.SECURITY_QUOTE_STATE 1))

/-- QUOTE_DONE (R386). -/
def execQuoteDone (s : State) : Out :=
  done (if s.sec.quoteHead = [] then s
  else
    let q := s.sec.quoteHead ++ Config.quoteSignature s.sec.fuses.devSecret s.sec.fuses.dsn s.sec.quoteHead
    (({ s with sec := { s.sec with quote := q, quoteHead := [] } }.setReg Reg.SECURITY_QUOTE_STATE 2).tally
      Reg.SECURITY_QUOTES).event 0x006 4)

/-- The word that QUOTE_DATA reads (R391): readable only while the quote is READY. -/
def State.quoteWord (s : State) : Word :=
  if bits (s.reg Reg.SECURITY_QUOTE_STATE) 2 0 = 2 then bytesWord s.sec.quote (4 * s.regN Reg.SECURITY_QUOTE_PTR) else 0

/-- QUOTE_DATA (R391, R414). -/
def execQuoteData (m : Master) (s : State) : Out :=
  done (s.readGate m 0x006 s.quoteWord (fun t =>
    t.setReg Reg.SECURITY_QUOTE_PTR (BitVec.ofNat 32 ((t.regN Reg.SECURITY_QUOTE_PTR + 1) % 8192))))

/-- TAMPER (R387, R388). Every source acts alike. -/
def execTamper (_src : TamperSource) (s : State) : Out :=
  let s0 := s.cancelUpdate
  let s1 := { s0 with sec := { s0.sec with tampered := true } }
  done (((s1.startWipe).tally Reg.SECURITY_TAMPER).event 0x006 1)

/-- A wipe ends (R282, R388): the secure store is zero, and its scrub restarts from unit 0 (R395). -/
def State.wipeEnds (s : State) : State :=
  { s.clearRange { store := .secure, addr := 0 } 0x40000 with
    sec := { s.sec with wiping := false }
    svc := { s.svc with
      scrub := s.svc.scrub.filter (fun e => decide (e.1 < 980))
      writeback := s.svc.writeback.filter (fun e => decide (e.2 < 980)) } }

/-- WIPE_DONE (R282, R388). -/
def execWipeDone (s : State) : Out := done (if s.sec.wiping then s.wipeEnds else s)

end Sys2Proof.Machine
end

