-- ==== Sys2Proof/Machine/Power.lean ====
section
/-!
DEFINITION. Power domains, clearing on wake, deep idle, the thermal and power monitors (R280, R281, R357 to R365).
-/
namespace Sys2Proof.Machine

/-- Entries of every variant of a bank. -/
def State.bankEntries (s : State) (b : Bool) : List Entry :=
  (List.range (bits (s.bankWord b 0x010) 2 0)).flatMap (fun v =>
    (List.range (s.variantCount b v)).map (fun i => s.bankEntry b v i))

/-- The bank is ACTIVE or WEIGHED. -/
def State.bankCounts (s : State) (b : Bool) : Bool := s.bankState b == 2 || s.bankState b == 3

/-- A bank names a DRAM channel by a region or a pitch (R359); pools lie in regions. -/
def State.bankNamesChannel (s : State) (b : Bool) (c : Nat) : Bool :=
  (s.bundle b).recs.any (fun r => r.store == 0 && (s.rangeChannels r.base r.size).contains c) ||
  (List.range 8).any (fun st => (s.stallMasks b st).2.testBit c)

/-- A bank names a domain (R359). -/
def State.bankNames (s : State) (b : Bool) (d : Nat) : Bool :=
  if d < 8 then (List.range 8).any (fun st => (s.stallMasks b st).1.testBit d)
  else if d < 16 then (s.bankEntries b).any (fun e => e.unit == 0x10 + (d - 8))
  else if d < 18 then (s.bankEntries b).any (fun e => e.unit == 0x18 + (d - 16))
  else if d < 22 then (s.bankEntries b).any (fun e => e.unit == 0x1A + (d - 18))
  else if d = 22 then (s.bankEntries b).any (fun e => e.unit == 0x20 && e.action == 9)
  else if d = 24 then
    (s.bundle b).recs.any (fun r => r.store == 1)
  else if 25 ≤ d then s.bankNamesChannel b (2 * (d - 25)) || s.bankNamesChannel b (2 * (d - 25) + 1)
  else false

/-- A request to put a domain in retention or off is refused (R281, R359). -/
def State.powerHeld (s : State) (d : Nat) : Bool :=
  if d = 24 then s.bankState false != 0 || s.bankState true != 0
  else if d = 23 then bit (s.reg (Reg.DOMAIN_CFG 0)) 0 || bit (s.reg (Reg.DOMAIN_CFG 1)) 0
  else
    [false, true].any (fun b => s.bankCounts b && s.bankNames b d) ||
    (decide (25 ≤ d) && (s.chanState (2 * (d - 25)) == 3 || s.chanState (2 * (d - 25) + 1) == 3))

/-- The page that counts refusals of a domain (the table before R357). -/
def domainPage (d : Nat) : Nat :=
  if d < 8 then pageCluster d
  else if d < 16 then pageVd (d - 8)
  else if d < 18 then pageVe (d - 16)
  else if d < 22 then pagePp (d - 18)
  else if d = 22 then pageCsi 0
  else if d = 23 then pageEp 0
  else if d = 24 then 0x319
  else pageDc (2 * (d - 25))

/-- The state a domain is in or goes to. -/
def State.domTarget (s : State) (d : Nat) : Nat :=
  match mapGet s.power.queued d with
  | some q => q
  | none =>
    match mapGet s.power.moving d with
    | some q => q
    | none => s.domState d

/-- An accepted request: taken now, or when the transition in progress ends, the last one only (R359). -/
def State.requestDomain (s : State) (d r : Nat) : State :=
  if (mapGet s.power.moving d).isSome then { s with power := { s.power with queued := mapIns d r s.power.queued } }
  else if s.domState d = r then s
  else { s with power := { s.power with moving := mapIns d r s.power.moving } }

/-- The MGC keeps the cluster of a domain off: neither the active bank nor a WEIGHED one assigns it (R38). -/
def State.keptOff (s : State) (d : Nat) : Bool := decide (d < 8) && !([false, true].any (fun b => s.bankCounts b && s.bankNames b d))

/-- A request for a domain's state is refused (R38, R281, R359, R362). A cluster that the MGC keeps off is not turned on by
PWR.REQ (DESIGN CHOICE, log 89: the request counts as a refused one). -/
def State.powerRefused (s : State) (d r : Nat) : Bool :=
  s.power.tripped || (decide (r < 2) && s.powerHeld d) || (decide (r = 2) && s.keptOff d)

/-- One domain's field of a PWR.REQ write (R359, R362): a field that asks for the state the domain has, or goes to, requests nothing. -/
def State.powerField (s : State) (k d r : Nat) : State :=
  if r = 3 then s
  else if s.domTarget d = r then (if s.power.tripped then s else s.setField k (2 * (d % 16) + 1) (2 * (d % 16)) r)
  else if s.powerRefused d r then s.drop (domainPage d)
  else (s.setField k (2 * (d % 16) + 1) (2 * (d % 16)) r).requestDomain d r

/-- PWR_REQ (R281, R359, R362, R374): REQ1 if `hi`, else REQ0. -/
def execPwrReq (m : Master) (hi : Bool) (v : Word) (s : State) : Out :=
  done (s.gate m 0x004 (fun t =>
    (List.range (if hi then 13 else 16)).foldl (fun (a : State) i =>
      a.powerField (if hi then Reg.POWER_REQ1 else Reg.POWER_REQ0) (i + (if hi then 16 else 0)) (bits v (2 * i + 1) (2 * i))) t))

/-- CLEAR_STATE of a store's page: running and cleared bits (R292). -/
def State.setClearState (s : State) (page : Nat) (running cleared : Bool) : State :=
  s.setReg (Reg.STORE_CLEAR_STATE page) (BitVec.ofNat 32 ((if running then 1 else 0) + (if cleared then 2 else 0)))

/-- What a cluster holds is lost or cleared (R91, R280); the time of its last rotation is the MGC's (R398), its clamp
level the monitors' (R361). -/
def State.clearCluster (s : State) (c : Nat) : State :=
  let s1 := (s.clearAcc c).setCluster c {
    lastRot := (s.cluster c).lastRot, clampHigh := (s.cluster c).clampHigh
    clampNext := (s.cluster c).clampNext, clampNow := (s.cluster c).clampNext, clampBelow := (s.cluster c).clampBelow }
  let s2 := (clusterEngines c).foldl (fun (a : State) e => a.setEngine e {}) s1
  s2.clearRange { store := .spad (Fin.ofNat 8 c), addr := 0 } 0x800000

/-- The domain of a scrubbed bank (R274, R393): 256 scratchpad banks, then ten for each engine, 64 of the common store, then
those of the always-on stores. -/
def bankDomain (b : Nat) : Option Nat :=
  if b < 256 then some (b / 32)
  else if b < 896 then some ((b - 256) / 80)
  else if b < 960 then some 24
  else none

/-- A domain's scrub starts from its start on wake from off (R393). -/
def State.dropScrub (s : State) (d : Nat) : State :=
  { s with svc := { s.svc with
    scrub := s.svc.scrub.filter (fun e => decide (bankDomain e.1 ≠ some d))
    writeback := s.svc.writeback.filter (fun e => decide (bankDomain e.2 ≠ some d)) } }

/-- The page of the decoder, encoder or pre-processing unit of a domain. -/
def mediaUnitPage (d : Nat) : Option Nat :=
  if d < 8 then none
  else if d < 16 then some (pageVd (d - 8))
  else if d < 18 then some (pageVe (d - 16))
  else if d < 22 then some (pagePp (d - 18))
  else none

/-- A media unit has nothing in work: STATUS off or idle, and no current record or budget (R203, R227, R273). -/
def State.unitRests (s : State) (d : Nat) (on : Bool) : State :=
  match mediaUnitPage d with
  | some p => ((s.setReg (Reg.STATUS p) (if on then 1 else 0)).setReg (rkey p 0x100) 0).setReg (rkey p 0x104) 0
  | none => s

/-- What the blocks of a domain that goes off lose (R357). -/
def State.blocksLost (s : State) (d : Nat) : State :=
  if d < 8 then (s.clearCluster d).setClearState (pageSpad d) false false
  else if d < 16 then (s.setVd (d - 8) {}).unitRests d false
  else if d < 18 then (s.setVe (d - 16) {}).unitRests d false
  else if d < 22 then (s.setPp (d - 18) {}).unitRests d false
  else if d = 22 then { s with sensors := [] }
  else if d = 23 then { s with eth := { s.eth with fwd0 := [], fwd1 := [] } }
  else if d = 24 then (s.clearRange { store := .common, addr := 0 } 0x3000000).setClearState 0x319 false false
  else [2 * (d - 25), 2 * (d - 25) + 1].foldl (fun (a : State) c =>
    ((a.setReg (Reg.DC_STATE c) 0).loseChannel c).setDram c { epoch := (a.loseChannel c).epoch c }) s

/-- What a domain that goes off loses (R357, R393). -/
def State.domainLost (s : State) (d : Nat) : State := (s.dropScrub d).blocksLost d

/-- A domain takes a state. -/
def State.putDomain (s : State) (d r : Nat) : State := { s with power := { s.power with state := tblSet 0 d r s.power.state } }

/-- A domain goes off (R357, R362). -/
def State.domainOff (s : State) (d : Nat) : State :=
  ({ s with power := { s.power with clearing := s.power.clearing.erase d } }.putDomain d 0).domainLost d

/-- The effects of a completed transition to state r (R280, R357, R358). -/
def State.enterDomain (s : State) (d r : Nat) : State :=
  if r = 0 then s.domainOff d
  else if r = 2 ∧ s.domState d = 0 then
    let s1 := s.putDomain d 2
    if d < 8 then
      ({ s1.clearCluster d with power := { s1.power with clearing := s1.power.clearing ++ [d] } }).setClearState (pageSpad d) true false
    else if d = 24 then
      ({ s1.clearRange { store := .common, addr := 0 } 0x3000000 with
        power := { s1.power with clearing := s1.power.clearing ++ [d] } }).setClearState 0x319 true false
    else s1.unitRests d true
  else s.putDomain d r

/-- A queued request is taken when the transition has ended (R359); one that is refused by then counts (R281, R359). -/
def State.takeQueued (s : State) (d : Nat) : State :=
  match mapGet s.power.queued d with
  | none => s
  | some q =>
    let t := { s with power := { s.power with queued := mapDel d s.power.queued } }
    if q < 2 ∧ t.powerHeld d = true then t.drop (domainPage d) else t.requestDomain d q

/-- DOMAIN_TRANSITION_DONE (R281, R357 to R359). The common store never leaves its state under a bank that is not EMPTY, also where a
LOAD has come since the request was accepted (DESIGN CHOICE, log 89: the transition is undone and counts as refused). -/
def execDomainTransitionDone (d : Fin 29) (s : State) : Out :=
  done (match mapGet s.power.moving d.val with
    | none => s
    | some r =>
      let s1 := { s with power := { s.power with moving := mapDel d.val s.power.moving } }
      if d.val = 24 ∧ r < 2 ∧ s1.powerHeld 24 = true then (s1.drop 0x319).takeQueued 24
      else (((s1.enterDomain d.val r).tally Reg.POWER_TRANSITIONS).event 0x004 1).takeQueued d.val)

/-- STORE_CLEAR_DONE (R280, R292): the clear ends; what it held is granted from now on. -/
def execStoreClearDone (d : Fin 29) (s : State) : Out :=
  let page := if d.val < 8 then pageSpad d.val else 0x319
  done (if s.power.clearing.contains d.val then
    (({ s with power := { s.power with clearing := s.power.clearing.erase d.val } }).setClearState page false true).event page 2
  else s)

/-- The MGC wakes every domain that a bank names and that is not on (R359). -/
def State.autoWake (s : State) (b : Bool) : State :=
  (List.range 29).foldl (fun (a : State) d =>
    if s.bankNames b d = true ∧ a.domTarget d ≠ 2 then (a.requestDomain d 2).tally Reg.POWER_AUTO_WAKE else a) s

/-- After a switch every cluster that neither bank names goes off (R38, R359). -/
def State.clustersOff (s : State) : State :=
  (List.range 8).foldl (fun (a : State) c =>
    if [false, true].any (fun b => s.bankCounts b && s.bankNames b c) = true ∨ a.domTarget c = 0 then a
    else a.requestDomain c 0) s

/-- A bank names a domain that is not on (R359). -/
def State.bankDark (s : State) (b : Bool) : Bool := (List.range 29).any (fun d => s.bankNames b d && !s.domOn d)

/-- An edge source that the MGC target enables is latched (R332, R365). -/
def State.wakeEdge (s : State) : Bool :=
  (List.range 8).any (fun n => s.icu.edges.getLsbD n && bit (s.reg (Reg.ICU_ENABLE7 1)) (16 + n))

/-- The conditions of deep idle that the device sees (R365). -/
def State.deepIdleOk (s : State) : Bool :=
  bit (s.reg Reg.BOOT_DEEP_IDLE) 0 && (!s.bankActive || s.haltStage == 2) &&
  (List.range 29).all (fun d => decide (s.domState d ≤ 1) && (mapGet s.power.moving d).isNone) &&
  (s.ep.l2 || s.ep.perst) && !s.wakeEdge

/-- DEEP_IDLE_ENTRY (R331, R365): the ICU clock stops with the MGC in its wait. -/
def execDeepIdleEntry (mgcWaits : Bool) (s : State) : Out :=
  done (if mgcWaits = true ∧ s.deepIdleOk = true then
    { s with power := { s.power with deepIdle := true }
             icu := { s.icu with onFclk := false, mgc := { s.icu.mgc with idle := true } } }
  else s)

/-- DEEP_IDLE_WAKE (R332, R365): an enabled edge restarts FIO and the MGC; edges kept meanwhile are counted on both pages. -/
def execDeepIdleWake (s : State) : Out :=
  done (if s.power.deepIdle = true ∧ s.wakeEdge = true then
    let s1 := { s with power := { s.power with deepIdle := false }, icu := { s.icu with uncounted := 0 } }
    (s1.count (Reg.ICU_EDGE_LATCHED 0) s.icu.uncounted).count (Reg.ICU_EDGE_LATCHED 1) s.icu.uncounted
  else s)

/-- PWR_LIMIT (R361). -/
def execPwrLimit (m : Master) (v : Word) (s : State) : Out :=
  done (s.gate m 0x005 (fun t =>
    let n := bits v 16 0
    if t.locked 0x005 1 ∨ 65000 < n then t.drop 0x005 else t.setReg Reg.THERMAL_PWR_LIMIT (BitVec.ofNat 32 n)))

/-- A reading as a number of 1/16 °C. -/
def temp16 (w : BitVec 16) : Int := w.toInt

/-- A threshold of the thermal page. -/
def State.threshold (s : State) (k hi lo : Nat) : Int := (BitVec.ofNat 16 (bits (s.reg k) hi lo)).toInt

/-- The power level of R361. -/
def powerLevel (est lim : Nat) : Nat :=
  if est ≤ lim then 0 else if 100 * est ≤ 105 * lim then 1 else if 100 * est ≤ 110 * lim then 2 else 3

/-- x_c of R361 for a cluster's reading. -/
def State.clampX (s : State) (t : Int) (p : Nat) : Nat :=
  let n := (if s.threshold Reg.THERMAL_T_CLAMP1 15 0 ≤ t then 1 else 0) +
    (if s.threshold Reg.THERMAL_T_CLAMP1 31 16 ≤ t then 1 else 0) +
    (if s.threshold Reg.THERMAL_T_CLAMP3 15 0 ≤ t then 1 else 0)
  max n p

/-- The clamp level of a cluster, in the CLAMP register. -/
def State.clampLevel (s : State) (c : Nat) : Nat := bits (s.reg Reg.THERMAL_CLAMP) (2 * c + 1) (2 * c)

/-- A cluster's clamp level takes a new value, in effect from the next window start (R87, R361); its engines' pages show it
(R96). -/
def State.setClamp (s : State) (c l : Nat) : State :=
  let cl := s.cluster c
  let s1 := (clusterEngines c).foldl (fun (a : State) e =>
    let high := max (bits (a.reg (Reg.MX_CLAMP e)) 5 4) l
    let b := a.setReg (Reg.MX_CLAMP e) (BitVec.ofNat 32 (l + 16 * high))
    if s.clampLevel c = 0 ∧ 0 < l then b.event (pageMx e) 4 else b) s
  (s1.setField Reg.THERMAL_CLAMP (2 * c + 1) (2 * c) l).setCluster c
    { cl with
      clampNext := BitVec.ofNat 2 l, clampBelow := 0
      clampHigh := if cl.clampHigh.toNat < l then BitVec.ofNat 2 l else cl.clampHigh }

/-- One cluster's sample (R361). -/
def State.clampSample (s : State) (c x : Nat) : State :=
  let l := s.clampLevel c
  let cl := s.cluster c
  if l < x then (s.setClamp c x).tally Reg.THERMAL_CLAMP_RISE
  else if x < l then
    if 63 ≤ cl.clampBelow then s.setClamp c (l - 1) else s.setCluster c { cl with clampBelow := cl.clampBelow + 1 }
  else s.setCluster c { cl with clampBelow := 0 }

/-- The trip of R362: every switchable domain goes off, the trip latch and TRIP_N are set. -/
def State.trip (s : State) : State :=
  if s.power.tripped then s
  else
    let s1 := (List.range 29).foldl (fun (a : State) d => if a.domState d = 0 then a else a.domainOff d) s
    { s1.tally Reg.THERMAL_TRIP with
      power := { s1.power with tripped := true, tripLow := true, moving := [], queued := [], clearing := [] } }

/-- STATUS of the thermal page (R374). -/
def State.syncThermal (s : State) : State :=
  s.setReg (Reg.STATUS 0x005) (BitVec.ofNat 32 ((if s.power.alarm then 1 else 0) + (if s.power.tripped then 2 else 0)))

/-- The reading of a sensor. -/
def reading (temps : List (BitVec 16)) (n : Nat) : BitVec 16 := temps.getD n 0

/-- THERMAL_SAMPLE (R360 to R362): readings, power estimate, clamp levels, alarm and trip. -/
def execThermalSample (temps : List (BitVec 16)) (mw : Word) (s : State) : Out :=
  let s1 := (List.range 8).foldl (fun (a : State) w =>
    a.setReg (Reg.THERMAL_TEMP0 + 4 * w)
      (BitVec.ofNat 32 ((reading temps (2 * w)).toNat + 65536 * (reading temps (2 * w + 1)).toNat))) s
  let s2 := s1.setReg Reg.THERMAL_PWR_EST mw
  let p := powerLevel mw.toNat (s2.regN Reg.THERMAL_PWR_LIMIT)
  let s3 := if p = 0 then s2 else (s2.tally Reg.THERMAL_POWER_OVER).event 0x005 2
  let s4 := (List.range 8).foldl (fun (a : State) c => a.clampSample c (a.clampX (temp16 (reading temps c)) p)) s3
  let hot := fun (lim : Int) => (List.range 16).any (fun n => decide (lim ≤ temp16 (reading temps n)))
  let alarm := hot (s4.threshold Reg.THERMAL_T_CLAMP3 31 16)
  let s5 := if alarm = true ∧ s4.power.alarm = false then ((s4.tally Reg.THERMAL_ALARM).event 0x005 1).edge 4 else s4
  let s6 := { s5 with power := { s5.power with alarm := alarm } }
  let s7 := if hot (s6.threshold Reg.THERMAL_T_TRIP 15 0) then s6.trip else s6
  done s7.syncThermal

/-- CLAMP_WINDOW_START (R87): a newly set clamp level takes effect. -/
def execClampWindowStart (c : Fin 8) (s : State) : Out :=
  let cl := s.cluster c.val
  done (s.setCluster c.val { cl with clampNow := cl.clampNext, window := 0 })

end Sys2Proof.Machine
end

