-- ==== Sys2Proof/Machine/Matrix.lean ====
section
/-!
DEFINITION. MATMUL, the passes and the block drains (R70 to R94, R102 to R114, R125 to R131): the tile walk lays out each
engine's passes and drains in order, PASS_ISSUE runs a pass, BLOCK_DRAIN a drain.
-/
namespace Sys2Proof.Machine


/-- M-tiles, N-tiles and K-tiles of the plan (R104, R114). -/
def Mm.tm (q : Mm) : Nat := cdiv q.mMax 32
/-- N-tiles. -/
def Mm.tn (q : Mm) : Nat := cdiv q.nMax q.tileCols
/-- K-tiles. -/
def Mm.tk (q : Mm) : Nat := cdiv q.kMax q.kw

/-- M-tiles of one of E engines (R105). -/
def Mm.tmE (q : Mm) (e : Nat) : Nat := if q.split then q.tm else cdiv q.tm e
/-- N-tiles of one of E engines (R105). -/
def Mm.tnE (q : Mm) (e : Nat) : Nat := if q.split then cdiv q.tn e else q.tn

/-- A tile of the walk: local M-tile, local N-tile, K-tile. -/
abbrev Tile := Nat × Nat × Nat

/-- The tiles in ORDER (R105). -/
def Mm.walk (q : Mm) (e : Nat) : List Tile :=
  let ms := List.range (q.tmE e)
  let ns := List.range (q.tnE e)
  let ks := List.range q.tk
  match q.order with
  | 0 => ms.flatMap (fun m => ns.flatMap (fun n => ks.map (fun k => (m, n, k))))
  | 1 => ns.flatMap (fun n => ms.flatMap (fun m => ks.map (fun k => (m, n, k))))
  | 2 => ms.flatMap (fun m => ks.flatMap (fun k => ns.map (fun n => (m, n, k))))
  | 3 => ns.flatMap (fun n => ks.flatMap (fun k => ms.map (fun m => (m, n, k))))
  | 4 => ks.flatMap (fun k => ms.flatMap (fun m => ns.map (fun n => (m, n, k))))
  | _ => ks.flatMap (fun k => ns.flatMap (fun n => ms.map (fun m => (m, n, k))))

/-- Global M-tile and N-tile of a local tile of the i-th of E engines (R104, R110). -/
def Mm.globalTile (q : Mm) (e i : Nat) (t : Tile) : Nat × Nat :=
  if q.split then (t.1, t.2.1 * e + i) else (t.1 * e + i, t.2.1)

/-- A tile is skipped (R110): wholly beyond an effective length; under cluster broadcast a round is skipped only if all
its M-tiles are. -/
def Mm.skipped (q : Mm) (e i m n k : Nat) (t : Tile) : Bool :=
  let g := q.globalTile e i t
  let mg := if q.src then t.1 * e else g.1
  decide (m ≤ mg * 32) || decide (n ≤ g.2 * q.tileCols) || decide (k ≤ t.2.2 * q.kw)

/-- ACC_BASE of a block (R106): the j-th block of the engine's walk. Under ORDER 4 and 5 every block met so far is live. -/
def Mm.accBase (q : Mm) (_e j : Nat) (t : Tile) : Nat :=
  match q.order with
  | 0 | 1 => if 2 * q.nt ≤ 2048 / q.f then (if j % 2 = 0 then 0 else 1024 / q.f) else 0
  | 2 => t.2.1 * q.nt
  | 3 => t.1 * q.nt
  | _ => j * q.nt

/-- Columns of facet f in a block whose first column is n0 (R104, R110, R114). -/
def Mm.facetCols (q : Mm) (n n0 f : Nat) : Nat :=
  if q.group then min q.nt (n - n0) else min q.nt (n - n0 - f * q.nt)

/-- Columns of a pass (R111). -/
def Mm.passCols (q : Mm) (n n0 : Nat) : Nat := min q.nt (n - n0)

/-- The control word of a pass (R79). -/
def Mm.controlWord (q : Mm) (x : Issue) (n acc : Nat) (swap init : Bool) : Word × Word :=
  (BitVec.ofNat 32 (n % 4096 + acc % 2048 * 2 ^ 12 + bits (x.w 1) 12 11 * 2 ^ 23 + (if swap then 2 ^ 25 else 0) +
      (if q.src then 2 ^ 26 else 0) + (if init then 0 else 2 ^ 27)),
   BitVec.ofNat 32 (q.fmtA + q.fmtB * 16 + bits (x.w 2) 23 16 * 256 + bits (x.w 2) 31 24 * 65536 +
      bits (x.w 3) 1 0 * 2 ^ 24))

/-- The pass of a tile. -/
def Mm.passOf (q : Mm) (x : Issue) (e i m n k : Nat) (t : Tile) (acc : Nat) (swap : Bool) : PassWork :=
  let g := q.globalTile e i t
  let n0 := g.2 * q.tileCols
  let cw := q.controlWord x (q.passCols n n0) acc swap (t.2.2 == 0)
  { w0 := cw.1, w1 := cw.2
    aBase := (List.range q.f).map (fun f => ptrAdd q.a (q.shift x 4 f + g.1 * 32 * q.aStride)), aStride := q.aStride
    bBase := (List.range q.f).map (fun f =>
      ptrAdd q.b (q.shift x 5 f + (n0 + if q.group then 0 else f * q.nt) * q.bStride)), bStride := q.bStride
    rows := min 32 (m - g.1 * 32)
    cols := (List.range q.f).map (q.facetCols n n0)
    k0 := t.2.2 * q.kw, kel := min q.kw (k - t.2.2 * q.kw)
    zpA := BitVec.ofNat 8 (bits (x.w 14) 7 0), zpB := BitVec.ofNat 8 (bits (x.w 14) 15 8) }

/-- The drain of a tile's block (R106, R114). -/
def Mm.drainOf (q : Mm) (x : Issue) (e i m n : Nat) (t : Tile) (acc : Nat) (empty : Bool) : DrainWork :=
  let g := q.globalTile e i t
  let n0 := g.2 * q.tileCols
  { accBase := acc, facets := q.f, rows := min 32 (m - g.1 * 32)
    parts := (List.range q.f).map (fun f =>
      let c0 := n0 + if q.group then 0 else f * q.nt
      (ptrAdd q.d (q.shift x 6 f + g.1 * q.dStride + c0 * 128), q.facetCols n n0 f,
       ptrAdd q.bias (4 * (c0 + if q.group then f * q.nMax else 0))))
    biasEn := q.biasEn, fp := !pairInt q.clsA, empty := empty }

/-- The state of a walk: the tile pair and block of the last pass, blocks met, work in order, tiles skipped. -/
structure WalkAcc where
  last : Option (Nat × Nat) := none
  blocks : List (Nat × Nat) := []
  work : List EngWork := []
  skips : Nat := 0

/-- One tile of the walk of the i-th of E engines (R105, R106, R110). DESIGN CHOICE (log 46): a pass swaps when its pair of M-tile and
K-tile differs from that of the engine's previous pass, as R105 words it, also where the table says 'every pass' and one pair
covers consecutive passes (TK of 1 in ORDER 0, 1 and 3, one M-tile of the engine in ORDER 5). -/
def Mm.walkTile (q : Mm) (x : Issue) (e i m n k : Nat) (a : WalkAcc) (t : Tile) : WalkAcc :=
  if q.skipped e i m n k t then { a with skips := a.skips + 1 }
  else
    let bs := if a.blocks.contains (t.1, t.2.1) then a.blocks else a.blocks ++ [(t.1, t.2.1)]
    let acc := q.accBase e (bs.findIdx (fun b => b == (t.1, t.2.1))) t
    let p := q.passOf x e i m n k t acc (decide (a.last ≠ some (t.1, t.2.2)))
    let d := if t.2.2 + 1 = cdiv k q.kw then [EngWork.drain (q.drainOf x e i m n t acc false)] else []
    { last := some (t.1, t.2.2), blocks := bs, work := a.work ++ (.pass p :: d), skips := a.skips }

/-- The walk of the i-th of E engines. -/
def Mm.plan (q : Mm) (x : Issue) (e i m n k : Nat) : WalkAcc := (q.walk e).foldl (q.walkTile x e i m n k) {}

/-- With K of 0 no pass runs and the drains write the bias or zero (R109): the blocks of the walk. -/
def Mm.emptyPlan (q : Mm) (x : Issue) (e i m n : Nat) : List EngWork :=
  ((List.range (q.tmE e)).flatMap (fun mt => (List.range (q.tnE e)).map (fun nt => (mt, nt, 0)))).filterMap (fun t =>
    let g := q.globalTile e i t
    if m ≤ g.1 * 32 ∨ n ≤ g.2 * q.tileCols then none else some (.drain (q.drainOf x e i m n t 0 true)))

/-- MATMUL (R103 to R114): tags checked (R162), lengths taken (R108), then every engine's work laid out in the order of the
walk. -/
def execMatmul (c : Fin 8) (pc : BitVec 23) (s : State) : Out :=
  done (s.issue c pc.toNat 0x01 (fun t x =>
    let es := t.maskEngines c.val (bits (x.w 1) 7 0)
    let isCb := fun f => decide (f = 10) || decide (f = 11)
    let fa := bits (x.w 1) 19 16
    let fb := bits (x.w 1) 23 20
    let missA := isCb fa && es.any (fun e => !tagOk (t.engine e).aTable (bits (x.w 2) 23 16))
    let missB := isCb fb && es.any (fun e => !tagOk (t.engine e).bTable (bits (x.w 2) 31 24))
    if missA || missB then t.cbMiss x
    else
      let e0 := t.engine (es.headD 0)
      let q := mmOf x (operandFmt fa e0.aTable) (operandFmt fb e0.bTable)
      let t1 := t.setCluster c.val { t.cluster c.val with matWord := x.w 15 }
      let r1 := t1.effLen x (bit (x.w 3) 16) (bits (x.w 3) 7 4) q.mMax 0
      let r2 := r1.1.effLen x (bit (x.w 3) 17) (bits (x.w 3) 11 8) q.nMax 1
      let r3 := r2.1.effLen x (bit (x.w 3) 18) (bits (x.w 3) 15 12) q.kMax 2
      let m := r1.2
      let n := r2.2
      let k := r3.2
      if m = 0 ∨ n = 0 then r3.1.tally (Reg.CLUSTER_ZERO_SHAPE c.val)
      else if k = 0 then
        (es.zipIdx.foldl (fun (a : State) e => a.setEngine e.1 { a.engine e.1 with work := q.emptyPlan x es.length e.2 m n, instr := x.ws })
          r3.1).tally (Reg.CLUSTER_ZERO_SHAPE c.val)
      else
        es.zipIdx.foldl (fun (a : State) e =>
          let p := q.plan x es.length e.2 m n k
          (a.setEngine e.1 { a.engine e.1 with work := p.work, instr := x.ws }).count (Reg.CLUSTER_TILE_SKIP c.val) p.skips)
          r3.1))

/-- Facets of a control word (R79). -/
def passFacets (w0 : Word) : Nat := 2 ^ bits w0 24 23

/-- The engine refuses a control word (R80): a reserved field, an unsupported pair, or a limit of R79 broken. -/
def wordRefused (w0 w1 : Word) (clsA clsB : Nat) : Bool :=
  let n := bits w0 11 0
  let f := passFacets w0
  decide (bits w0 31 28 ≠ 0) || decide (bits w0 24 23 = 3) || decide (bits w1 31 26 ≠ 0) ||
  !operandCodeOk (bits w1 3 0) || !operandCodeOk (bits w1 7 4) ||
  (match pairSlots clsA clsB with
   | none => true
   | some sl => decide (n = 0) || decide (2048 < n * sl) || decide (2048 / f < bits w0 22 12 + n))

/-- The accumulator key of an engine's entry and lane. -/
def accKey (e entry lane : Nat) : Nat := (e * 2048 + entry) * 32 + lane

/-- An accumulator value with its live bit (R85). -/
def State.accVal (s : State) (e entry lane : Nat) : Option Word := mapGet s.acc (accKey e entry lane)

/-- The entry of column j in the bank of facet f (R83). -/
def accEntry (f facets base j : Nat) : Nat := f * (2048 / facets) + base + j

/-- The element codes that a pass takes from A into the input buffer, per lane and facet (R82, R110, R111): a lane at or beyond
the pass's rows holds zeros. The elements at or beyond kel subtract to 0 and are left out. -/
def State.bufferOf (s : State) (p : PassWork) (fmt : Nat) : List (List (List Nat)) :=
  (List.range 32).map (fun r => p.aBase.map (fun q =>
    (List.range p.kel).map (fun i =>
      if r < p.rows then s.elem (ptrAdd q (r * p.aStride)) (elemBits fmt) (p.k0 + i) else 0)))

/-- The codes that the lanes hold of an input buffer after the codebook lookup (R72); the zeros of a padded lane stay zeros. -/
def lanesOf (rows fmt : Nat) (t : CodeTable) (b : List (List (List Nat))) : List (List (List Nat)) :=
  b.zipIdx.map (fun r => r.1.map (fun f => f.map (fun k => if r.2 < rows then operandCode fmt t k else k)))

/-- The codes of the 32 lanes, per facet, that a swapping pass multiplies by (R72, R82, R110, R111). -/
def State.loadLanes (s : State) (p : PassWork) (fmt : Nat) (t : CodeTable) : List (List (List Nat)) :=
  lanesOf p.rows fmt t (s.bufferOf p fmt)

/-- The element codes of B that a pass streams through the weight FIFO, per column and facet (R82, R111): a sub-column at or
beyond the facet's columns carries zeros. -/
def State.fifoOf (s : State) (p : PassWork) (fmt : Nat) : List (List (List Nat)) :=
  (List.range (bits p.w0 11 0)).map (fun j => p.bBase.zipIdx.map (fun q =>
    (List.range p.kel).map (fun i =>
      if j < p.cols.getD q.2 0 then s.elem (ptrAdd q.1 (j * p.bStride)) (elemBits fmt) (p.k0 + i) else 0)))

/-- The codes of column j of facet f as the feeder gives them after the codebook lookup (R72, R74). -/
def feedColumn (p : PassWork) (fmt : Nat) (t : CodeTable) (b : List (List (List Nat))) (f j : Nat) : List Nat :=
  ((b.getD j []).getD f []).map (fun k => if j < p.cols.getD f 0 then operandCode fmt t k else k)

/-- The codes of column j of facet f of B. -/
def State.bColumn (s : State) (p : PassWork) (fmt : Nat) (t : CodeTable) (f j : Nat) : List Nat :=
  feedColumn p fmt t (s.fifoOf p fmt) f j

/-- The byte ranges of A that a pass reads. -/
def PassWork.aReads (p : PassWork) (fmt : Nat) : List (Ptr × Nat) :=
  p.aBase.flatMap (fun q => (List.range p.rows).map (fun r => elemRange (ptrAdd q (r * p.aStride)) (elemBits fmt) p.k0 p.kel))

/-- The byte ranges of B that a pass reads. -/
def PassWork.bReads (p : PassWork) (fmt : Nat) : List (Ptr × Nat) :=
  (p.bBase.zip p.cols).flatMap (fun q =>
    (List.range q.2).map (fun j => elemRange (ptrAdd q.1 (j * p.bStride)) (elemBits fmt) p.k0 p.kel))

/-- The integer that a code enters the multiplier as (R72, R156). -/
def intOperand (cls : Nat) (zp : Bool) (z x : Nat) : Int :=
  let v := fun y => intOf (elemBits cls) (cls != 3) y
  if zp then v x - v z else v x

/-- The new accumulator value of one entry and lane (R73, R127, R128): the value, and whether an integer saturated. -/
def accumulate (clsA clsB : Nat) (zpA zpB : Bool) (zA zB : Nat) (a b : List Nat) (old : Option Word) (init : Bool) : Word × Bool :=
  let fresh := init || old.isNone
  if pairInt clsA then
    let sum : Int := (a.zip b).foldl (fun (t : Int) (p : Nat × Nat) => t + intOperand clsA zpA zA p.1 * intOperand clsB zpB zB p.2) 0
    sat32 ((if fresh then 0 else (old.getD 0).toInt) + sum)
  else
    (groupAccumulate (fracBits clsA + fracBits clsB) ((a.zip b).map (fun p => mulNum (numOf clsA p.1) (numOf clsB p.2)))
      (old.getD 0) fresh, false)

/-- One column of a pass over every facet and lane: the accumulators, and whether an entry saturated (R94). -/
def passColumn (e : Nat) (p : PassWork) (lanes : List (List (List Nat))) (bcol : Nat → List Nat) (clsA clsB : Nat)
    (acc : Tbl Word) (j : Nat) : Tbl Word × Bool :=
  let facets := passFacets p.w0
  (List.range facets).foldl (fun (r : Tbl Word × Bool) f =>
    let b := bcol f
    (List.range 32).foldl (fun (r : Tbl Word × Bool) l =>
      let k := accKey e (accEntry f facets (bits p.w0 22 12) j) l
      let v := accumulate clsA clsB (bit p.w1 24) (bit p.w1 25) p.zpA.toNat p.zpB.toNat ((lanes.getD l []).getD f []) b (mapGet r.1 k)
        (!bit p.w0 27)
      (mapIns k v.1 r.1, r.2 || v.2)) r) (acc, false)

/-- The stall with a running slot that an engine works for. -/
def State.engineStall (s : State) (e : Nat) : Option (Nat × Slot) :=
  match s.clusterStall (e / 8) with
  | none => none
  | some st => (s.stall st).slot.map (fun x => (st, x))

/-- The issue record of an engine's job, for its faults. -/
def engineIssue (e st : Nat) (x : Slot) : Issue := { st := st, job := x.job, c := Fin.ofNat 8 (e / 8), ws := [] }

/-- The first pass of an engine's work that may issue: drains before it that read entries it writes hold it (R106). -/
def nextPass : List EngWork → List EngWork → Option (PassWork × List EngWork)
  | _, [] => none
  | ds, .pass p :: r =>
    if ds.any (fun d => match d with
        | .drain x => decide (x.accBase < bits p.w0 22 12 + bits p.w0 11 0) &&
            x.parts.any (fun q => decide (bits p.w0 22 12 < x.accBase + q.2.1))
        | .pass _ => false)
    then none else some (p, ds ++ r)
  | ds, .drain d :: r => nextPass (ds ++ [.drain d]) r

/-- UE_ADDR or CE_ADDR of an engine (R96). -/
def storeWord (x : Nat) (ix : Nat) : Word := BitVec.ofNat 32 (x + 16 * ix + 2 ^ 31)

/-- Corrected errors of an engine's stores (R93). -/
def State.engineCe (s : State) (e : Nat) (ce : List (Nat × Nat)) : State :=
  ce.foldl (fun (a : State) x => (a.tally (Reg.MX_STORE_CE e)).setReg (Reg.MX_CE_ADDR e) (storeWord x.1 x.2)) s

/-- An uncorrectable error of an engine's stores that a pass or drain reads (R90, R93): the job faults with cause 0x03. -/
def State.engineUe (s : State) (e st : Nat) (x : Slot) (store ix : Nat) : State :=
  (((s.tally (Reg.MX_STORE_UE e)).setReg (Reg.MX_UE_ADDR e) (storeWord store ix)).event (pageMx e) 1).seqFault (engineIssue e st x) 3

/-- The feeder's progress in a pass (R74, R77, R81, R87, R88): bubbles of each kind so far, those of the clamp after the first slot,
ECLK passed, slots issued, and the ECLK of the first slot. -/
structure FeedRun where
  clamp : Nat := 0
  shadow : Nat := 0
  feed : Nat := 0
  inPass : Nat := 0
  eclk : Nat := 0
  slots : Nat := 0
  first : Nat := 0

/-- Bubbles before a slot of the pass because the feeder has none. -/
def dryBefore (dry : List (BitVec 11 × Nat)) (k : Nat) : Nat := ((dry.filter (fun d => d.1.toNat == k)).map Prod.snd).sum

/-- The feeder ECLK by ECLK until n slots are issued (R77, R81, R87): at window position `pos` under level l, with `wait` ECLK left
until the swap marker may ride, and `rem` bubbles left before the next slot. -/
def FeedRun.go (n : Nat) (dry : List (BitVec 11 × Nat)) : Nat → Nat → Nat → List (BitVec 2) → Nat → Nat → FeedRun → FeedRun
  | 0, _, _, _, _, _, r => r
  | k + 1, pos, l, ls, wait, rem, r =>
    if n ≤ r.slots then r
    else
      let pos1 := (pos + 1) % 4
      let l1 := if pos1 = 0 then (ls.headD (BitVec.ofNat 2 l)).toNat else l
      let ls1 := if pos1 = 0 then ls.tail else ls
      let r1 := { r with eclk := r.eclk + 1 }
      if 4 - l ≤ pos then
        FeedRun.go n dry k pos1 l1 ls1 (wait - 1) rem { r1 with clamp := r.clamp + 1, inPass := if r.slots = 0 then 0 else r.inPass + 1 }
      else if 0 < wait then FeedRun.go n dry k pos1 l1 ls1 (wait - 1) rem { r1 with shadow := r.shadow + 1 }
      else if 0 < rem then FeedRun.go n dry k pos1 l1 ls1 0 (rem - 1) { r1 with feed := r.feed + 1 }
      else FeedRun.go n dry k pos1 l1 ls1 0 (dryBefore dry (r.slots + 1))
        { r1 with slots := r.slots + 1, first := if r.slots = 0 then r.eclk else r.first }

/-- A pass of n slots whose marker waits `wait` ECLK; at level 3 one ECLK in four is free of the clamp. -/
def feedRun (t : PassTiming) (l n wait : Nat) : FeedRun :=
  FeedRun.go n t.dry (4 * (n + wait + (t.dry.map Prod.snd).sum) + 4) t.phase.val l t.levels wait (dryBefore t.dry 0) {}

/-- An engine that issues a pass: the pass, and the work that follows. -/
structure Issuing where
  e : Nat
  p : PassWork
  rest : List EngWork

/-- The engines that issue with an engine whose next pass is p (R84): itself, or under cluster broadcast every engine of the
cluster that has work, in lockstep; none while one of them is held by a drain. -/
def State.passGroup (s : State) (e : Nat) (p : PassWork) (rest : List EngWork) : List Issuing :=
  if bit p.w0 26 = false then [⟨e, p, rest⟩]
  else
    let es := (clusterEngines (e / 8)).filter (fun g => !(s.engine g).work.isEmpty)
    let is := es.filterMap (fun g => (nextPass [] (s.engine g).work).map (fun q => ⟨g, q.1, q.2⟩))
    if is.length = es.length then is else []

/-- ECLK that the swap marker waits after a pass of the engine issued back to back (R77): until the shadow set, whose load began
with the last marker, is loaded. -/
def State.shadowWait (s : State) (t : PassTiming) (i : Issuing) : Nat :=
  if bit i.p.w0 25 ∧ t.idle = 0 then 32 + t.laneWait - (s.engine i.e).sinceSwap else 0

/-- What an issued pass counts of waits and the clamp on an engine (R77, R81, R87, R88). -/
def State.passCounts (s : State) (e : Nat) (r : FeedRun) : State :=
  let s1 := ((s.count (Reg.MX_FEED_BUBBLE e) r.feed).count (Reg.MX_SHADOW_WAIT e) r.shadow).count (Reg.MX_CLAMP_BUBBLE e) r.clamp
  if 0 < r.inPass then s1.tally (Reg.MX_CLAMP_PASS e) else s1

/-- A word of the accumulator memory that a pass writes (R82, R83). -/
def PassWork.writes (p : PassWork) (w : Nat) : Bool :=
  let b := bits p.w0 22 12
  (List.range (passFacets p.w0)).any (fun f => decide (accEntry f (passFacets p.w0) b 0 ≤ w / 32) &&
    decide (w / 32 < accEntry f (passFacets p.w0) b (bits p.w0 11 0)))

/-- The uncorrectable error that a pass meets on an engine (R93): the one found now, or a word of the accumulator that the scrub
found and the pass adds to. -/
def State.passUe (s : State) (i : Issuing) (ue : Option (Nat × Nat)) : Option (Nat × Nat) :=
  ue <|> (if bit i.p.w0 27 then (s.engine i.e).bad.find? (fun b => decide (b.1 = 2) && i.p.writes b.2) else none)

/-- The classes in which an engine's operands enter its multipliers (R72). -/
def State.passClasses (s : State) (e : Nat) (p : PassWork) : Nat × Nat :=
  (operandFmt (bits p.w1 3 0) (s.engine e).aTable, operandFmt (bits p.w1 7 4) (s.engine e).bTable)

/-- The pass on one engine (R72 to R76, R82 to R85, R127 to R129): `src` is the engine whose weight FIFO feeds it (R84). -/
def State.computePass (s : State) (i : Issuing) (src : Nat) (t : PassTiming) (wait : Nat) (r : FeedRun) : State :=
  let en := s.engine i.e
  let p := i.p
  let cls := s.passClasses i.e p
  let swap := bit p.w0 25
  let lanes := if swap then lanesOf p.rows (bits p.w1 3 0) en.aTable en.input else en.active
  let q := (List.range (bits p.w0 11 0)).foldl (fun (a : Tbl Word × Nat) j =>
    let y := passColumn i.e p lanes (fun f => feedColumn p (bits p.w1 7 4) (s.engine src).bTable (s.engine src).fifo f j) cls.1 cls.2 a.1 j
    (y.1, if y.2 then a.2 + 1 else a.2)) (s.acc, 0)
  let s1 := { (s.passCounts i.e r) with acc := q.1 }.setEngine i.e { en with
    active := lanes, shadow := if swap then en.active else en.shadow, work := i.rest
    sinceSwap := if swap then (if t.idle = 0 then r.eclk - wait else r.eclk - r.first) else en.sinceSwap + t.idle + t.drainWait + r.eclk
    bad := en.bad.filter (fun b => !(decide (b.1 = 2) && p.writes b.2)) }
  (s1.count (Reg.MX_INT_SAT i.e) q.2).tally (Reg.MX_PASS_DONE i.e)

/-- The data of a pass in the engines' stores (R70, R84): A of each engine that swaps in its input buffer, B in the weight FIFO of
the engine that feeds. -/
def State.fillEngine (s : State) (i : Issuing) (src : Nat) : State :=
  let en := s.engine i.e
  s.setEngine i.e { en with
    input := if bit i.p.w0 25 then s.bufferOf i.p (bits i.p.w1 3 0) else en.input
    fifo := if i.e = src then s.fifoOf i.p (bits i.p.w1 7 4) else en.fifo }

/-- The byte ranges that the engines of a pass read. -/
def passReads (is : List Issuing) (src : Nat) : List (Ptr × Nat) :=
  is.flatMap (fun i => (if bit i.p.w0 25 then i.p.aReads (bits i.p.w1 3 0) else []) ++
    (if i.e = src then i.p.bReads (bits i.p.w1 7 4) else []))

/-- The pass of a group of engines in lockstep (R79 to R94): refused words, errors, reads, then every engine's share. -/
def State.runPass (s : State) (e st : Nat) (x : Slot) (is : List Issuing) (t : PassTiming) : State :=
  let s0 := (is.foldl (fun (a : State) i => (a.setReg (Reg.MX_PASS_W0 i.e) i.p.w0).setReg (Reg.MX_PASS_W1 i.e) i.p.w1) s).engineCe e
    (t.ce.map (fun y => (y.1.val, y.2.toNat)))
  match is.find? (fun i => wordRefused i.p.w0 i.p.w1 (s.passClasses i.e i.p).1 (s.passClasses i.e i.p).2) with
  | some i => (s0.tally (Reg.MX_WORD_REFUSED i.e)).seqFault (engineIssue i.e st x) 1
  | none =>
    match is.findSome? (fun i => (s.passUe i (if i.e = e then t.ue.map (fun y => (y.1.val, y.2.toNat)) else none)).map (fun y => (i.e, y))) with
    | some (g, y) => s0.engineUe g st x y.1 y.2
    | none =>
      let r := s0.readAll st (passReads is e)
      match r.2 with
      | some cause => r.1.seqFault (engineIssue e st x) cause
      | none =>
        let wait := (is.map (s.shadowWait t)).foldl max 0
        let slots := match is with
          | [] => 0
          | i :: _ => bits i.p.w0 11 0 * (pairSlots (s.passClasses i.e i.p).1 (s.passClasses i.e i.p).2).getD 1
        let f := feedRun t (s.cluster (e / 8)).clampNow.toNat slots wait
        let s1 := is.foldl (fun (a : State) i => a.fillEngine i e) r.1
        let s2 := is.foldl (fun (a : State) i => a.computePass i e t wait f) s1
        (s2.setCluster (e / 8) { s2.cluster (e / 8) with window := BitVec.ofNat 2 (t.phase.val + f.eclk) }).count
          (Reg.CLUSTER_DRAIN_WAIT (e / 8)) t.drainWait

/-- PASS_ISSUE (R79 to R94). An engine with no pass that may issue, or whose stall runs no slot, issues none. A pass under cluster
broadcast issues on all engines with the command of the cluster's logical engine 0; the command of another engine brings
only the errors of its own stores (DESIGN CHOICE, log 87). -/
def execPassIssue (e : Fin 64) (t : PassTiming) (s : State) : Out :=
  done (match s.engineStall e.val with
    | none => s
    | some (st, x) =>
      match nextPass [] (s.engine e.val).work with
      | none => s
      | some (p, rest) =>
        if bit p.w0 26 = true ∧ bit (s.reg (Reg.MX_MAP e.val)) 16 = false then
          let s0 := s.engineCe e.val (t.ce.map (fun y => (y.1.val, y.2.toNat)))
          match t.ue with
          | some y => s0.engineUe e.val st x y.1.val y.2.toNat
          | none => s0
        else
          match s.passGroup e.val p rest with
          | [] => s
          | i :: r => s.runPass e.val st x (i :: r) t)

/-- The value a drain writes for one row and column (R106, R109, R131): the value, and whether the bias saturated it. -/
def drainValue (d : DrainWork) (acc : Option Word) (bias : Word) : Word × Bool :=
  let v := if d.empty then 0 else acc.getD 0
  if d.biasEn then
    (if d.fp then (fadd v bias, false) else sat32 (v.toInt + bias.toInt))
  else (v, false)

/-- The writes of a drain, column by column, and the columns in which the bias saturated. -/
def State.drainWrites (s : State) (e : Nat) (d : DrainWork) : List (Ptr × List Byte) × Nat :=
  let cs := d.parts.zipIdx.flatMap (fun q => (List.range q.1.2.1).map (fun j =>
    let vs := (List.range d.rows).map (fun r =>
      drainValue d (s.accVal e (accEntry q.2 d.facets d.accBase j) r) (if d.biasEn then s.elem32 q.1.2.2 j else 0))
    ((ptrAdd q.1.1 (128 * j), wordBytes (vs.map Prod.fst)), vs.any Prod.snd)))
  (cs.map Prod.fst, (cs.filter Prod.snd).length)

/-- A drain (R86, R106). -/
def State.runDrain (s : State) (e st : Nat) (x : Slot) (d : DrainWork) (rest : List EngWork) : State :=
  let r := s.readAll st (if d.biasEn then d.parts.map (fun q => (q.2.2, 4 * q.2.1)) else [])
  match r.2 with
  | some cause => r.1.seqFault (engineIssue e st x) cause
  | none =>
    let ws := s.drainWrites e d
    let w := r.1.writeAll st (ws.1.filter (fun q => !q.2.isEmpty))
    match w.2 with
    | some cause => w.1.seqFault (engineIssue e st x) cause
    | none => (w.1.setEngine e { w.1.engine e with work := rest }).count (Reg.CLUSTER_BIAS_SAT (e / 8)) ws.2

/-- A word of the accumulator memory that a drain reads (R86, R93). -/
def DrainWork.reads (d : DrainWork) (w : Nat) : Bool :=
  d.parts.zipIdx.any (fun q => decide (accEntry q.2 d.facets d.accBase 0 ≤ w / 32) && decide (w / 32 < accEntry q.2 d.facets d.accBase q.1.2.1))

/-- BLOCK_DRAIN (R86, R93, R106): the drain at the head of the engine's work, whose passes have all run. -/
def execBlockDrain (e : Fin 64) (ce : List (BitVec 16)) (ue : Option (BitVec 16)) (s : State) : Out :=
  done (match s.engineStall e.val with
    | none => s
    | some (st, x) =>
      match (s.engine e.val).work with
      | .drain d :: rest =>
        let s0 := s.engineCe e.val (ce.map (fun y => (2, y.toNat)))
        (match ue.map BitVec.toNat <|> ((s.engine e.val).bad.find? (fun b => decide (b.1 = 2) && d.reads b.2)).map Prod.snd with
         | some y => s0.engineUe e.val st x 2 y
         | none => s0.runDrain e.val st x d rest)
      | _ => s)

/-- The words that the scrub found bad in an engine's stores are cleared to zero (R93). -/
def State.clearBad (s : State) (e : Nat) : State :=
  let b := (s.engine e).bad
  if b = [] then s
  else { s with acc := s.acc.filter (fun x => !b.any (fun y => decide (y.1 = 2) && decide (x.1 = e * 65536 + y.2))) }.setEngine e
    { s.engine e with bad := [] }

/-- At the end of a slot the drains whose passes have run complete, and the other work is dropped (R41). -/
def State.finishEngine (s : State) (e st : Nat) (x : Slot) : State :=
  let ds := (s.engine e).work.takeWhile (fun w => !w.isPass)
  let t := ds.foldl (fun (a : State) w => match w with
    | .drain d => if ((a.stall st).slot).isSome then a.runDrain e st x d [] else a
    | .pass _ => a) s
  t.setEngine e { t.engine e with work := [] }

end Sys2Proof.Machine
end

