-- ==== Sys2Proof/Machine/Stalls.lean ====
section
/-!
DEFINITION. Stalls (R38 to R45): PROGRAM slots and their alternates, LOAD entries, readmission.
-/
namespace Sys2Proof.Machine

/-- The model is resident in the stall (R39). -/
def State.isResident (s : State) (st model : Nat) : Bool :=
  bit (s.reg (Reg.STALL_RESIDENT st)) 31 && bits (s.reg (Reg.STALL_RESIDENT st)) 15 0 == model

/-- The job of a PROGRAM entry is blocked (R35, R40). -/
def State.blocked (s : State) (e : Entry) : Bool :=
  s.ledger.coldTick || bit (s.reg (Reg.STALL_JOB_FAULTED e.unit)) e.job ||
  bit (s.effReg (Reg.STALL_JOB_SUSPEND e.unit)) e.job || !s.isResident e.unit e.model

/-- The job header of an entry (R97): as the dispatch preload read it, else read now; none where it cannot be read. -/
def State.jobHeader (s : State) (i : Nat) (e : Entry) : Option (List Byte) :=
  match mapGet s.ledger.preload i with
  | some d => if d = [] then none else some d
  | none => (s.actionWords e.operand 16).map wordBytes

/-- The instructions of the job that a stall's clusters run read some of the n bytes from flat number k on (R42). -/
def State.slotReads (s : State) (st k n : Nat) : Bool :=
  (s.stallClusters st).any (fun c =>
    let cf : Fin 8 := Fin.ofNat 8 c
    (List.range (s.cluster c).count).any (fun i =>
      let x : Issue := { st := st, job := 0, c := cf, ws := s.words { store := .spad cf, addr := (s.cluster c).streamOff + 64 * i } 16 }
      (planExtents x (s.liveCb x)).any (fun e => !e.wr && (match s.flat (s.relocate s.unitOdd e.p) with
        | some f => meets f e.n k n
        | none => false))))

/-- The staging buffers of a stall that are not staged: flat number, length, streams (R42). -/
def State.gapBuffers (s : State) (st : Nat) : List (Nat × Nat × List Nat) :=
  let at_ := fun (p : Option Ptr) (n : Nat) (l : List Nat) => match p.bind s.flat with
    | some k => [(k, n, l)]
    | none => []
  (s.ledger.unstaged.filter (fun e => e.2.1 == st)).map (fun e => (e.1, e.2.2.1, e.2.2.2)) ++
    (match s.ledger.staging with
     | some g => if g.stall = st then at_ g.dst g.len g.streams else []
     | none => []) ++
    (s.ledger.stagingWait.filter (fun x => x.stall.val == st)).flatMap (fun x =>
      at_ (x.dst.map (s.relocate s.unitOdd)) x.len (x.streams.map Fin.val))

/-- The streams whose staged input is missing in the slot that a stall runs (R42): those of the buffers that its job reads. -/
def State.missingStreams (s : State) (st : Nat) : List Nat :=
  ((s.gapBuffers st).flatMap (fun b => if s.slotReads st b.1 b.2.1 then b.2.2 else [])).eraseDups

/-- A cluster at the start of a PROGRAM slot (R78, R85, R97, R136, R161): the i-th cluster of its stall. -/
def State.slotCluster (s : State) (st job i c : Nat) (h : List Byte) : State :=
  let seed := s.reg (Reg.STALL_SEED st)
  let s1 := (clusterEngines c).foldl (fun (a : State) e => a.setEngine e
    { aTable := { (a.engine e).aTable with valid := false }, bTable := { (a.engine e).bTable with valid := false } }) (s.clearAcc c)
  (s1.setCluster c { s1.cluster c with
    lfsr := (List.range 64).map (fun j => (j, lfsrSeed seed (64 * i + j)))
    vxTable := { (s1.cluster c).vxTable with valid := false }
    streamOff := (bytesWord h (4 + 4 * i)).toNat
    started := 0
    count := bytesHalf h (0x24 + 2 * i)
    matWord := 0 }).setReg (Reg.CLUSTER_SEQ_STATE c) (BitVec.ofNat 32 (1 + 256 * job))

/-- A job's slot starts (R40, R42, R78). -/
def State.startSlot (s : State) (i : Nat) (e : Entry) (h : List Byte) : State :=
  let s1 := (s.stallClusters e.unit).zipIdx.foldl (fun (a : State) c => a.slotCluster e.unit e.job c.2 c.1 h) s
  let gap := s1.missingStreams e.unit
  let s2 := (s1.setStall e.unit { s1.stall e.unit with slot := some { entry := i, job := e.job, model := e.model } }).count
    (Reg.STALL_INTAKE_GAP e.unit) gap.length
  { s2 with ledger := { s2.ledger with gaps := (s2.ledger.gaps ++ gap).eraseDups } }

/-- The entry that an alternate-valid entry names, if its job is not blocked (R32, R40). -/
def State.altEntry (s : State) (e : Entry) : Option (Nat × Entry) :=
  if e.altValid = true ∧ e.alt < s.variantCount s.actBank s.variant then
    let a := s.bankEntry s.actBank s.variant e.alt
    if s.blocked a then none else some (e.alt, a)
  else none

/-- A PROGRAM entry begins (R40, R45, R305). -/
def State.programStart (s : State) (i : Nat) (e : Entry) : State :=
  if s.blocked e then
    match s.altEntry e with
    | some (j, a) =>
      (match s.jobHeader j a with
       | some h => (s.startSlot j a h).tally (Reg.STALL_ALT_RUN e.unit)
       | none => s.tally (Reg.STALL_IDLE_SLOT e.unit))
    | none => s.tally (Reg.STALL_IDLE_SLOT e.unit)
  else
    match s.jobHeader i e with
    | some h => s.startSlot i e h
    | none => s.tally (Reg.STALL_IDLE_SLOT e.unit)

/-- PROGRAM_SLOT_START (R40). A torn-down stall's slots idle without counting (R45); an alternate-only entry never runs in
its own right (R32); a slot that still runs ends first. -/
def execProgramSlotStart (i : EntryIx) (s : State) : Out :=
  done (match s.entryFor i.val 0 7 1 with
    | none => s
    | some e =>
      if bits (s.reg (Reg.STALL_STATE e.unit)) 1 0 ≠ 1 ∨ (s.stall e.unit).slot.isSome = true then s
      else s.programStart i.val e)

/-- The streams of the instructions that a stopped slot leaves undone (R41). -/
def State.lateStreams (s : State) (st : Nat) : List Nat :=
  ((s.stallClusters st).flatMap (fun c =>
    let cl := s.cluster c
    let ws := s.streamWords (Fin.ofNat 8 c) cl.started ++
      (if (clusterEngines c).any (fun e => !(s.engine e).work.isEmpty) then [cl.matWord] else [])
    ws.flatMap (s.flagged st))).eraseDups

/-- Some instruction of a slot has not started or not completed. -/
def State.unfinished (s : State) (st : Nat) : Bool :=
  (s.stallClusters st).any (fun c =>
    decide ((s.cluster c).started < (s.cluster c).count) || (clusterEngines c).any (fun e => !(s.engine e).work.isEmpty))

/-- A stall's slot passes its last grain (R41, R89, R92): drains whose passes have run complete, the rest is skipped. -/
def State.endSlot (s : State) (n : Nat) : State :=
  match (s.stall n).slot with
  | none => s
  | some x =>
    let s1 := (s.stallClusters n).foldl (fun (a : State) c =>
      (clusterEngines c).foldl (fun (b : State) e => b.finishEngine e n x) a) s
    if (s1.stall n).slot.isNone then s1
    else
      let late := s.lateStreams n
      let s2 := if s.unfinished n then
          { s1.tally (Reg.STALL_LATE_STOP n) with ledger := { s1.ledger with late := (s1.ledger.late ++ late).eraseDups } }
        else s1
      let s3 := (s2.stallClusters n).foldl (fun (a : State) c =>
        (a.setCluster c { a.cluster c with started := 0, count := 0 }).setField (Reg.CLUSTER_SEQ_STATE c) 2 0 0) s2
      let s4 := s3.setStall n { s3.stall n with slot := none }
      (s4.stallClusters n).foldl (fun (a : State) c => (clusterEngines c).foldl (fun (b : State) e => b.clearBad e) a) s4

/-- PROGRAM_SLOT_END (R41, R93). -/
def execProgramSlotEnd (st : Fin 8) (s : State) : Out := done (s.endSlot st.val)

/-- LOAD_ENTRY_START (R39): the previous resident model stops being resident. -/
def execLoadEntryStart (i : EntryIx) (s : State) : Out :=
  done (match s.entryFor i.val 0 7 7 with
    | none => s
    | some e =>
      if bits (s.reg (Reg.STALL_STATE e.unit)) 1 0 ≠ 1 then s
      else (s.setStall e.unit { s.stall e.unit with loading := some (e.model, i.val) }).setReg (Reg.STALL_RESIDENT e.unit) 0)

/-- A copy between stores: the state, and whether both the read and the write succeeded. -/
def State.copy (s : State) (src dst : Ptr) (n : Nat) : State × Bool :=
  if n = 0 then (s, true)
  else
    let r := s.read src n
    if r.status ≠ 0 then (r.st, false)
    else
      let w := r.st.write dst r.data
      (w.st, w.status == 0)

/-- The copies of a LOAD entry into the i-th cluster of a stall (R56): program part, scratchpad image. -/
def loadCopies (r : Region) (n pl sl i c : Nat) : List (Ptr × Ptr × Nat) :=
  let d : Ptr := { store := .spad (Fin.ofNat 8 c), addr := 0 }
  [(ptrAdd r.ptr (64 + i * (pl / n)), d, pl / n),
   (ptrAdd r.ptr (64 + pl + i * sl), ptrAdd d (pl / n), sl)]

/-- LOAD_ENTRY_END (R39, R56): the model is resident at the end, unless a read or write has failed. -/
def execLoadEntryEnd (st : Fin 8) (s : State) : Out :=
  let n := st.val
  done (match (s.stall n).loading with
    | none => s
    | some (model, _) =>
      let s1 := s.setStall n { s.stall n with loading := none }
      match s.modelOf n model with
      | none => s1
      | some (sec, _, k, pl, sl) =>
        match s.active.recs.find? (fun r => r.kind == 1 && r.section_ == sec) with
        | none => s1
        | some r =>
          let cs := (s.stallClusters n).zipIdx.flatMap (fun c => loadCopies r k pl sl c.2 c.1)
          let x := cs.foldl (fun (a : State × Bool) c => if a.2 then a.1.copy c.1 c.2.1 c.2.2 else a) (s1, true)
          if x.2 = true ∧ bits (x.1.reg (Reg.STALL_STATE n)) 1 0 = 1 then
            x.1.setReg (Reg.STALL_RESIDENT n) (BitVec.ofNat 32 (model + 2 ^ 31))
          else x.1)

/-- JOB_READMIT (R43): the bits of jobs that are torn down wait for the next boundary. -/
def execJobReadmit (m : Master) (st : Fin 8) (v : Word) (s : State) : Out :=
  done (s.gate m (pageStall st.val) (fun t => t.setStall st.val { t.stall st.val with
    readmit := (t.stall st.val).readmit ||| (v &&& t.reg (Reg.STALL_JOB_FAULTED st.val)) }))

end Sys2Proof.Machine
end

