-- ==== Sys2Proof/Machine/Patch.lean ====
section
/-!
DEFINITION. The patch expander and the window unit: EXPAND, S2D and POOL (R115 to R119). A group is one output row of the
patch matrix or one output pixel.
-/
namespace Sys2Proof.Machine

/-- The byte at pixel (y, x) of the source, channel 0. -/
def Issue.pixel (x : Issue) (e y xx : Nat) : Ptr :=
  ptrAdd x.src (y * descStride (x.w 7) + xx * bits (x.w 3) 15 0 * e)

/-- The position in the image of a padded one: none in the padding. -/
def unpad (p pad n : Nat) : Option Nat := if pad ≤ p ∧ p - pad < n then some (p - pad) else none

/-- The kernel positions of an output pixel: for each the image position, none in the padding. -/
def windowAt (y x kh kw sh sw dh dw pt pl h w : Nat) : List (Option (Nat × Nat)) :=
  (List.range kh).flatMap (fun ky => (List.range kw).map (fun kx =>
    match unpad (y * sh + ky * dh) pt h, unpad (x * sw + kx * dw) pl w with
    | some yy, some xx => some (yy, xx)
    | _, _ => none))

/-- The window of output pixel (y, x) of EXPAND (R116). -/
def expandWindow (i : Issue) (y x : Nat) : List (Option (Nat × Nat)) :=
  windowAt y x (bits (i.w 1) 3 0) (bits (i.w 1) 7 4) (bits (i.w 1) 11 8) (bits (i.w 1) 15 12) (bits (i.w 1) 19 16)
    (bits (i.w 1) 23 20) (bits (i.w 4) 3 0) (bits (i.w 4) 11 8) (bits (i.w 2) 15 0) (bits (i.w 2) 31 16)

/-- The bytes of a window: the pixels' channels, or the filler for a position in the padding. -/
def State.windowBytes (s : State) (i : Issue) (e : Nat) (fill : List Byte) (ws : List (Option (Nat × Nat))) : List Byte :=
  let n := bits (i.w 3) 15 0
  ws.flatMap (fun p => match p with
    | some q => (List.range (n * e)).map (fun k => s.fetch (ptrAdd (i.pixel e q.1 q.2) k))
    | none => (List.range n).flatMap (fun _ => fill))

/-- The byte ranges of a window. -/
def windowReads (i : Issue) (e : Nat) (ws : List (Option (Nat × Nat))) : List (Ptr × Nat) :=
  ws.filterMap (fun p => p.map (fun q => (i.pixel e q.1 q.2, bits (i.w 3) 15 0 * e)))

/-- Bytes filled with zero to a length. -/
def padTo (n : Nat) (d : List Byte) : List Byte := d ++ List.replicate (n - d.length) 0

/-- EXPAND (R116). -/
def execExpand (c : Fin 8) (pc : BitVec 23) (s : State) : Out :=
  done (s.issue c pc.toNat 0x02 (fun t i =>
    let e := elemBytes (bits (i.w 1) 27 24)
    let ow := expandWidth i
    let y0 := bits (i.w 5) 15 0
    let t1 := t.setReg (Reg.PXE_LAST_INSTR c.val) (BitVec.ofNat 32 pc.toNat)
    let r := t1.runGroups i none 0 ((List.range (bits (i.w 5) 31 16 * ow)).map (fun k =>
      let ws := expandWindow i (y0 + k / ow) (k % ow)
      { reads := windowReads i e ws
        act := fun a => a.writeAll i.st [(ptrAdd i.dst (k * descStride (i.w 9)),
          padTo (descStride (i.w 9)) (a.windowBytes i e (leBytes e (bits (i.w 4) 31 16)) ws))] }))
    if r.2 then r.1.tally (Reg.PXE_EXPAND_DONE c.val) else r.1))

/-- The window of output pixel (y, x) of S2D: positions beyond the image are filled with zero (R117). -/
def s2dWindow (i : Issue) (y x : Nat) : List (Option (Nat × Nat)) :=
  let b := bits (i.w 1) 3 0
  windowAt y x b b b b 1 1 0 0 (bits (i.w 2) 15 0) (bits (i.w 2) 31 16)

/-- S2D (R117). -/
def execS2d (c : Fin 8) (pc : BitVec 23) (s : State) : Out :=
  done (s.issue c pc.toNat 0x03 (fun t i =>
    let e := elemBytes (bits (i.w 1) 27 24)
    let b := bits (i.w 1) 3 0
    let ow := cdiv (bits (i.w 2) 31 16) b
    let oh := cdiv (bits (i.w 2) 15 0) b
    let n := b * b * bits (i.w 3) 15 0 * e
    let t1 := t.setReg (Reg.PXE_LAST_INSTR c.val) (BitVec.ofNat 32 pc.toNat)
    let r := t1.runGroups i none 0 ((List.range (oh * ow)).map (fun k =>
      let ws := s2dWindow i (k / ow) (k % ow)
      { reads := windowReads i e ws
        act := fun a => a.writeAll i.st [(ptrAdd i.dst (k / ow * descStride (i.w 9) + k % ow * n),
          a.windowBytes i e (leBytes e 0) ws)] }))
    if r.2 then r.1.tally (Reg.PXE_S2D_DONE c.val) else r.1))

/-- The window of output pixel (y, x) of POOL (R118). -/
def poolWindow (i : Issue) (y x : Nat) : List (Option (Nat × Nat)) :=
  windowAt y x (bits (i.w 1) 3 0) (bits (i.w 1) 7 4) (bits (i.w 1) 11 8) (bits (i.w 1) 15 12) 1 1
    (bits (i.w 4) 3 0) (bits (i.w 4) 11 8) (bits (i.w 2) 15 0) (bits (i.w 2) 31 16)

/-- The largest of a window (R118): the code, and the tally: 1 NAN_OUT. -/
def poolMax (fmt : Nat) (xs : List Nat) : Nat × Nat :=
  if xs.any (fun v => decide (numOf fmt v = .nan)) then ((convert .nan fmt 0 false 0).code, 1)
  else
    let m := xs.tail.foldl (fun a v => if ltNum (numOf fmt a) (numOf fmt v) then v else a) (xs.headD 0)
    (if isZero (numOf fmt m) then 0 else m, 0)

/-- The average of a window with divisor d (R119): the code, and the tally: 1 NAN_OUT, 2 SAT_OUT. -/
def poolAvg (fmt d : Nat) (xs : List Nat) : Nat × Nat :=
  match kindOf fmt with
  | some (.int b sg) =>
    let t : Int := (xs.map (intOf b sg)).foldl (· + ·) 0
    ((convert (.fin (decide (t < 0)) (roundDiv t.natAbs d 0 0) 0) fmt 0 false 0).code, 0)
  | _ =>
    let t := (xs.map (fpIn fmt)).foldl fadd 0
    let v := num32 (fdiv t (toFp32 (numOfInt d)))
    let k := convert v fmt 0 false 0
    (k.code, if v = .nan then 1 else if k.tally = 1 ∧ isFin v = true then 2 else 0)

/-- One channel of an output pixel of POOL. -/
def State.poolChannel (s : State) (i : Issue) (fmt e ch : Nat) (ws : List (Option (Nat × Nat))) : Nat × Nat :=
  let xs := ws.filterMap (fun p => p.map (fun q => s.elem (ptrAdd (i.pixel e q.1 q.2) (ch * e)) (8 * e) 0))
  if bit (i.w 1) 16 then poolAvg fmt (if bit (i.w 1) 17 then ws.length else xs.length) xs else poolMax fmt xs

/-- POOL (R118, R119). DESIGN CHOICE (log 46): output row OUT_Y0 of the band lies at the destination's ADDR, as EXPAND's first row does. -/
def execPool (c : Fin 8) (pc : BitVec 23) (s : State) : Out :=
  done (s.issue c pc.toNat 0x04 (fun t i =>
    let fmt := bits (i.w 1) 27 24
    let e := elemBytes fmt
    let n := bits (i.w 3) 15 0
    let ow := outSize (bits (i.w 2) 31 16) (bits (i.w 4) 11 8 + bits (i.w 4) 15 12) 1 (bits (i.w 1) 7 4) (bits (i.w 1) 15 12)
    let y0 := bits (i.w 5) 15 0
    let t1 := t.setReg (Reg.WU_LAST_INSTR c.val) (BitVec.ofNat 32 pc.toNat)
    let r := t1.runGroups i none 0 ((List.range (bits (i.w 5) 31 16 * ow)).map (fun k =>
      let ws := poolWindow i (y0 + k / ow) (k % ow)
      { reads := windowReads i e ws
        act := fun a =>
          let vs := (List.range n).map (fun ch => a.poolChannel i fmt e ch ws)
          let a1 := (a.count (Reg.WU_NAN_OUT c.val) (vs.filter (fun v => v.2 == 1)).length).count (Reg.WU_SAT_OUT c.val)
            (vs.filter (fun v => v.2 == 2)).length
          a1.writeAll i.st [(ptrAdd i.dst (k / ow * descStride (i.w 9) + k % ow * n * e), packCodes (8 * e) (vs.map Prod.fst))] }))
    if r.2 then r.1.tally (Reg.WU_POOL_DONE c.val) else r.1))

end Sys2Proof.Machine
end

