-- ==== Sys2Proof/Machine/Vector.lean ====
section
/-!
DEFINITION. The vector engine's instructions (R142 to R170). An instruction is a list of groups in the order of R146; a
group reads, then writes; the first group whose access fails, or in which a parity error is found, faults the job and
writes nothing, nor does any later one (R168).
-/
namespace Sys2Proof.Machine

/-- The groups of R × C elements (R146): the rows and columns of each. -/
def vGroups (blocked : Bool) (r c : Nat) : List (List Nat × List Nat) :=
  if blocked then
    (List.range (cdiv r 32)).flatMap (fun t => (List.range (cdiv c 2)).map (fun u =>
      ((List.range (min 32 (r - 32 * t))).map (· + 32 * t), (List.range (min 2 (c - 2 * u))).map (· + 2 * u))))
  else
    (List.range r).flatMap (fun i => (List.range (cdiv c 64)).map (fun u =>
      ([i], (List.range (min 64 (c - 64 * u))).map (· + 64 * u))))

/-- The lane of an element (R146). -/
def vLane (blocked : Bool) (i j : Nat) : Nat := if blocked then 32 * (j % 2) + i % 32 else j % 64

/-- The first byte of a row of a tensor; of the row's block for a blocked one. -/
def Tensor.row (t : Tensor) (i : Nat) : Ptr := ptrAdd t.p ((if t.blocked then i / 32 else i) * t.stride)

/-- The code of element (i, j) (R102, R122). -/
def State.tensorElem (s : State) (t : Tensor) (i j : Nat) : Nat :=
  if t.blocked then s.elem (ptrAdd (t.row i) (128 * j + 4 * (i % 32))) 32 0 else s.elem (t.row i) (elemBits t.fmt) j

/-- The byte ranges of a group's elements. -/
def Tensor.ranges (t : Tensor) (rows cols : List Nat) : List (Ptr × Nat) :=
  if t.blocked then cols.map (fun j => (ptrAdd (t.row (rows.headD 0)) (128 * j + 4 * (rows.headD 0 % 32)), 4 * rows.length))
  else rows.map (fun i => elemRange (t.row i) (elemBits t.fmt) (cols.headD 0) cols.length)

/-- The place of the second operand of an element by Y_MODE (R144): address and format. -/
def Issue.yAt (x : Issue) (i j : Nat) : Option (Ptr × Nat) :=
  let y := x.y
  match bits (x.w 12) 2 0 with
  | 1 => some (ptrAdd y.p (4 * i), 13)
  | 2 => some (ptrAdd (ptrAdd y.p (i * y.stride)) (4 * (j / 2 ^ bits (x.w 12) 11 8)), 13)
  | 4 => some (ptrAdd y.p (4 * j), 13)
  | _ => none

/-- The second operand's code and format; none for Y_MODE 0. -/
def State.ySecond (s : State) (x : Issue) (i j : Nat) : Option (Nat × Nat) :=
  if bits (x.w 12) 2 0 = 3 then some (s.tensorElem x.y i j, x.y.fmt)
  else (x.yAt i j).map (fun q => (s.elem q.1 32 0, q.2))

/-- The byte ranges of a group's second operand and of Z. -/
def Issue.yRanges (x : Issue) (rows cols : List Nat) : List (Ptr × Nat) :=
  match bits (x.w 12) 2 0 with
  | 0 => []
  | 3 => x.y.ranges rows cols
  | 1 => [(ptrAdd x.y.p (4 * rows.headD 0), 4 * rows.length)]
  | 2 => rows.flatMap (fun i =>
      let b := bits (x.w 12) 11 8
      let lo := cols.headD 0 / 2 ^ b
      [(ptrAdd (ptrAdd x.y.p (i * x.y.stride)) (4 * lo), 4 * ((cols.headD 0 + cols.length - 1) / 2 ^ b + 1 - lo))])
  | _ => [(ptrAdd x.y.p (4 * cols.headD 0), 4 * cols.length)]

/-- The byte range of a group's Z values. -/
def Issue.zRanges (x : Issue) (cols : List Nat) : List (Ptr × Nat) :=
  if bit (x.w 12) 3 then [(ptrAdd (descPtr x.c (x.w 13)) (4 * cols.headD 0), 4 * cols.length)] else []

/-- The lane's LFSR steps for an element when RND is SR (R136): the state and r. -/
def State.stepLane (s : State) (x : Issue) (lane : Nat) : State × Nat :=
  if bits (x.w 1) 21 20 = 2 then
    let cl := s.cluster x.c.val
    let v := lfsr16 (mapGetD cl.lfsr lane 0)
    (s.setCluster x.c.val { cl with lfsr := tblSet 0 lane v cl.lfsr }, v.toNat % 65536)
  else (s, 0)

/-- The codebook search of R164 over the vector engine's table. DESIGN CHOICE (log 45): a table with no finite entry gives index 0. -/
def cbSearch (t : CodeTable) (v : Num) : Conv :=
  let es := t.entries.zipIdx.map (fun e => (numOf (efmtCode t.efmt) e.1.toNat, e.2))
  let fs := es.filter (fun e => isFin e.1)
  match v with
  | .nan => ⟨0, 2⟩
  | .inf neg =>
    ⟨((fs.foldl (fun (b : Option (Num × Nat)) e => match b with
        | none => some e
        | some y => if (if neg then ltNum e.1 y.1 else ltNum y.1 e.1) then some e else some y) none).map Prod.snd).getD 0, 1⟩
  | .fin s m e =>
    let dist := fun (y : Num) => match y with
      | .fin s' m' e' => let d := addFin s m e (!s') m' e'; Num.fin false d.1.natAbs d.2
      | _ => Num.nan
    ⟨((fs.foldl (fun (b : Option (Num × Nat)) y => match b with
        | none => some y
        | some z => if ltNum (dist y.1) (dist z.1) then some y else some z) none).map Prod.snd).getD 0, 0⟩

/-- Count a conversion's tally (R138, R169). -/
def State.countConv (s : State) (c : Nat) (t : Nat) : State :=
  match t with
  | 1 => s.tally (Reg.VX_CVT_SAT c)
  | 2 => s.tally (Reg.VX_CVT_NAN_ZERO c)
  | 3 => s.tally (Reg.VX_CVT_UNDERFLOW c)
  | _ => s

/-- A format has a NaN (R137, classes A and B). -/
def hasNan (f : Nat) : Bool := (decide (6 ≤ f) && decide (f ≤ 9)) || decide (f = 13)

/-- A result converted to FMT_D, with its lane's LFSR and its tallies (R133 to R138, R164, R169): the state and the code. DESIGN CHOICE
(log 45): a NaN that SOFTMAX writes into an integer D is a 0 counted as R137 counts it, and not in NAN_OUT. -/
def State.outElem (s : State) (x : Issue) (lane : Nat) (v : Word) : State × Nat :=
  let r := s.stepLane x lane
  let fd := bits (x.w 1) 19 16
  let k := if fd = 10 ∨ fd = 11 then cbSearch (s.cluster x.c.val).vxTable (num32 v)
    else convert (num32 v) fd (bits (x.w 1) 21 20) (bit (x.w 1) 22) r.2
  let t := r.1.countConv x.c.val k.tally
  (if hasNan fd ∧ num32 v = .nan then t.tally (Reg.VX_NAN_OUT x.c.val) else t, k.code)

/-- Elements of a group computed in order and written row by row to D: `f` gives the state and the code of an element. -/
def State.writeGroup (s : State) (x : Issue) (rows cols : List Nat) (f : State → Nat → Nat → State × Nat) : State × Option Nat :=
  let r := rows.foldl (fun (a : State × List (Ptr × List Byte)) i =>
    let c := cols.foldl (fun (b : State × List Nat) j =>
      let e := f b.1 i j
      (e.1, b.2 ++ [e.2])) (a.1, [])
    let bb := elemBits x.d.fmt
    (c.1, a.2 ++ [(ptrAdd (x.d.row i) (cols.headD 0 * bb / 8), packCodes bb c.2)])) (s, [])
  r.1.writeAll x.st r.2

/-- LAST_INSTR of the vector engine (R170): the offset that SEQ_PC shows. -/
def State.vxStart (s : State) (x : Issue) : State :=
  s.setReg (Reg.VX_LAST_INSTR x.c.val) (s.reg (Reg.CLUSTER_SEQ_PC x.c.val))

/-- The effective R and C of an instruction (R145). -/
def State.vxShape (s : State) (x : Issue) : State × Nat × Nat :=
  let a := (s.vxStart x).effLen x (bit (x.w 2) 24) (bits (x.w 2) 23 20) (bits (x.w 2) 19 0) 3
  let b := a.1.effLen x (bit (x.w 3) 24) (bits (x.w 3) 23 20) (bits (x.w 3) 19 0) 4
  (b.1, a.2, b.2)

/-- An instruction over R rows and C columns: with either 0 nothing is read or written and ZERO_SHAPE counts (R145). -/
def State.vxRun (s : State) (x : Issue) (par : Option (BitVec 20)) (gs : Nat → Nat → List Group) : State :=
  let r := s.vxShape x
  if r.2.1 = 0 ∨ r.2.2 = 0 then r.1.tally (Reg.CLUSTER_ZERO_SHAPE x.c.val)
  else (r.1.runGroups x (par.map BitVec.toNat) 0 (gs r.2.1 r.2.2)).1

/-- An integer X less its zero point, in FP32 (R148, R156). -/
def cvtIn (fx zpv code : Nat) : Word :=
  match kindOf fx with
  | some (.int b sg) => toFp32 (numOfInt (intOf b sg code - (if fx ≤ 3 then intOf b sg zpv else 0)))
  | _ => fpIn fx code

/-- The value of one element of CVT before the conversion (R148). -/
def cvtValue (x : Issue) (code : Nat) (y z : Option Word) : Word :=
  let v := cvtIn (bits (x.w 1) 11 8) (bits (x.w 12) 27 20) code
  let v := fmul v (y.getD one32)
  let v := fmul v (z.getD one32)
  let v := activate32 (bits (x.w 12) 7 4) (x.w 14) v
  fadd (fmul v (x.w 10)) (x.w 11)

/-- CVT (R148 to R151, R164). -/
def execCvt (c : Fin 8) (pc : BitVec 23) (par : Option (BitVec 20)) (s : State) : Out :=
  done (s.issue c pc.toNat 0x40 (fun t x =>
    let fd := bits (x.w 1) 19 16
    if (fd = 10 ∨ fd = 11) ∧ tagOk (t.cluster c.val).vxTable (bits (x.w 12) 19 12) = false then (t.vxStart x).cbMiss x
    else t.vxRun x par (fun r cn => (vGroups x.x.blocked r cn).map (fun g =>
      { reads := x.x.ranges g.1 g.2 ++ (x.yRanges g.1 g.2 ++ x.zRanges g.2)
        act := fun a => a.writeGroup x g.1 g.2 (fun b i j =>
          let y := (a.ySecond x i j).map (fun q => BitVec.ofNat 32 q.1)
          let z := if bit (x.w 12) 3 then some (a.elem32 (descPtr x.c (x.w 13)) j) else none
          b.outElem x (vLane x.x.blocked i j) (cvtValue x (a.tensorElem x.x i j) y z)) }))))

/-- The floating-point operations of EW (R153). -/
def ewFloat (sub : Nat) (x y a b : Word) : Word :=
  match sub with
  | 0 => fadd x y
  | 1 => fsub x y
  | 2 => fmul x y
  | 3 => fdiv x y
  | 4 => fmax x y
  | 5 => fmin x y
  | 6 => fadd (fmul x y) b
  | _ => fadd (fmul x a) b

/-- The integer operations of EW (R153). -/
def ewInt (sub : Nat) (x y : Int) : Int :=
  match sub with
  | 8 => x + y
  | 9 => x - y
  | 10 => max x y
  | _ => min x y

/-- One element of EW: the state and the code. -/
def State.ewElem (s : State) (x : Issue) (i j code : Nat) (y : Option (Nat × Nat)) : State × Nat :=
  let sub := bits (x.w 1) 7 0
  if 8 ≤ sub then
    let r := sat32 (ewInt sub (intOf 32 true code) (intOf 32 true ((y.map Prod.fst).getD (x.w 10).toNat)))
    (if r.2 then s.tally (Reg.VX_INT_SAT x.c.val) else s, r.1.toNat)
  else
    let yv := match y with
      | some q => fpIn q.2 q.1
      | none => toFp32 (num32 (x.w 10))
    s.outElem x (vLane x.x.blocked i j) (ewFloat sub (fpIn x.x.fmt code) yv (x.w 10) (x.w 11))

/-- EW (R153). -/
def execEw (c : Fin 8) (pc : BitVec 23) (par : Option (BitVec 20)) (s : State) : Out :=
  done (s.issue c pc.toNat 0x41 (fun t x =>
    t.vxRun x par (fun r cn => (vGroups x.x.blocked r cn).map (fun g =>
      { reads := x.x.ranges g.1 g.2 ++ x.yRanges g.1 g.2
        act := fun a => a.writeGroup x g.1 g.2 (fun b i j => b.ewElem x i j (a.tensorElem x.x i j) (a.ySecond x i j)) }))))

/-- The elements of a row in FP32. -/
def State.rowValues (s : State) (x : Issue) (i j0 n : Nat) : List Word :=
  (List.range n).map (fun j => fpIn x.x.fmt (s.tensorElem x.x i (j0 + j)))

/-- Adjacent sums, one level of R154. -/
def pairSums : List Word → List Word
  | a :: b :: r => fadd a b :: pairSums r
  | l => l

/-- The sum of a row in the order of R154. -/
def rowSum (vs : List Word) : Word :=
  let lanes := (List.range 64).map (fun l =>
    (vs.zipIdx.filter (fun v => v.2 % 64 == l)).foldl (fun (a : Word) v => fadd a v.1) 0)
  ((List.range 6).foldl (fun (a : List Word) _ => pairSums a) lanes).headD 0

/-- The largest of a row (R132, R154). -/
def rowMax : List Word → Word
  | [] => 0
  | v :: r => r.foldl fmax (fmax v v)

/-- The smallest of a row. -/
def rowMin : List Word → Word
  | [] => 0
  | v :: r => r.foldl fmin (fmin v v)

/-- The value RED writes for a row (R154). -/
def redValue (sub : Nat) (vs : List Word) : Word :=
  match sub with
  | 0 => rowSum vs
  | 1 => rowSum (vs.map (fun v => fmul v v))
  | 2 => rowMax vs
  | 3 => rowMin vs
  | _ => rowMax (vs.map fabs)

/-- RED (R154). -/
def execRed (c : Fin 8) (pc : BitVec 23) (par : Option (BitVec 20)) (s : State) : Out :=
  done (s.issue c pc.toNat 0x42 (fun t x =>
    t.vxRun x par (fun r cn => (List.range r).map (fun i =>
      { reads := [elemRange (x.x.row i) (elemBits x.x.fmt) 0 cn]
        act := fun a => a.writeAll x.st [(ptrAdd x.d.p (4 * i), leBytes 4 (redValue (bits (x.w 1) 7 0) (a.rowValues x i 0 cn)).toNat)] }))))

/-- The values SOFTMAX converts for a row (R155). -/
def softmaxRow (vs : List Word) : List Word :=
  let m := rowMax vs
  if vs.any (fun v => decide (num32 v = .nan) || decide (num32 v = .inf false)) then vs.map (fun _ => nan32)
  else if num32 m = .inf true then vs.map (fun _ => 0)
  else
    let es := vs.map (fun v => vexp (fsub v m))
    let t := rowSum es
    es.map (fun e => fdiv e t)

/-- SOFTMAX (R155). -/
def execSoftmax (c : Fin 8) (pc : BitVec 23) (par : Option (BitVec 20)) (s : State) : Out :=
  done (s.issue c pc.toNat 0x43 (fun t x =>
    t.vxRun x par (fun r cn => (List.range r).map (fun i =>
      { reads := [elemRange (x.x.row i) (elemBits x.x.fmt) 0 cn]
        act := fun a =>
          let vs := softmaxRow (a.rowValues x i 0 cn)
          a.writeGroup x [i] (List.range cn) (fun b _ j => b.outElem x (j % 64) (vs.getD j 0)) }))))

/-- QMAX of a code format (R157). -/
def qmax (fd : Nat) : Word :=
  match fd with
  | 1 => 0x40E00000
  | 2 => 0x42FE0000
  | 3 => 0x437F0000
  | 4 => 0x46FFFE00
  | 5 => 0x40C00000
  | 6 => 0x43E00000
  | 7 => 0x47600000
  | _ => 0x477FE000

/-- The scale of a block whose ABSMAX is a, and the tally: 0 none, 1 SCALE_ZERO, 2 SCALE_INF (R157). -/
def blockScale (fd : Nat) (a : Word) : Word × Nat :=
  match num32 a with
  | .nan => (nan32, 0)
  | .inf _ => (0x7F7FFFFF, 2)
  | .fin _ _ _ => let q := fdiv a (qmax fd); (q, if q = 0 then 1 else 0)

/-- The blocks of 2^b elements of a row of cn elements, in the groups in which they are read and written (R146): the blocks that lie
in one group of 64 elements, or one longer block. -/
def blockGroups (b cn : Nat) : List (List Nat) :=
  let h := 2 ^ b
  let per := 64 / h
  if per ≤ 1 then (List.range (cdiv cn h)).map (fun k => [k])
  else (List.range (cdiv cn 64)).map (fun u => ((List.range per).map (· + per * u)).filter (fun k => decide (k * h < cn)))

/-- The byte range of the elements of X that some blocks of row i hold. -/
def Issue.blockRange (x : Issue) (i b cn : Nat) (ks : List Nat) : Ptr × Nat :=
  let h := 2 ^ b
  elemRange (x.x.row i) (elemBits x.x.fmt) (ks.headD 0 * h) (min (ks.length * h) (cn - ks.headD 0 * h))

/-- QSCALE (R157). -/
def execQscale (c : Fin 8) (pc : BitVec 23) (par : Option (BitVec 20)) (s : State) : Out :=
  done (s.issue c pc.toNat 0x44 (fun t x =>
    let p := bits (x.w 12) 11 8
    let h := 2 ^ p
    t.vxRun x par (fun r cn => (List.range r).flatMap (fun i => (blockGroups p cn).map (fun ks =>
      { reads := [x.blockRange i p cn ks]
        act := fun a =>
          let qs := ks.map (fun k => blockScale (bits (x.w 1) 19 16) (rowMax ((a.rowValues x i (k * h) (min h (cn - k * h))).map fabs)))
          let t := qs.foldl (fun (s : State) q => match q.2 with
            | 1 => s.tally (Reg.VX_SCALE_ZERO x.c.val)
            | 2 => s.tally (Reg.VX_SCALE_INF x.c.val)
            | _ => s) a
          t.writeAll x.st [(ptrAdd (x.d.row i) (4 * ks.headD 0), wordBytes (qs.map Prod.fst))] })))))

/-- One element of QUANT (R158): the state and the code. An element counts in one tally (R138): where its conversion saturates, or
makes a NaN 0, that one governs. -/
def State.quantElem (s : State) (x : Issue) (lane : Nat) (v sc : Word) : State × Nat :=
  let r := s.stepLane x lane
  let fd := bits (x.w 1) 19 16
  let z := bits (x.w 12) 27 20
  let nz := decide (num32 v ≠ .nan) && !isZero (num32 v)
  if isZero (num32 sc) then
    (r.1.countConv x.c.val (if num32 v = .nan then 2 else if nz then 3 else 0), z)
  else
    let q := fadd (fdiv v sc) (toFp32 (numOf fd z))
    let k := convert (num32 q) fd (bits (x.w 1) 21 20) (bit (x.w 1) 22) r.2
    let under := isFin (num32 v) && nz && k.code == z
    (r.1.countConv x.c.val (if under = true ∧ (k.tally = 0 ∨ k.tally = 3) then 3 else if k.tally = 3 then 0 else k.tally), k.code)

/-- QUANT (R158). -/
def execQuant (c : Fin 8) (pc : BitVec 23) (par : Option (BitVec 20)) (s : State) : Out :=
  done (s.issue c pc.toNat 0x45 (fun t x =>
    t.vxRun x par (fun r cn => (vGroups false r cn).map (fun g =>
      { reads := x.x.ranges g.1 g.2 ++ x.yRanges g.1 g.2
        act := fun a => a.writeGroup x g.1 g.2 (fun b i j =>
          b.quantElem x (j % 64) (fpIn x.x.fmt (a.tensorElem x.x i j))
            (BitVec.ofNat 32 (((a.ySecond x i j).map Prod.fst).getD 0))) }))))

/-- One stage of the rotation (R159). -/
def whtStage (st : Nat) (vs : List Word) : List Word :=
  vs.zipIdx.map (fun v =>
    if v.2.testBit st then fsub (vs.getD (v.2 - 2 ^ st) 0) v.1 else fadd v.1 (vs.getD (v.2 + 2 ^ st) 0))

/-- c_H (R159). -/
def whtScale (p : Nat) : Word :=
  match p with
  | 4 => 0x3E800000
  | 5 => 0x3E3504F3
  | 6 => 0x3E000000
  | 7 => 0x3DB504F3
  | 8 => 0x3D800000
  | 9 => 0x3D3504F3
  | 10 => 0x3D000000
  | 11 => 0x3CB504F3
  | _ => 0x3C800000

/-- The rotation of a block of 2^p values. -/
def whtBlock (p : Nat) (vs : List Word) : List Word :=
  ((List.range p).foldl (fun (a : List Word) st => whtStage st a) vs).map (fun v => fmul v (whtScale p))

/-- WHT (R159). -/
def execWht (c : Fin 8) (pc : BitVec 23) (par : Option (BitVec 20)) (s : State) : Out :=
  done (s.issue c pc.toNat 0x46 (fun t x =>
    let p := bits (x.w 12) 11 8
    let h := 2 ^ p
    t.vxRun x par (fun r cn => (List.range r).flatMap (fun i => (blockGroups p (cn / h * h)).map (fun ks =>
      { reads := [x.blockRange i p (cn / h * h) ks]
        act := fun a => a.writeAll x.st [(ptrAdd (x.d.row i) (4 * (ks.headD 0 * h)),
          wordBytes (ks.flatMap (fun k => whtBlock p (a.rowValues x i (k * h) h))))] })))))

/-- One row of SELECT: how many rows were selected and copied so far (R165). -/
structure SelAcc where
  s : State
  ok : Bool := true
  sel : Nat := 0
  kept : Nat := 0

/-- The work of SELECT on row i of C elements. DESIGN CHOICE (log 45): the whole row is read, selected or not. -/
def selectRow (x : Issue) (cn : Nat) (par : Option Nat) (a : SelAcc) (i : Nat) : SelAcc :=
  if a.ok = false then a
  else if par = some i then { a with s := a.s.seqFault x 3, ok := false }
  else
    let col := bits (x.w 14) 31 20
    if cn ≤ col then a
    else
      let rg := elemRange (x.x.row i) (elemBits x.x.fmt) 0 cn
      let r := a.s.readAll x.st [rg]
      match r.2 with
      | some cause => { a with s := r.1.seqFault x cause, ok := false }
      | none =>
        if leNum (num32 (x.w 10)) (numOf x.x.fmt (a.s.tensorElem x.x i col)) then
          if a.kept < bits (x.w 14) 15 0 then
            let w := r.1.writeAll x.st [(ptrAdd x.d.p (a.kept * x.d.stride), (List.range rg.2).map (fun k => a.s.fetch (ptrAdd rg.1 k)))]
            match w.2 with
            | some cause => { a with s := w.1.seqFault x cause, ok := false }
            | none => { a with s := w.1, sel := a.sel + 1, kept := a.kept + 1 }
          else { a with s := r.1, sel := a.sel + 1 }
        else { a with s := r.1 }

/-- SELECT (R165). -/
def execSelect (c : Fin 8) (pc : BitVec 23) (par : Option (BitVec 20)) (s : State) : Out :=
  done (s.issue c pc.toNat 0x47 (fun t x =>
    let r := t.vxShape x
    let lreg := bits (x.w 14) 19 16
    if r.2.1 = 0 ∨ r.2.2 = 0 then (r.1.tally (Reg.CLUSTER_ZERO_SHAPE c.val)).setLen c.val x.job lreg 0
    else
      let a := (List.range r.2.1).foldl (selectRow x r.2.2 (par.map BitVec.toNat)) { s := r.1 }
      if a.ok = false then a.s
      else
        let u := a.s.setLen c.val x.job lreg (BitVec.ofNat 32 a.kept)
        if a.kept < a.sel then ((u.tally (Reg.VX_SELECT_CAP c.val)).event (pageVx c.val) 2).clip x.st (x.w 15) else u))

/-- The words of a record after KPRED (R166): dt, Q and the old words. -/
def kpredRecord (dt : Word) (q : Nat → Word) (w : Nat → Word) : List Word :=
  let p := fun r c => w (8 + 8 * r + c)
  let old := fun (v : Word) => v
  (List.range 72).map (fun k =>
    if k < 4 then fadd (w k) (fmul dt (w (k + 4)))
    else if k < 8 then old (w k)
    else
      let r := (k - 8) / 8
      let c := (k - 8) % 8
      let v :=
        if r < 4 ∧ c < 4 then
          fadd (fadd (p r c) (fmul dt (p (r + 4) c))) (fmul dt (fadd (p r (c + 4)) (fmul dt (p (r + 4) (c + 4)))))
        else if r < 4 then fadd (p r c) (fmul dt (p (r + 4) c))
        else if c < 4 then fadd (p r c) (fmul dt (p r (c + 4)))
        else p r c
      if r = c then fadd v (q r) else v)

/-- KPRED (R166): the noise Q is read once, then the records in order. -/
def execKpred (c : Fin 8) (pc : BitVec 23) (par : Option (BitVec 20)) (s : State) : Out :=
  done (s.issue c pc.toNat 0x48 (fun t x =>
    let r := (t.vxStart x).effLen x (bit (x.w 2) 24) (bits (x.w 2) 23 20) (bits (x.w 2) 19 0) 3
    if r.2 = 0 then r.1.tally (Reg.CLUSTER_ZERO_SHAPE c.val)
    else
      let yq := descPtr c (x.w 6)
      (r.1.runGroups x (par.map BitVec.toNat) 0 ((List.range r.2).map (fun i =>
        let p := ptrAdd (descPtr c (x.w 4)) (i * descStride (x.w 5))
        { reads := (if i = 0 then [(yq, 32)] else []) ++ [(p, 0x120)]
          act := fun a => a.writeAll x.st [(p, wordBytes (kpredRecord (x.w 10) (a.elem32 yq) (a.elem32 p)))] }))).1))

/-- CBLOAD (R160, R161): the directory record of the codebook, then its entries, into the tables of SIDE. -/
def execCbload (c : Fin 8) (pc : BitVec 23) (par : Option (BitVec 20)) (s : State) : Out :=
  done (s.issue c pc.toNat 0x49 (fun t x =>
    let n := bits (x.w 12) 19 12
    let base := descPtr c (x.w 4)
    ((t.vxStart x).runGroups x (par.map BitVec.toNat) 0 [
      { reads := [(ptrAdd base (4 * n), 4)]
        act := fun a =>
          let d := a.elem32 (ptrAdd base (4 * n)) 0
          let cnt := if bit d 1 then 256 else 16
          let eb := if bits d 3 2 = 2 then 16 else 8
          let p := ptrAdd base (bits d 31 8 * 64)
          let r := a.readAll x.st [(p, cnt * eb / 8)]
          match r.2 with
          | some cause => (r.1, some cause)
          | none =>
            let tab : CodeTable := { valid := bit d 0, number := BitVec.ofNat 8 n, size256 := bit d 1
                                     efmt := BitVec.ofNat 2 (bits d 3 2)
                                     entries := (List.range cnt).map (fun k => BitVec.ofNat 16 (a.elem p eb k)) }
            let es := a.maskEngines c.val (bits (x.w 1) 7 0)
            (match bits (x.w 1) 25 24 with
             | 0 => (es.foldl (fun (b : State) e => b.setEngine e { b.engine e with aTable := tab }) r.1, none)
             | 1 => (es.foldl (fun (b : State) e => b.setEngine e { b.engine e with bTable := tab }) r.1, none)
             | _ => (r.1.setCluster c.val { r.1.cluster c.val with vxTable := tab }, none)) }]).1))

end Sys2Proof.Machine
end

