-- ==== Sys2Proof/Machine/Bundles.lean ====
section
/-!
DEFINITION. Reading a bundle (R28, R29, R54 to R57, R97): the same readers serve the staging region, as the weigh-in meets it,
and a bank with its placed sections.
-/
namespace Sys2Proof.Machine

/-- Where a bundle's bytes lie: its facts, the first byte of its bank header, whether the variants' entries are packed (R55) or
stand at the offsets of R28, and the first byte of each section. -/
structure Src where
  b : Bundle
  ledger : Ptr
  packed : Bool
  base : List (Option Ptr)

/-- Word i of a section table entry of the header bytes (R54). -/
def sectWord (h : List Byte) (i k : Nat) : Word := bytesWord h (0x080 + 48 * i + 4 * k)

/-- SECTIONS. -/
def sectCount (h : List Byte) : Nat := bits (bytesWord h 0x00C) 6 0

/-- Type, offset and length of section i. -/
def sectType (h : List Byte) (i : Nat) : Nat := bits (sectWord h i 0) 7 0
/-- Its offset in the bundle. -/
def sectOff (h : List Byte) (i : Nat) : Nat := (sectWord h i 1).toNat
/-- Its length. -/
def sectLen (h : List Byte) (i : Nat) : Nat := (sectWord h i 2).toNat
/-- Its digest. -/
def sectDigest (h : List Byte) (i : Nat) : BitVec 256 := BitVec.ofNat 256 (leNat ((h.drop (0x090 + 48 * i)).take 32))

/-- The indices of the sections of a type, ascending. -/
def sectsOf (h : List Byte) (ty : Nat) : List Nat := (List.range (sectCount h)).filter (fun i => sectType h i == ty)

/-- The first section of a type; 255 for none. -/
def sectIx (h : List Byte) (ty : Nat) : Nat := (sectsOf h ty).headD 255

/-- A byte of a section; where the section has no place, the byte of no store. -/
def Src.at_ (r : Src) (i off : Nat) : Ptr :=
  match r.base.getD i none with
  | some p => ptrAdd p off
  | none => { store := .secure, addr := 0x40000 }

/-- Length of section i. -/
def Src.len (r : Src) (i : Nat) : Nat := sectLen r.b.header i

/-- The ACTION section's index. -/
def Src.actIx (r : Src) : Nat := sectIx r.b.header 2

/-- The LEDGER section's index. -/
def Src.ledIx (r : Src) : Nat := sectIx r.b.header 1

/-- n words at an offset of a section. -/
def State.srcWords (s : State) (r : Src) (i off n : Nat) : List Word := s.words (r.at_ i off) n

/-- n words at an offset of the action area. -/
def State.actWords (s : State) (r : Src) (off n : Nat) : List Word := s.srcWords r r.actIx off n

/-- The bytes [off, off + n) lie in the action area. -/
def Src.inAction (r : Src) (off n : Nat) : Bool := decide (off + n ≤ r.len r.actIx)

/-- A word of the bank header. -/
def State.headWord (s : State) (r : Src) (off : Nat) : Word := s.word (ptrAdd r.ledger off)

/-- Entries of variant v. -/
def State.srcCount (s : State) (r : Src) (v : Nat) : Nat :=
  let w := s.headWord r (if v < 2 then 0x014 else 0x018)
  if v % 2 = 0 then bits w 13 0 else bits w 29 16

/-- VARIANTS. -/
def State.srcVariants (s : State) (r : Src) : Nat := bits (s.headWord r 0x010) 2 0

/-- The offset of entry i of variant v from the bank header's first byte. DESIGN CHOICE, log entry 93: R55 gives no code to a LEDGER
section that is too short for its counts, or a MODEL section for its images; what lies behind it is read. -/
def State.entryOff (s : State) (r : Src) (v i : Nat) : Nat :=
  if r.packed then 0x200 + 16 * (((List.range v).map (s.srcCount r)).sum + i) else 0x200 + 0x20000 * v + 16 * i

/-- The four words of entry i of variant v. -/
def State.entryWords (s : State) (r : Src) (v i : Nat) : List Word := s.words (ptrAdd r.ledger (s.entryOff r v i)) 4

/-- The fields of an entry's words. -/
def entryOf (ws : List Word) : Entry := parseEntry (wordAt ws 0) (wordAt ws 1) (wordAt ws 2) (wordAt ws 3)

/-- Entry i of variant v. -/
def State.srcEntry (s : State) (r : Src) (v i : Nat) : Entry := entryOf (s.entryWords r v i)

/-- The entries of variant v with their indices. -/
def State.srcEntries (s : State) (r : Src) (v : Nat) : List (Nat × Entry) :=
  (List.range (s.srcCount r v)).map (fun i => (i, s.srcEntry r v i))

/-- A stall of the bank header (R28). -/
structure StallRec where
  clusters : Nat
  pitch : Nat
  dramRate : Nat
  dramDepth : Nat
  fabRate : Nat
  fabDepth : Nat
  model : Nat

/-- The record of stall st. -/
def State.srcStall (s : State) (r : Src) (st : Nat) : StallRec :=
  let w := fun i => s.headWord r (0x040 + 32 * st + 4 * i)
  { clusters := bits (w 0) 7 0, pitch := bits (w 0) 15 8, dramRate := bits (w 1) 15 0, dramDepth := bits (w 1) 31 16
    fabRate := bits (w 2) 15 0, fabDepth := bits (w 2) 31 16, model := bits (w 3) 15 0 }

/-- The clusters of a stall record, ascending. -/
def StallRec.list (x : StallRec) : List Nat := maskChannels x.clusters

/-- The rates and depths of the shared regulators (R28): media, host DMA, TAU. -/
def State.srcShared (s : State) (r : Src) : List Nat :=
  (List.range 3).flatMap (fun k => [bits (s.headWord r (0x140 + 4 * k)) 15 0, bits (s.headWord r (0x140 + 4 * k)) 31 16])

/-- The stall of the bank that holds a cluster. -/
def State.srcClusterStall (s : State) (r : Src) (c : Nat) : Option Nat :=
  (List.range 8).find? (fun st => (s.srcStall r st).clusters.testBit c)

/-- The model of an identity for a stall (R56): section, MODEL_ID, CLUSTERS, PROG_LEN, SPAD_LEN. -/
def Src.model (r : Src) (st id : Nat) : Option (Nat × Nat × Nat × Nat × Nat) := modelFor r.b.models r.b.recs st id

/-- A stream of a job (R97): the cluster it runs on, the section that holds it, its offset there, and its count. -/
structure JobStream where
  cluster : Nat
  sect : Nat
  off : Nat
  count : Nat

/-- The streams of a PROGRAM entry's job; none where the model or the header is missing. -/
def State.jobStreams (s : State) (r : Src) (e : Entry) : List JobStream :=
  match r.model e.unit e.model with
  | none => []
  | some (sec, _, n, pl, _) =>
    if r.inAction e.operand 64 = false ∨ n = 0 then []
    else
      let h := s.actWords r e.operand 16
      (s.srcStall r e.unit).list.zipIdx.map (fun c =>
        { cluster := c.1, sect := sec, off := 64 + c.2 * (pl / n) + (wordAt h (1 + c.2)).toNat
          count := bits (wordAt h (9 + c.2 / 2)) (16 * (c.2 % 2) + 15) (16 * (c.2 % 2)) })

/-- The words of instruction k of a stream. -/
def State.streamInstr (s : State) (r : Src) (j : JobStream) (k : Nat) : List Word := s.srcWords r j.sect (j.off + 64 * k) 16

/-- The instructions of a stream, in order. -/
def State.streamInstrs (s : State) (r : Src) (j : JobStream) : List (List Word) :=
  (List.range j.count).map (s.streamInstr r j)

/-- Every entry of every variant: variant, index, entry. -/
def State.allEntries (s : State) (r : Src) : List (Nat × Nat × Entry) :=
  (List.range (min (s.srcVariants r) 4)).flatMap (fun v => (s.srcEntries r v).map (fun e => (v, e)))

/-- The engines that the programs of a bank need in a cluster (R404): the highest logical engine that an ENGINES mask names plus
one, and all eight under cluster broadcast. -/
def State.engineNeed (s : State) (r : Src) (c : Nat) : Nat :=
  (((s.allEntries r).filter (fun x => decide (x.2.2.unit < 8) && x.2.2.action == 1)).flatMap (fun x =>
    ((s.jobStreams r x.2.2).filter (fun j => j.cluster == c)).flatMap (fun j =>
      (s.streamInstrs r j).map (fun ws =>
        let mask := fun (m : Nat) => ((List.range 8).filter (fun i => m.testBit i)).foldl (fun a i => max a (i + 1)) 0
        if bits (wordAt ws 0) 7 0 = 0x01 then (if bit (wordAt ws 1) 14 then 8 else mask (bits (wordAt ws 1) 7 0))
        else if bits (wordAt ws 0) 7 0 = 0x49 ∧ bits (wordAt ws 1) 25 24 < 2 then mask (bits (wordAt ws 1) 7 0)
        else 0)))).foldl max 0

/-- The bundle of a bank, its sections in their regions. -/
def State.bankSrc (s : State) (k : Bool) : Src :=
  let b := s.bundle k
  { b := b, ledger := bankPtr k, packed := false
    base := (List.range (sectCount b.header)).map (fun i =>
      ((b.recs.find? (fun x => (x.kind == 1 || x.kind == 2 || x.kind == 3) && x.section_ == i))).map Region.ptr) }

/-- A bundle in the staging region: its sections at their offsets. -/
def stageSrc (b : Bundle) (base : Nat) : Src :=
  { b := b, ledger := { store := .dram, addr := base + sectOff b.header (sectIx b.header 1) }, packed := true
    base := (List.range (sectCount b.header)).map (fun i => some { store := .dram, addr := base + sectOff b.header i }) }

/-- What the loader keeps of a bundle whose header bytes stand at `base` in DRAM (R54 to R56, R283). -/
def State.bundleAt (s : State) (base : Nat) : Bundle :=
  let h := s.peeks { store := .dram, addr := base } 0xC80
  let ix := List.range (sectCount h)
  let at_ := fun (i off n : Nat) => s.words { store := .dram, addr := base + sectOff h i + off } n
  let recs := fun (ty skip n : Nat) => (sectsOf h ty).flatMap (fun i => (List.range n).map (fun k => at_ i (skip + 32 * k) 8))
  { header := h
    regions := recs 5 0 (sectLen h (sectIx h 5) / 32)
    pools := (sectsOf h 6).flatMap (fun i => (List.range (bits ((at_ i 0 1).headD 0) 6 0)).map (fun k => at_ i (64 + 32 * k) 8))
    digests := ix.map (sectDigest h)
    types := ix.map (sectType h)
    models := (sectsOf h 3).map (fun i =>
      let w := at_ i 0 4
      (i, bits (wordAt w 0) 15 0, bits (wordAt w 1) 3 0, (wordAt w 2).toNat, (wordAt w 3).toNat)) }

/-- The first failure of an item: code, section, location within it (R62). -/
structure Fail where
  code : Nat
  sect : Nat
  item : Nat
  deriving DecidableEq, Repr

/-- A condition that fails with a code. -/
def failIf (c : Bool) (code sect item : Nat) : List Fail := if c then [{ code := code, sect := sect, item := item }] else []

/-- The failure with the lowest code of an item; of equal codes the first. -/
def leastFail : List Fail → Option Fail
  | [] => none
  | f :: r =>
    match leastFail r with
    | some g => if g.code < f.code then some g else some f
    | none => some f

/-- The first item with a failure decides (R62). -/
def firstFail (items : List (List Fail)) : Option Fail := items.findSome? leastFail

end Sys2Proof.Machine
end

