-- ==== Sys2Proof/Machine/WeighRegions.lean ====
section
/-!
DEFINITION. The weigh-in, groups 0x01 and 0x02 (R54 to R57, R61, R62, R65, R67, R69, R283, R430): the bundle header, the region
records, the models and the pools.
-/
namespace Sys2Proof.Machine

/-- The counts that R55 allows a section type; none for a type that is not listed. -/
def sectLimits (ty : Nat) : Option (Nat × Nat) :=
  match ty with
  | 1 | 2 | 5 => some (1, 1)
  | 3 => some (0, 64)
  | 4 | 6 | 7 => some (0, 1)
  | _ => none

/-- Section i is misplaced (R54): not on 64 bytes, before 0x4C00, beyond TOTAL_LEN, or on an earlier section. -/
def sectMisplaced (h : List Byte) (total i : Nat) : Bool :=
  decide (sectOff h i % 64 ≠ 0) || decide (sectOff h i < 0x4C00) || decide (total < sectOff h i + sectLen h i) ||
  (List.range i).any (fun j => meets (sectOff h i) (sectLen h i) (sectOff h j) (sectLen h j))

/-- 0x0115 for section i: its type is not listed, or it is one too many (R55). -/
def sectTypeBad (h : List Byte) (i : Nat) : Bool :=
  match sectLimits (sectType h i) with
  | none => true
  | some (_, mx) => decide (mx ≤ ((List.range i).filter (fun j => sectType h j == sectType h i)).length)

/-- The checks of the Signature phase up to 0x0116, in code order (R62). `stepping` is the device's. -/
def headerFails (h : List Byte) (stageLen stepping : Nat) : List (List Fail) :=
  let n := sectCount h
  let total := (bytesWord h 0x008).toNat
  let ix := List.range n
  let sects := fun (bad : Nat → Bool) (code : Nat) => ix.flatMap (fun i => failIf (bad i) code i 0)
  [ failIf (decide (bytesWord h 0 ≠ 0x42524349)) 0x0111 0xFF 0,
    failIf (decide (bits (bytesWord h 4) 15 0 ≠ 1)) 0x0112 0xFF 0,
    failIf (decide (total ≠ stageLen) || decide (0x80000000 < total) || decide (total % 64 ≠ 0)) 0x0113 0xFF 0,
    failIf (decide (n = 0) || decide (64 < n)) 0x0114 0xFF 0 ++ sects (sectMisplaced h total) 0x0114,
    sects (sectTypeBad h) 0x0115 ++ failIf ([1, 2, 5].any (fun t => (sectsOf h t).isEmpty)) 0x0115 0xFF 0 ++
      ix.flatMap (fun i => failIf (sectType h i == 5 && (decide (sectLen h i % 32 ≠ 0) || decide (32 * 4096 < sectLen h i)))
        0x0115 i (sectLen h i)),
    failIf (decide (bits (bytesWord h 0x018) 15 0 ≠ 0x6410) || decide (stepping < bits (bytesWord h 0x018) 23 16)) 0x0116 0xFF 0 ]

/-- The checks of key, signature and lifecycle (R61): the whole Signature phase. The state that the fuses hold governs, from a burn on
(R378). `sig` holds the signature. -/
def State.signatureFails (s : State) (h sig : List Byte) (stageLen : Nat) : List (List Fail) :=
  let slot := bits (bytesWord h 0x010) 1 0
  let key := (h.drop 0x020).take 48
  headerFails h stageLen (bits (s.reg Reg.CHIP_CHIP_ID) 23 16) ++
  [ failIf (!s.keyProgrammed slot && !s.keySpoiled slot) 0x0121 0xFF 0,
    failIf (s.keyRevoked slot) 0x0122 0xFF 0,
    failIf (!s.keyMatches slot key) 0x0123 0xFF 0,
    failIf (!Config.slhVerify key h sig) 0x0124 0xFF 0,
    failIf (decide (s.lcFused ≠ 1) && decide (s.lcFused ≠ 2)) 0x0126 0xFF 0 ]

/-- The Hashing phase: 0x0125, section by section (R61). -/
def State.hashFails (s : State) (b : Bundle) (base : Nat) : List (List Fail) :=
  (List.range (sectCount b.header)).map (fun i =>
    failIf (decide (Config.shake256 (s.peeks { store := .dram, addr := base + sectOff b.header i } (sectLen b.header i)) ≠
      sectDigest b.header i)) 0x0125 i 0)

/-- Two regions share a byte. -/
def Region.overlaps (a b : Region) : Bool :=
  decide (a.ptr.store = b.ptr.store) && meets a.base a.size b.base b.size

/-- A UNIT code of R30. -/
def unitListed (u : Nat) : Bool :=
  decide (u ≤ 0x07) || (decide (0x10 ≤ u) && decide (u ≤ 0x22)) || (decide (0x28 ≤ u) && decide (u ≤ 0x2F))

/-- The section type that a KIND places; none for a kind that places none. -/
def kindSect (k : Nat) : Option Nat := if k = 1 then some 3 else if k = 2 then some 2 else if k = 3 then some 4 else none

/-- The pool definitions that a region backs, without the record index (R67). -/
def poolDefs (b : Bundle) (k : Nat) : List (List Word) :=
  (b.pools.filter (fun w => bits (wordAt w 0) 27 16 == k)).map (fun w => (wordAt w 0 &&& 0xF000FFFF) :: w.drop 1)

/-- Record i of the new bundle coincides with record j of the active bundle (R67). -/
def coincide (b a : Bundle) (i j : Nat) (x y : Region) : Bool :=
  x.kind == y.kind && x.store == y.store && x.cluster == y.cluster && x.owner == y.owner && x.job == y.job &&
  x.base == y.base && x.size == y.size &&
  (decide (kindSect x.kind = none) ||
    (decide (x.section_ < b.digests.length) && decide (y.section_ < a.digests.length) &&
      decide (b.digests.getD x.section_ 0 = a.digests.getD y.section_ 0))) &&
  (decide (x.kind ≠ 7) || decide (poolDefs b i = poolDefs a j))

/-- The DRAM channels of a region; none where some byte lies in no set. -/
def State.regionChannels (s : State) (x : Region) : Option (List Nat) :=
  if x.store = 0 then s.touched x.ptr x.size else some []

/-- The place of record i among the records of a kind and store. -/
def pairRank (rs : List Region) (i k : Nat) (x : Region) : Nat :=
  ((rs.take i).filter (fun y => y.kind == k && decide (y.ptr.store = x.ptr.store))).length

/-- 0x0204 at record i (R430): a carry record without a partner, or the later of a pair of unequal size or that overlaps. -/
def carryBad (rs : List Region) (i : Nat) (x : Region) : Bool :=
  if x.kind = 4 ∨ x.kind = 5 then
    let other := 9 - x.kind
    let mates := rs.zipIdx.filter (fun y => y.1.kind == other && decide (y.1.ptr.store = x.ptr.store))
    match mates[pairRank rs i x.kind x]? with
    | none => true
    | some (y, j) => decide (j < i) && decide (y.size ≠ x.size)
  else false

/-- An even and an odd carry region. -/
def evenOdd (x y : Region) : Bool := (x.kind == 4 && y.kind == 5) || (x.kind == 5 && y.kind == 4)

/-- A reserved KIND, STORE or OWNER, a wrong SECTION, or a field that must be 0 (R57). -/
def regionBad (b : Bundle) (w : List Word) : Bool :=
  let x := parseRegion w
  decide (x.kind = 0) || decide (9 < x.kind) || decide (2 < x.store) || !(unitListed x.owner || x.owner == 0xFF) ||
  (match kindSect x.kind with
   | some t => decide (b.types.length ≤ x.section_) || decide (b.types.getD x.section_ 0 ≠ t)
   | none => decide (x.section_ ≠ 0xFF)) ||
  bit (wordAt w 0) 15 || decide (bits (wordAt w 2) 31 5 ≠ 0) || decide (bits (wordAt w 4) 31 5 ≠ 0) ||
  decide (wordAt w 5 ≠ 0) || decide (wordAt w 6 ≠ 0) || decide (wordAt w 7 ≠ 0) ||
  (decide (x.store ≠ 2) && decide (x.cluster ≠ 0)) || (decide (x.kind ≠ 6) && decide (x.job ≠ 0)) ||
  (decide (x.store ≠ 0) && decide (bits (wordAt w 2) 4 0 ≠ 0))

/-- The image bytes of a model in one cluster (R56). -/
def modelImage (m : Nat × Nat × Nat × Nat × Nat) : Nat := m.2.2.2.1 / m.2.2.1 + m.2.2.2.2

/-- The model area of R56 of a stall's clusters: the largest image of the models that its entries name. -/
def State.stallArea (s : State) (r : Src) (st : Nat) : Nat :=
  (((s.allEntries r).filter (fun x => x.2.2.unit == st && (x.2.2.action == 1 || x.2.2.action == 7))).filterMap (fun x =>
    (r.model x.2.2.unit x.2.2.model).map modelImage)).foldl max 0

/-- The model area of each cluster. -/
def State.modelAreas (s : State) (r : Src) : List Nat :=
  (List.range 8).map (fun c => match s.srcClusterStall r c with
    | some st => s.stallArea r st
    | none => 0)

/-- 0x020A at record i (R56, R69). -/
def areaBad (areas : List Nat) (rs : List Region) (i : Nat) (x : Region) : Bool :=
  let a := areas.getD x.cluster 0
  let sum := fun (k : Nat) => a + (((rs.take k).filter (fun y => y.store == 2 && y.cluster == x.cluster)).map Region.size).sum
  decide (x.store = 2) &&
  ((decide (sum i ≤ 0x800000) && decide (0x800000 < sum (i + 1))) || (decide (x.size ≠ 0) && decide (x.base < a)))

/-- The failures of region record i (R57, R65). `lost` holds the channels that froze during the load (R68). -/
def State.recordFails (s : State) (r : Src) (lost : Nat) (areas : List Nat) (sect i : Nat) (w : List Word) : List Fail :=
  let b := r.b
  let rs := b.recs
  let x := parseRegion w
  let before := rs.take i
  let cs := s.regionChannels x
  let f := fun (c : Bool) (code : Nat) => failIf c code sect i
  let unit := if x.store = 0 then 4096 else 64
  f (if x.store = 0 then cs.isNone else decide (x.store ≤ 2) && decide (storeSize x.ptr.store < x.base + x.size)) 0x0201 ++
  f (decide (x.base % unit ≠ 0) || decide (x.size % unit ≠ 0)) 0x0202 ++
  f (before.any (fun y => x.overlaps y && !evenOdd x y)) 0x0203 ++
  f (before.any (fun y => x.overlaps y && evenOdd x y) || carryBad rs i x) 0x0204 ++
  f (decide (x.store = 1) && meets x.base x.size 0x2E00000 0x200000) 0x0205 ++
  f (decide (x.store = 0) && decide (x.owner < 8) && (cs.getD []).any (fun c => !(s.srcStall r x.owner).pitch.testBit c)) 0x0206 ++
  f (s.bankActive && s.active.recs.zipIdx.any (fun y => x.overlaps y.1 && !coincide b s.active i y.2 x y.1)) 0x0207 ++
  f ((cs.getD []).any (fun c => decide (s.chanState c ≠ 1) || lost.testBit c)) 0x0209 ++
  f (areaBad areas rs i x) 0x020A ++
  f (regionBad b w) 0x020C

/-- A section that is not placed by exactly one record, after the last record of REGIONS (R57). -/
def placedFails (b : Bundle) : List (List Fail) :=
  b.types.zipIdx.map (fun t =>
    failIf ([1, 2, 3].any (fun k => decide (kindSect k = some t.1) &&
      decide ((b.recs.filter (fun x => x.kind == k && x.section_ == t.2)).length ≠ 1))) 0x020C t.2 0)

/-- An entry names the model of section i (R56). -/
def State.modelNamed (s : State) (r : Src) (i : Nat) : Bool :=
  (s.allEntries r).any (fun x => decide (x.2.2.unit < 8) && (x.2.2.action == 1 || x.2.2.action == 7) &&
    ((r.model x.2.2.unit x.2.2.model).map Prod.fst == some i))

/-- The failures of a MODEL section (R56, R69). DESIGN CHOICE, log entry 93: CLUSTERS of 0 or above 8, for which R65 lists no code,
is refused as the image is. -/
def State.modelFails (s : State) (r : Src) (i : Nat) : List Fail :=
  match r.b.models.find? (fun m => m.1 == i) with
  | none => []
  | some m =>
    let dig := fun (b : Bundle) (j : Nat) => b.digests.getD j 0
    let clash := fun (b : Bundle) (ms : List (Nat × Nat × Nat × Nat × Nat)) =>
      ms.any (fun o => o.2.1 == m.2.1 && decide (dig b o.1 ≠ dig r.b i))
    failIf (clash r.b (r.b.models.filter (fun o => decide (o.1 < i))) || (s.bankActive && clash s.active s.active.models)) 0x0208 i 0 ++
    failIf (decide (m.2.2.1 = 0) || decide (8 < m.2.2.1) || decide (m.2.2.2.1 % (64 * m.2.2.1) ≠ 0) || decide (m.2.2.2.2 % 64 ≠ 0) ||
      (s.modelNamed r i && decide (0x800000 < modelImage m))) 0x020A i 0

/-- A pool definition outside R283. -/
def poolBad (b : Bundle) (k : Nat) (w : List Word) : Bool :=
  let v := fun i => wordAt w i
  let count := bits (v 2) 12 0
  let warn := bits (v 3) 12 0
  (b.pools.take k).any (fun o => bits (wordAt o 0) 5 0 == bits (v 0) 5 0) ||
  decide (v 1 = 0) || decide (bits (v 1) 11 0 ≠ 0) || decide (count = 0) || decide (4096 < count) ||
  decide (count < warn) || decide (warn < bits (v 3) 28 16) ||
  decide (v 0 &&& 0xF000FFC0 ≠ 0) || decide (bits (v 2) 31 13 ≠ 0) || decide (v 3 &&& 0xE000E000 ≠ 0) || decide (bits (v 4) 31 3 ≠ 0) ||
  decide (v 5 ≠ 0) || decide (v 6 ≠ 0) || decide (v 7 ≠ 0) ||
  (match b.recs[bits (v 0) 27 16]? with
   | some x => decide (x.kind ≠ 7) || decide (x.size < count * (v 1).toNat)
   | none => true)

/-- The items of the POOLS section: its header, then each record (R283). -/
def State.poolFails (s : State) (r : Src) (i : Nat) : List (List Fail) :=
  let h := s.srcWords r i 0 16
  let n := bits (wordAt h 0) 6 0
  [failIf (decide (n = 0) || decide (64 < n) || decide (bits (wordAt h 0) 31 7 ≠ 0) || (h.drop 1).any (fun w => decide (w ≠ 0)) ||
    decide (r.len i < 64 + 32 * n)) 0x020B i 0] ++
  r.b.pools.zipIdx.map (fun w => failIf (poolBad r.b w.2 w.1) 0x020B i w.2)

/-- The items of a section in group 0x02; `ledger` are those of the LEDGER section. -/
def State.sectFails2 (s : State) (r : Src) (lost : Nat) (ledger : List (List Fail)) (i : Nat) : List (List Fail) :=
  match r.b.types.getD i 0 with
  | 1 => ledger
  | 3 => [s.modelFails r i]
  | 5 =>
    let areas := s.modelAreas r
    r.b.regions.zipIdx.map (fun w => s.recordFails r lost areas i w.2 w.1) ++ placedFails r.b
  | 6 => s.poolFails r i
  | _ => []

/-- A region of the bundle lies in a channel that froze since the load began (R68). -/
def State.lostFails (s : State) (r : Src) (lost : Nat) : List (List Fail) :=
  r.b.regions.zipIdx.map (fun w =>
    failIf (((s.regionChannels (parseRegion w.1)).getD []).any (fun c => lost.testBit c)) 0x0209 (sectIx r.b.header 5) w.2)

end Sys2Proof.Machine
end

