-- ==== Sys2Proof/Machine/WeighInstr.lean ====
section
/-!
DEFINITION. The weigh-in of programs (R63, R97 to R115, R142 to R167): the planned extents of an instruction, its codes of group
0x05, its execution count (R112, R147), and the schedule of a stream (R100).
-/
namespace Sys2Proof.Machine

/-- Codebook k of the CODEBOOK section (R160, R65): absent where the bundle has no section, or its entries leave it. -/
def State.cbRec (s : State) (r : Src) (k : Nat) : CbRec :=
  match sectsOf r.b.header 4 with
  | [] => ⟨false, false, 0, 0⟩
  | i :: _ =>
    let w := (s.srcWords r i (4 * k) 1).headD 0
    let d : CbRec := ⟨true, bit w 1, bits w 3 2, bits w 31 8 * 64⟩
    { d with present := bit w 0 && decide (4 * k + 4 ≤ r.len i) && decide (d.off + d.bytes ≤ r.len i) && decide (d.efmt ≠ 3) }

/-- The codes of an extent (R63, R65, R108, R430): 0x0204 in an odd region, 0x0502 outside a region that the unit may address, 0x050A
in a job-private region of another job. `area` is the model area of the cluster's scratchpad. An extent that begins in such a
region and runs past its end has 0x0508 where a planned maximum gives its size, else 0x0502 (DEDUCED, log 88). -/
def extentCodes (rs : List Region) (unit : Nat) (job : Option Nat) (area : Nat) (planned : Bool) (e : Extent) : List Nat :=
  if e.n = 0 then []
  else
    let here := rs.filter (fun x => decide (x.ptr.store = e.p.store))
    let odd := here.any (fun x => x.kind == 5 && meets x.base x.size e.p.addr e.n)
    let isSpad := decide (e.p.store ≠ .dram) && decide (e.p.store ≠ .common)
    let may := fun (x : Region) => decide (x.owner = 0xFF) || decide (x.owner = unit)
    let past := (isSpad && decide (e.p.addr < area)) ||
      here.any (fun x => x.kind != 4 && may x && decide (x.base ≤ e.p.addr) && decide (e.p.addr < x.base + x.size))
    (if odd then [0x0204] else []) ++
    if isSpad && decide (e.p.addr + e.n ≤ area) then []
    else
      match here.find? (fun x => decide (x.base ≤ e.p.addr) && decide (e.p.addr + e.n ≤ x.base + x.size)) with
      | none => [if planned && past then 0x0508 else 0x0502]
      | some x =>
        (if may x then [] else [0x0502]) ++
        (match job with
         | some j => if x.kind = 6 ∧ x.job ≠ j then [0x050A] else []
         | none => [])

/-- The operands of an instruction take their size from planned maxima of one problem (R108, R114, R144). -/
def sizedByPlan (x : Issue) : Bool :=
  let op := bits (x.w 0) 7 0
  (decide (op = 1) && !bit (x.w 1) 24) || (decide (0x40 ≤ op) && decide (op ≠ 0x49))

/-- A code where a condition holds. -/
def codeIf (c : Bool) (k : Nat) : List Nat := if c then [k] else []

/-- The tables that hold a codebook so far in a stream: 2 l and 2 l + 1 the A and B tables of logical engine l, 16 the VX table. -/
abbrev Tags := Tbl Nat

/-- The tables that a CBLOAD fills. -/
def cbTables (x : Issue) : List Nat :=
  let side := bits (x.w 1) 25 24
  if side = 2 then [16] else (maskChannels (bits (x.w 1) 7 0)).map (fun l => 2 * l + side)

/-- 0x0509 of a use of a codebook (R125, R162): not loaded in every table, or of the wrong size. -/
def cbUse (tags : Tags) (cb : Nat → CbRec) (tables : List Nat) (k : Nat) (size256 : Bool) : Bool :=
  !(cb k).present || (cb k).size256 != size256 || tables.any (fun t => mapGet tags t != some k)

/-- A length enable with a planned maximum of 0 (R108). -/
def lenBad (en : Bool) (mx : Nat) : Bool := en && decide (mx = 0)

/-- Engines in MATMUL's mask. -/
def mmEngines (x : Issue) : Nat := (maskChannels (bits (x.w 1) 7 0)).length

/-- Accumulator entries that the order needs per bank (R105). -/
def Mm.need (q : Mm) (e : Nat) : Nat :=
  match q.order with
  | 0 | 1 => q.nt
  | 2 => q.tnE e * q.nt
  | 3 => q.tmE e * q.nt
  | _ => q.tmE e * q.tnE e * q.nt

/-- The codes of a MATMUL beyond 0x0501 (R71, R79, R102 to R105, R108, R125, R156, R162). -/
def mmCodes (x : Issue) (cb : Nat → CbRec) (tags : Tags) : List Nat :=
  let q := planMm x cb
  let e := mmEngines x
  let s := pairSlots q.clsA q.clsB
  let zp := fun (f : Nat) => decide (f = 1) || decide (f = 2) || decide (f = 3)
  let use := fun (f side k : Nat) => (decide (f = 10) || decide (f = 11)) &&
    cbUse tags cb ((maskChannels (bits (x.w 1) 7 0)).map (fun l => 2 * l + side)) k (f == 11)
  let al := fun (p : Ptr) (st n : Nat) => decide (p.addr % n ≠ 0) || decide (st % n ≠ 0)
  codeIf (al q.a q.aStride 32 || al q.b q.bStride 32 || al q.d q.dStride 128 || (q.biasEn && decide (q.bias.addr % 64 ≠ 0))) 0x0503 ++
  codeIf (decide (65535 < q.tm) || decide (65535 < q.tn) || decide (65535 < q.tk) || decide (16777215 < q.tmE e * q.tnE e * q.tk)) 0x0504 ++
  codeIf (decide (2048 / q.f < q.need e)) 0x0505 ++
  codeIf (decide (q.nt = 0) || decide (2048 < q.nt) || decide (2048 < q.nt * s.getD 1)) 0x0506 ++
  codeIf (s.isNone || (bit (x.w 3) 0 && !zp q.fmtA) || (bit (x.w 3) 1 && !zp q.fmtB)) 0x0507 ++
  codeIf (lenBad (bit (x.w 3) 16) q.mMax || lenBad (bit (x.w 3) 17) q.nMax || lenBad (bit (x.w 3) 18) q.kMax) 0x0508 ++
  codeIf (use q.fmtA 0 (bits (x.w 2) 23 16) || use q.fmtB 1 (bits (x.w 2) 31 24)) 0x0509

/-- n outside [lo, hi]. -/
def outside (n lo hi : Nat) : Bool := decide (n < lo) || decide (hi < n)

/-- A kernel larger than the padded input, or a band of output rows beyond the output (R115). -/
def bandBad (x : Issue) (kh kw sh dh dw : Nat) : Bool :=
  let h := bits (x.w 2) 15 0 + bits (x.w 4) 3 0 + bits (x.w 4) 7 4
  let w := bits (x.w 2) 31 16 + bits (x.w 4) 11 8 + bits (x.w 4) 15 12
  decide (h < dh * (kh - 1) + 1) || decide (w < dw * (kw - 1) + 1) ||
  decide (outSize (bits (x.w 2) 15 0) (bits (x.w 4) 3 0 + bits (x.w 4) 7 4) dh kh sh < bits (x.w 5) 15 0 + bits (x.w 5) 31 16)

/-- The codes of EXPAND, S2D and POOL beyond 0x0501 (R115). -/
def patchCodes (op : Nat) (x : Issue) : List Nat :=
  let fmt := bits (x.w 1) 27 24
  let e := elemBytes fmt
  let f := fun hi lo => bits (x.w 1) hi lo
  let fmtOk := [2, 3, 4, 6, 7, 8, 9].contains fmt || (fmt == 11 && op != 0x04)
  codeIf (decide (x.src.addr % e ≠ 0 ∧ e ≠ 0) || decide (descStride (x.w 7) % e ≠ 0 ∧ e ≠ 0) || decide (x.dst.addr % 32 ≠ 0) ||
    decide (descStride (x.w 9) % 32 ≠ 0)) 0x0503 ++
  codeIf (match op with
    | 0x02 => outside (f 3 0) 1 15 || outside (f 7 4) 1 15 || outside (f 11 8) 1 8 || outside (f 15 12) 1 8 || outside (f 19 16) 1 8 ||
        outside (f 23 20) 1 8 || bandBad x (f 3 0) (f 7 4) (f 11 8) (f 19 16) (f 23 20) ||
        decide (descStride (x.w 9) < f 3 0 * f 7 4 * bits (x.w 3) 15 0 * e)
    | 0x03 => outside (f 3 0) 2 8
    | _ => outside (f 3 0) 1 8 || outside (f 7 4) 1 8 || outside (f 11 8) 1 8 || outside (f 15 12) 1 8 ||
        [bits (x.w 4) 3 0, bits (x.w 4) 7 4].any (fun p => decide (f 3 0 ≤ p)) ||
        [bits (x.w 4) 11 8, bits (x.w 4) 15 12].any (fun p => decide (f 7 4 ≤ p)) ||
        bandBad x (f 3 0) (f 7 4) (f 11 8) 1 1) 0x0506 ++
  codeIf (!fmtOk) 0x0507

/-- The descriptors of a vector engine instruction that must be aligned: word a, word b, alignment (R144, R167). -/
def vectorAligned (op : Nat) (x : Issue) : List (Nat × Nat × Nat) :=
  let ym := bits (x.w 12) 2 0
  let big := if bit (x.w 1) 23 then 128 else 4
  let two := decide (op = 0x40) || decide (op = 0x41) || decide (op = 0x45)
  [(4, 5, if op = 0x48 then 64 else big)] ++
  (if op = 0x48 then [(6, 7, 4)] else if two && decide (ym ≠ 0) then [(6, 7, if ym = 3 then big else 4)] else []) ++
  (if op = 0x48 ∨ op = 0x49 then [] else [(8, 9, 4)]) ++
  (if op = 0x40 ∧ bit (x.w 12) 3 then [(13, 0, 4)] else [])

/-- D overlaps X, Y or Z other than in place (R144): QSCALE's D and RED's are FP32, WHT's is FP32. DESIGN CHOICE (log 45): D of an
instruction with a blocked X is row-major, so it never coincides with X. -/
def badOverlap (op : Nat) (x : Issue) (cb : Nat → CbRec) : Bool :=
  let v := vectorExtents op x cb
  if op = 0x48 then false
  else
    let dBits := if op = 0x42 ∨ op = 0x44 ∨ op = 0x46 then 32 else elemBits x.d.fmt
    let inPlace := decide (x.d.p = x.x.p) && decide (x.d.stride = x.x.stride) && decide (dBits = elemBits x.x.fmt) && !x.x.blocked
    v.2.any (fun d => (v.1.drop 1).any d.overlaps || ((v.1.take 1).any d.overlaps && !inPlace))

/-- A format that X or Y may have (R143). -/
def inFmt (f : Nat) : Bool := (decide (1 ≤ f) && decide (f ≤ 9)) || f == 12 || f == 13

/-- 0x0507 of a vector engine instruction (R143, R153, R158, R165). -/
def vectorFmtBad (op : Nat) (x : Issue) : Bool :=
  let fx := x.x.fmt
  let fy := x.y.fmt
  let fd := x.d.fmt
  match op with
  | 0x40 => !inFmt fx || !(inFmt fd || fd == 10 || fd == 11)
  | 0x41 =>
    let y3 := decide (bits (x.w 12) 2 0 = 3)
    !inFmt fx || !inFmt fd || (y3 && !inFmt fy) ||
    (decide (8 ≤ bits (x.w 1) 7 0) && (fx != 12 || fd != 12 || (y3 && fy != 12)))
  | 0x43 => !inFmt fx || !inFmt fd
  | 0x45 => !inFmt fx || outside fd 1 7
  | 0x47 => fx != fd || (fx != 8 && fx != 13)
  | 0x48 | 0x49 => false
  | _ => !inFmt fx

/-- 0x0506 of a vector engine instruction (R159, R165 to R167). -/
def vectorRangeBad (op : Nat) (x : Issue) : Bool :=
  blkpBad op (fun i => x.w i) ||
  (match op with
   | 0x46 => decide (x.colsMax % 2 ^ bits (x.w 12) 11 8 ≠ 0) || bit (x.w 3) 24
   | 0x47 => decide (x.colsMax ≤ bits (x.w 14) 31 20) || decide (4096 < x.colsMax) || decide (bits (x.w 14) 15 0 = 0) ||
       decide (x.rowsMax < bits (x.w 14) 15 0)
   | 0x48 => decide (x.x.stride < 320) || decide (bits (x.w 10) 30 23 = 255) || (bit (x.w 10) 31 && decide (bits (x.w 10) 30 0 ≠ 0))
   | _ => false)

/-- The codes of a vector engine instruction beyond 0x0501 (R144 to R167). -/
def vectorCodes (op : Nat) (x : Issue) (cb : Nat → CbRec) (tags : Tags) : List Nat :=
  let k := bits (x.w 12) 19 12
  codeIf (badOverlap op x cb) 0x0502 ++
  codeIf ((vectorAligned op x).any (fun a => decide (bits (x.w a.1) 25 0 % (if op = 0x48 then 4 else a.2.2) ≠ 0) ||
    (decide (a.2.1 ≠ 0) && decide (descStride (x.w a.2.1) % a.2.2 ≠ 0)))) 0x0503 ++
  codeIf (vectorRangeBad op x) 0x0506 ++
  codeIf (vectorFmtBad op x) 0x0507 ++
  codeIf (lenBad (bit (x.w 2) 24) x.rowsMax || (decide (op < 0x48) && lenBad (bit (x.w 3) 24) x.colsMax)) 0x0508 ++
  codeIf (match op with
    | 0x40 => (x.d.fmt == 10 || x.d.fmt == 11) && cbUse tags cb [16] k (x.d.fmt == 11)
    | 0x49 => !(cb k).present
    | _ => false) 0x0509

/-- The codes of an instruction (R63, R65): group 0x05 and, for an operand in an odd region, 0x0204. -/
def State.instrCodes (s : State) (r : Src) (area : Nat) (x : Issue) (tags : Tags) : List Nat :=
  let op := bits (x.w 0) 7 0
  let cb := s.cbRec r
  codeIf (instrReserved x.ws || (decide (op = 0x49) && bit (x.w 0) 12)) 0x0501 ++
  (planExtents x cb).flatMap (extentCodes r.b.recs x.st (some x.job) area (sizedByPlan x)) ++
  (match op with
   | 0x00 => []
   | 0x01 => mmCodes x cb tags
   | 0x02 | 0x03 | 0x04 => patchCodes op x
   | 0x05 => codeIf (decide (bits (x.w 2) 1 0 ≠ 0)) 0x0503
   | 0x06 => codeIf (decide ((x.w 1).toNat % 64 ≠ 0)) 0x0503 ++ codeIf (outside (x.w 1).toNat 1 0x01000000) 0x0506
   | _ => vectorCodes op x cb tags)

/-- The tags after an instruction (R161, R162). -/
def tagsAfter (x : Issue) (tags : Tags) : Tags :=
  if bits (x.w 0) 7 0 = 0x49 then (cbTables x).foldl (fun t k => mapIns k (bits (x.w 12) 19 12) t) tags else tags

/-- The codes of each instruction of a stream, with its index. -/
def State.streamCodes (s : State) (r : Src) (area : Nat) (st job : Nat) (c : Fin 8) : Nat → Tags → List (List Word) → List (Nat × List Nat)
  | _, _, [] => []
  | i, tags, ws :: rest =>
    let x : Issue := ⟨st, job, c, ws⟩
    (i, s.instrCodes r area x tags) :: s.streamCodes r area st job c (i + 1) (tagsAfter x tags) rest

/-- A pass as the plan times it: slots, swap, block, first K-tile, last K-tile, columns drained, bytes fetched from the common
store. -/
structure PlanPass where
  slots : Nat
  swap : Bool
  base : Nat
  first : Bool
  last : Bool
  drain : Nat
  bytes : Nat

/-- The clock of an engine's passes (R81, R106, R112): end of the last slot, of the last accumulate write, of the last drain, slots of
the last pass, and when each accumulator base is drained. -/
structure PassClock where
  slot : Nat := 31
  fin : Nat := 0
  drained : Nat := 0
  lastN : Nat := 32
  hold : Tbl Nat := []

/-- One pass. DESIGN CHOICE (log 46): the pass's own count, of which and ceil(5 b / 1,024) R112 takes the larger, is its slots n_i; the wait
w_i and the first pass's 36 stand outside. -/
def PassClock.step (k : PassClock) (p : PlanPass) : PassClock :=
  let wait := if p.swap then 32 - k.lastN else 0
  let at_ := k.slot + wait
  let issue := if p.first then max at_ (mapGetD k.hold p.base 0) else at_
  let stop := issue + max p.slots (cdiv (5 * p.bytes) 1024)
  let wrote := stop + 5
  if p.last then
    let d := max wrote k.drained + p.drain
    { slot := stop, fin := d, drained := d, lastN := p.slots, hold := mapIns p.base d k.hold }
  else { k with slot := stop, fin := max k.fin wrote, lastN := p.slots }

/-- The planned passes of the i-th of E engines, in order; under cluster broadcast the bytes of A of the whole round count (R112). -/
def Mm.planPasses (q : Mm) (x : Issue) (e i slots : Nat) : List PlanPass :=
  let w := q.plan x e i q.mMax q.nMax q.kMax
  let aCommon := decide (q.a.store = .common)
  let bCommon := decide (q.b.store = .common)
  let nf := if q.group then q.f else 1
  let ps := w.work.filterMap (fun y => match y with
    | .pass p => some p
    | .drain _ => none)
  (((q.walk e).filter (fun t => !q.skipped e i q.mMax q.nMax q.kMax t)).zip ps).map (fun tp =>
    let t := tp.1
    let g := q.globalTile e i t
    let n0 := g.2 * q.tileCols
    let cols := min q.tileCols (q.nMax - n0)
    let kel := min q.kw (q.kMax - t.2.2 * q.kw)
    let swap := bit tp.2.w0 25
    let rows := if q.src then min 256 (q.mMax - t.1 * e * 32) else min 32 (q.mMax - g.1 * 32)
    { slots := min q.nt cols * slots, swap := swap, base := bits tp.2.w0 22 12, first := t.2.2 == 0
      last := t.2.2 + 1 == cdiv q.kMax q.kw, drain := if q.group then q.f * cols else cols
      bytes := (if aCommon && swap then nf * rows * fmtBytes q.fmtA kel else 0) +
        (if bCommon then nf * cols * fmtBytes q.fmtB kel else 0) })

/-- The i-th passes of all engines: the bytes of the common store summed (R112). -/
def sumBytes : List (List PlanPass) → Nat → Nat
  | ps, i => (ps.map (fun l => match l[i]? with
    | some p => p.bytes
    | none => 0)).sum

/-- The execution count of a MATMUL (R109, R112) at its planned maxima; `bound` is the fabric bound of R429 in ECLK. -/
def Mm.count (q : Mm) (x : Issue) (bound : Nat) : Nat :=
  let e := mmEngines x
  if q.mMax = 0 ∨ q.nMax = 0 then 0
  else if q.kMax = 0 then
    ((List.range e).map (fun i => ((q.emptyPlan x e i q.mMax q.nMax).map (fun w => match w with
      | .drain d => (d.parts.map (fun p => p.2.1)).sum
      | .pass _ => 0)).sum)).foldl max 0
  else
    let s := (pairSlots q.clsA q.clsB).getD 1
    let ps := (List.range (if q.src then 1 else e)).map (fun i => q.planPasses x e i s)
    let common := decide (q.a.store = .common) || decide (q.b.store = .common)
    let run := fun (l : List PlanPass) =>
      ((l.zipIdx.map (fun p => { p.1 with bytes := if common then sumBytes ps p.2 else 0 })).foldl PassClock.step {}).fin
    (ps.map run).foldl max 0 + (if common then bound else 0)

/-- Bytes that an instruction moves of a tensor of the rows and columns given. -/
def Tensor.moved (t : Tensor) (rows cols : Nat) : Store × Nat :=
  (t.p.store, if t.blocked then 4 * rows * cols else rows * fmtBytes t.fmt cols)

/-- The bytes that a vector engine instruction moves of each operand at its planned maxima, with the operand's store (R147). -/
def vectorMoved (op : Nat) (x : Issue) (cb : Nat → CbRec) : List (Store × Nat) :=
  let rn := x.rowsMax
  let cn := x.colsMax
  let blocks := cdiv cn (2 ^ bits (x.w 12) 11 8)
  let y : List (Store × Nat) :=
    match bits (x.w 12) 2 0 with
    | 1 => [(x.y.p.store, 4 * rn)]
    | 2 => [(x.y.p.store, 4 * rn * blocks)]
    | 3 => [x.y.moved rn cn]
    | 4 => [(x.y.p.store, 4 * cn)]
    | _ => []
  let z : List (Store × Nat) := if bit (x.w 12) 3 then [((descPtr x.c (x.w 13)).store, 4 * cn)] else []
  match op with
  | 0x42 => [x.x.moved rn cn, (x.d.p.store, 4 * rn)]
  | 0x44 => [x.x.moved rn cn, (x.d.p.store, 4 * rn * blocks)]
  | 0x46 => [x.x.moved rn cn, (x.d.p.store, 4 * rn * cn)]
  | 0x47 => [x.x.moved rn cn, x.d.moved (bits (x.w 14) 15 0) cn]
  | 0x48 => [(x.x.p.store, 2 * rn * 0x120), (x.y.p.store, 32)]
  | 0x49 => [(x.x.p.store, 4 + (cb (bits (x.w 12) 19 12)).bytes)]
  | 0x40 | 0x41 | 0x45 => x.x.moved rn cn :: x.d.moved rn cn :: (y ++ z)
  | _ => [x.x.moved rn cn, x.d.moved rn cn]

/-- The execution count of a vector engine instruction (R145, R147, R151, R160). -/
def vectorCount (op : Nat) (x : Issue) (cb : Nat → CbRec) (bound : Nat) : Nat :=
  let rn := x.rowsMax
  let cn := x.colsMax
  let g := if x.x.blocked then cdiv rn 32 * cdiv cn 2 else rn * cdiv cn 64
  let act := match bits (x.w 12) 7 4 with
    | 4 | 5 | 6 => 3
    | 7 | 8 => 4
    | _ => 0
  let base := match op with
    | 0x40 => 8 + g * (1 + act + if x.d.fmt = 11 then 7 else 0)
    | 0x41 => if bits (x.w 1) 7 0 = 3 then 8 + 2 * g else 8 + g
    | 0x42 => 8 + g + 6
    | 0x43 => 8 + rn * (6 * cdiv cn 64 + 12)
    | 0x44 => 8 + g + 8
    | 0x45 => 8 + 2 * g
    | 0x46 => 8 + rn * cdiv cn 64 * (bits (x.w 12) 11 8 + 1)
    | 0x47 => 8 + rn + bits (x.w 14) 15 0 * cdiv (cn * elemBytes x.x.fmt) 256
    | 0x48 => 8 + 6 * rn
    | _ => 8 + cdiv (cb (bits (x.w 12) 19 12)).bytes 128
  let moved := (vectorMoved op x cb).filter (fun a => decide (a.1 = .common))
  if op = 0x47 ∧ (rn = 0 ∨ cn = 0) then 8 + rn
  else if op ≠ 0x49 ∧ (rn = 0 ∨ (op ≠ 0x48 ∧ cn = 0)) then 0
  else if moved = [] then base
  else max base (cdiv (5 * (moved.map Prod.snd).sum) 1024) + bound

/-- The execution count of EXPAND, S2D and POOL (R112). -/
def patchCount (op : Nat) (x : Issue) : Nat :=
  let ce := bits (x.w 3) 15 0 * elemBytes (bits (x.w 1) 27 24)
  let sh := patchShape op x
  match op with
  | 0x02 => 8 + cdiv (sh.1 * sh.2) 4 * max (bits (x.w 1) 3 0 * bits (x.w 1) 7 4 * cdiv ce 64) (cdiv (descStride (x.w 9)) 64)
  | 0x03 => 8 + cdiv (sh.1 * sh.2) 4 * bits (x.w 1) 3 0 * cdiv (bits (x.w 1) 3 0 * ce) 64
  | _ => 8 + sh.1 * sh.2 * bits (x.w 1) 3 0 * bits (x.w 1) 7 4 * cdiv ce 64

/-- The execution count of an instruction (R112, R147); `move` gives that of a MOVE through the fabric. -/
def execCount (x : Issue) (cb : Nat → CbRec) (bound : Nat) (move : Issue → Nat) : Nat :=
  match bits (x.w 0) 7 0 with
  | 0x00 => 0
  | 0x01 => (planMm x cb).count x bound
  | 0x02 => patchCount 0x02 x
  | 0x03 => patchCount 0x03 x
  | 0x04 => patchCount 0x04 x
  | 0x05 => 16
  | 0x06 => if bits (x.w 3) 9 8 = 0 ∧ bits (x.w 5) 9 8 = 0 then 8 + (x.w 1).toNat / 64 else move x
  | op => vectorCount op x cb bound

/-- The length registers that an instruction reads (R98, R103, R144). -/
def lenReads (x : Issue) : List Nat :=
  (if bit (x.w 0) 12 then [bits (x.w 0) 11 8] else []) ++
  (match bits (x.w 0) 7 0 with
   | 0x01 => (if bit (x.w 3) 16 then [bits (x.w 3) 7 4] else []) ++ (if bit (x.w 3) 17 then [bits (x.w 3) 11 8] else []) ++
      (if bit (x.w 3) 18 then [bits (x.w 3) 15 12] else [])
   | op => if 0x40 ≤ op then (if bit (x.w 2) 24 then [bits (x.w 2) 23 20] else []) ++ (if bit (x.w 3) 24 then [bits (x.w 3) 23 20] else [])
      else [])

/-- The length registers that an instruction writes. -/
def lenWrites (x : Issue) : List Nat :=
  match bits (x.w 0) 7 0 with
  | 0x05 => [bits (x.w 1) 3 0]
  | 0x47 => [bits (x.w 14) 19 16]
  | _ => []

/-- An instruction of the schedule that has started. -/
structure Started where
  ext : List Extent
  units : List Nat
  lens : List Nat
  comp : Nat

/-- The later instruction waits for the earlier one (R100). -/
def Started.blocks (h : Started) (x : Issue) (ext : List Extent) : Bool :=
  h.ext.any (fun a => ext.any (fun b => (a.wr || b.wr) && a.overlaps b)) || h.units.any (unitsOf x).contains ||
  h.lens.any (lenReads x).contains

/-- The worst-case ECLK of a stream (R63, R100, R113): every predicate counts as true. -/
def streamEclk (c : Fin 8) (st job : Nat) (cb : Nat → CbRec) (bound : Nat) (move : Issue → Nat) :
    List (List Word) → Nat → List Started → Nat → Nat
  | [], _, _, worst => worst
  | ws :: rest, prev, hist, worst =>
    let x : Issue := ⟨st, job, c, ws⟩
    let ext := planExtents x cb
    let start :=
      if bits (x.w 0) 7 0 = 0 then prev + 4
      else ((hist.filter (fun h => h.blocks x ext)).map Started.comp).foldl max (prev + 12)
    let comp := start + execCount x cb bound move
    streamEclk c st job cb bound move rest start (⟨ext, unitsOf x, lenWrites x, comp⟩ :: hist) (max worst comp)

end Sys2Proof.Machine
end

