-- ==== Sys2Proof/Machine/WeighPlans.lean ====
section
/-!
DEFINITION. The weigh-in of plans and slot lists: intake and decode (R176, R178, R190, R191, R196, R200), pre-processing (R204 to
R209, R212, R214, R221, R226), encoding and evidence (R261, R263, R271), association and sheets (R230 to R232, R251, R254), MAINT
lists (R399).
-/
namespace Sys2Proof.Machine

/-- Where a failure lies (R62, R69): at the ledger entry, or at a byte of a section. -/
inductive Spot where
  | entry
  | sect (i off : Nat)
  deriving DecidableEq, Repr

/-- A failure of an entry. -/
structure PlanFail where
  code : Nat
  spot : Spot
  deriving DecidableEq, Repr

/-- A failure at a byte of the action area. -/
def Src.actIf (r : Src) (c : Bool) (code off : Nat) : List PlanFail := if c then [⟨code, .sect r.actIx off⟩] else []

/-- A failure of the entry itself. -/
def entryIf (c : Bool) (code : Nat) : List PlanFail := if c then [⟨code, .entry⟩] else []

/-- 0x0501 for every word with a bit of its mask set. -/
def Src.reserved (r : Src) (ws : List Word) (off : Nat) (ms : List (Nat × Nat)) : List PlanFail :=
  ms.flatMap (fun m => r.actIf (decide ((wordAt ws m.1).toNat &&& m.2 ≠ 0)) 0x0501 (off + 4 * m.1))

/-- Every bit of words a to b - 1. -/
def wholeWords (a b : Nat) : List (Nat × Nat) := (List.range (b - a)).map (fun i => (a + i, 0xFFFFFFFF))

/-- A record of a DECODE or ENCODE slot list: its offset, stream or session, frames or pictures, budget (R190, R261). -/
structure ListRec where
  off : Nat
  who : Nat
  frames : Nat
  budget : Nat
  deriving DecidableEq, Repr

/-- The records of a DECODE or ENCODE slot list: width of COUNT and of the stream or session. -/
def State.frameList (s : State) (r : Src) (off cw ww : Nat) : List ListRec :=
  (List.range (bits ((s.actWords r off 1).headD 0) cw 0)).map (fun i =>
    let o := off + 16 + 8 * i
    let w := s.actWords r o 2
    { off := o, who := bits (wordAt w 0) ww 0, frames := bits (wordAt w 0) 11 8, budget := bits (wordAt w 1) 27 0 })

/-- The records of a PREPROC slot list with their offsets (R204). -/
def State.ppList (s : State) (r : Src) (off : Nat) : List (Nat × PpRec) :=
  (List.range (bits ((s.actWords r off 1).headD 0) 7 0)).map (fun i =>
    let o := off + 16 + 16 * i
    (o, parsePpRec (s.actWords r o 4)))

/-- A descriptor of the bundle with its parameter block and coefficients. -/
def State.srcPpDesc (s : State) (r : Src) (off : Nat) : PpDesc :=
  let ws := s.actWords r off 16
  parsePpDesc ws (s.actWords r (wordAt ws 8).toNat 32) (s.actWords r (wordAt ws 7).toNat 256)

/-- An entry that the host DMA runs under the evidence plan (R271). -/
def State.isEvidence (s : State) (r : Src) (e : Entry) : Bool :=
  e.unit == 0x1F && e.action == 2 && decide ((s.actWords r e.operand 1).headD 0 = 5)

/-- CUTOFF, intake DMA and demultiplexer entries (R176). -/
def State.isIntake (s : State) (r : Src) (e : Entry) : Bool :=
  (e.unit == 0x1F && (e.action == 9 || (e.action == 2 && !s.isEvidence r e))) || (e.unit == 0x21 && e.action == 2)

/-- Units [lo, hi] with an action. -/
def Entry.on (e : Entry) (lo hi action : Nat) : Bool := decide (lo ≤ e.unit) && decide (e.unit ≤ hi) && e.action == action

/-- The first grain after an entry. -/
def Entry.stop (e : Entry) : Nat := e.start + e.length

/-- Two entries overlap in grains; a CUTOFF of length 0 holds none. -/
def Entry.overlaps (a b : Entry) : Bool :=
  decide (a.length ≠ 0) && decide (b.length ≠ 0) && decide (a.start < b.stop) && decide (b.start < a.stop)

/-- What the checks of a variant share: its entries that run in their own right, its intake plan, its slot lists, the streams that
valid sensor inputs name, and (stream, DESC, KEEP_IDX) of the PREPROC records of earlier variants. -/
structure View where
  es : List (Nat × Entry)
  plan : Option Nat
  recs : List PlanRec
  dec : List (Nat × Entry × List ListRec)
  pps : List (Nat × Entry × List (Nat × PpRec))
  enc : List (Nat × Entry × List ListRec)
  assoc : List (Nat × Entry)
  sensors : List Nat
  kept : List (Nat × Nat × Nat)

/-- The streams that valid sensor inputs, in effect, name (R217). -/
def State.sensorStreams (s : State) : List Nat :=
  ((List.range 16).filter (fun n => bit (s.effReg (Reg.ALIGN_IN_CTL n)) 0)).map (fun n => bits (s.effReg (Reg.ALIGN_IN_CTL n)) 23 16)

/-- The view of variant v. -/
def State.view (s : State) (r : Src) (v : Nat) : View :=
  let es := (s.srcEntries r v).filter (fun e => !e.2.altOnly)
  let plan := (es.find? (fun e => s.isIntake r e.2)).map (fun e => e.2.operand)
  { es := es, plan := plan
    recs := match plan with
      | some p => (List.range 256).map (fun x => parsePlanRec (s.actWords r (p + 0x40 + 16 * x) 4))
      | none => []
    dec := (es.filter (fun e => e.2.on 0x10 0x17 3)).map (fun e => (e.1, e.2, s.frameList r e.2.operand 7 7))
    pps := (es.filter (fun e => e.2.on 0x1A 0x1D 4)).map (fun e => (e.1, e.2, s.ppList r e.2.operand))
    enc := (es.filter (fun e => e.2.on 0x18 0x19 5)).map (fun e => (e.1, e.2, s.frameList r e.2.operand 4 3))
    assoc := es.filter (fun e => e.2.on 0x1E 0x1E 6)
    sensors := s.sensorStreams
    kept := (List.range v).flatMap (fun u => ((s.srcEntries r u).filter (fun e => e.2.on 0x1A 0x1D 4)).flatMap (fun e =>
      (s.ppList r e.2.operand).map (fun q => (q.2.stream, q.2.desc, q.2.keepIx)))) }

/-- A record of no stream. -/
def noPlanRec : PlanRec := parsePlanRec [0, 0, 0, 0]

/-- The plan's record of a stream. -/
def View.planOf (w : View) (x : Nat) : PlanRec := w.recs.getD x noPlanRec

/-- Streams with intake, and their records. -/
def View.used (w : View) : List (Nat × PlanRec) :=
  (w.recs.zipIdx.map (fun p => (p.2, p.1))).filter (fun p => decide (p.2.guar ≠ 0))

/-- A stream of a sensor: named by a valid input, which ignores its intake (R217), or without intake. -/
def View.sensor (w : View) (x : Nat) : Bool := w.sensors.contains x || decide ((w.planOf x).guar = 0)

/-- Frames of a stream in a tick: FRAMES_TICK, and 1 for a sensor stream (R206). -/
def View.framesTick (w : View) (x : Nat) : Nat := if w.sensor x then 1 else (w.planOf x).framesTick

/-- The entries of a predicate in the variant. -/
def View.all (w : View) (p : Entry → Bool) : List Entry := (w.es.map Prod.snd).filter p

/-- ECLK fit a slot after the start delay (R63). -/
def fits (length eclk : Nat) : Bool := decide (eclk + 8 ≤ length * 1536)

/-- Budgets in VCLK fit (R63): each counts 1.5 ECLK. -/
def budgetsFit (e : Entry) (total : Nat) : Bool := fits e.length (cdiv (3 * total) 2)

/-- Bytes of a picture buffer (R196). -/
def pictureBytes (w h : Nat) (ten : Bool) : Nat :=
  let rows := cdiv h 64 * 64
  cdiv (picPitch w (if ten then 2 else 1) * rows * 3 / 2 + cdiv w 64 * 8 * (rows / 8) * 16) 4096 * 4096

/-- A pool definition of the bundle (R283). -/
def poolDef (b : Bundle) (p : Nat) : Option (List Word) := b.pools.find? (fun w => bits (wordAt w 0) 5 0 == p)

/-- Buffers of a pool. -/
def poolCount (b : Bundle) (p : Nat) : Nat := match poolDef b p with
  | some w => bits (wordAt w 2) 12 0
  | none => 0

/-- Bytes of a pool's buffers. -/
def poolBuf (b : Bundle) (p : Nat) : Nat := match poolDef b p with
  | some w => (wordAt w 1).toNat
  | none => 0

/-- The codes of an extent of a plan (R63, R430): 0x0204 in an odd region, 0x0502 outside a region of the named owners. -/
def planExtent (rs : List Region) (owners : List Nat) (e : Extent) : List Nat :=
  if e.n = 0 then []
  else
    let here := rs.filter (fun x => decide (x.ptr.store = e.p.store))
    codeIf (here.any (fun x => x.kind == 5 && meets x.base x.size e.p.addr e.n)) 0x0204 ++
    codeIf (!here.any (fun x => decide (x.base ≤ e.p.addr) && decide (e.p.addr + e.n ≤ x.base + x.size) &&
      (x.owner == 0xFF || owners.contains x.owner))) 0x0502

/-- The same as failures at a byte of the action area. -/
def Src.extentFails (r : Src) (owners : List Nat) (e : Extent) (off : Nat) : List PlanFail :=
  (planExtent r.b.recs owners e).map (fun c => ⟨c, .sect r.actIx off⟩)

/-- Buffers that the streams of a pool need up to stream x (R196). -/
def View.poolNeed (w : View) (p x : Nat) : Nat :=
  ((w.used.filter (fun q => q.2.pool == p && decide (q.1 ≤ x))).map (fun q => q.2.dpbMax + q.2.framesTick + 1)).sum

/-- The intake plan (R176, R196, R200). -/
def State.intakeFails (s : State) (r : Src) (w : View) (off : Nat) : List PlanFail :=
  let h := s.actWords r off 16
  let at_ := fun (x : Nat) => off + 0x40 + 16 * x
  let areas := (bits (wordAt h 2) 22 0, bits (wordAt h 1) 23 0, off + 8) ::
    w.used.map (fun p => (p.2.base, p.2.guar * (if p.2.direct then 2 else 1), at_ p.1 + 4))
  areas.flatMap (fun a => r.actIf (decide (0x780000 < a.1 + a.2.1)) 0x0201 a.2.2) ++
  areas.zipIdx.flatMap (fun a => r.actIf (decide (a.1.2.1 ≠ 0) && (areas.take a.2).any (fun b =>
    decide (b.2.1 ≠ 0) && meets a.1.1 a.1.2.1 b.1 b.2.1)) 0x0203 a.1.2.2) ++
  r.actIf (decide (wordAt h 0 ≠ 1)) 0x0501 off ++
  r.reserved h off ([(1, 0xFF000000), (2, 0xFF800000), (3, 0xFFFF0000)] ++ wholeWords 4 16) ++
  (List.range 256).flatMap (fun x => r.reserved (s.actWords r (at_ x) 4) (at_ x) [(0, 0xFF000000), (1, 0xFF800000), (2, 0xC0800000)]) ++
  r.actIf (decide (bits (wordAt h 1) 23 0 % 4096 ≠ 0)) 0x0506 (off + 4) ++
  r.actIf (decide (bits (wordAt h 2) 22 0 % 4096 ≠ 0)) 0x0506 (off + 8) ++
  w.used.flatMap (fun q =>
    let p := q.2
    let o := at_ q.1
    r.actIf (decide (p.guar % 1024 ≠ 0)) 0x0506 o ++
    r.actIf (decide (p.base % 1024 ≠ 0)) 0x0506 (o + 4) ++
    r.actIf (decide (p.recMax = 0) || outside p.dpbMax 1 16 || decide (poolBuf r.b p.pool < pictureBytes p.maxW p.maxH p.depth10) ||
      (decide (poolCount r.b p.pool < w.poolNeed p.pool q.1) &&
        decide (w.poolNeed p.pool q.1 ≤ poolCount r.b p.pool + p.dpbMax + p.framesTick + 1))) 0x0506 (o + 8) ++
    r.actIf (outside p.maxW 16 8192 || outside p.maxH 16 4320) 0x0506 (o + 12))

/-- Different plans in one variant (R200), and the order of CUTOFF, intake DMA and demultiplexer (R178). -/
def State.intakeOrder (s : State) (r : Src) (w : View) (e : Entry) : List PlanFail :=
  let cuts := w.all (fun x => x.on 0x1F 0x1F 9)
  let dmas := w.all (fun x => x.on 0x1F 0x1F 2 && !s.isEvidence r x)
  r.actIf (decide (w.plan ≠ some e.operand)) 0x0501 e.operand ++
  r.actIf (if e.action = 9 then false
    else if e.unit = 0x1F then cuts.isEmpty || cuts.any (fun x => decide (e.start ≤ x.start))
    else dmas.isEmpty || dmas.any (fun x => decide (e.start < x.stop))) 0x0506 e.operand

/-- The demultiplexer's time at the plan's limits, in ECLK (R181). -/
def State.demuxEclk (s : State) (r : Src) (w : View) (off : Nat) : Nat :=
  let guar := (w.used.map (fun p => p.2.guar)).sum
  let recs := (w.used.map (fun p => p.2.recMax)).sum
  cdiv (3 * (cdiv (guar + bits ((s.actWords r (off + 4) 1).headD 0) 23 0) 16 + 32 * recs)) 2

/-- Another entry of the list serves the same stream and overlaps entry i in grains. -/
def servedTwice {α : Type} (ls : List (Nat × Entry × List α)) (who : α → Nat) (i : Nat) (e : Entry) (x : Nat) : Bool :=
  ls.any (fun o => decide (o.1 ≠ i) && o.2.1.overlaps e && o.2.2.any (fun q => who q == x))

/-- Frames that a variant's DECODE entries give a stream, up to the record at an offset of entry i (R191). -/
def View.decoded (w : View) (x i off : Nat) : Nat :=
  ((w.dec.filter (fun d => decide (d.1 ≤ i))).flatMap (fun d => (d.2.2.filter (fun q => q.who == x && (decide (d.1 < i) || decide (q.off ≤ off)))).map
    ListRec.frames)).sum

/-- A DECODE entry (R178, R190, R191, R200). -/
def State.decodeFails (s : State) (r : Src) (w : View) (i : Nat) (e : Entry) : List PlanFail :=
  let h := s.actWords r e.operand 4
  let qs := s.frameList r e.operand 7 7
  let demux := w.all (fun x => x.on 0x21 0x21 2)
  entryIf (!budgetsFit e (qs.map (fun q => q.frames * q.budget)).sum) 0x0405 ++
  r.reserved h e.operand ((0, 0xFFFFFF00) :: wholeWords 1 4) ++
  qs.flatMap (fun q => r.reserved (s.actWords r q.off 2) q.off [(0, 0xFFFFF000), (1, 0xF0000000)]) ++
  r.actIf (outside qs.length 1 64 || demux.isEmpty || demux.any (fun x => decide (e.start < x.stop))) 0x0506 e.operand ++
  qs.flatMap (fun q => r.actIf (decide (q.frames = 0) || decide (q.budget < 4096) ||
    decide ((w.planOf q.who).framesTick < w.decoded q.who i q.off) || servedTwice w.dec ListRec.who i e q.who) 0x0506 q.off)

/-- The valid sensor input, in effect, that names a stream (R217). -/
def State.inputOf (s : State) (x : Nat) : Option Nat :=
  (List.range 16).find? (fun n => bit (s.effReg (Reg.ALIGN_IN_CTL n)) 0 && bits (s.effReg (Reg.ALIGN_IN_CTL n)) 23 16 == x)

/-- The stream's source has subsampled chroma: decoded video, or YUV422 of a sensor (R207). -/
def State.subsampled (s : State) (w : View) (x : Nat) : Bool :=
  match s.inputOf x with
  | some n => decide (bits (s.effReg (Reg.ALIGN_IN_CTL n)) 10 5 = 0x1E) || decide (bits (s.effReg (Reg.ALIGN_IN_CTL n)) 10 5 = 0x1F)
  | none => decide ((w.planOf x).guar ≠ 0)

/-- STEP of an axis outside R209. -/
def stepBad (l n : Nat) : Bool := decide (n ≠ 0) && outside (l * 65536 / n) 0x2000 0x80000

/-- A phase of a filter whose used taps do not sum to 1,024 (R209). -/
def phasesBad (coef : List Byte) (tab taps : Nat) : Bool :=
  (List.range 32).any (fun ph => decide (((List.range taps).map (fun k => blockInt coef (tab + 16 * ph + 2 * k))).sum ≠ 1024))

/-- Bytes of a row of the tensor (R211). -/
def PpDesc.rowBytes (d : PpDesc) : Nat := d.outW / d.blk * (d.blk * d.blk * d.chans * d.elem)

/-- A list of factors names a number. -/
def oneOf (n : Nat) (l : List Nat) : Bool := l.contains n

/-- The KIND 8 regions in DRAM of a bundle (R223). -/
def proxyRegions (b : Bundle) : List Region := b.recs.filter (fun x => x.kind == 8 && x.store == 0)

/-- Every descriptor with PROXY_OUT of the bundle: SCL_W and SCL_H (R223). -/
def State.proxySizes (s : State) (r : Src) : List (Nat × Nat) :=
  ((s.allEntries r).filter (fun x => x.2.2.on 0x1A 0x1D 4)).flatMap (fun x => (s.ppList r x.2.2.operand).filterMap (fun q =>
    let d := s.srcPpDesc r q.2.desc
    if d.proxyOut then some (d.sclW, d.sclH) else none))

/-- A descriptor (R207 to R209, R223, R226): `sub` where a source has subsampled chroma. -/
def State.ppDescFails (s : State) (r : Src) (unit : Nat) (sub : Bool) (off : Nat) : List PlanFail :=
  let ws := s.actWords r off 16
  let d := s.srcPpDesc r off
  let param := (wordAt ws 8).toNat
  let coef := (wordAt ws 7).toNat
  let slots := bits (wordAt ws 15) 15 0
  let odd := fun (n : Nat) => sub && decide (n % 2 ≠ 0)
  let fin := fun (o : Nat) => isFin (num32 (bytesWord d.param o))
  let keepHi := bytesWord d.param 0x34
  let al := fun (n : Nat) => decide (n % 64 ≠ 0)
  r.actIf (decide (wordAt ws 0 ≠ 2)) 0x0501 off ++
  r.actIf (!oneOf d.tapsH [2, 4, 6, 8] || !oneOf d.tapsV [2, 4, 6, 8] || decide (d.ch = 3) || !oneOf d.blk [1, 2, 4, 8] ||
    (d.csc && decide (d.ch = 0))) 0x0501 (off + 24) ++
  r.reserved ws off [(6, 0xFFE00000), (10, 0xFFFF8CE0), (11, 0xFF000000), (14, 0xFFFF8CE0), (15, 0xFFFF0000)] ++
  r.actIf (decide (bits (wordAt ws 10) 9 8 = 3)) 0x0501 (off + 40) ++ r.actIf (decide (bits (wordAt ws 14) 9 8 = 3)) 0x0501 (off + 56) ++
  (List.range 8).flatMap (fun i => r.actIf (!fin (4 * i)) 0x0501 (param + 4 * i)) ++
  r.actIf (decide (keepHi.toNat &&& 0xFFFF8CE0 ≠ 0) || decide (bits keepHi 9 8 = 3)) 0x0501 (param + 0x34) ++
  r.actIf (((d.param.drop 0x38).take 8).any (fun x => decide (x ≠ 0))) 0x0501 (param + 0x38) ++
  r.actIf ((d.param.drop 0x5E).any (fun x => decide (x ≠ 0))) 0x0501 (param + 0x5E) ++
  r.extentFails [unit] ⟨d.dest, (slots - 1) * d.sampleStride + d.size, true⟩ (off + 36) ++
  r.extentFails [unit] ⟨d.man, 16 * slots, true⟩ (off + 52) ++
  r.actIf (d.proxyOut && (proxyRegions r.b).any (fun x => x.owner != 0xFF && x.owner != unit)) 0x0502 (off + 24) ++
  r.actIf (al d.dest.addr) 0x0503 (off + 36) ++ r.actIf (al d.rowStride) 0x0503 (off + 44) ++ r.actIf (al d.sampleStride) 0x0503 (off + 48) ++
  r.actIf (al d.man.addr) 0x0503 (off + 52) ++ r.actIf (al (bytesWord d.param 0x30).toNat) 0x0503 (param + 0x30) ++
  r.actIf (odd d.cropX || odd d.cropY) 0x0506 (off + 4) ++
  r.actIf (outside d.cropW 16 8192 || outside d.cropH 16 4320 || odd d.cropW || odd d.cropH) 0x0506 (off + 8) ++
  r.actIf (outside d.sclW 1 8192 || outside d.sclH 1 4320 || stepBad d.cropW d.sclW || stepBad d.cropH d.sclH) 0x0506 (off + 12) ++
  r.actIf (decide (d.outW % d.blk ≠ 0) || decide (d.outH % d.blk ≠ 0) || decide (d.outW < d.sclW) || decide (d.outH < d.sclH)) 0x0506 (off + 16) ++
  r.actIf (decide (d.outW < d.placeX + d.sclW) || decide (d.outH < d.placeY + d.sclH)) 0x0506 (off + 20) ++
  r.actIf (d.proxyOut && (decide ((proxyRegions r.b).length ≠ 1) || (s.proxySizes r).any (fun q => decide (q ≠ (d.sclW, d.sclH))))) 0x0506 (off + 24) ++
  r.actIf (decide (coef % 64 ≠ 0) || !r.inAction coef 1024) 0x0506 (off + 28) ++
  r.actIf (decide (param % 64 ≠ 0) || !r.inAction param 128) 0x0506 (off + 32) ++
  r.actIf (phasesBad d.coef 0 d.tapsH) 0x0506 coef ++ r.actIf (phasesBad d.coef 0x200 d.tapsV) 0x0506 (coef + 0x200) ++
  r.actIf (decide (d.rowStride < d.rowBytes)) 0x0506 (off + 44) ++ r.actIf (decide (d.sampleStride < d.size)) 0x0506 (off + 48) ++
  r.actIf (decide (slots = 0)) 0x0506 (off + 60) ++
  r.actIf (!oneOf d.fmt [2, 3, 6, 8, 9]) 0x0507 (off + 24)

/-- The PREPROC records of a variant that serve a stream. -/
def View.served (w : View) (x : Nat) : List (Nat × PpRec) :=
  w.pps.flatMap (fun d => d.2.2.filter (fun q => q.2.stream == x))

/-- Members of sensor groups whose slots are not consecutive in one batch (R221): the streams of the later members. -/
def State.groupBroken (s : State) (w : View) : List Nat :=
  (List.range 8).flatMap (fun g =>
    let xs := ((List.range 16).filter (fun n => bit (s.effReg (Reg.ALIGN_IN_CTL n)) 0 && bits (s.effReg (Reg.ALIGN_IN_GROUP n)) 3 0 == g)).map
      (fun n => bits (s.effReg (Reg.ALIGN_IN_CTL n)) 23 16)
    (xs.zip (xs.drop 1)).filterMap (fun p =>
      match (w.served p.1).head?, (w.served p.2).head? with
      | some a, some b => if b.2.desc = a.2.desc ∧ b.2.slot = a.2.slot + 1 then none else some p.2
      | none, some _ => some p.2
      | some _, none => some p.1
      | none, none => none))

/-- A PREPROC entry may not start yet (R206). -/
def State.ppTooEarly (s : State) (w : View) (e : Entry) (x : Nat) : Bool :=
  w.dec.any (fun d => d.2.2.any (fun q => q.who == x) && decide (e.start < d.2.1.stop)) ||
  (decide (s.passMode x = 2) && (w.all (fun y => y.on 0x21 0x21 2)).any (fun y => decide (e.start < y.stop))) ||
  (w.sensor x && (w.all (fun y => y.on 0x20 0x20 9)).any (fun y => decide (e.start < y.start + 1)))

/-- A record of a PREPROC list (R204, R206, R212, R214, R221, R226). -/
def State.ppRecFails (s : State) (r : Src) (w : View) (i : Nat) (e : Entry) (broken : List Nat) (q : Nat × PpRec) : List PlanFail :=
  let o := q.1
  let p := q.2
  let ok := decide (p.desc % 64 = 0) && r.inAction p.desc 64
  let d := s.srcPpDesc r p.desc
  let total := ((w.served p.stream).map (fun z => z.2.frames)).sum
  r.reserved (s.actWords r o 4) o [(0, 0xFFFFF000), (1, 0xF0000000), (3, 0xF0000000)] ++
  (if ok && d.keepEn then
    r.extentFails [e.unit] ⟨ptrAdd (ppPtr (bytesWord d.param 0x30) (bytesWord d.param 0x34)) (p.keepIx * d.sampleStride), d.size, true⟩ (o + 12) ++
    r.actIf (w.pps.any (fun z => z.2.2.any (fun y => decide (y.2.stream ≠ p.stream) && y.2.desc == p.desc && y.2.keepIx == p.keepIx &&
      (decide (z.1 < i) || (z.1 == i && decide (y.1 < o))))) ||
      w.kept.any (fun y => decide (y.1 ≠ p.stream) && decide (y.2 = (p.desc, p.keepIx)))) 0x0502 (o + 12)
   else []) ++
  r.actIf (decide (p.frames = 0) || decide (total ≠ w.framesTick p.stream) || s.ppTooEarly w e p.stream ||
    servedTwice w.pps (fun z => z.2.stream) i e p.stream) 0x0506 o ++
  r.actIf (decide (p.budget < 4096) || (ok && decide (p.budget < d.sampleTime + d.fillTime))) 0x0506 (o + 4) ++
  r.actIf (!ok) 0x0506 (o + 8) ++
  r.actIf (ok && decide (bits (wordAt (s.actWords r p.desc 16) 15) 15 0 < p.slot + p.frames) || broken.contains p.stream) 0x0506 (o + 12) ++
  (if ok then s.ppDescFails r e.unit (s.subsampled w p.stream) p.desc else [])

/-- A PREPROC entry. -/
def State.preprocFails (s : State) (r : Src) (w : View) (i : Nat) (e : Entry) : List PlanFail :=
  let qs := s.ppList r e.operand
  let broken := s.groupBroken w
  entryIf (!budgetsFit e (qs.map (fun q => q.2.frames * q.2.budget)).sum) 0x0405 ++
  r.reserved (s.actWords r e.operand 4) e.operand ((0, 0xFFFFFF00) :: wholeWords 1 4) ++
  r.actIf (outside qs.length 1 128) 0x0506 e.operand ++
  qs.flatMap (s.ppRecFails r w i e broken)

/-- Streams that no PREPROC record serves although the plan gives them frames, or a valid sensor input names them (R206): at their
record of the intake plan. -/
def View.unserved (w : View) (r : Src) (off : Nat) : List PlanFail :=
  ((List.range 256).filter (fun x => w.sensors.contains x || decide ((w.planOf x).guar ≠ 0 ∧ (w.planOf x).framesTick ≠ 0))).flatMap (fun x =>
    r.actIf (w.served x).isEmpty 0x0506 (off + 0x40 + 16 * x + 8))

/-- The evidence delivery entries of a variant. -/
def State.evidenceOf (s : State) (r : Src) (w : View) : List Entry := w.all (s.isEvidence r)

/-- Sessions of an evidence plan (R271). -/
def State.sessRecs (s : State) (r : Src) (off : Nat) : List SessPlan :=
  (List.range (bits ((s.actWords r (off + 4) 1).headD 0) 4 0)).map (fun n => parseSessPlan (s.actWords r (off + 64 + 32 * n) 8))

/-- PICS_TICK of a session in a variant; 0 where its plan has none. -/
def State.picsTick (s : State) (r : Src) (w : View) (n : Nat) : Nat :=
  match s.evidenceOf r w with
  | e :: _ => ((s.sessRecs r e.operand)[n]?).elim 0 SessPlan.picsTick
  | [] => 0

/-- Pictures that a variant's ENCODE entries give a session. -/
def View.coded (w : View) (n : Nat) : Nat := (w.enc.flatMap (fun d => (d.2.2.filter (fun q => q.who == n)).map ListRec.frames)).sum

/-- E + K of R262 at a session's limits. -/
def encodeNeed (p : SessPlan) : Nat :=
  let n := cdiv p.maxW 16 * 16 * (cdiv p.maxH 16 * 16)
  n + (if p.clipOk then 4096 else 2048) + 64 + cdiv n 256

/-- An ENCODE entry (R261, R263). -/
def State.encodeFails (s : State) (r : Src) (w : View) (e : Entry) : List PlanFail :=
  let qs := s.frameList r e.operand 4 3
  let ev := s.evidenceOf r w
  entryIf (!budgetsFit e (qs.map (fun q => q.frames * q.budget)).sum) 0x0405 ++
  r.actIf (outside qs.length 1 16 || w.dec.any (fun d => decide (e.start < d.2.1.stop)) ||
    (w.all (fun y => y.on 0x20 0x20 9)).any (fun y => decide (e.start < y.start + 1)) || ev.isEmpty ||
    ev.any (fun y => decide (y.start < e.stop))) 0x0506 e.operand ++
  qs.flatMap (fun q =>
    r.actIf (decide (q.frames = 0) || decide (w.coded q.who ≠ s.picsTick r w q.who)) 0x0506 q.off ++
    r.actIf (decide (q.budget < 4096) || (match ev with
      | y :: _ => (match (s.sessRecs r y.operand)[q.who]? with
        | some p => decide (q.budget < encodeNeed p)
        | none => false)
      | [] => false)) 0x0506 (q.off + 4))

/-- The evidence plan (R271), and sessions that no ENCODE record serves (R263). -/
def State.evidenceFails (s : State) (r : Src) (w : View) (off : Nat) : List PlanFail :=
  let h := s.actWords r off 16
  let ps := s.sessRecs r off
  let at_ := fun (n : Nat) => off + 64 + 32 * n
  r.reserved h off ((1, 0xFFFFFFE0) :: wholeWords 2 16) ++
  ps.zipIdx.flatMap (fun q => r.reserved (s.actWords r (at_ q.2) 8) (at_ q.2) ([(1, 0xFFFFF000), (3, 0xFFFFFFE0)] ++ wholeWords 6 8)) ++
  ps.zipIdx.flatMap (fun q => r.extentFails [0x18, 0x19] ⟨q.1.stage, q.1.stageLen, true⟩ (at_ q.2 + 8)) ++
  r.actIf (outside ps.length 1 16) 0x0506 (off + 4) ++
  ps.zipIdx.flatMap (fun q =>
    let p := q.1
    let o := at_ q.2
    let clips := (ps.filter (fun x => x.clipOk && x.refPool == p.refPool)).length
    r.actIf ((p.clipOk && decide (poolCount r.b p.refPool < 2 * clips)) || decide (w.coded q.2 ≠ p.picsTick)) 0x0506 (o + 4) ++
    r.actIf (decide (p.stage.addr % 4096 ≠ 0)) 0x0506 (o + 8) ++
    r.actIf (decide (p.stageLen % 4096 ≠ 0) || decide (p.stageLen < cdiv (64 + 3 * p.maxW * p.maxH) 64 * 64)) 0x0506 (o + 16) ++
    r.actIf (decide (p.delivMax % 64 ≠ 0)) 0x0506 (o + 20))

/-- The source and stream records of an association plan (R230), with their offsets. -/
def State.assocRecs (s : State) (r : Src) (off : Nat) : List (Nat × List Word) × List (Nat × List Word) :=
  let h := s.actWords r off 3
  let ns := bits (wordAt h 1) 3 0
  let rec_ := fun (i : Nat) => (off + 64 + 32 * i, s.actWords r (off + 64 + 32 * i) 8)
  ((List.range ns).map rec_, (List.range (bits (wordAt h 2) 8 0)).map (fun i => rec_ (ns + i)))

/-- The manifest of a source (R231). -/
def srcManifest (ws : List Word) : Ptr := ppPtr (wordAt ws 3) (wordAt ws 4)

/-- The detection table of a source. -/
def srcTable (ws : List Word) : Ptr := descPtr (Fin.ofNat 8 (bits (wordAt ws 0) 2 0)) (wordAt ws 1)

/-- The track table of a stream record (R232). -/
def trackTable (ws : List Word) : Extent := ⟨{ store := .common, addr := bits (wordAt ws 2) 25 0 }, 320 * bits (wordAt ws 0) 27 20, true⟩

/-- A PROGRAM entry runs a job of a stall, itself or through its alternate. -/
def State.runsJob (s : State) (r : Src) (v st j : Nat) (e : Entry) : Bool :=
  e.on st st 1 && (e.job == j || (e.altValid && (s.srcEntry r v e.alt).job == j))

/-- An association plan (R230 to R232, R254). -/
def State.assocFails (s : State) (r : Src) (v : Nat) (w : View) (i : Nat) (e : Entry) : List PlanFail :=
  let off := e.operand
  let h := s.actWords r off 16
  let rs := s.assocRecs r off
  let scratch : Extent := ⟨{ store := .common, addr := bits (wordAt h 3) 25 0 }, bits (wordAt h 4) 23 0, true⟩
  let owner := fun (ws : List Word) => s.srcClusterStall r (bits (wordAt ws 0) 2 0)
  let stalls := List.range 8
  let served := (w.pps.flatMap (fun d => d.2.2)).map Prod.snd
  r.actIf (decide (wordAt h 0 ≠ 3) || w.assoc.any (fun x => decide (x.1 < i) && decide (x.2.operand ≠ off))) 0x0501 off ++
  r.reserved h off ([(1, 0xFFFFFFF0), (2, 0xFFFFFE00), (3, 0xF0000000), (4, 0xFF000000)] ++ wholeWords 5 8) ++
  rs.1.flatMap (fun q => r.reserved q.2 q.1 ([(0, 0xF0000E08), (1, 0xF0000000), (2, 0xFF000000), (4, 0xFFFF8CE0), (5, 0xFFFF0000)] ++ wholeWords 6 8)) ++
  rs.1.flatMap (fun q => r.actIf (decide (1 < bits (wordAt q.2 1) 27 26)) 0x0501 (q.1 + 4) ++
    r.actIf (decide (bits (wordAt q.2 4) 9 8 = 3)) 0x0501 (q.1 + 16)) ++
  rs.2.flatMap (fun q => r.reserved q.2 q.1 ([(0, 0xF0000E00), (1, 0x00F00000), (2, 0xF0000000)] ++ wholeWords 3 8)) ++
  r.extentFails [0x1E] scratch (off + 12) ++
  rs.1.flatMap (fun q =>
    r.extentFails (0x1E :: (owner q.2).toList) ⟨srcTable q.2, 32 * bits (wordAt q.2 0) 27 16, false⟩ (q.1 + 4) ++
    r.extentFails [0x1E, 0x1A, 0x1B, 0x1C, 0x1D] ⟨srcManifest q.2, 16 * bits (wordAt q.2 5) 15 0, false⟩ (q.1 + 12)) ++
  rs.2.zipIdx.flatMap (fun q => r.extentFails (0x1E :: stalls) (trackTable q.1.2) (q.1.1 + 8) ++
    r.actIf ((rs.2.take q.2).any (fun o => (trackTable o.2).overlaps (trackTable q.1.2) && decide ((trackTable o.2).n ≠ 0) &&
      decide ((trackTable q.1.2).n ≠ 0))) 0x0502 (q.1.1 + 8)) ++
  r.actIf (decide (scratch.p.addr % 64 ≠ 0)) 0x0503 (off + 12) ++
  rs.1.flatMap (fun q => r.actIf (decide ((srcTable q.2).addr % 32 ≠ 0)) 0x0503 (q.1 + 4)) ++
  rs.2.flatMap (fun q => r.actIf (decide ((trackTable q.2).p.addr % 64 ≠ 0)) 0x0503 (q.1 + 8)) ++
  r.actIf (w.assoc.any (fun x => decide (x.1 < i)) ||
    rs.1.any (fun q => (owner q.2).toList.any (fun st => (w.all (s.runsJob r v st (bits (wordAt q.2 0) 8 4))).any (fun x =>
      decide (e.start < x.stop + 7)))) ||
    served.any (fun p => !rs.2.any (fun q => bits (wordAt q.2 0) 7 0 == p.stream)) ||
    served.any (fun p => !rs.1.any (fun q => decide (srcManifest q.2 = (s.srcPpDesc r p.desc).man)))) 0x0506 off ++
  r.actIf (outside rs.1.length 1 8) 0x0506 (off + 4) ++ r.actIf (outside rs.2.length 1 256) 0x0506 (off + 8) ++
  r.actIf (decide (bits (wordAt h 3) 27 26 ≠ 1)) 0x0506 (off + 12) ++
  r.actIf (rs.2.any (fun q => decide (scratch.n < 8 * bits (wordAt q.2 0) 19 12 * bits (wordAt q.2 0) 27 20))) 0x0506 (off + 16) ++
  rs.1.flatMap (fun q => r.actIf (decide (bits (wordAt q.2 0) 27 16 = 0)) 0x0506 q.1 ++
    r.actIf (decide (bits (wordAt q.2 2) 23 0 ≠ 32)) 0x0506 (q.1 + 8)) ++
  rs.2.flatMap (fun q => r.actIf (decide (bits (wordAt q.2 0) 19 12 = 0)) 0x0506 q.1 ++
    r.actIf (decide (bits (wordAt q.2 1) 19 16 = 0)) 0x0506 (q.1 + 4) ++ r.actIf (decide (bits (wordAt q.2 2) 27 26 ≠ 1)) 0x0506 (q.1 + 8))

/-- Streams of a variant's association plan. -/
def State.assocStreams (s : State) (r : Src) (w : View) : List Nat :=
  match w.assoc with
  | e :: _ => (s.assocRecs r e.2.operand).2.map (fun q => bits (wordAt q.2 0) 7 0)
  | [] => []

/-- A sheet plan (R251, R254). A variant without the one ASSOC entry of R230 is refused here (DEDUCED, log entry 93). -/
def State.sheetFails (s : State) (r : Src) (w : View) (e : Entry) : List PlanFail :=
  let off := e.operand
  let h := s.actWords r off 16
  let mx := (wordAt h 1).toNat
  let tele := bits (wordAt h 4) 12 0
  let hold : Extent := ⟨{ store := .common, addr := bits (wordAt h 2) 25 0 }, 17 * mx, true⟩
  let least := 1280 + ((s.assocStreams r w).map (fun x => 32 + 32 * w.framesTick x)).sum + 128 + 8 * tele
  r.actIf (decide (wordAt h 0 ≠ 4)) 0x0501 off ++
  r.reserved h off ([(2, 0xF0000000), (3, 0xFFFFFFE0), (4, 0xFFFFE000), (5, 0xFFFFFFFF)] ++ wholeWords 14 16) ++
  r.extentFails [0x1E, 0x1F] hold (off + 8) ++
  r.actIf (decide (hold.p.addr % 64 ≠ 0)) 0x0503 (off + 8) ++
  r.actIf (w.assoc.isEmpty || w.assoc.any (fun x => decide (e.start < x.2.stop))) 0x0506 off ++
  r.actIf (outside mx 65536 16777216 || decide (mx % 4096 ≠ 0) || decide (mx < least)) 0x0506 (off + 4) ++
  r.actIf (decide (bits (wordAt h 2) 27 26 ≠ 1)) 0x0506 (off + 8) ++
  r.actIf (decide (16 < bits (wordAt h 3) 4 0)) 0x0506 (off + 12) ++ r.actIf (outside tele 1 4096) 0x0506 (off + 16)

/-- An entry's unit can run a test on a target (R399, R400). -/
def State.testFits (s : State) (r : Src) (unit test target : Nat) : Bool :=
  if unit < 8 then
    let cl := (s.srcStall r unit).list
    if test = 1 ∨ test = 2 then cl.contains (target / 8) else test == 3 && cl.contains target
  else test == 4 && target == unit

/-- A MAINT list (R399). -/
def State.maintFails (s : State) (r : Src) (e : Entry) : List PlanFail :=
  let h := s.actWords r e.operand 4
  let n := bits (wordAt h 0) 6 0
  let ws := s.actWords r (e.operand + 16) n
  r.reserved h e.operand ((0, 0xFFFFFF80) :: wholeWords 1 4) ++
  ws.zipIdx.flatMap (fun q => r.actIf (decide (q.1.toNat &&& 0xFFFF00F8 ≠ 0) || outside (bits q.1 2 0) 1 4) 0x0501 (e.operand + 16 + 4 * q.2)) ++
  r.actIf (decide (64 < n) || (decide (0x28 ≤ e.unit) && decide (n ≠ 0))) 0x0506 e.operand ++
  ws.zipIdx.flatMap (fun q => r.actIf (!s.testFits r e.unit (bits q.1 2 0) (bits q.1 15 8)) 0x0506 (e.operand + 16 + 4 * q.2))

/-- Bytes of an entry's operand in the action area (R29); 0 where the action has none. -/
def State.operandLen (s : State) (r : Src) (e : Entry) : Nat :=
  let w0 := (s.actWords r e.operand 1).headD 0
  let w1 := (s.actWords r (e.operand + 4) 1).headD 0
  let w2 := (s.actWords r (e.operand + 8) 1).headD 0
  if e.action = 0 ∨ e.action = 7 ∨ e.unit = 0x20 then 0
  else if e.action = 8 then 16 + 4 * bits w0 6 0
  else if e.on 0x10 0x17 3 then 16 + 8 * bits w0 7 0
  else if e.on 0x1A 0x1D 4 then 16 + 16 * bits w0 7 0
  else if e.on 0x18 0x19 5 then 16 + 8 * bits w0 4 0
  else if e.action = 6 then 64 + 32 * (bits w1 3 0 + bits w2 8 0)
  else if s.isEvidence r e then 64 + 32 * bits w1 4 0
  else if s.isIntake r e then 0x1040
  else 64

/-- The entry's operand lies in the action area and is aligned (R29). -/
def State.operandOk (s : State) (r : Src) (e : Entry) : Bool :=
  decide (e.operand % 64 = 0) && r.inAction e.operand (max 1 (s.operandLen r e))

/-- The failures of the plan or list that an entry names. -/
def State.planFails (s : State) (r : Src) (v : Nat) (w : View) (i : Nat) (e : Entry) : List PlanFail :=
  if s.operandOk r e = false ∨ e.action = 0 then []
  else if e.action = 8 then s.maintFails r e
  else if e.on 0x10 0x17 3 then s.decodeFails r w i e
  else if e.on 0x1A 0x1D 4 then s.preprocFails r w i e
  else if e.on 0x18 0x19 5 then s.encodeFails r w e
  else if e.on 0x1E 0x1E 6 then s.assocFails r v w i e
  else if e.on 0x1F 0x1F 10 then s.sheetFails r w e
  else if s.isEvidence r e then s.evidenceFails r w e.operand
  else if s.isIntake r e then
    s.intakeFails r w e.operand ++ s.intakeOrder r w e ++ w.unserved r e.operand ++
    entryIf (decide (e.unit = 0x21) && !fits e.length (s.demuxEclk r w e.operand)) 0x0405
  else []

end Sys2Proof.Machine
end

