-- ==== Sys2Proof/Machine/WeighCost.lean ====
section
/-!
DEFINITION. The weigh-in, group 0x04: the bound L_c (R48, R49), the fabric bound (R429, R431), the bandwidth checks of R49 and R50, and
whether jobs and entries fit their slots (R63, R181, R200, R240, R254, R271, R301).
-/
namespace Sys2Proof.Machine

/-- The figures that a weigh-in captures when its Checks phase begins (R64): effective rates by place, media, host DMA, TAU, then
each stall's DRAM and fabric rate; the host caps in force. -/
structure Caps where
  caps : List Nat

/-- The effective rate: the lower of the bundle's figure and the host's cap (R47). -/
def Caps.eff (k : Caps) (i rate : Nat) : Nat := min rate (k.caps.getD i 0xFFFF)

/-- Rate and depth of a shared regulator: 0 media, 1 host DMA, 2 TAU. -/
def State.sharedRate (s : State) (r : Src) (k : Caps) (i : Nat) : Nat × Nat :=
  (k.eff i ((s.srcShared r).getD (2 * i) 0), (s.srcShared r).getD (2 * i + 1) 0)

/-- Rate and depth of a stall's DRAM regulator. -/
def State.dramRate (s : State) (r : Src) (k : Caps) (st : Nat) : Nat × Nat :=
  (k.eff (3 + 2 * st) (s.srcStall r st).dramRate, (s.srcStall r st).dramDepth)

/-- Rate and depth of a stall's fabric regulator. -/
def State.fabRate (s : State) (r : Src) (k : Caps) (st : Nat) : Nat × Nat :=
  (k.eff (4 + 2 * st) (s.srcStall r st).fabRate, (s.srcStall r st).fabDepth)

/-- The populated channels. -/
def State.populated (s : State) : List Nat := (List.range 8).filter (fun c => bit (s.reg (Reg.DC_CFG c)) 0)

/-- The transfer rate code of the populated channels (R293): 0 4800, 1 5600, 2 6400. -/
def State.dramSpeed (s : State) : Nat := (s.populated.head?).elim 2 (fun c => bits (s.reg (Reg.DC_CFG c)) 2 1)

/-- The refresh block in DCLK (R48). -/
def refreshBlock (speed : Nat) : Nat := if speed = 0 then 492 else if speed = 1 then 574 else 656

/-- A DCLK in units of 1/168 ns; an FCLK takes 140 of them and an ECLK 112. -/
def dclkUnits (speed : Nat) : Nat := if speed = 0 then 140 else if speed = 1 then 120 else 105

/-- C in bytes per FCLK, times 16 and 4,200 (R48). -/
def guaranteed (speed : Nat) : Nat := if speed = 0 then 1032192 else if speed = 1 then 1204224 else 1376256

/-- The stalls that can reach channel c: clusters, and c in the pitch. -/
def State.reaching (s : State) (r : Src) (c : Nat) : List Nat :=
  (List.range 8).filter (fun st => decide ((s.srcStall r st).clusters ≠ 0) && (s.srcStall r st).pitch.testBit c)

/-- Channels of a stall's pitch, at least 1. -/
def State.pitchCount (s : State) (r : Src) (st : Nat) : Nat := max 1 (maskChannels (s.srcStall r st).pitch).length

/-- A_c of R49, in bytes per FCLK times 16 and 4,200; the MGC's rate is 16 over eight channels (R47). -/
def State.offered (s : State) (r : Src) (k : Caps) (c : Nat) : Nat :=
  ((List.range 3).map (fun i => (s.sharedRate r k i).1 * 525)).sum + 16 * 525 +
  ((s.reaching r c).map (fun st => (s.dramRate r k st).1 * 4200 / s.pitchCount r st)).sum

/-- B_c of R49 in bytes. -/
def State.backlog (s : State) (r : Src) (c : Nat) : Nat :=
  ((List.range 3).map (fun i => (s.srcShared r).getD (2 * i + 1) 0 / 8 * 64)).sum + 64 +
  ((s.reaching r c).map (fun st => (s.srcStall r st).dramDepth / s.pitchCount r st * 64)).sum

/-- Initiator ports that can reach channel c: clusters of those stalls, two media ports, PCIe, MGC and TAU. -/
def State.reachPorts (s : State) (r : Src) (c : Nat) : Nat :=
  5 + ((s.reaching r c).map (fun st => (s.srcStall r st).list.length)).sum

/-- L_c of R49 in whole ECLK: 15.36 bytes of C pass in a DCLK at every rate. -/
def State.lBound (s : State) (r : Src) (c : Nat) : Nat :=
  let sp := s.dramSpeed
  cdiv (140 * (15 + 4 * (s.reachPorts r c - 1)) + dclkUnits sp * (64 + refreshBlock sp + cdiv (s.backlog r c * 25) 384)) 112

/-- R50 in ECLK: rate and depth in the units of R46, over p buckets. -/
def r50 (length v : Nat) (rd : Nat × Nat) (p l : Nat) : Bool :=
  decide (l ≤ length * 1536) && decide ((v - rd.2 / p * 64) * 20 * p ≤ (length * 1536 - l) * rd.1)

/-- The time that v bytes need in ECLK, rounded up (R112): R50 solved for the length. -/
def r50Time (v : Nat) (rd : Nat × Nat) (p l : Nat) : Nat :=
  let n := (v - rd.2 / p * 64) * 20 * p
  l + (if n = 0 then 0 else if rd.1 = 0 then 2 ^ 40 else cdiv n rd.1)

/-- The bytes that n bytes cost in each DRAM channel, burst by burst (R46, R432): a write of part of a burst costs 128. -/
def State.charged (s : State) (e : Extent) : List (Nat × Nat) :=
  let a := e.p.addr / 64 * 64
  if e.p.store = .dram ∧ e.n ≠ 0 then
    (List.range ((e.p.addr + e.n - a + 63) / 64)).filterMap (fun i =>
      let b := a + 64 * i
      let n := min (e.p.addr + e.n) (b + 64) - max e.p.addr b
      (s.dramPlace b).map (fun c => (c.1, if e.wr ∧ n < 64 then 128 else n)))
  else []

/-- V_c of some extents. -/
def State.channelBytes (s : State) (es : List Extent) (c : Nat) : Nat :=
  (es.map (fun e => (((s.charged e).filter (fun x => x.1 == c)).map Prod.snd).sum)).sum

/-- The channels that some extents touch. -/
def State.channelsOf (s : State) (es : List Extent) : List Nat :=
  (List.range 8).filter (fun c => es.any (fun e => (s.charged e).any (fun x => x.1 == c)))

/-- The instructions of a PROGRAM entry's stall, each with its cluster. -/
def State.entryInstrs (s : State) (r : Src) (e : Entry) : List Issue :=
  (s.jobStreams r e).flatMap (fun j => (s.streamInstrs r j).map (fun ws => ⟨e.unit, e.job, Fin.ofNat 8 j.cluster, ws⟩))

/-- The region of a pool. -/
def poolExtent (b : Bundle) (p : Nat) : List Extent :=
  match poolDef b p with
  | some w => (b.recs[bits (wordAt w 0) 27 16]?).toList.map (fun x => ⟨x.ptr, x.size, true⟩)
  | none => []

/-- The pool of a stream's pictures or frames. -/
def State.sourcePool (s : State) (w : View) (x : Nat) : Option Nat :=
  match s.inputOf x with
  | some n => some (bits (s.effReg (Reg.ALIGN_IN_CTL n)) 29 24)
  | none => if (w.planOf x).guar ≠ 0 then some (w.planOf x).pool else none

/-- Where a LOAD entry reads (R39): the model's programs and scratchpad images in its region. -/
def Src.loadExtent (r : Src) (e : Entry) : List Extent :=
  match r.model e.unit e.model with
  | some m => ((r.b.recs.find? (fun x => x.kind == 1 && x.section_ == m.1)).map (fun x =>
      (⟨ptrAdd x.ptr 64, m.2.2.2.1 + m.2.2.1 * m.2.2.2.2, false⟩ : Extent))).toList
  | none => []

/-- A store that only its own cluster reaches, without the fabric. -/
def ownStore (p : Ptr) : Bool := decide (p.store ≠ .dram) && decide (p.store ≠ .common)

/-- What an entry's descriptors, lists, plans, pools and regions name outside its own cluster (R429, R301). -/
def State.entryExtents (s : State) (r : Src) (w : View) (e : Entry) : List Extent :=
  if e.on 0 7 1 then ((s.entryInstrs r e).flatMap (fun x => planExtents x (s.cbRec r))).filter (fun x => !ownStore x.p)
  else if e.on 0 7 7 then r.loadExtent e
  else if e.on 0x10 0x17 3 then (s.frameList r e.operand 7 7).flatMap (fun q => poolExtent r.b (w.planOf q.who).pool)
  else if e.on 0x1A 0x1D 4 then (s.ppList r e.operand).flatMap (fun q =>
    let d := s.srcPpDesc r q.2.desc
    let slots := bits (wordAt (s.actWords r q.2.desc 16) 15) 15 0
    [⟨d.dest, (slots - 1) * d.sampleStride + d.size, true⟩, ⟨d.man, 16 * slots, true⟩] ++
    (if d.keepEn then [⟨ptrAdd (ppPtr (bytesWord d.param 0x30) (bytesWord d.param 0x34)) (q.2.keepIx * d.sampleStride), d.size, true⟩] else []) ++
    ((s.sourcePool w q.2.stream).toList.flatMap (poolExtent r.b)) ++
    (if d.proxyOut then (proxyRegions r.b).map (fun x => ⟨x.ptr, x.size, true⟩) else []))
  else if e.on 0x18 0x19 5 then
    ((s.evidenceOf r w).flatMap (fun y => s.sessRecs r y.operand)).flatMap (fun p => ⟨p.stage, p.stageLen, true⟩ :: poolExtent r.b p.refPool)
  else if e.on 0x1E 0x1E 6 then
    let rs := s.assocRecs r e.operand
    let h := s.actWords r e.operand 5
    ⟨{ store := .common, addr := bits (wordAt h 3) 25 0 }, bits (wordAt h 4) 23 0, true⟩ ::
    (rs.1.flatMap (fun q => [⟨srcTable q.2, 32 * bits (wordAt q.2 0) 27 16, false⟩, ⟨srcManifest q.2, 16 * bits (wordAt q.2 5) 15 0, false⟩]) ++
     rs.2.map (fun q => trackTable q.2))
  else if e.on 0x1F 0x1F 10 then
    let h := s.actWords r e.operand 3
    [⟨{ store := .common, addr := bits (wordAt h 2) 25 0 }, 17 * (wordAt h 1).toNat, true⟩]
  else if s.isEvidence r e then (s.sessRecs r e.operand).map (fun p => ⟨p.stage, p.stageLen, false⟩)
  else []

/-- The initiator ports of an entry's unit (R8): clusters, 20 and 21 media, 22 TAU, 24 PCIe. -/
def State.entryPorts (s : State) (r : Src) (e : Entry) : List Nat :=
  if e.unit < 8 then (s.srcStall r e.unit).list
  else if e.unit = 0x1E then [22]
  else if e.unit = 0x1F ∨ e.unit = 0x22 then [24]
  else if 0x28 ≤ e.unit then []
  else [20, 21]

/-- Targets of R429: a cluster's port, 8 the common store, 24 host memory. -/
def State.entryTargets (s : State) (r : Src) (w : View) (e : Entry) : List Nat :=
  (if e.unit = 0x1F then [24] else []) ++ (s.entryExtents r w e).filterMap (fun x =>
    match x.p.store with
    | .common => if x.n = 0 then none else some 8
    | .spad c => if x.n = 0 then none else some c.val
    | _ => none)

/-- The entries of a variant with the grains in which they run: an alternate runs from its primary's START (R32). -/
def State.running (s : State) (r : Src) (v : Nat) (w : View) : List (Nat × Entry) :=
  w.es ++ (w.es.filter (fun p => p.2.altValid)).map (fun p => (p.2.alt, { s.srcEntry r v p.2.alt with start := p.2.start }))

/-- The width of a port (R8). -/
def portWidth (p : Nat) : Nat := if p = 22 ∨ p = 24 ∨ (12 ≤ p ∧ p < 20) then 64 else if p = 23 ∨ p = 25 ∨ p = 26 then 16 else 256

/-- The contending ports of a target over the grains in which entry i runs (R429). -/
def State.contending (s : State) (r : Src) (v : Nat) (w : View) (i own target : Nat) : List Nat :=
  let run := s.running r v w
  let mine := run.filter (fun p => p.1 == i)
  ((26 :: (run.filter (fun p => mine.any (fun q => q.2.overlaps p.2) && (s.entryTargets r w p.2).contains target)).flatMap (fun p =>
    s.entryPorts r p.2)).eraseDups).filter (fun p => p != own)

/-- The fabric bound for a 256-byte request, in FCLK (R429). -/
def State.fabBound (s : State) (r : Src) (v : Nat) (w : View) (i own target : Nat) : Nat :=
  let tw := portWidth target
  4 + (s.contending r v w i own target).length * cdiv 256 tw + cdiv 256 tw + 4 + (cdiv 256 (min tw (portWidth own)) - 1)

/-- The same in whole ECLK (R431). -/
def State.fabEclk (s : State) (r : Src) (v : Nat) (w : View) (i own target : Nat) : Nat := cdiv (5 * s.fabBound r v w i own target) 4

/-- The execution count of a MOVE through the fabric (R112). -/
def State.moveCount (s : State) (r : Src) (k : Caps) (common : Nat) (x : Issue) : Nat :=
  let es := (planExtents x (fun _ => ⟨false, false, 0, 0⟩)).filter (fun e => decide (e.p.store = .dram))
  let cs := s.channelsOf es
  let coms := if bits (x.w 3) 9 8 = 1 ∨ bits (x.w 5) 9 8 = 1 ∨ cs = [] then [common] else []
  let p := s.pitchCount r x.st
  max (r50Time (x.w 1).toNat (s.fabRate r k x.st) 1 ((coms ++ cs.map (s.lBound r)).foldl max 0))
    ((cs.map (fun c => r50Time (s.channelBytes es c) (s.dramRate r k x.st) p (s.lBound r c))).foldl max 0)

/-- The bytes that an instruction reads and writes in the common store (R112): every pass of a MATMUL counts. -/
def commonBytes (x : Issue) (cb : Nat → CbRec) : Nat :=
  let here := fun (es : List Extent) => ((es.filter (fun e => decide (e.p.store = .common))).map Extent.n).sum
  if bits (x.w 0) 7 0 = 0x01 then
    let q := planMm x cb
    let e := mmEngines x
    let ps := (List.range (if q.src then 1 else e)).flatMap (fun i => q.planPasses x e i ((pairSlots q.clsA q.clsB).getD 1))
    (ps.map PlanPass.bytes).sum + here ((mmExtents x q).filter Extent.wr)
  else here (planExtents x cb)

/-- An instruction moves data through its cluster's fabric port (R46). -/
def fabricBytes (x : Issue) (cb : Nat → CbRec) : Nat :=
  if bits (x.w 0) 7 0 = 0x06 then (if bits (x.w 3) 9 8 = 0 ∧ bits (x.w 5) 9 8 = 0 then 0 else (x.w 1).toNat) else commonBytes x cb

/-- What a stall entry moves: DRAM extents, bytes through the fabric, bytes of the common store (R50). -/
def State.stallTraffic (s : State) (r : Src) (e : Entry) : List Extent × Nat × Nat :=
  if e.action = 7 then
    let es := r.loadExtent e
    (es.filter (fun x => decide (x.p.store = .dram)), (es.map Extent.n).sum, ((es.filter (fun x => decide (x.p.store = .common))).map Extent.n).sum)
  else
    let xs := s.entryInstrs r e
    let cb := s.cbRec r
    (xs.flatMap (fun x => (planExtents x cb).filter (fun a => decide (a.p.store = .dram))), (xs.map (fun x => fabricBytes x cb)).sum,
      (xs.map (fun x => commonBytes x cb)).sum)

/-- A stall entry (R50, R63): DRAM regulator, fabric regulator, and the job's worst case. -/
def State.stallCost (s : State) (r : Src) (k : Caps) (v : Nat) (w : View) (i : Nat) (e : Entry) : List PlanFail :=
  let t := s.stallTraffic r e
  let own := ((s.srcStall r e.unit).list).headD 0
  let com := s.fabEclk r v w i own 8
  let cs := s.channelsOf t.1
  let fab := s.fabRate r k e.unit
  let coms := if t.2.2 = 0 then [] else [com]
  entryIf (cs.any (fun c => !r50 e.length (s.channelBytes t.1 c) (s.dramRate r k e.unit) (s.pitchCount r e.unit) (s.lBound r c))) 0x0402 ++
  entryIf ((decide (t.2.1 ≠ 0) && !r50 e.length t.2.1 fab 1 ((coms ++ cs.map (s.lBound r)).foldl max 0)) ||
    (decide (t.2.2 ≠ 0) && !r50 e.length t.2.2 fab 1 com)) 0x0403 ++
  entryIf (decide (e.action = 1) && (s.jobStreams r e).any (fun j =>
    let bound := s.fabEclk r v w i j.cluster 8
    !fits e.length (streamEclk (Fin.ofNat 8 j.cluster) e.unit e.job (s.cbRec r) bound (s.moveCount r k bound) (s.streamInstrs r j) 0 [] 0))) 0x0404

/-- The bytes of some extents at a target of R429 (R431). -/
def targetBytes (es : List Extent) (t : Nat) : Nat :=
  ((es.filter (fun x => match x.p.store with
    | .common => t == 8
    | .spad c => t == c.val
    | _ => false)).map Extent.n).sum

/-- A target fails the check of R431 through a shared regulator's whole bucket. -/
def State.targetFails (s : State) (r : Src) (k : Caps) (v : Nat) (w : View) (i : Nat) (e : Entry) (reg own : Nat) (es : List Extent) : Bool :=
  (List.range 9).any (fun t =>
    decide (targetBytes es t ≠ 0) && !r50 e.length (targetBytes es t) (s.sharedRate r k reg) 1 (s.fabEclk r v w i own t))

/-- What a PREPROC entry writes at addresses that its descriptors fix (R205, R213 to R215): samples, manifest entries, keep buffers. -/
def State.ppWrites (s : State) (r : Src) (e : Entry) : List Extent :=
  (s.ppList r e.operand).flatMap (fun q =>
    let d := s.srcPpDesc r q.2.desc
    (List.range q.2.frames).flatMap (fun f =>
      ⟨ptrAdd d.dest ((q.2.slot + f) * d.sampleStride), d.size, true⟩ :: ⟨ptrAdd d.man (16 * (q.2.slot + f)), 16, true⟩ ::
      (if d.keepEn then [⟨ptrAdd (ppPtr (bytesWord d.param 0x30) (bytesWord d.param 0x34)) (q.2.keepIx * d.sampleStride), d.size, true⟩] else [])))

/-- A media entry (R50, R431) through the media regulator: the bound of every channel and target that it touches, and the bytes that
its descriptors fix there. DESIGN CHOICE, log entry 93: bytes whose addresses data decides, in pools and staging areas, are not
estimated. -/
def State.mediaCost (s : State) (r : Src) (k : Caps) (v : Nat) (w : View) (i : Nat) (e : Entry) : List PlanFail :=
  let es := if e.on 0x1A 0x1D 4 then s.ppWrites r e else []
  entryIf ((s.channelsOf (s.entryExtents r w e)).any (fun c => !r50 e.length (s.channelBytes es c) (s.sharedRate r k 0) 8 (s.lBound r c)) ||
    s.targetFails r k v w i e 0 20 es) 0x0402

/-- The intake DMA entry (R200, R431). -/
def State.intakeCost (s : State) (r : Src) (k : Caps) (v : Nat) (w : View) (i : Nat) (e : Entry) : List PlanFail :=
  let h := s.actWords r e.operand 4
  let n := ((w.used.filter (fun p => !p.2.direct)).map (fun p => p.2.guar)).sum + bits (wordAt h 1) 23 0 + 1024
  let lat := bits (wordAt h 3) 15 0 * 1500
  let rd := s.sharedRate r k 1
  entryIf (!r50 e.length n (rd.1, 0) 1 lat || !r50 e.length n rd 1 (s.fabEclk r v w i 24 24 + lat)) 0x0402

/-- FCLK of the ASSOC entry at the planned maxima (R240). -/
def State.assocFclk (s : State) (r : Src) (v : Nat) (w : View) (i : Nat) (e : Entry) : Nat :=
  let rs := s.assocRecs r e.operand
  let com := s.fabBound r v w i 22 8
  let source := fun (ws : List Word) =>
    let cs := s.channelsOf [⟨srcManifest ws, 16 * bits (wordAt ws 5) 15 0, false⟩]
    let b := if cs = [] then (if bits (wordAt ws 1) 27 26 = 1 then com else s.fabBound r v w i 22 (bits (wordAt ws 0) 2 0))
      else cdiv (4 * (cs.map (s.lBound r)).foldl max 0) 5
    16 + cdiv (bits (wordAt ws 0) 27 16 * 32) 64 + cdiv (bits (wordAt ws 5) 15 0 * 16) 64 + 2 * b
  let frame := fun (ws : List Word) =>
    let d := bits (wordAt ws 0) 19 12
    let t := bits (wordAt ws 0) 27 20
    let g := d * t
    if t = 0 then 24 + 4 * com + d
    else 24 + 4 * com + t + cdiv g 16 + (if g = 0 then 0 else 2 * (256 + 2 * cdiv g 16)) + g + t + d
  32 + (rs.1.map (fun q => source q.2)).sum + (rs.2.map (fun q => w.framesTick (bits (wordAt q.2 0) 7 0) * frame q.2)).sum

/-- What an ASSOC entry moves at the planned maxima: tables and manifests, track tables read and written, the sort's scratch written
and read by every frame, and the sections, as far as the sheet holds them. DEDUCED, log entry 93. -/
def State.assocTraffic (s : State) (r : Src) (w : View) (e : Entry) : List Extent :=
  let rs := s.assocRecs r e.operand
  let h := s.actWords r e.operand 5
  let common := fun (n : Nat) (wr : Bool) => (⟨{ store := .common, addr := bits (wordAt h 3) 25 0 }, n, wr⟩ : Extent)
  let frames := fun (ws : List Word) => w.framesTick (bits (wordAt ws 0) 7 0)
  let sect := (rs.2.map (fun q => 32 + frames q.2 * (32 + 32 * bits (wordAt q.2 0) 19 12) + 32 * bits (wordAt q.2 0) 27 20)).sum
  let mx := ((w.all (fun x => x.on 0x1F 0x1F 10)).head?).elim 0 (fun x => (wordAt (s.actWords r x.operand 2) 1).toNat)
  (rs.1.map (fun q => (⟨srcManifest q.2, 16 * bits (wordAt q.2 5) 15 0, false⟩ : Extent))).eraseDups ++
  rs.1.map (fun q => ⟨srcTable q.2, 32 * bits (wordAt q.2 0) 27 16, false⟩) ++
  rs.2.flatMap (fun q => [trackTable q.2, trackTable q.2,
    common (16 * frames q.2 * bits (wordAt q.2 0) 19 12 * bits (wordAt q.2 0) 27 20) true]) ++ [common (min sect mx) true]

/-- The ASSOC entry (R50, R240, R254, R431). -/
def State.assocCost (s : State) (r : Src) (k : Caps) (v : Nat) (w : View) (i : Nat) (e : Entry) : List PlanFail :=
  let es := s.assocTraffic r w e
  entryIf ((s.channelsOf es).any (fun c => !r50 e.length (s.channelBytes es c) (s.sharedRate r k 2) 8 (s.lBound r c)) ||
    s.targetFails r k v w i e 2 22 es) 0x0402 ++
  entryIf (!fits e.length (cdiv (5 * s.assocFclk r v w i e) 4)) 0x0405

/-- The SHEET entry (R254, R431). -/
def State.sheetCost (s : State) (r : Src) (k : Caps) (v : Nat) (w : View) (i : Nat) (e : Entry) : List PlanFail :=
  let h := s.actWords r e.operand 4
  let n := (1 + bits (wordAt h 3) 4 0) * (wordAt h 1).toNat
  entryIf ([8, 24].any (fun t => !r50 e.length n (s.sharedRate r k 1) 1 (s.fabEclk r v w i 24 t))) 0x0402

/-- The evidence delivery entry (R271, R431): to host memory, and out of the staging areas. -/
def State.evidenceCost (s : State) (r : Src) (k : Caps) (v : Nat) (w : View) (i : Nat) (e : Entry) : List PlanFail :=
  let ps := s.sessRecs r e.operand
  let es := ps.map (fun p => (⟨p.stage, min p.delivMax p.stageLen, false⟩ : Extent))
  entryIf (!r50 e.length ((ps.map SessPlan.delivMax).sum + 512) (s.sharedRate r k 1) 1 (s.fabEclk r v w i 24 24) ||
    (s.channelsOf es).any (fun c => !r50 e.length (s.channelBytes es c) (s.sharedRate r k 1) 8 (s.lBound r c))) 0x0402

/-- An entry of a MAINT channel's grains that touches the channel, and a MAINT entry that is too short (R301). -/
def State.maintCost (s : State) (r : Src) (w : View) (run : List (Nat × Entry)) (i : Nat) (e : Entry) : List PlanFail :=
  let ms := (w.all (fun x => x.on 0x28 0x2F 8)).filter (fun x => (run.filter (fun p => p.1 == i)).any (fun p => p.2.overlaps x))
  entryIf ((decide (0x28 ≤ e.unit) && e.action == 8 && decide (e.length < 16)) ||
    (decide (ms ≠ []) && ms.any (fun x => (s.channelsOf (s.entryExtents r w e)).contains (x.unit - 0x28)))) 0x0402

/-- The DRAM extents of an entry whose addresses descriptors fix (R297): jobs, loads, pre-processing output, manifests. -/
def State.fixedTraffic (s : State) (r : Src) (e : Entry) : List Extent :=
  (if e.on 0 7 1 then (s.entryInstrs r e).flatMap (fun x => planExtents x (s.cbRec r))
   else if e.on 0 7 7 then r.loadExtent e
   else if e.on 0x1A 0x1D 4 then s.ppWrites r e
   else if e.on 0x1E 0x1E 6 then
     ((s.assocRecs r e.operand).1.map (fun q => (⟨srcManifest q.2, 16 * bits (wordAt q.2 5) 15 0, false⟩ : Extent))).eraseDups
   else []).filter (fun x => decide (x.p.store = .dram))

/-- The channel, bank and row of every burst of an extent, in address order (R294, R295). -/
def State.burstRows (s : State) (x : Extent) : List (Nat × Nat × Nat) :=
  let a := x.p.addr / 64 * 64
  (List.range ((x.p.addr + x.n - a + 63) / 64)).filterMap (fun i =>
    (s.dramPlace (a + 64 * i)).map (fun c =>
      let l := dramLoc (s.reg (Reg.DC_CFG c.1)) c.2
      (c.1, l.bankKey, l.row)))

/-- The activations that a run of rows of one bank takes (R296, R297): one a burst, or with keep-open one each time the row changes. -/
def activationsOf (keep : Bool) (rows : List Nat) : Nat :=
  if keep then ((rows.zip (none :: rows.map some)).filter (fun x => decide (x.2 ≠ some x.1))).length else rows.length

/-- The activations of an entry in each bank that it touches. -/
def State.entryActivations (s : State) (r : Src) (v i : Nat) (e : Entry) : List ((Nat × Nat) × Nat) :=
  (s.fixedTraffic r e).zipIdx.flatMap (fun x =>
    let bs := s.burstRows x.1
    ((bs.map (fun b => (b.1, b.2.1))).eraseDups).map (fun k =>
      (k, activationsOf (Config.keepOpen r.b.header v i x.2) ((bs.filter (fun b => decide ((b.1, b.2.1) = k))).map (fun b => b.2.2)))))

/-- The spread rule (R297) over the entries that overlap entry i in grains, itself included; span is the union of their grains, in
which a bank takes one activation in 50 ns. DESIGN CHOICE, log entry 94: these are the groups. -/
def State.spreadBad (s : State) (r : Src) (v : Nat) (run : List (Nat × Entry)) (i : Nat) (e : Entry) : Bool :=
  let g := run.filter (fun p => p.1 == i || p.2.overlaps e)
  let lo := (g.map (fun p => p.2.start)).foldl min e.start
  let hi := (g.map (fun p => p.2.stop)).foldl max e.stop
  let acts := g.flatMap (fun p => s.entryActivations r v p.1 p.2)
  ((acts.map Prod.fst).eraseDups).any (fun k =>
    decide ((hi - lo) * 1024 / 50 < ((acts.filter (fun a => decide (a.1 = k))).map Prod.snd).sum))

/-- The bandwidth and fit checks of an entry beside those of its slot list. -/
def State.costFails (s : State) (r : Src) (k : Caps) (v : Nat) (w : View) (i : Nat) (e : Entry) : List PlanFail :=
  if s.operandOk r e = false ∨ e.action = 0 then []
  else
    s.maintCost r w (s.running r v w) i e ++
    entryIf (s.spreadBad r v (s.running r v w) i e) 0x0402 ++
    (if e.on 0 7 1 || e.on 0 7 7 then s.stallCost r k v w i e
     else if e.on 0x1E 0x1E 6 then s.assocCost r k v w i e
     else if e.on 0x1F 0x1F 10 then s.sheetCost r k v w i e
     else if s.isEvidence r e then s.evidenceCost r k v w i e
     else if e.on 0x1F 0x1F 2 then s.intakeCost r k v w i e
     else if e.on 0x10 0x17 3 || e.on 0x18 0x19 5 || e.on 0x1A 0x1D 4 || e.on 0x21 0x21 2 then s.mediaCost r k v w i e
     else [])

/-- The channels that carry more than C (R49). -/
def State.overloaded (s : State) (r : Src) (k : Caps) : List Nat :=
  s.populated.filter (fun c => decide (guaranteed s.dramSpeed < s.offered r k c))

/-- The bandwidth checks at a switch (R47): some entry fails under the capped rates. -/
def State.capsFail (s : State) (r : Src) (k : Caps) : Bool :=
  (List.range (min (s.srcVariants r) 4)).any (fun v =>
    let w := s.view r v
    (s.srcEntries r v).any (fun e => (s.costFails r k v w e.1 e.2).any (fun f => f.code == 0x0402 || f.code == 0x0403)))

end Sys2Proof.Machine
end

