-- ==== Sys2Proof/Machine/Weigh.lean ====
section
/-!
DEFINITION. The weigh-in as a whole: group 0x03, the ledger (R22, R25, R28 to R32, R37, R38, R56, R64), the headers of programs (R97),
and the items of every group in their order (R62, R69).
-/
namespace Sys2Proof.Machine

/-- REFUSE_ITEM of an entry, a whole variant, a bank header field and a channel (R69). -/
def itemEntry (v i : Nat) : Nat := v * 65536 + i
/-- A whole variant. -/
def itemVariant (v : Nat) : Nat := 2 ^ 30 + v * 65536
/-- A field of the bank header. -/
def itemHeader (off : Nat) : Nat := 2 ^ 31 + off
/-- A channel. -/
def itemChannel (c : Nat) : Nat := 2 ^ 31 + 2 ^ 30 + c

/-- A failure of an entry as R69 reports it. -/
def PlanFail.report (f : PlanFail) (r : Src) (v i : Nat) : Fail :=
  match f.spot with
  | .entry => ⟨f.code, r.ledIx, itemEntry v i⟩
  | .sect x off => ⟨f.code, x, off⟩

/-- UNIT and ACTION are a pair of R30. -/
def pairAllowed (unit action : Nat) : Bool :=
  if action = 0 then unitListed unit
  else if unit ≤ 0x07 then oneOf action [1, 7, 8]
  else if 0x10 ≤ unit ∧ unit ≤ 0x17 then oneOf action [3, 8]
  else if unit = 0x18 ∨ unit = 0x19 then oneOf action [5, 8]
  else if 0x1A ≤ unit ∧ unit ≤ 0x1D then oneOf action [4, 8]
  else if unit = 0x1E then action == 6
  else if unit = 0x1F then oneOf action [2, 9, 10]
  else if unit = 0x20 then action == 9
  else if unit = 0x21 ∨ unit = 0x22 then action == 2
  else if 0x28 ≤ unit ∧ unit ≤ 0x2F then action == 8
  else false

/-- The carry region records that the extents of some entries name, with their odd partners, as bytes (R28, R57). -/
def State.carryRecords (s : State) (r : Src) (p : Entry → Bool) : List Byte :=
  let rs := r.b.recs
  let es := (List.range (min (s.srcVariants r) 4)).flatMap (fun v =>
    let w := s.view r v
    ((s.srcEntries r v).filter (fun e => p e.2)).flatMap (fun e =>
      if e.2.on 0 7 1 then (s.entryInstrs r e.2).flatMap (fun x => planExtents x (s.cbRec r)) else s.entryExtents r w e.2))
  let named := fun (x : Region) => x.kind == 4 && es.any (fun e => decide (e.p.store = x.ptr.store) && meets x.base x.size e.p.addr e.n)
  wordBytes ((r.b.regions.zip rs).filter (fun x => named x.2 ||
    rs.any (fun y => named y && decide (oddPartner rs y = some x.2)))).unzip.1.flatten

/-- The bank header (R22, R25, R28, R38, R64): `corr` is the S in force. -/
def State.headFails (s : State) (r : Src) (corr : Nat) : List Fail :=
  let w := s.headWord r
  let f := fun (c : Bool) (code off : Nat) => failIf c code r.ledIx (itemHeader off)
  let period := bits (w 0x004) 17 0
  let own := bits (w 0x00C) 9 0
  let guard := max 50000000 (38912000 + period * (50 + max own corr))
  let n := bits (w 0x010) 2 0
  let pop := s.populated
  f (decide (bits (w 0) 15 0 ≠ 1)) 0x0301 0 ++
  f (outside period 5000 200000) 0x0302 0x004 ++
  f (outside n 1 4) 0x0303 0x010 ++
  f ((List.range 2).any (fun v => decide (8192 < s.srcCount r v))) 0x0303 0x014 ++
  f ([2, 3].any (fun v => decide (8192 < s.srcCount r v))) 0x0303 0x018 ++
  f (decide (period * 1000000 < bits (w 0x008) 17 0 * 1024000 + guard)) 0x0304 0x008 ++
  f (decide (own < corr)) 0x0304 0x00C ++
  (List.range 8).flatMap (fun st =>
    let x := s.srcStall r st
    f ((List.range st).any (fun o => decide ((s.srcStall r o).clusters &&& x.clusters ≠ 0)) || (decide (x.clusters ≠ 0) && decide (x.pitch = 0)) ||
      (maskChannels x.pitch).any (fun c => !pop.contains c)) 0x030A (0x040 + 32 * st)) ++
  f (decide (w 0x01C ≠ Config.carrySignature (s.carryRecords r (fun e => e.on 0 7 1)))) 0x030F 0x01C ++
  f (decide (w 0x020 ≠ Config.carrySignature (s.carryRecords r (fun e => e.on 0x1A 0x1D 4)))) 0x030F 0x020

/-- An alternate breaks R32. -/
def alternateBad (es : List (Nat × Entry)) (e : Entry) : Bool :=
  e.altValid && (e.altOnly || decide (8 ≤ e.unit) ||
    (match es[e.alt]? with
     | some (_, a) => decide (a.unit ≠ e.unit) || !a.altOnly || a.altValid || decide (e.length < a.length)
     | none => true))

/-- Group 0x03 for entry i (R29 to R32, R56). -/
def State.ledgerCodes (s : State) (r : Src) (v : Nat) (es : List (Nat × Entry)) (i : Nat) (e : Entry) : List Nat :=
  let ws := s.entryWords r v i
  let h := bits (s.headWord r 0x008) 17 0
  let stall := decide (e.unit < 8)
  let same := es.filter (fun o => decide (o.1 ≠ i) && o.2.unit == e.unit && !o.2.altOnly)
  codeIf (!pairAllowed e.unit e.action) 0x0305 ++
  codeIf (decide (h ≤ e.start) || decide (h < e.stop) || (decide (e.length = 0) && decide (e.action ≠ 9)) || bit (wordAt ws 0) 30 ||
    decide (bits (wordAt ws 3) 31 21 ≠ 0) || (!stall && decide (e.job ≠ 0)) || (e.altOnly && decide (e.start ≠ 0))) 0x0306 ++
  codeIf (!e.altOnly && same.any (fun o => decide (o.1 < i) && o.2.overlaps e)) 0x0307 ++
  codeIf (stall && !e.altOnly && (decide (h < e.stop + 7) ||
    same.any (fun o => decide (e.stop ≤ o.2.start) && decide (o.2.start < e.stop + 7)))) 0x0308 ++
  codeIf (alternateBad es e) 0x0309 ++
  codeIf (decide (e.action ≠ 0) && !s.operandOk r e) 0x030C ++
  codeIf (stall && (e.action == 1 || e.action == 7) && (match r.model e.unit e.model with
    | some m => decide (m.2.2.1 ≠ (s.srcStall r e.unit).list.length)
    | none => true)) 0x030D

/-- A variant without the entries of R15: 0x030E. -/
def variantBad (es : List (Nat × Entry)) : Bool :=
  let own := (es.map Prod.snd).filter (fun e => !e.altOnly)
  let dma := own.filter (fun e => e.unit == 0x1F && decide (e.action ≠ 0))
  let sheets := dma.filter (fun e => e.action == 10)
  decide ((dma.filter (fun e => e.action == 9)).length ≠ 1) || decide (sheets.length ≠ 1) ||
  sheets.any (fun x => dma.any (fun e => decide (e.action ≠ 10) && decide (x.start < e.start))) ||
  decide (1 < (own.filter (fun e => e.unit == 0x20 && e.action == 9)).length)

/-- The job header that a PROGRAM entry names (R97). -/
def State.jobFails (s : State) (r : Src) (e : Entry) : List PlanFail :=
  match r.model e.unit e.model with
  | none => []
  | some (_, _, n, pl, _) =>
    let h := s.actWords r e.operand 16
    let cl := (s.srcStall r e.unit).list.length
    let part := if n = 0 then 0 else pl / n
    let count := fun (i : Nat) => bits (wordAt h (9 + i / 2)) (16 * (i % 2) + 15) (16 * (i % 2))
    let o := e.operand
    r.reserved h o ((0, 0xFFFFFFF0) :: wholeWords 13 16) ++
    (List.range cl).flatMap (fun i => r.actIf (decide (part < (wordAt h (1 + i)).toNat + 64 * count i)) 0x0502 (o + 4 + 4 * i)) ++
    (List.range cl).flatMap (fun i => r.actIf (decide ((wordAt h (1 + i)).toNat % 64 ≠ 0)) 0x0503 (o + 4 + 4 * i)) ++
    r.actIf (decide (bits (wordAt h 0) 3 0 ≠ cl)) 0x0506 o ++
    (List.range cl).flatMap (fun i => r.actIf (decide (count i = 0)) 0x0506 (o + 36 + 4 * (i / 2)))

/-- The instructions of a PROGRAM entry as items: the failures of each (R62, R63). -/
def State.instrItems (s : State) (r : Src) (e : Entry) : List (List Fail) :=
  (s.jobStreams r e).flatMap (fun j =>
    (s.streamCodes r (s.stallArea r e.unit) e.unit e.job (Fin.ofNat 8 j.cluster) 0 [] (s.streamInstrs r j)).map (fun x =>
      x.2.map (fun c => ⟨c, j.sect, j.off + 64 * x.1⟩)))

/-- The check of a staging entry: its descriptors have no layout. -/
def stagingFails (r : Src) (v i : Nat) (e : Entry) : List PlanFail :=
  if e.on 0x22 0x22 2 then
    let c := Config.stagingRefuses r.b.header v i
    if c / 256 = 5 ∨ c / 256 = 2 then [⟨c, .sect r.actIx e.operand⟩] else [⟨c, .entry⟩]
  else []

/-- The failures of a group. -/
def ofGroup (g : Nat) (l : List Fail) : List Fail := l.filter (fun f => f.code / 256 == g)

/-- The items of one entry in a group: the entry with its plan, then each instruction of its program. -/
def State.entryItems (s : State) (r : Src) (k : Caps) (g v : Nat) (w : View) (es : List (Nat × Entry)) (i : Nat) (e : Entry) : List (List Fail) :=
  let rep := fun (l : List PlanFail) => l.map (fun f => f.report r v i)
  let own := stagingFails r v i e ++
    (if g = 3 then (s.ledgerCodes r v es i e).map (fun c => ⟨c, .entry⟩)
     else s.planFails r v w i e ++ (if g = 4 then s.costFails r k v w i e else if g = 5 ∧ e.on 0 7 1 = true then s.jobFails r e else []))
  ofGroup g (rep own) :: (if (g = 2 ∨ g = 5) ∧ e.on 0 7 1 = true then (s.instrItems r e).map (ofGroup g) else [])

/-- The items of the LEDGER section in a group (R62): the bank header, then each variant's entries and the variant. -/
def State.ledgerItems (s : State) (r : Src) (k : Caps) (corr g : Nat) : List (List Fail) :=
  (if g = 3 then [s.headFails r corr]
   else if g = 4 then [(s.overloaded r k).map (fun c => ⟨0x0401, r.ledIx, itemChannel c⟩)] else []) ++
  (List.range (min (s.srcVariants r) 4)).flatMap (fun v =>
    let w := s.view r v
    let es := s.srcEntries r v
    es.flatMap (fun e => s.entryItems r k g v w es e.1 e.2) ++
    (if g = 3 then [failIf (variantBad es) 0x030E r.ledIx (itemVariant v)] else []))

/-- The first failure of the groups 0x02 to 0x05 (R62): `lost` holds the channels that froze since the load began. -/
def State.weigh (s : State) (r : Src) (k : Caps) (corr lost : Nat) : Option Fail :=
  firstFail ((List.range (sectCount r.b.header)).flatMap (s.sectFails2 r lost (s.ledgerItems r k corr 2)) ++
    s.ledgerItems r k corr 3 ++ s.ledgerItems r k corr 4 ++ s.ledgerItems r k corr 5)

end Sys2Proof.Machine
end

