-- ==== Sys2Proof/Machine/Loader.lean ====
section
/-!
DEFINITION. The loader (R33, R58 to R60, R64 to R69): the load command, the phases of a load, refusals, DISCARD.
-/
namespace Sys2Proof.Machine

/-- Set what a bank holds. -/
def State.setBundle (s : State) (b : Bool) (x : Bundle) : State :=
  if b then { s with loader := { s.loader with bundleB := x } } else { s with loader := { s.loader with bundleA := x } }

/-- BUNDLE_ID_A or BUNDLE_ID_B. -/
def bundleIdReg (b : Bool) : Nat := if b then Reg.LOADER_BUNDLE_ID_B else Reg.LOADER_BUNDLE_ID_A

/-- A bank's contents are discarded: it is EMPTY, its regions are no longer protected (R60, R66), and the clusters that only it
assigned go off (R38). -/
def State.emptyBank (s : State) (b : Bool) : State :=
  let t := ((s.setBundle b {}).setBankState b 0).setReg (bundleIdReg b) 0
  if s.bankState b = 2 then t.clustersOff else t

/-- A refusal (R62, R69): the code, section and location; the tally and the event. -/
def State.refuseLoad (s : State) (f : Fail) : State :=
  ((((s.setReg Reg.LEDGER_REFUSE_CODE (BitVec.ofNat 32 f.code)).setReg Reg.LOADER_REFUSE_SECT (BitVec.ofNat 32 f.sect)).setReg
    Reg.LOADER_REFUSE_ITEM (BitVec.ofNat 32 f.item)).tally Reg.LOADER_LOAD_REFUSED).event 0x002 2

/-- STATUS: the phase, the bank, and that a load runs; 0 where none does. -/
def State.setPhase (s : State) (b : Bool) (p : Nat) : State :=
  s.setReg Reg.LOADER_STATUS (BitVec.ofNat 32 (if p = 0 then 0 else p + flagBit b 4 + 32))

/-- The checks at the LOAD write (R60, R65): 0x0101 to 0x0104. -/
def State.loadFails (s : State) (b : Bool) (base len : Nat) : List (List Fail) :=
  [ failIf (decide (s.bankState b = 3)) 0x0101 0xFF 0,
    failIf (decide (s.bankState (!b) = 1)) 0x0102 0xFF 0,
    failIf (!s.stageInDram base len) 0x0103 0xFF 0,
    failIf (s.bankActive && regionMeets s.active.recs .dram base len) 0x0104 0xFF 0 ]

/-- LOAD for a bank (R60): the regions that the staged bundle names are protected from now on (R59). -/
def State.startLoad (s : State) (b : Bool) : State :=
  let base := s.loadStage
  let len := s.regN Reg.LOADER_STAGE_LEN
  match firstFail (s.loadFails b base len) with
  | some f => s.refuseLoad f
  | none =>
    let e := s.emptyBank b
    let t := ((e.setBundle b (e.bundleAt base)).setBankState b 1).setPhase b 1
    { t with loader := { t.loader with load := some { phase := 1, bank := b, base := base, len := len } } }

/-- DISCARD for a bank (R66): of the active one, or of one that a load is filling, it is dropped. -/
def State.discardBank (s : State) (b : Bool) : State :=
  if s.bankState b = 3 ∨ s.bankState b = 1 then s.drop 0x002
  else if s.bankState b = 0 then s
  else s.emptyBank b

/-- A write of LOADER.CMD (R69): DISCARD, then LOAD. -/
def State.loaderCmd (s : State) (v : Word) : State :=
  let s1 := if bit v 4 then s.discardBank (bit v 5) else s
  if bit v 0 then s1.startLoad (bit v 1) else s1

/-- LOAD (R60). -/
def execLoad (m : Master) (v : Word) (s : State) : Out := done (s.gate m 0x002 (fun t => t.loaderCmd v))

/-- DISCARD (R66). -/
def execDiscard (m : Master) (v : Word) (s : State) : Out := done (s.gate m 0x002 (fun t => t.loaderCmd v))

/-- The load is refused: the bank is REFUSED, and the staging region is free again (R59, R60). -/
def State.endRefused (s : State) (l : Load) (f : Fail) : State :=
  let t := ((s.setBundle l.bank {}).setBankState l.bank 4).refuseLoad f
  ({ t with loader := { t.loader with load := none } }).setPhase l.bank 0

/-- The load goes on with its next phase; a channel that has frozen while sections were copied counts as lost (R68). -/
def State.nextPhase (s : State) (l : Load) : State :=
  let lost := l.frozen ||| (s.loader.load.map Load.frozen).getD 0
  let t := { s with loader := { s.loader with load := some { l with phase := l.phase + 1, frozen := lost } } }
  t.setPhase l.bank (l.phase + 1)

/-- A phase ends with a failure or without one. -/
def State.phaseEnd (s : State) (l : Load) (f : Option Fail) (next : State) : State :=
  match f with
  | some x => s.endRefused l x
  | none => next

/-- The host caps in force (R47, R64): media, host DMA, TAU, then each stall's DRAM and fabric regulator. -/
def State.capsNow (s : State) : List Nat :=
  [Reg.SHARED_MEDIA_RATE, Reg.SHARED_HDMA_RATE, Reg.SHARED_TAU_RATE].map (fun k => bits (s.effReg k) 15 0) ++
  (List.range 8).flatMap (fun st => [bits (s.effReg (Reg.STALL_DRAM_RATE st)) 15 0, bits (s.effReg (Reg.STALL_FAB_RATE st)) 15 0])

/-- The sections are copied to their regions (R60, R67). -/
def State.placeSections (s : State) (l : Load) : State :=
  let b := s.bundle l.bank
  (b.recs.filter (fun x => decide (1 ≤ x.kind) && decide (x.kind ≤ 3))).foldl (fun (a : State) x =>
    (a.copy { store := .dram, addr := l.base + sectOff b.header x.section_ } x.ptr (min (sectLen b.header x.section_) x.size)).1) s

/-- The LEDGER section is written to the bank at the offsets of R28. -/
def State.writeBank (s : State) (l : Load) : State :=
  let r := stageSrc (s.bundle l.bank) l.base
  let s1 := (s.write (bankPtr l.bank) (s.peeks r.ledger 0x200)).st
  (List.range (s.srcVariants r)).foldl (fun (a : State) v =>
    (a.write (ptrAdd (bankPtr l.bank) (0x200 + 0x20000 * v)) (s.peeks (ptrAdd r.ledger (s.entryOff r v 0)) (16 * s.srcCount r v))).st) s1

/-- The bank is WEIGHED (R33, R69, R359). -/
def State.endAccepted (s : State) (l : Load) : State :=
  let h := (s.bundle l.bank).header
  let t := (((s.setBankState l.bank 2).setReg (bundleIdReg l.bank) (bytesWord h 0x014)).setReg Reg.LOADER_KEY_USED
    (BitVec.ofNat 32 (bits (bytesWord h 0x010) 1 0))).event 0x002 1
  (({ t with loader := { t.loader with load := none } }).setPhase l.bank 0).autoWake l.bank

/-- The end of a phase (R60, R61, R62, R68). -/
def State.endPhase (s : State) (l : Load) : State :=
  let r := stageSrc (s.bundle l.bank) l.base
  let lost := l.frozen.toNat
  if l.phase = 1 then
    let at_ := fun (off n : Nat) => s.peeks { store := .dram, addr := l.base + off } n
    s.phaseEnd l (firstFail (s.signatureFails (at_ 0 0xC80) (at_ 0xC80 16224) l.len)) (s.nextPhase l)
  else if l.phase = 2 then
    s.phaseEnd l (firstFail (s.hashFails (s.bundle l.bank) l.base))
      (s.nextPhase { l with caps := s.capsNow, corr := bits (s.reg Reg.TICK_CORR_S) 9 0 })
  else if l.phase = 3 then s.phaseEnd l (s.weigh r ⟨l.caps⟩ l.corr lost) (s.nextPhase l)
  else if l.phase = 4 then s.phaseEnd l (firstFail (s.lostFails r lost)) ((s.placeSections l).nextPhase l)
  else s.phaseEnd l (firstFail (s.lostFails r lost)) ((s.writeBank l).endAccepted l)

/-- LOAD_PHASE_END (R60). Without a load nothing happens. -/
def execLoadPhaseEnd (s : State) : Out :=
  done (match s.loader.load with
    | none => s
    | some l => s.endPhase l)

end Sys2Proof.Machine
end

