-- ==== Sys2Proof/Machine/Sensors.lean ====
section
/-!
DEFINITION. The CSI-2 ports, the sensor inputs and the alignment unit (R16, R216 to R221, R228).
-/
namespace Sys2Proof.Machine

/-- IN_CTL's port, virtual channel, data type, stream and pool (R229). -/
def inPort (c : Word) : Nat := bits c 2 1
/-- The virtual channel. -/
def inVc (c : Word) : Nat := bits c 4 3
/-- The data type. -/
def inType (c : Word) : Nat := bits c 10 5
/-- The stream. -/
def inStream (c : Word) : Nat := bits c 23 16
/-- The pool. -/
def inPool (c : Word) : Nat := bits c 29 24

/-- IN_CTL of input n in effect (R217). -/
def State.inCtl (s : State) (n : Nat) : Word := s.effReg (Reg.ALIGN_IN_CTL n)

/-- The port receives: CTL bit 0 is set, the domain on, the lane count supported (R216, R228). -/
def State.csiOn (s : State) (p : Nat) : Bool :=
  bit (s.reg (Reg.CTL (pageCsi p))) 0 && s.domOn 22 &&
  ([1, 2, 4].contains (bits (s.reg (Reg.CSI_PHY_CFG p)) 2 0))

/-- The inputs with a frame open on a port and virtual channel. -/
def State.openInputs (s : State) (p vc : Nat) : List Nat :=
  (List.range 16).filter (fun n =>
    (s.sensor n).openFrame.any (fun f => inPort f.ctl == p && inVc f.ctl == vc))

/-- Mark the open frame of an input bad. -/
def State.spoilFrame (s : State) (n : Nat) : State :=
  s.setSensor n { s.sensor n with openFrame := (s.sensor n).openFrame.map (fun f => { f with bad := true }) }

/-- A header's check (R216, R218): the state, and whether the packet can be used. -/
def State.csiHeader (s : State) (p vc : Nat) (e : Ecc) : State × Bool :=
  match e with
  | .good => (s, true)
  | .corrected => (s.tally (Reg.CSI_ECC_CORR p), true)
  | .uncorrectable => ((s.openInputs p vc).foldl (fun (a : State) n => a.spoilFrame n) (s.tally (Reg.CSI_HDR_UE p)), false)

/-- A bad frame ends (R218): counted, its buffer released. -/
def State.badFrame (s : State) (p n : Nat) (f : CsiFrame) : State :=
  let s1 := ((s.tally (Reg.CSI_FRAME_BAD p)).event (pageCsi p) 2).setSensor n { s.sensor n with openFrame := none }
  (s1.bpmRelease 14 f.buf 3).1

/-- A frame starts at an input (R218, R219): an open one is cut; the settings in effect and the stamp are kept. -/
def State.startFrameAt (s : State) (p n : Nat) (frameNo : BitVec 16) : State :=
  let s1 := match (s.sensor n).openFrame with
    | some f => (s.tally (Reg.CSI_FRAME_CUT p)).badFrame p n f
    | none => s
  let c := s1.inCtl n
  let a := s1.bpmAlloc 14 (inPool c) 3
  match a.2 with
  | none => a.1.tally (Reg.CSI_CSI_POOL_EMPTY p)
  | some b =>
    let st := a.1.tsu.ns - BitVec.ofNat 32 (bits (a.1.reg (Reg.CSI_STAMP_ADJ p)) 15 0)
    a.1.setSensor n { a.1.sensor n with
      openFrame := some { buf := b, stamp := st, frameNo := frameNo, lines := 0, bad := false, ctl := c
                          size := a.1.effReg (Reg.ALIGN_IN_SIZE n) } }

/-- CSI_FS (R218, R219): every valid input of the port and virtual channel starts a frame. -/
def execCsiFs (port vc : Fin 4) (frameNo : BitVec 16) (ecc : Ecc) (s : State) : Out :=
  let p := port.val
  done (if s.csiOn p then
    let h := s.csiHeader p vc.val ecc
    if h.2 then
      let cut := (h.1.openInputs p vc.val)
      let ins := (List.range 16).filter (fun n => bit (h.1.inCtl n) 0 && inPort (h.1.inCtl n) == p && inVc (h.1.inCtl n) == vc.val)
      let s1 := (cut.filter (fun n => !ins.contains n)).foldl (fun (a : State) n => match (a.sensor n).openFrame with
        | some f => (a.tally (Reg.CSI_FRAME_CUT p)).badFrame p n f
        | none => a) h.1
      ins.foldl (fun (a : State) n => a.startFrameAt p n frameNo) s1
    else h.1
  else s)

/-- The data types of R216. -/
def csiTypes : List Nat := [0x1E, 0x1F, 0x24, 0x2A, 0x2B, 0x2C]

/-- Four times the payload bytes per pixel of a data type (R218). -/
def csiPacket4 (dt : Nat) : Nat :=
  if dt = 0x1E then 8 else if dt = 0x1F then 10 else if dt = 0x24 then 12 else if dt = 0x2A then 4
  else if dt = 0x2B then 5 else 6

/-- 10-bit samples out of groups of five bytes, each into a 16-bit word. -/
def unpack10 : List Byte → List Byte
  | a :: b :: c :: d :: l :: r =>
    leBytes 2 (a.toNat * 4 + l.toNat % 4) ++ leBytes 2 (b.toNat * 4 + l.toNat / 4 % 4) ++
    leBytes 2 (c.toNat * 4 + l.toNat / 16 % 4) ++ leBytes 2 (d.toNat * 4 + l.toNat / 64 % 4) ++ unpack10 r
  | _ => []

/-- 12-bit samples out of groups of three bytes, each into a 16-bit word. -/
def unpack12 : List Byte → List Byte
  | a :: b :: l :: r =>
    leBytes 2 (a.toNat * 16 + l.toNat % 16) ++ leBytes 2 (b.toNat * 16 + l.toNat / 16) ++ unpack12 r
  | _ => []

/-- The bytes of a line in store (R217). -/
def csiStored (dt : Nat) (d : List Byte) : List Byte :=
  if dt = 0x1F ∨ dt = 0x2B then unpack10 d else if dt = 0x2C then unpack12 d else d

/-- A line of an input's open frame arrives (R217, R218). -/
def State.takeLine (s : State) (n dt : Nat) (crcOk : Bool) (d : List Byte) : State :=
  let x := s.sensor n
  match x.openFrame with
  | none => s
  | some f =>
    let wd := bits f.size 15 0
    let fits := decide (4 * d.length = wd * csiPacket4 dt) && decide (f.lines < bits f.size 31 16)
    let s1 := if fits then s.unitWrite (ptrAdd f.buf (f.lines * csiPitch dt wd)) (csiStored dt d) else s
    s1.setSensor n { x with openFrame := some { f with lines := f.lines + 1, bad := f.bad || !crcOk || !fits } }

/-- The input's settings match a long packet: those of the frame in progress, else those in effect. -/
def State.inputMatches (s : State) (n p vc dt : Nat) : Bool :=
  let c := match (s.sensor n).openFrame with
    | some f => f.ctl
    | none => s.inCtl n
  bit c 0 && inPort c == p && inVc c == vc && inType c == dt

/-- CSI_LONG_PACKET (R216, R217): a packet of an unsupported data type, or of no valid input, is discarded and counted. -/
def execCsiLongPacket (port vc : Fin 4) (dt : BitVec 6) (ecc : Ecc) (crcOk : Bool) (payload : List Byte) (s : State) : Out :=
  let p := port.val
  done (if s.csiOn p then
    let h := s.csiHeader p vc.val ecc
    if h.2 = false then h.1
    else if csiTypes.contains dt.toNat = false then h.1.tally (Reg.CSI_DT_DROP p)
    else
      let s1 := if crcOk then h.1 else h.1.tally (Reg.CSI_CRC_ERR p)
      let ins := (List.range 16).filter (fun n => s1.inputMatches n p vc.val dt.toNat)
      if ins = [] then s1.tally (Reg.CSI_NO_INPUT p)
      else ins.foldl (fun (a : State) n => a.takeLine n dt.toNat crcOk payload) s1
  else s)

/-- The frame of an input ends (R218): a good one is a candidate. -/
def State.endFrameAt (s : State) (p n : Nat) (frameNo : BitVec 16) : State :=
  let x := s.sensor n
  match x.openFrame with
  | none => s
  | some f =>
    if f.bad = false ∧ f.lines = bits f.size 31 16 ∧ f.frameNo = frameNo then
      s.setSensor n { x with openFrame := none, candidates := x.candidates ++ [f] }
    else s.badFrame p n f

/-- CSI_FE (R218). -/
def execCsiFe (port vc : Fin 4) (frameNo : BitVec 16) (ecc : Ecc) (s : State) : Out :=
  let p := port.val
  done (if s.csiOn p then
    let h := s.csiHeader p vc.val ecc
    if h.2 then (h.1.openInputs p vc.val).foldl (fun (a : State) n => a.endFrameAt p n frameNo) h.1 else h.1
  else s)

/-- CSI_LINK_CHANGE (R216, R228): the device reports the change and changes nothing else. -/
def execCsiLinkChange (port : Fin 4) (link : Word) (s : State) : Out :=
  let p := port.val
  let v := link &&& (if [1, 2, 4].contains (bits (s.reg (Reg.CSI_PHY_CFG p)) 2 0) then 0x11F else 0x1F)
  done (if s.domOn 22 = false ∨ s.reg (Reg.CSI_LINK p) = v then s
    else (s.setReg (Reg.CSI_LINK p) v).event (pageCsi p) 1)

/-- The signed difference of two stamps. -/
def stampDiff (a b : Word) : Int := (a - b).toInt

/-- The candidate nearest to a stamp; on a tie the earlier (R220). -/
def nearest (ta : Word) : List CsiFrame → Option CsiFrame
  | [] => none
  | f :: r =>
    match nearest ta r with
    | none => some f
    | some g =>
      let df := stampDiff f.stamp ta
      let dg := stampDiff g.stamp ta
      if df.natAbs < dg.natAbs ∨ (df.natAbs = dg.natAbs ∧ df ≤ dg) then some f else some g

/-- The latest candidate: candidates are listed in the order of their starts. -/
def latest (fs : List CsiFrame) : Option CsiFrame := fs.getLast?

/-- The picture record of a selected frame, or of a missing one: kind 4 or 5 (R205, R213). -/
def State.sensorRecord (s : State) (n kind : Nat) (f : Option CsiFrame) : State :=
  let c := match f with
    | some f => f.ctl
    | none => s.inCtl n
  let st := inStream c
  let no := (s.stream st).frameNo
  match f with
  | some f =>
    let w := bits f.size 15 0
    let h := bits f.size 31 16
    let t := (s.setReg (Reg.ALIGN_IN_LAST n) f.stamp).setStream st { s.stream st with frameNo := no + 1 }
    t.passOn st { stream := st, clipId := 0, frameNo := no, time := f.stamp, buf := some f.buf, cropX := 0, cropY := 0, cropW := w
                  cropH := h, depth10 := false, mono := false, outcome := 0, concealed := false, refConcealed := false, kind := 3
                  dataType := inType f.ctl, width := w, height := h }
  | none =>
    let t := s.free
    t.2.passOn st { stream := st, clipId := 0, frameNo := no, time := t.1, buf := none, cropX := 0, cropY := 0, cropW := 0, cropH := 0
                    depth10 := false, mono := false, outcome := 0, concealed := false, refConcealed := false, kind := kind
                    dataType := 0, width := 0, height := 0 }

/-- The candidates of an input that were not selected are released (R220). -/
def State.dropOthers (s : State) (n : Nat) (keep : Option CsiFrame) : State :=
  let x := s.sensor n
  let others := match keep with
    | some f => x.candidates.erase f
    | none => x.candidates
  others.foldl (fun (a : State) f => ((a.bpmRelease 14 f.buf 3).1).tally Reg.ALIGN_ALIGN_DROP)
    (s.setSensor n { x with candidates := [] })

/-- What the alignment decides for one input of a group whose reference stamp is `ta` (R220). -/
def State.alignMember (s : State) (ta : Word) (window n : Nat) : State :=
  match nearest ta (s.sensor n).candidates with
  | some c =>
    if (stampDiff c.stamp ta).natAbs ≤ window * 1000 then (s.sensorRecord n 5 (some c)).dropOthers n (some c)
    else (((s.tally Reg.ALIGN_ALIGN_MISS).event 0x21C 1).sensorRecord n 5 none).dropOthers n none
  | none => (((s.tally Reg.ALIGN_ALIGN_MISS).event 0x21C 1).sensorRecord n 5 none).dropOthers n none

/-- The valid inputs in effect, ascending. -/
def State.validInputs (s : State) : List Nat := (List.range 16).filter (fun n => bit (s.inCtl n) 0)

/-- The group of an input in effect: 8 and above none. -/
def State.inGroup (s : State) (n : Nat) : Nat := bits (s.effReg (Reg.ALIGN_IN_GROUP n)) 3 0

/-- The alignment of group g (R220). -/
def State.alignGroup (s : State) (g : Nat) : State :=
  let ms := s.validInputs.filter (fun n => s.inGroup n == g)
  let withOne := ms.filter (fun n => !(s.sensor n).candidates.isEmpty)
  let anchor := match withOne.find? (fun n => bit (s.effReg (Reg.ALIGN_IN_GROUP n)) 4) with
    | some n => some n
    | none => withOne.head?
  match anchor with
  | none => ms.foldl (fun (a : State) n => a.sensorRecord n 5 none) s
  | some a0 =>
    match latest (s.sensor a0).candidates with
    | none => s
    | some f => ms.foldl (fun (a : State) n => a.alignMember f.stamp (bits (s.reg (Reg.ALIGN_GRP_WINDOW g)) 15 0) n) s

/-- An input without a group selects its latest candidate (R220). -/
def State.alignSingle (s : State) (n : Nat) : State :=
  let f := latest (s.sensor n).candidates
  (s.sensorRecord n 4 f).dropOthers n f

/-- CSI_CUTOFF (R16, R220): groups in order, then the inputs without a group; candidates of inputs no longer valid go back. -/
def execCsiCutoff (i : EntryIx) (s : State) : Out :=
  done (match s.entryFor i.val 0x20 0x20 9 with
    | none => s
    | some _ =>
      let s1 := (List.range 8).foldl (fun (a : State) g => a.alignGroup g) s
      let s2 := (s.validInputs.filter (fun n => decide (8 ≤ s.inGroup n))).foldl (fun (a : State) n => a.alignSingle n) s1
      ((List.range 16).filter (fun n => !s.validInputs.contains n)).foldl (fun (a : State) n => a.dropOthers n none) s2)

end Sys2Proof.Machine
end

