-- ==== Sys2Proof/Machine/Interrupts.lean ====
section
/-!
DEFINITION. The interrupt controller's commands (R326 to R334).
-/
namespace Sys2Proof.Machine

/-- The number of a target: false the host page, true the MGC page. -/
def targetNo (t : Bool) : Nat := if t then 1 else 0

/-- The value that a read of CLAIM returns (R329). -/
def State.claimValue (s : State) (t : Nat) : Word :=
  match (s.target t).active with
  | some n => BitVec.ofNat 32 (n + 0x300)
  | none =>
    match s.winner t (s.target t).idle with
    | some n => BitVec.ofNat 32 (n + 0x100)
    | none => 0

/-- Take the pending state of a P or E source (R327, R329). -/
def State.takePending (s : State) (n : Nat) : State :=
  if n = 0 then { s with icu := { s.icu with pulse0 := false } }
  else if 240 ≤ n ∧ n ≤ 247 then
    { s with icu := { s.icu with edges := s.icu.edges &&& ~~~(BitVec.ofNat 8 (2 ^ (n - 240))) } }
  else s

/-- Source n becomes the target's active source; its group's hold-off timer starts (R329, R330). -/
def State.makeActive (s : State) (t n : Nat) : State :=
  let g := n / 16
  let x := s.target t
  let m : BitVec 16 := BitVec.ofNat 16 (2 ^ g)
  let run := if bits (s.reg (rkey (8 + t) (0x180 + 4 * g))) 15 0 = 0 then x.running &&& ~~~m else x.running ||| m
  ((s.setTarget t { x with active := some n, running := run }).takePending n).tally (Reg.ICU_CLAIMS t)

/-- The side effect of the owner's read of CLAIM (R329, R331). -/
def State.claim (s : State) (t : Nat) : State :=
  let s1 :=
    match (s.target t).active with
    | some _ => s
    | none =>
      match s.winner t (s.target t).idle with
      | some n => s.makeActive t n
      | none => s
  if t = 0 then (s1.setTarget 0 { s1.target 0 with idle := false }).setReg (Reg.ICU_HOST_IDLE 0) 0 else s1

/-- CLAIM (R329, R414). -/
def execClaim (m : Master) (t : Bool) (s : State) : Out :=
  done (s.readGate m (8 + targetNo t) (s.claimValue (targetNo t)) (fun x => x.claim (targetNo t)))

/-- The effect of COMPLETE (R329). -/
def State.complete (s : State) (t : Nat) (v : Word) : State :=
  if (s.target t).active = some (bits v 7 0) then s.setTarget t { s.target t with active := none }
  else (s.tally (Reg.ICU_COMPLETE_IGNORED t)).event (8 + t) 1

/-- COMPLETE (R329). -/
def execComplete (m : Master) (t : Bool) (v : Word) (s : State) : Out :=
  done (s.gate m (8 + targetNo t) (fun x => x.complete (targetNo t) v))

/-- HOST_IDLE (R331). -/
def execHostIdle (m : Master) (v : Word) (s : State) : Out :=
  done (s.gate m 0x008 (fun t =>
    (t.setReg (Reg.ICU_HOST_IDLE 0) (v &&& 1)).setTarget 0 { t.target 0 with idle := bit v 0 }))

/-- HOLDOFF_EXPIRY (R330). -/
def execHoldoffExpiry (t : Bool) (g : Fin 16) (s : State) : Out :=
  let x := s.target (targetNo t)
  done (s.setTarget (targetNo t) { x with running := x.running &&& ~~~(BitVec.ofNat 16 (2 ^ g.val)) })

/-- EDGE_LATCH (R332). -/
def execEdgeLatch (src : Fin 8) (s : State) : Out := done (s.edge src.val)

/-- The host page at its reset values (R333). -/
def State.resetHostTarget (s : State) : State :=
  { s.resetPages (fun p => p == 0x008) with icu := { s.icu with host := {} } }

end Sys2Proof.Machine
end

