-- ==== Sys2Proof/Machine/Reset.lean ====
section
/-!
DEFINITION. The reset classes and the boot sequence (R68, R324, R333, R364, R368, R371 to R373, R421).
-/
namespace Sys2Proof.Machine

/-- The pages of intake, flow, demultiplexer, evidence, alignment, proxy, TAU and sheet (R371). -/
def streamPages (p : Nat) : Bool := [0x200, 0x201, 0x202, 0x204, 0x21C, 0x21D, 0x220, 0x221].contains p

/-- Intake, flow, demultiplexer, alignment, proxy, evidence, sheet ring and holdback, TAU are reset (R371), and what the
media units had of the tick. -/
def State.resetStreams (s : State) : State :=
  let s := (List.range 14).foldl (fun (a : State) u => a.unitRests (u + 8) (s.domOn (u + 8))) s
  { s.resetPages streamPages with
    streams := [], intake := {}, sessions := [], sensors := [], vds := [], pps := [], ves := []
    tau := {}, sheet := { snapshot := dropPages streamPages s.sheet.snapshot }, keeps := []
    eth := { s.eth with newSources := [] } }

/-- The fields of a stall's page that the MGC sets from a bank header (R53). -/
def stallBankOffsets : List Nat := [0x100, 0x104, 0x108, 0x10C, 0x110, 0x118, 0x11C, 0x124, 0x12C]

/-- A register that an empty ledger shows at its reset value (R33, R52, R53, R291, R371). -/
def ledgerShown (k : Nat) : Bool :=
  [Reg.LEDGER_ACTIVE, Reg.LEDGER_BANK_STATE, Reg.LEDGER_SWITCH_REQ, Reg.LEDGER_HALT, Reg.TICK_PERIOD_US, Reg.TICK_HORIZON,
   Reg.LOADER_STATUS, Reg.LOADER_BUNDLE_ID_A, Reg.LOADER_BUNDLE_ID_B,
   Reg.SHARED_MEDIA_RATE_BUNDLE, Reg.SHARED_MEDIA_DEPTH, Reg.SHARED_HDMA_RATE_BUNDLE, Reg.SHARED_HDMA_DEPTH,
   Reg.SHARED_TAU_RATE_BUNDLE, Reg.SHARED_TAU_DEPTH,
   Reg.BPM_WARN_MAP_LO, Reg.BPM_WARN_MAP_HI, Reg.BPM_BP_MAP_LO, Reg.BPM_BP_MAP_HI].contains k ||
  (decide (0x018 ≤ keyPage k) && decide (keyPage k ≤ 0x01F) && stallBankOffsets.contains (keyOff k))

/-- Ledger banks EMPTY, pools destroyed, stalls unused, a load in progress lost (R68, R290, R371). -/
def State.resetLedger (s : State) : State :=
  { s with
    regs := s.regs.filter (fun e => !ledgerShown e.1)
    eff := []
    ledger := {}, stalls := [], pools := [], loader := {}
    fabric := { s.fabric with buckets := [] } }

/-- The endpoint and configuration space reset (R324): PME bits as `keepPme` says. -/
def State.resetEndpoint (s : State) (keepPme keepLink : Bool) : State :=
  let link := s.reg Reg.ENDPOINT_LINK
  let s1 := s.resetPages (fun p => p == 0x400 || p == 0x401)
  let s2 := if keepLink then s1.setReg Reg.ENDPOINT_LINK link else s1
  { s2 with ep := {
      pmeEn := keepPme && s.ep.pmeEn, pmeStatus := keepPme && s.ep.pmeStatus, wakeLow := keepPme && s.ep.wakeLow
      perst := s.ep.perst, supplyHold := s.ep.supplyHold, l2 := keepPme && s.ep.l2 } }

/-- BOOT.STATE[6:4]: the last reset class, in the order of R371. -/
def State.setResetClass (s : State) (c : Nat) : State := s.bootShows (s.setField Reg.BOOT_STATE 6 4 c)

/-- What hot reset and FLR share (R371): clusters off, banks empty, streams reset, an update cancelled. -/
def State.resetFunction (s : State) : State :=
  let s1 := (s.cancelUpdate.resetLedger).resetStreams
  (List.range 8).foldl (fun (a : State) c => if a.domTarget c = 0 then a else
    ({ a with power := { a.power with moving := mapDel c a.power.moving, queued := mapDel c a.power.queued } }).domainOff c) s1

/-- HOT_RESET (R324, R371). -/
def execHotReset (s : State) : Out :=
  done ((((s.resetFunction.resetEndpoint false false).resetHostTarget).setResetClass 3))

/-- FLR (R324, R371): configuration requests get retry status until the function is ready. -/
def execFlr (s : State) : Out :=
  let s1 := ((s.resetFunction.resetEndpoint false true).resetHostTarget).setResetClass 4
  done { s1 with ep := { s1.ep with flr := true } }

/-- What PERST# does while it is asserted (R324, R371, R373). -/
def State.perstActs (s : State) : State :=
  let s1 := (s.interruptCmd.resetLedger).resetStreams
  let s2 := (List.range 29).foldl (fun (a : State) d => a.domainOff d) s1
  let s3 := s2.resetPages (fun p => (decide (0x300 ≤ p) && decide (p ≤ 0x310)) || (decide (0x501 ≤ p) && decide (p ≤ 0x505)))
  let s4 := if s3.followed < 2 then s3.holdover else s3
  let s5 := (((s4.setReg Reg.POWER_REQ0 0).setReg Reg.POWER_REQ1 0).setReg Reg.TICK_CORR_S 0).setReg Reg.SECURITY_QUOTE_STATE 0
  let s6 := { s5 with
    power := { s5.power with moving := [], queued := [], clearing := [], tripped := false, tripLow := false, deepIdle := false }
    eth := {}, drams := s5.drams.map (fun (e : Nat × Dram) => (e.1, { epoch := e.2.epoch }))
    tsu := { s5.tsu with gmA := 0, gmB := 0 }
    sec := { s5.sec with running := none, runSvn := 0, runSlot := 0, half := false, identity := false
                         updLatched := false, quoteHead := [], quote := [], fwHash := 0 } }
  let s7 := s6.resetEndpoint true false
  ({ s7 with ep := { s7.ep with perst := true } }.syncSec).syncThermal

/-- PERST_ASSERT (R371). After a supply left its range the pin is asserted now, and its release will be obeyed (R421). -/
def execPerstAssert (s : State) : Out :=
  let s1 := s.perstActs.setResetClass 2
  done ({ s1 with ep := { s1.ep with supplyHold := false } }.edge 2)

/-- The ROM restarts (R364, R368): FIO, ROM_INIT, an interrupted wipe completed, fuses and lifecycle state read. -/
def State.romRestart (s : State) : State :=
  let s1 := if s.sec.wiping then s.wipeEnds else s
  let s2 := { s1 with
    icu := { s1.icu with onFclk := false }
    sec := { s1.sec with lcBoot := BitVec.ofNat 2 s1.lcFused, pendingLc := false } }
  (s2.setBoot 0).syncSec

/-- PERST_DEASSERT (R320, R333, R368): what is held until the deassertion is reset, and the boot sequence restarts. While a
supply holds the device as under PERST#, the pin is not asserted and nothing is released (R421). -/
def execPerstDeassert (s : State) : Out :=
  done (if s.ep.perst = false ∨ s.ep.supplyHold = true then s
  else
    let s1 := { s with ep := { s.ep with perst := false, pmeEn := false, pmeStatus := false, wakeLow := false, l2 := false } }
    (s1.resetHostTarget.romRestart).edge 3)

/-- POWER_ON_RESET (R335, R368, R371, R373): everything but the fuses is reset, stores are cleared, DRAM is undefined; the
strap I2C_A is sampled. The commands that wait stay, as do the model's own records. -/
def execPowerOnReset (strap : BitVec 2) (s : State) : Out :=
  let x := s.interruptCmd
  let f := x.sec.fuses
  let s1 : State := {
    drams := s.drams.map (fun (e : Nat × Dram) => (e.1, { epoch := e.2.epoch + 1 }))
    sec := { fuses := f, strap := strap }
    egress := x.egress, freeCtr := x.freeCtr, pending := s.pending }
  let s2 := (List.range 8).foldl (fun (a : State) c =>
    if (mapGet s.drams c).isSome then a else a.setDram c { epoch := 1 }) s1
  let s3 := if f.gradeI then
      (((s2.setReg Reg.CHIP_CHIP_ID 0x01106410).setReg Reg.THERMAL_T_CLAMP1 0x06400610).setReg
        Reg.THERMAL_T_CLAMP3 0x06900670).setReg Reg.THERMAL_T_TRIP 0x00000730
    else s2
  let s4 := s3.setField Reg.BOOT_STATE 9 8 strap.toNat
  done ((s4.setClearState 0x31A true false).romRestart.setResetClass 1)

/-- SUPPLY_OUT_OF_RANGE (R421): as though PERST# were asserted, until it has been asserted and deasserted. -/
def execSupplyOutOfRange (s : State) : Out :=
  done (if s.ep.perst then s
  else
    let s1 := s.perstActs.setResetClass 2
    { s1 with ep := { s1.ep with supplyHold := true } })

/-- Boot step 7 (R368): with the PLLs locked and the link in DL_Active the window for firmware opens. -/
def State.openWindow (s : State) : State :=
  if s.bootCode = 0 ∧ s.icu.onFclk = true ∧ bit (s.reg Reg.ENDPOINT_LINK) 8 = true then s.setBoot 1 else s

/-- PLL_LOCK (R364, R368): the time PLL counts local time, the fabric PLL clocks MGC, ICU and I2C target; by then the clear
of the always-on stores that power-on reset began has ended (R292). -/
def execPllLock (s : State) : Out :=
  let s1 := { s with icu := { s.icu with onFclk := true }, tsu := { s.tsu with running := true } }
  let s2 := if bit (s1.reg (Reg.STORE_CLEAR_STATE 0x31A)) 1 then s1 else (s1.setClearState 0x31A false true).event 0x31A 2
  done s2.openWindow

/-- DL_ACTIVE (R323, R325, R368). -/
def execDlActive (rate : BitVec 3) (width : BitVec 4) (s : State) : Out :=
  done (if s.ep.perst then s
  else
    let s1 := s.setReg Reg.ENDPOINT_LINK (BitVec.ofNat 32 (rate.toNat + 16 * width.toNat + 256))
    { s1 with ep := { s1.ep with l2 := false } }.openWindow)

/-- A reset of one stall (R372). -/
def State.stallReset (s : State) (st : Nat) : State :=
  (((s.teardownStall st).setStall st { (s.teardownStall st).stall st with resetPending := false }).tally Reg.BOOT_STALL_RESET).setResetClass 5

/-- The page of a resettable unit (R372). -/
def unitPages (u p : Nat) : Bool :=
  if 0x10 ≤ u ∧ u ≤ 0x17 then p == pageVd (u - 0x10)
  else if u = 0x18 ∨ u = 0x19 then p == pageVe (u - 0x18)
  else if 0x1A ≤ u ∧ u ≤ 0x1D then p == pagePp (u - 0x1A)
  else if u = 0x1E then p == 0x220
  else if u = 0x20 then decide (0x218 ≤ p) && decide (p ≤ 0x21C)
  else if u = 0x21 then p == 0x202
  else false

/-- The internal state of a resettable unit cleared (R372). -/
def State.clearUnit (s : State) (u : Nat) : State :=
  if 0x10 ≤ u ∧ u ≤ 0x17 then s.setVd (u - 0x10) {}
  else if u = 0x18 ∨ u = 0x19 then s.setVe (u - 0x18) {}
  else if 0x1A ≤ u ∧ u ≤ 0x1D then s.setPp (u - 0x1A) {}
  else if u = 0x1E then { s with tau := {} }
  else if u = 0x20 then { s with sensors := [] }
  else if u = 0x21 then { s with streams := s.streams.map (fun (e : Nat × Stream) => (e.1, { e.2 with openAu := none })) }
  else s

/-- The unit code is one that a unit reset reaches (R372). -/
def unitResettable (u : Nat) : Bool := (decide (0x10 ≤ u) && decide (u ≤ 0x1E)) || u == 0x20 || u == 0x21

/-- A reset of one unit (R372); UNIT codes 0x10 to 0x1D stand for domains 8 to 21. A code of no such unit names nothing. -/
def State.unitReset (s : State) (u : Nat) : State :=
  if unitResettable u then
    let d := u - 8
    ((((s.clearUnit u).resetPages (unitPages u)).unitRests d (s.domOn d)).tally Reg.BOOT_UNIT_RESET).setResetClass 6
  else s

/-- A stall or unit reset takes effect at once: no bank is active, or the device is halted (R372). -/
def State.resetNow (s : State) : Bool := !s.bankActive || s.haltStage == 2

/-- RST_STALL (R372). -/
def execRstStall (m : Master) (v : Word) (s : State) : Out :=
  done (s.gate m 0x003 (fun t =>
    (maskChannels (bits v 7 0)).foldl (fun (a : State) st =>
      if t.resetNow then a.stallReset st else a.setStall st { a.stall st with resetPending := true }) t))

/-- RST_UNIT (R372). -/
def execRstUnit (m : Master) (v : Word) (s : State) : Out :=
  done (s.gate m 0x003 (fun t =>
    if bit v 31 = false then t
    else if t.resetNow then t.unitReset (bits v 7 0)
    else { t with ledger := { t.ledger with unitResets := t.ledger.unitResets ++ [bits v 7 0] } }))

/-- The Reset step of R26 applies the resets that wait (R372). -/
def State.applyResets (s : State) : State :=
  let s1 := (List.range 8).foldl (fun (a : State) st => if (a.stall st).resetPending then a.stallReset st else a) s
  let us := s1.ledger.unitResets
  us.foldl (fun (a : State) u => a.unitReset u) { s1 with ledger := { s1.ledger with unitResets := [] } }

end Sys2Proof.Machine
end

