-- ==== Sys2Proof/Machine/Services.lean ====
section
/-!
DEFINITION. The background services and keeping in service (R393 to R406): SRAM scrub, test requests and MAINT entries, the
requests to take units and engines out or bring them back.
-/
namespace Sys2Proof.Machine

/-- A bank that the scrub visits (R394): its units, bytes of a unit, and the store's address of unit u; none for an engine
store. -/
structure ScrubBank where
  count : Nat
  bytes : Nat
  place : Nat → Option Ptr

/-- The geometry of the banks (R274, R275, R394). -/
def scrubBank (b : Nat) : Option ScrubBank :=
  if b < 256 then
    some { count := 2048, bytes := 128
           place := fun u => some { store := .spad (Fin.ofNat 8 (b / 32)), addr := u * 4096 + b % 32 * 128 } }
  else if b < 896 then
    some { count := if (b - 256) % 10 = 4 ∨ (b - 256) % 10 = 5 then 512 else 1024, bytes := 64, place := fun _ => none }
  else if b < 960 then
    some { count := 12288, bytes := 64, place := fun u => some { store := .common, addr := u * 4096 + (b - 896) * 64 } }
  else if b < 976 then
    some { count := 8192, bytes := 64, place := fun u => some { store := .video, addr := u * 1024 + (b - 960) * 64 } }
  else if b < 980 then
    some { count := 8192, bytes := 64, place := fun u => some { store := .mgcMem, addr := u * 256 + (b - 976) * 64 } }
  else if b < 982 then
    some { count := 2048, bytes := 64, place := fun u => some { store := .secure, addr := u * 128 + (b - 980) * 64 } }
  else none

/-- Store code of UE_ADDR for an engine's bank (R70, R96): input buffer, weight FIFO, accumulator. -/
def engineStore (b : Nat) : Nat :=
  let k := (b - 256) % 10
  if k < 4 then 0 else if k < 6 then 1 else 2

/-- The bank's scrub runs: its domain is on, and no wipe runs in the secure store (R393, R395). -/
def State.scrubRuns (s : State) (b : Nat) : Bool :=
  (match bankDomain b with
   | some d => s.domOn d
   | none => true) && !(decide (980 ≤ b) && s.sec.wiping)

/-- A word that the scrub has read (R395): a corrected one waits for its write-back, an uncorrectable one is left as it is. -/
def State.scrubWord (s : State) (b : Nat) (st : Store) (k : Nat) : State :=
  match mapGet s.upsets k with
  | none => s
  | some x =>
    if upsetBad x then s.storeError st k true
    else
      let s1 := (s.storeError st k false).tally Reg.SERVICE_SCRUB_CE
      { s1 with svc := { s1.svc with writeback := mapIns k b s1.svc.writeback } }

/-- A job uses the engines of a cluster. -/
def State.clusterBusy (s : State) (c : Nat) : Bool :=
  match s.clusterStall c with
  | some st => (s.stall st).slot.isSome
  | none => false

/-- Word index in an engine's store (R93, R96, R394) of a word of unit u of a bank: 64-bit words of the input buffer and the weight
FIFO, 32-bit entries of the accumulator memory, each store's banks one after another. -/
def engineWord (b u a : Nat) : Nat :=
  let k := (b - 256) % 10
  if k < 4 then 8192 * k + 8 * u + a % 8 else if k < 6 then 4096 * (k - 4) + 8 * u + a % 8 else 16384 * (k - 6) + 16 * u + a % 16

/-- An error that the scrub finds in an engine store (R93, R395): a corrected word waits for its write-back under a number
that no byte has. An uncorrectable one faults no job: where no job uses the engine the word is cleared, otherwise it is
recorded and left until a pass or drain reads it or the slot ends. -/
def State.scrubEngine (s : State) (b u : Nat) (e : SoftError) : State :=
  let m := (b - 256) / 10
  let st := engineStore b
  let ix := engineWord b u e.place.addr
  if upsetBad e.kind then
    let s1 := (s.tally (Reg.MX_STORE_UE m)).event (pageMx m) 1
    let s2 := s1.setEngine m { s1.engine m with bad := (s1.engine m).bad ++ [(st, ix)] }
    if s.clusterBusy (m / 8) then s2.setReg (Reg.MX_UE_ADDR m) (storeWord st ix) else s2.clearBad m
  else
    let s1 := ((s.tally (Reg.MX_STORE_CE m)).setReg (Reg.MX_CE_ADDR m) (storeWord st ix)).tally Reg.SERVICE_SCRUB_CE
    { s1 with svc := { s1.svc with writeback := mapIns (2 ^ 40 + b) b s1.svc.writeback } }

/-- SCRUB_DUE (R394, R395): the bank reads the unit at its pointer. -/
def execScrubDue (bank : Nat) (soft : List SoftError) (s : State) : Out :=
  done (match scrubBank bank with
    | none => s
    | some g =>
      if s.scrubRuns bank = false then s
      else
        let u := mapGetD s.svc.scrub bank 0
        let wrap := decide (g.count ≤ u + 1)
        let s1 := { s with svc := { s.svc with scrub := tblSet 0 bank (if wrap then 0 else u + 1) s.svc.scrub } }
        let s2 := if wrap then s1.tally Reg.SERVICE_SCRUB_PASS else s1
        match g.place u with
        | none => soft.foldl (fun (a : State) e => a.scrubEngine bank u e) s2
        | some p => (s2.units p g.bytes).foldl (fun (a : State) k => a.scrubWord bank p.store k) (s2.addSoft soft))

/-- A foreground write came before the write-back of a corrected word (R395): it has taken the error with it. Of an engine's bank the
command says so, for no access to one is a command. -/
def State.overwritten (s : State) (cancelled : Bool) (k : Nat) : Bool :=
  if k < 2 ^ 40 then (mapGet s.upsets k).isNone else cancelled

/-- SCRUB_WRITEBACK (R395): the corrected words go back, but for those that a foreground write came first to. -/
def execScrubWriteback (bank : Nat) (cancelled : Bool) (s : State) : Out :=
  let mine := (s.svc.writeback.filter (fun e => e.2 == bank)).map Prod.fst
  let s1 := { s with svc := { s.svc with writeback := s.svc.writeback.filter (fun e => e.2 != bank) } }
  done ({ s1 with upsets := s1.upsets.filter (fun e => !mine.contains e.1) }.count Reg.SERVICE_SCRUB_CANCEL
    (mine.filter (s.overwritten cancelled)).length)

/-- The kind of a test's target: engines for TEST 1 and 2, a scratchpad, a unit (R400). -/
def testKind (t : Nat) : Nat := if t = 1 ∨ t = 2 then 0 else if t = 3 then 1 else 2

/-- Two requests are for one target. -/
def sameTarget (a b : MtEntry) : Bool := testKind a.test == testKind b.test && a.target == b.target

/-- A test's bound in ECLK (R400, R401): a VCLK counts as 1.5 ECLK. -/
def testBound (t target : Nat) : Nat :=
  if t = 1 then 3150000
  else if t = 2 then 337500
  else if t = 3 then 4800000
  else if target < 0x18 then 1800000
  else if target < 0x1A then 1500000
  else 600000

/-- The queue's entry q. -/
def State.mtEntry (s : State) (q : Nat) : Option MtEntry := s.svc.queue[q]?

/-- Pending requests (R406). -/
def State.mtPending (s : State) : Nat := (s.svc.queue.filter (fun e => e.result == 0)).length

/-- MT_STATE, SVC_OUT and SVC_REJOIN follow the service's state. -/
def State.syncSvc (s : State) : State :=
  ((s.setReg Reg.SERVICE_MT_STATE (BitVec.ofNat 32 s.mtPending)).setReg Reg.SERVICE_SVC_OUT (s.svc.out.setWidth 32)).setReg
    Reg.SERVICE_SVC_REJOIN (s.svc.rejoin.setWidth 32)

/-- Set the queue. -/
def State.setQueue (s : State) (q : List MtEntry) : State := ({ s with svc := { s.svc with queue := q } }).syncSvc

/-- A new request's place: the first entry whose request has ended, or a new one while there are fewer than 16. -/
def mtPlace (q : List MtEntry) : Option Nat :=
  if q.length < 16 then some q.length else q.findIdx? (fun e => decide (2 ≤ e.result))

/-- MT_REQ (R401). -/
def execMtReq (m : Master) (v : Word) (s : State) : Out :=
  done (s.gate m 0x00A (fun t =>
    let q := t.svc.queue
    let e : MtEntry := { test := bits v 2 0, target := bits v 15 8, result := 0, failAddr := none
                         order := (q.map MtEntry.order).foldl max 0 + 1 }
    if q.any (fun x => x.result == 0 && x.test == e.test && x.target == e.target) then t
    else
      match mtPlace q with
      | none => t.drop 0x00A
      | some i => t.setQueue (if i < q.length then q.set i e else q ++ [e])))

/-- A request ends with a result (R403). -/
def State.mtEnd (s : State) (q r : Nat) (fail : Option Nat) : State :=
  match s.mtEntry q with
  | none => s
  | some e => (s.setQueue (s.svc.queue.set q { e with result := r, failAddr := fail, taken := false })).event 0x00A 1

/-- MT_CANCEL (R403): pending requests end as cancelled; a running test is not cancelled, one that waits in a slot is not
running. -/
def execMtCancel (m : Master) (v : Word) (s : State) : Out :=
  done (s.gate m 0x00A (fun t =>
    (if bit v 31 then List.range 16 else [bits v 3 0]).foldl (fun (a : State) q =>
      match a.mtEntry q with
      | some e => if e.result = 0 then a.mtEnd q 4 none else a
      | none => a) t))

/-- The domain of a test's target is on. -/
def State.targetOn (s : State) (e : MtEntry) : Bool :=
  if testKind e.test = 0 then s.domOn (e.target / 8)
  else if testKind e.test = 1 then s.domOn e.target
  else s.domOn (if e.target < 0x18 then 8 + (e.target - 0x10) else if e.target < 0x1A then 16 + (e.target - 0x18) else 18 + (e.target - 0x1A))

/-- A test starts (R402, R403). -/
def State.testStart (s : State) (q : Nat) : State :=
  match s.mtEntry q with
  | none => s
  | some e =>
    let s1 := (s.setQueue (s.svc.queue.set q { e with result := 1 })).tally Reg.SERVICE_MT_RUN
    if e.test = 3 then
      match s1.clusterStall e.target with
      | some st => s1.teardownStall st
      | none => s1
    else s1

/-- The taken requests whose target runs no test, one for each target, in queue order. -/
def startable (q : List MtEntry) : List Nat :=
  let ready := q.zipIdx.filter (fun x => x.1.taken && x.1.result == 0 && !q.any (fun y => y.result == 1 && sameTarget x.1 y))
  (ready.filter (fun x => ready.all (fun y => !sameTarget x.1 y.1 || decide (x.1.order ≤ y.1.order)))).map Prod.snd

/-- Start every test that can start. -/
def State.startTests (s : State) : State := (startable s.svc.queue).foldl (fun (a : State) q => a.testStart q) s

/-- One pending request at a slot's start (R401): `used` holds the ECLK that each target's earlier requests take. -/
def mtTake (budget : Nat) (q : List MtEntry) (acc : List (MtEntry × Nat) × List (Nat × Bool)) (ix : Nat) :
    List (MtEntry × Nat) × List (Nat × Bool) :=
  match q[ix]? with
  | none => acc
  | some e =>
    let before := ((acc.1.filter (fun x => sameTarget x.1 e)).map Prod.snd).sum
    let b := testBound e.test e.target
    if before + b ≤ budget then (acc.1 ++ [(e, b)], acc.2 ++ [(ix, true)]) else (acc.1, acc.2 ++ [(ix, false)])

/-- The indices of the queue in its order. -/
def queueOrder (q : List MtEntry) : List Nat :=
  ((q.zipIdx.map (fun x => (x.1.order, x.2))).foldl (fun (t : Tbl Nat) x => mapIns x.1 x.2 t) []).map Prod.snd

/-- A MAINT entry starts (R399, R401): the pending requests that its list holds and that fit are taken. -/
def State.maintStart (s : State) (e : Entry) : State :=
  let t := s.actionRead e.operand 4
  match s.actionWords e.operand 4 with
  | none => t
  | some hs =>
    let n := bits (wordAt hs 0) 6 0
    let t1 := t.actionRead (e.operand + 16) n
    match s.actionWords (e.operand + 16) n with
    | none => t1
    | some ws =>
      let q := s.svc.queue
      let listed := fun (x : MtEntry) => ws.any (fun w => bits w 2 0 == x.test && bits w 15 8 == x.target)
      let ixs := (queueOrder q).filter (fun i => match q[i]? with
        | some x => x.result == 0 && listed x && s.targetOn x
        | none => false)
      let r := (ixs.foldl (fun a i => mtTake (e.length * 1536 - 8) q a i) ([], [])).2
      let s1 := t1.setQueue (r.foldl (fun (a : List MtEntry) x => if x.2 then a.modify x.1 (fun y => { y with taken := true }) else a) q)
      (s1.count Reg.SERVICE_MT_NOFIT (r.filter (fun x => !x.2)).length).startTests

/-- STALL_MAINT_ENTRY (R399, R401, R402). -/
def execStallMaintEntry (i : EntryIx) (s : State) : Out :=
  done (match s.entryFor i.val 0 7 8 with
    | some e => s.maintStart e
    | none => s)

/-- MAINT_ENTRY: that of a decoder, encoder or pre-processing unit (R399 to R401). -/
def execMaintEntry (i : EntryIx) (s : State) : Out :=
  done (match s.entryFor i.val 0x10 0x1D 8 with
    | some e => s.maintStart e
    | none => s)

/-- A test leaves its target zeroed (R400). -/
def State.testClear (s : State) (e : MtEntry) : State :=
  if e.test = 3 then s.clearRange { store := .spad (Fin.ofNat 8 e.target), addr := 0 } 0x800000
  else if e.test = 4 then s.clearUnit e.target
  else
    { s with acc := s.acc.filter (fun x => decide (x.1 / (2048 * 32) ≠ e.target)) }.setEngine e.target {}

/-- MT_TEST_DONE (R400, R403): the result, and the target's next request of the slot. -/
def execMtTestDone (q : Fin 16) (passed : Bool) (failAddr : BitVec 23) (s : State) : Out :=
  done (match s.mtEntry q.val with
    | none => s
    | some e =>
      if e.result ≠ 1 then s
      else
        let s1 := s.testClear e
        let s2 := if passed then s1.mtEnd q.val 2 none
          else ((s1.mtEnd q.val 3 (if e.test = 2 ∨ e.test = 3 then some failAddr.toNat else none)).tally
            Reg.SERVICE_MT_FAIL).event 0x00A 2
        s2.startTests)

/-- SVC_UNIT (R404, R406): the last request for a unit before a Latch step governs. -/
def execSvcUnit (m : Master) (v : Word) (s : State) : Out :=
  done (s.gate m 0x00A (fun t =>
    let u := bits v 7 0
    if bit v 31 ∧ 0x10 ≤ u ∧ u ≤ 0x1D then
      { t with svc := { t.svc with unitReq := mapIns (u - 0x10) (bit v 8) t.svc.unitReq } }
    else t))

/-- ENGINE_SERVICE (R96, R404, R405): lock bit 0 holds the register. -/
def execEngineService (m : Master) (e : Fin 64) (v : Word) (s : State) : Out :=
  done (s.gate m (pageMx e.val) (fun t =>
    if t.locked (pageMx e.val) 0 then t.drop (pageMx e.val)
    else
      let t1 := t.setReg (Reg.MX_SERVICE e.val) (v &&& 1)
      { t1 with svc := { t1.svc with engReq := mapIns e.val (bit v 0) t1.svc.engReq } }))

end Sys2Proof.Machine
end

