-- ==== Sys2Proof/Machine/Switch.lean ====
section
/-!
DEFINITION. Switching ledger banks (R33 to R39, R45 to R47, R67, R214, R223, R239, R270, R290, R347, R359, R398, R403 to R405):
the refusals of a switch, and what an accepted one changes.
-/
namespace Sys2Proof.Machine

/-- The host caps as written (R47): media, host DMA, TAU, then each stall's DRAM and fabric regulator. -/
def State.capsWritten (s : State) : List Nat :=
  [Reg.SHARED_MEDIA_RATE, Reg.SHARED_HDMA_RATE, Reg.SHARED_TAU_RATE].map (fun k => bits (s.reg k) 15 0) ++
  (List.range 8).flatMap (fun st => [bits (s.reg (Reg.STALL_DRAM_RATE st)) 15 0, bits (s.reg (Reg.STALL_FAB_RATE st)) 15 0])

/-- The engines of a cluster in service (R404). -/
def State.inService (s : State) (c : Nat) : List Nat := (clusterEngines c).filter (fun e => !s.svc.engOut.getLsbD e)

/-- The engines of a cluster in service or in REJOIN (R405). -/
def State.usable (s : State) (c : Nat) : List Nat :=
  (clusterEngines c).filter (fun e => !s.svc.engOut.getLsbD e || s.svc.engRejoin.getLsbD e)

/-- A bank has an entry that names media unit u: 0 to 7 VD, 8 and 9 VE, 10 to 13 PP (R404). -/
def State.bankNamesUnit (s : State) (b : Bool) (u : Nat) : Bool := (s.bankEntries b).any (fun e => e.unit == 0x10 + u)

/-- SVC_BLOCK of the first unit or cluster for which a bank cannot be switched to (R405, R406). -/
def State.svcBlock (s : State) (b : Bool) : Option Nat :=
  match (List.range 14).find? (fun u => s.svc.out.getLsbD u && !s.svc.rejoin.getLsbD u && s.bankNamesUnit b u) with
  | some u => some (0x10 + u)
  | none =>
    ((List.range 8).find? (fun c =>
      decide ((s.usable c).length < 8) && decide ((s.usable c).length < s.engineNeed (s.bankSrc b) c))).map (fun c => 256 + c)

/-- A switch is refused (R34, R47, R359, R405): the valid bit clears, SWITCH_MISSED counts, a page event is raised. -/
def State.missSwitch (s : State) : State :=
  let t := ((s.setField Reg.LEDGER_SWITCH_REQ 1 1 0).tally Reg.LEDGER_SWITCH_MISSED).event 0x011 1
  { t with ledger := { t.ledger with firstNs := 0 } }

/-- The checks of a switch to bank b at its boundary: the state after a refusal, none where it is accepted (R34, R47, R359,
R405). `newPeriod`: another tick period is allowed (R22). -/
def State.switchRefused (s : State) (b newPeriod : Bool) : Option State :=
  if s.bankState b ≠ 2 then some s.missSwitch
  else if newPeriod = false ∧ bits (s.bankWord b 0x004) 17 0 ≠ s.regN Reg.TICK_PERIOD_US then some s.missSwitch
  else if s.bankDark b then some s.missSwitch
  else
    match s.svcBlock b with
    | some u => some (s.missSwitch.setReg Reg.SERVICE_SVC_BLOCK (BitVec.ofNat 32 (u + 2 ^ 31)))
    | none =>
      if s.capsFail (s.bankSrc b) ⟨s.capsWritten⟩ then some (s.missSwitch.setReg Reg.LEDGER_REFUSE_CODE 0x0406) else none

/-- The pools of a bundle, by number, created empty (R283, R290); a pool with a channel out of service is lost (R18). -/
def State.newPools (s : State) (b : Bundle) : Tbl Pool :=
  b.pools.foldl (fun (t : Tbl Pool) ws =>
    let p := poolOfRecord b.recs ws
    mapIns p.1 { p.2 with lost := decide (p.2.store = .dram) && (s.rangeChannels p.2.base (poolSize b.recs p.2)).any (fun c => decide (s.chanState c ≠ 1)) } t) []

/-- The region of a pool of a bundle, without the section that it names. -/
def poolRegion (b : Bundle) (p : Pool) : Option Region := (b.recs[p.region]?).map (fun r => { r with section_ := 0 })

/-- A pool is kept at a switch (R67, R290): definition and region record are identical. -/
def poolKept (old new : Bundle) (p q : Pool) : Bool :=
  decide (poolRegion old p = poolRegion new q) && decide (p.store = q.store ∧ p.base = q.base ∧ p.bufSize = q.bufSize ∧
    p.count = q.count ∧ p.warn = q.warn ∧ p.bp = q.bp ∧ p.bpMask = q.bpMask)

/-- The numbers of the pools that a switch from one bundle to another keeps. -/
def State.keptPools (s : State) (old new : Bundle) : List Nat :=
  (s.newPools new).filterMap (fun q =>
    match mapGet s.pools q.1 with
    | some p => if p.valid ∧ poolKept old new p q.2 then some q.1 else none
    | none => none)

/-- A buffer lies in a pool that is destroyed. -/
def State.bufGone (s : State) (kept : List Nat) (a : Ptr) : Bool :=
  match s.poolOf a with
  | some n => !kept.contains n
  | none => true

/-- A stream whose POOL named a destroyed pool returns to SYNC (R290); a last picture in one is forgotten. -/
def State.streamLosesPool (s : State) (kept : List Nat) (x : Nat) : State :=
  let gone := match s.planRec x with
    | some p => (mapGet s.pools p.pool).isSome && !kept.contains p.pool
    | none => false
  let s1 := if gone = true ∧ s.ctxState x ≠ 0 then s.setCtx 0 x 1 else s
  match (s1.stream x).lastOut with
  | some { buf := some b, .. } => if s.bufGone kept b then s1.setStream x { s1.stream x with lastOut := none } else s1
  | _ => s1

/-- A sensor input at a switch (R290): a capture in progress into a destroyed pool counts FRAME_BAD, and candidates in one are
gone with it. -/
def State.sensorLosesPool (s : State) (kept : List Nat) (n : Nat) : State :=
  let x := s.sensor n
  let y := { x with candidates := x.candidates.filter (fun f => !s.bufGone kept f.buf) }
  match x.openFrame with
  | some f =>
    if s.bufGone kept f.buf then
      ((s.tally (Reg.CSI_FRAME_BAD (inPort f.ctl))).event (pageCsi (inPort f.ctl)) 2).setSensor n { y with openFrame := none }
    else s.setSensor n y
  | none => s.setSensor n y

/-- The pools at a switch (R18, R67, R289, R290): kept ones with their owners, the others new and empty; nothing is counted, and a
bit of BP_MAP that rises is an event. -/
def State.switchPools (s : State) (new : Bundle) (kept : List Nat) : State :=
  let ps := (s.newPools new).map (fun q =>
    if kept.contains q.1 then (q.1, { (s.pool q.1) with region := q.2.region, lost := q.2.lost }) else q)
  let gone := (s.pools.map Prod.fst).filter (fun n => !kept.contains n)
  let t := gone.foldl (fun (a : State) n =>
    (a.setPoolBit Reg.BPM_WARN_MAP_LO n false).setPoolBit Reg.BPM_BP_MAP_LO n false) { s with pools := ps }
  ps.foldl (fun (a : State) q => if q.2.bpHolds then (if a.poolBit Reg.BPM_BP_MAP_LO q.1 then a else a.event 0x318 2).setPoolBit Reg.BPM_BP_MAP_LO q.1 true else a) t

/-- A stall of the new bank (R38, R39, R45, R53). -/
def State.switchStall (s : State) (r : Src) (st : Nat) : State :=
  let x := s.srcStall r st
  let old := s.reg (Reg.STALL_RESIDENT st)
  let keep := bit old 31 && bits old 15 0 == x.model && decide (x.clusters ≠ 0)
  let whole := (maskChannels x.pitch).all (fun c => decide (s.chanState c = 1))
  let s1 := s.setStall st { s.stall st with slot := none, loading := none }
  let put := fun (k v : Nat) (a : State) => a.setReg k (BitVec.ofNat 32 v)
  let s2 := put (Reg.STALL_CLUSTERS st) x.clusters (put (Reg.STALL_PITCH st) x.pitch (put (Reg.STALL_DRAM_RATE_BUNDLE st) x.dramRate
    (put (Reg.STALL_DRAM_DEPTH st) x.dramDepth (put (Reg.STALL_FAB_RATE_BUNDLE st) x.fabRate (put (Reg.STALL_FAB_DEPTH st) x.fabDepth s1)))))
  let s3 := if keep ∧ whole then s2 else s2.setReg (Reg.STALL_RESIDENT st) 0
  s3.setReg (Reg.STALL_STATE st) (if x.clusters = 0 then 0 else if whole then 1 else 2)

/-- The shared regulators of the new bank (R47, R52). -/
def State.switchShared (s : State) (r : Src) : State :=
  ([Reg.SHARED_MEDIA_RATE_BUNDLE, Reg.SHARED_MEDIA_DEPTH, Reg.SHARED_HDMA_RATE_BUNDLE, Reg.SHARED_HDMA_DEPTH,
    Reg.SHARED_TAU_RATE_BUNDLE, Reg.SHARED_TAU_DEPTH].zip (s.srcShared r)).foldl
    (fun (a : State) x => a.setReg x.1 (BitVec.ofNat 32 x.2)) s

/-- A key is a host cap's (R47). -/
def isCap (k : Nat) : Bool :=
  [Reg.SHARED_MEDIA_RATE, Reg.SHARED_HDMA_RATE, Reg.SHARED_TAU_RATE].contains k ||
  (decide (0x018 ≤ keyPage k) && decide (keyPage k ≤ 0x01F) && (keyOff k == 0x114 || keyOff k == 0x120) && keyBank k == 0)

/-- Join two register maps; on a key of both the first decides. -/
def joinRegs (a b : Tbl Word) : Tbl Word := a.foldl (fun (t : Tbl Word) e => mapIns e.1 e.2 t) b

/-- The written caps take effect, and every bucket of the bank's regulators is full (R46, R47). -/
def State.switchCaps (s : State) : State :=
  { s with
    eff := joinRegs (s.regs.filter (fun e => isCap e.1)) (s.eff.filter (fun e => !isCap e.1))
    fabric := { s.fabric with buckets := s.fabric.buckets.filter (fun e => decide (16 * 19 ≤ e.1)) } }

/-- The DESC and KEEP_IDX of a stream's records in the active bank are still those of a keep buffer (R214). -/
def State.keepNamed (s : State) (k : Nat × Nat × Nat) : Bool :=
  (List.range 4).any (fun v => (s.entriesOf s.actBank v).any (fun e =>
    decide (0x1A ≤ e.2.unit) && decide (e.2.unit ≤ 0x1D) && e.2.action == 4 &&
    (s.ppRecs e.2.operand).any (fun r => r.stream == k.1 && r.desc == k.2.1 && r.keepIx == k.2.2)))

/-- The track table records of the active bank: stream, TRACKS and T_MAX (R239). -/
def State.trackTables (s : State) : List (Nat × Nat × Nat) :=
  (List.range 4).flatMap (fun v => (s.entriesOf s.actBank v).flatMap (fun e =>
    if e.2.unit = 0x1E ∧ e.2.action = 6 then
      match s.tauPlan e.2.operand with
      | some p => p.streams.map (fun t => (t.stream, t.tracks, t.tMax))
      | none => []
    else []))

/-- What a cold switch ends (R35, R214, R237, R239), and what a warm one that changes a record ends. -/
def State.switchTracks (s : State) (cold : Bool) : State :=
  if cold then
    { s with
      keeps := []
      tau := { s.tau with init := [] }
      streams := s.streams.map (fun (e : Nat × Stream) => (e.1, { e.2 with trackEnd := 3 })) }
  else
    let tt := s.trackTables
    { s with
      keeps := s.keeps.filter s.keepNamed
      tau := { s.tau with init := s.tau.init.filter (fun e => tt.contains (e.1, e.2)) } }

/-- The proxy cache of the new bundle (R223, R229). -/
def State.switchProxy (s : State) : State :=
  let n := bits (s.reg Reg.PROXY_RECORDS) 15 0
  let f := bits (s.reg Reg.PROXY_FRAMES) 19 0
  let t := if s.proxyFits n f then s else (s.setReg Reg.PROXY_RECORDS 0).setReg Reg.PROXY_FRAMES 0
  (t.setReg Reg.PROXY_ENTRY (BitVec.ofNat 32 (match s.proxySize with
    | some (w, h) => proxyEntry w h
    | none => 0))).setReg Reg.PROXY_REGION_SIZE (BitVec.ofNat 32 (match s.proxyRegion with
    | some r => r.size
    | none => 0))

/-- A running session at a switch (R264, R270): `old` is its plan record under the old bank. With an identical record and its
pool kept it goes on; else its segment ends, and it goes on with an IDR if it is within the new limits, or ends. -/
def State.switchSession (s : State) (kept : List Nat) (old : Option SessPlan) (n : Nat) : State :=
  let x := s.session n
  let new := s.sessPlan n
  let lost := match old with
    | some p => !kept.contains p.refPool
    | none => true
  let s1 := if lost then s.setSession n { x with ref := none } else s
  if x.running = false then s1
  else if decide (old = new) && !lost then s1
  else
    let s2 := if (match old, new with
        | some p, some q => decide (p.stage = q.stage ∧ p.stageLen = q.stageLen)
        | _, _ => false) then s1
      else s1.setSession n { s1.session n with staged := [], stagePos := 0, lost := (s1.session n).lost || !x.staged.isEmpty }
    let c := s2.sessReason n x.cfg
    if c = 1 ∨ c = 3 then s2.endSession n 5
    else s2.setSession n { s2.session n with sinceIdr := 0 }

/-- The removals and rejoins of media units at a switch (R404, R405). -/
def State.switchUnit (s : State) (b : Bool) (u : Nat) : State :=
  let named := s.bankNamesUnit b u
  let m : BitVec 14 := BitVec.ofNat 14 (2 ^ u)
  if s.svc.unitWait.getLsbD u = true ∧ named = false then
    { s with svc := { s.svc with out := s.svc.out ||| m, rejoin := s.svc.rejoin &&& ~~~m, unitWait := s.svc.unitWait &&& ~~~m } }.tally
      Reg.SERVICE_SVC_APPLIED
  else if s.svc.rejoin.getLsbD u = true ∧ named = true then
    { s with svc := { s.svc with out := s.svc.out &&& ~~~m, rejoin := s.svc.rejoin &&& ~~~m } }.tally Reg.SERVICE_SVC_APPLIED
  else s

/-- An engine leaves while the bank's need for its cluster is met (R404). -/
def State.removeEngine (s : State) (need e : Nat) : State :=
  let m : BitVec 64 := BitVec.ofNat 64 (2 ^ e)
  if s.svc.engWait.getLsbD e = true ∧ need < (s.inService (e / 8)).length then
    { s with svc := { s.svc with engOut := s.svc.engOut ||| m, engWait := s.svc.engWait &&& ~~~m } }.tally Reg.SERVICE_SVC_APPLIED
  else s

/-- An engine in REJOIN is used again (R405). -/
def State.rejoinEngine (s : State) (e : Nat) : State :=
  let m : BitVec 64 := BitVec.ofNat 64 (2 ^ e)
  if s.svc.engRejoin.getLsbD e then
    { s with svc := { s.svc with engOut := s.svc.engOut &&& ~~~m, engRejoin := s.svc.engRejoin &&& ~~~m } }.tally
      Reg.SERVICE_SVC_APPLIED
  else s

/-- ROT of a cluster (R406). -/
def State.rot (s : State) (c : Nat) : Nat := bits (s.reg Reg.SERVICE_WEAR_ROT) (3 * c + 2) (3 * c)

/-- The logical engines of a cluster (R96, R398): logical l is the in-service engine at position (l + ROT) mod n. -/
def State.mapEngines (s : State) (c : Nat) : State :=
  let es := s.inService c
  let n := es.length
  (clusterEngines c).foldl (fun (a : State) e =>
    match es.findIdx? (fun x => x == e) with
    | some p =>
      let l := (p + n - s.rot c % n) % n
      a.setReg (Reg.MX_MAP e) (BitVec.ofNat 32 (e % 8 + 256 * l + (if l = 0 then 65536 else 0)))
    | none => a.setReg (Reg.MX_MAP e) (BitVec.ofNat 32 (e % 8))) s

/-- Wear rotation of a cluster that the new bank assigns (R398). -/
def State.wearRotate (s : State) (c : Nat) : State :=
  let n := (s.inService c).length
  let now := s.fullNs / 1000000000
  let due := bit (s.reg Reg.SERVICE_WEAR_CTL) 0 && decide ((s.cluster c).lastRot + 3600 ≤ now) && decide (n ≠ 0)
  let s1 := if due then
      ((s.setField Reg.SERVICE_WEAR_ROT (3 * c + 2) (3 * c) ((s.rot c + 1) % n)).setCluster c { s.cluster c with lastRot := now }).tally
        Reg.SERVICE_WEAR_ROTATE
    else s
  s1.mapEngines c

/-- One cluster at a switch (R398, R404, R405): removals and rejoins, then the rotation where the bank assigns the cluster. -/
def State.switchCluster (s : State) (r : Src) (c : Nat) : State :=
  let assigned := (s.srcClusterStall r c).isSome
  let waits := (clusterEngines c).filter (fun e => s.svc.engWait.getLsbD e)
  let s1 := if assigned then (clusterEngines c).foldl (fun (a : State) e => a.rejoinEngine e) s else s
  let s2 := if waits = [] then s1
    else
      let need := if assigned then s1.engineNeed r c else 0
      waits.foldl (fun (a : State) e => a.removeEngine need e) s1
  if assigned then s2.wearRotate c else s2

/-- A pending test request whose target is gone (R403): its cluster in no stall, or its unit out of every entry of both banks. -/
def State.targetGone (s : State) (e : MtEntry) : Bool :=
  if testKind e.test = 2 then !([false, true].any (fun b => s.bankCounts b && (s.bankEntries b).any (fun x => x.unit == e.target)))
  else (s.clusterStall (if testKind e.test = 0 then e.target / 8 else e.target)).isNone

/-- The test requests at a switch. -/
def State.switchTests (s : State) : State :=
  (List.range 16).foldl (fun (a : State) q =>
    match a.mtEntry q with
    | some e => if e.result = 0 ∧ a.targetGone e = true then a.mtEnd q 5 none else a
    | none => a) s

/-- A piece [lo, hi) of grains joins a list of disjoint rising pieces. -/
def mergePiece (lo hi : Nat) : List (Nat × Nat) → List (Nat × Nat)
  | [] => [(lo, hi)]
  | (a, b) :: r => if hi < a then (lo, hi) :: (a, b) :: r else if b < lo then (a, b) :: mergePiece lo hi r
      else mergePiece (min a lo) (max b hi) r

/-- AP_GUARD of R313 for the host-DMA regulator's effective RATE and DEPTH, in its eight bits. -/
def apGuard (rate depth : Nat) : Nat := if rate = 0 then 255 else min 255 (cdiv (depth * 10240) (rate * 12288))

/-- HOLD_MAX (R313): the longest run of grains of one tick, over the variants of the active bank, in which no BAR 2 request is
admitted. -/
def State.holdMax (s : State) (guard : Nat) : Nat :=
  let run := fun (v : Nat) =>
    (((s.entriesOf s.actBank v).filter (fun e => e.2.unit == 0x1F && !e.2.altOnly && decide (e.2.length ≠ 0))).foldl
      (fun l e => mergePiece (e.2.start - guard) (e.2.start + e.2.length) l) [])
  (((List.range 4).flatMap run).map (fun p => p.2 - p.1)).foldl max 0

/-- The aperture's figures at a switch (R313). -/
def State.switchAperture (s : State) : State :=
  let x := s.regulator .hostDma none
  let g := apGuard x.1 x.2.1
  (s.setReg Reg.APERTURE_AP_GUARD (BitVec.ofNat 32 g)).setReg Reg.APERTURE_HOLD_MAX (BitVec.ofNat 32 (s.holdMax g))

/-- Buffers that count as not staged stay so where the new bundle still has a region there (R42). -/
def State.switchStaging (s : State) : State :=
  { s with ledger := { s.ledger with
    unstaged := s.ledger.unstaged.filter (fun e => s.active.recs.any (fun r =>
      match s.flat r.ptr with
      | some k => decide (k ≤ e.1) && decide (e.1 < k + r.size)
      | none => false)) } }

/-- The register side of a switch to bank b (R33, R51 to R53): states, period, horizon, stalls, shared regulators. -/
def State.switchRegs (s : State) (b : Bool) : State :=
  let r := s.bankSrc b
  let s1 := (if s.bankActive then s.setBankState s.actBank 2 else s).setBankState b 3
  let s2 := s1.setReg Reg.LEDGER_ACTIVE ((s1.reg Reg.LEDGER_ACTIVE &&& 0xFFFFFFFC) ||| (if b then 3 else 2))
  let s3 := ((s2.setField Reg.LEDGER_SWITCH_REQ 1 1 0).setReg Reg.TICK_PERIOD_US (BitVec.ofNat 32 (bits (s.bankWord b 0x004) 17 0))).setReg
    Reg.TICK_HORIZON (BitVec.ofNat 32 (bits (s.bankWord b 0x008) 17 0))
  ((List.range 8).foldl (fun (a : State) st => a.switchStall r st) s3).switchShared r

/-- The switch is cold (R35): CARRY_IN of the new bank differs from CARRY_OUT of the active one, or none is active. -/
def State.switchCold (s : State) (b : Bool) : Bool := !s.bankActive || decide (s.bankWord b 0x01C ≠ s.bankWord s.actBank 0x020)

/-- A channel that is in service at a switch serves again what its freeze had taken from it (R18, R270). -/
def State.switchAway (s : State) : State :=
  (List.range 8).foldl (fun (a : State) c => if a.chanState c = 1 then a.setDram c { a.dram c with away := false } else a) s

/-- Bank b becomes the active one (R33 to R39, R290, R398). -/
def State.activateBank (s : State) (b : Bool) : State :=
  let cold := s.switchCold b
  let new := s.bundle b
  let kept := if s.bankActive then s.keptPools s.active new else []
  let plans := (List.range 16).map s.sessPlan
  let s1 := (s.streams.map Prod.fst).foldl (fun (a : State) x => a.streamLosesPool kept x) s
  let s2 := ((s1.sensors.map Prod.fst).foldl (fun (a : State) n => a.sensorLosesPool kept n) s1).switchPools new kept
  let s3 := (s2.switchRegs b).switchCaps
  let s4 := { s3 with ledger := { s3.ledger with coldTick := cold, firstNs := 0 } }
  let s5 := ((if cold then s4.tally Reg.LEDGER_COLD_SWITCH else s4).switchTracks cold).switchProxy
  let s6 := ((List.range 14).foldl (fun (a : State) u => a.switchUnit b u) s5).switchAway
  let s7 := (List.range 8).foldl (fun (a : State) c => a.switchCluster (s.bankSrc b) c) s6
  let s8 := plans.zipIdx.foldl (fun (a : State) p => a.switchSession kept p.1 p.2) s7
  (s8.switchTests.switchStaging.switchAperture.clustersOff).syncSvc

end Sys2Proof.Machine
end

