-- ==== Sys2Proof/Machine/Boundary.lean ====
section
/-!
DEFINITION. The tick event and the boundary sequence (R21 to R27, R34 to R37, R42, R43, R97, R189, R214, R222, R250, R258,
R347, R372, R383, R404), with the requests for a switch and a halt.
-/
namespace Sys2Proof.Machine

/-- A buffer counts as not staged (R42). -/
def State.markUnstaged (s : State) (dst : Option Ptr) (len stall : Nat) (streams : List Nat) : State :=
  match dst.bind s.flat with
  | some k => { s with ledger := { s.ledger with unstaged := mapIns k (stall, len, streams) s.ledger.unstaged } }
  | none => s

/-- Staging at grain H (R42): a run-on stops, and what waits for it does not start. -/
def State.cutStaging (s : State) : State :=
  let s1 := match s.ledger.staging with
    | some g => (s.markUnstaged g.dst g.len g.stall g.streams).tally Reg.LEDGER_STAGE_CUT
    | none => s
  let s2 := s.ledger.stagingWait.foldl (fun (a : State) x =>
    (a.markUnstaged (x.dst.map (s.relocate s.unitOdd)) x.len x.stall.val (x.streams.map Fin.val)).tally Reg.LEDGER_STAGE_CUT) s1
  { s2 with ledger := { s2.ledger with staging := none, stagingWait := [] } }

/-- The drain check (R26): every entry has ended by H. Access units that no decoder took end with OVER (R191). -/
def State.drainCheck (s : State) : State :=
  let s1 := (List.range 8).foldl (fun (a : State) st =>
    (a.endSlot st).setStall st { (a.endSlot st).stall st with loading := none }) s.cutStaging
  let s2 := (s1.streams.map Prod.fst).foldl (fun (a : State) x => a.overFrames x) s1
  let s3 := (s2.sessions.map Prod.fst).foldl (fun (a : State) n => a.dropSources n) s2
  { s3 with
    tau := { s3.tau with busy := false }
    intake := { s3.intake with pending := false, ready := false, active := false, want := [], spans := [] }
    vds := s3.vds.map (fun (e : Nat × Vd) => (e.1, { e.2 with walk := none }))
    pps := s3.pps.map (fun (e : Nat × Pp) => (e.1, { e.2 with walk := none }))
    ves := s3.ves.map (fun (e : Nat × Ve) => (e.1, { e.2 with walk := none })) }

/-- A media unit's request at a Latch step (R404, R405): a removal waits for a switch; a rejoin clears the unit. -/
def State.latchUnit (s : State) (u : Nat) (remove : Bool) : State :=
  let m : BitVec 14 := BitVec.ofNat 14 (2 ^ u)
  if remove then
    { s with svc := { s.svc with
      rejoin := s.svc.rejoin &&& ~~~m
      unitWait := if s.svc.out.getLsbD u then s.svc.unitWait else s.svc.unitWait ||| m } }
  else
    let t := { s with svc := { s.svc with unitWait := s.svc.unitWait &&& ~~~m } }
    if s.svc.out.getLsbD u then
      let t1 := t.unitReset (0x10 + u)
      { t1 with svc := { t1.svc with rejoin := t1.svc.rejoin ||| m } }
    else t

/-- An engine's request at a Latch step (R91, R404, R405). -/
def State.latchEngine (s : State) (e : Nat) (remove : Bool) : State :=
  let m : BitVec 64 := BitVec.ofNat 64 (2 ^ e)
  if remove then
    { s with svc := { s.svc with
      engRejoin := s.svc.engRejoin &&& ~~~m
      engWait := if s.svc.engOut.getLsbD e then s.svc.engWait else s.svc.engWait ||| m } }
  else
    let t := { s with svc := { s.svc with engWait := s.svc.engWait &&& ~~~m } }
    if s.svc.engOut.getLsbD e then
      ({ t with
        acc := t.acc.filter (fun x => decide (x.1 / (2048 * 32) ≠ e))
        svc := { t.svc with engRejoin := t.svc.engRejoin ||| m } }).setEngine e {}
    else t

/-- The requests to take units and engines out or bring them back are latched (R404). -/
def State.latchService (s : State) : State :=
  let s1 := s.svc.unitReq.foldl (fun (a : State) e => a.latchUnit e.1 e.2) s
  let s2 := s.svc.engReq.foldl (fun (a : State) e => a.latchEngine e.1 e.2) s1
  ({ s2 with svc := { s2.svc with unitReq := [], engReq := [] } }).syncSvc

/-- A register whose written value takes effect at a Latch step (R53, R199, R201, R217, R222, R242). -/
def isLatched (k : Nat) : Bool :=
  let p := keyPage k
  let o := keyOff k
  (p == 0x200 && [0x114, 0x118, 0x11C, 0x120].contains o) || (p == 0x21C && [0x104, 0x108, 0x10C].contains o) ||
  (p == 0x21D && o == 0x144) || (p == 0x221 && [0x100, 0x104, 0x108].contains o) ||
  (decide (0x018 ≤ p) && decide (p ≤ 0x01F) && o == 0x128 && keyBank k == 0)

/-- The input that names a stream in effect, with its settings (R217). -/
def State.inputNow (s : State) (x : Nat) : Option (Nat × Word × Word) :=
  ((List.range 16).find? (fun n => bit (s.inCtl n) 0 && inStream (s.inCtl n) == x)).map
    (fun n => (n, s.inCtl n, s.effReg (Reg.ALIGN_IN_SIZE n)))

/-- The streams that a change of latched registers may concern: those of contexts and pass modes, and of sensor inputs. -/
def latchedStreams (eff : Tbl Word) : List Nat :=
  eff.filterMap (fun e =>
    if (keyPage e.1 = 0x200 ∧ keyOff e.1 = 0x114) ∨ keyPage e.1 = 0x21D then some (keyBank e.1)
    else if keyPage e.1 = 0x21C ∧ keyOff e.1 = 0x104 then some (inStream e.2)
    else none)

/-- ENABLE takes effect at a stream (R174, R189, R201): on, it starts in SYNC with D = 0; off, its references are removed. -/
def State.latchEnable (s : State) (x : Nat) (on : Bool) : State :=
  let s1 := s.setCtx 0 x (if on then 1 else 0)
  let s2 := (s1.setField (Reg.INTAKE_CTX_STATE x) 3 3 (if on then 1 else 0)).setStream x {}
  if on then s2.setReg (Reg.INTAKE_READ_IDX x) 0 else s2

/-- A stream at a Latch step: `old` is the state before the new settings took effect in `s` (R189, R214, R222, R237). -/
def State.latchStream (old s : State) (x : Nat) : State :=
  let was := bit (old.effReg (Reg.INTAKE_CTX_CTL x)) 0
  let on := bit (s.effReg (Reg.INTAKE_CTX_CTL x)) 0
  let input := decide (old.inputNow x ≠ s.inputNow x)
  let pass := decide (old.passMode x ≠ s.passMode x)
  let s1 := if was ≠ on then s.latchEnable x on
    else if pass = true ∧ s.ctxState x ≠ 0 then s.setCtx 0 x 1 else s
  let s2 := if was ≠ on ∨ input then { s1 with keeps := s1.keeps.filter (fun k => k.1 != x) } else s1
  if was ≠ on ∨ input = true ∨ pass = true then s2.setStream x { s2.stream x with trackEnd := 3 } else s2

/-- The written settings take effect (R199, R201, R217, R222, R242). -/
def State.latchConfig (s : State) : State :=
  let t := { s with eff := joinRegs (s.regs.filter (fun e => isLatched e.1)) (s.eff.filter (fun e => isCap e.1)) }
  (latchedStreams s.eff ++ latchedStreams t.eff).eraseDups.foldl (fun (a : State) x => s.latchStream a x) t

/-- The thermal manager's choice of a variant, within VARIANT_MIN and VARIANTS (R37). -/
def State.latchVariant (s : State) (choice : Nat) : State :=
  let n := bits (s.bankWord s.actBank 0x010) 2 0
  s.setField Reg.LEDGER_ACTIVE 3 2 (min (max choice (bits (s.reg Reg.LEDGER_VARIANT_MIN) 1 0)) (n - 1))

/-- The halt stage of the next tick (R36); a switch latched for the same boundary goes first. Running sessions end at the first
stage (R270). -/
def State.latchHalt (s : State) (switched : Bool) : State :=
  let want := bit (s.reg Reg.LEDGER_HALT) 0
  let next := if s.haltStage = 0 then (if want && !switched then 1 else 0) else if s.haltStage = 1 then 2 else (if want then 2 else 0)
  let t := s.setField Reg.LEDGER_ACTIVE 5 4 next
  if s.haltStage = 0 ∧ next = 1 then
    (List.range 16).foldl (fun (a : State) n => if (a.session n).running then a.endSession n 4 else a) t
  else t

/-- The Latch step's decision on a requested switch (R22, R34, R36): the state, and whether a bank became active. -/
def State.latchSwitch (s : State) : State × Bool :=
  let q := s.reg Reg.LEDGER_SWITCH_REQ
  let k := s.reg Reg.LEDGER_SWITCH_TICK
  if bit q 1 = false ∨ s.ledger.firstNs ≠ 0 then (s, false)
  else if k = s.tick + 1 then
    match s.switchRefused (bit q 0) false with
    | some t => (t, false)
    | none => (s.activateBank (bit q 0), true)
  else if 2 ^ 31 ≤ (k - (s.tick + 1)).toNat then (s.missSwitch, false)
  else (s, false)

/-- The Latch step (R26). -/
def State.latchStep (s : State) (choice : Nat) : State :=
  let s0 := { s with ledger := { s.ledger with coldTick := false } }
  let a := s0.latchService.latchSwitch
  let s1 := (a.1.latchHalt a.2).latchConfig
  let s2 := (List.range 16).foldl (fun (b : State) n => (b.latchSession n).dropEnded n) s1
  ((s2.latchVariant choice).latchContain).latchUpdate

/-- The dispatch preload (R97): the job header of every PROGRAM entry of the next tick, nothing where it cannot be read. -/
def State.preloadHeaders (s : State) : State :=
  let es := (s.entriesOf s.actBank s.variant).filter (fun e => decide (e.2.unit < 8) && e.2.action == 1)
  es.foldl (fun (a : State) e =>
    let t := a.actionRead e.2.operand 16
    { t with ledger := { t.ledger with
      preload := mapIns e.1 ((a.actionWords e.2.operand 16).map wordBytes |>.getD []) t.ledger.preload } })
    { s with ledger := { s.ledger with preload := [] } }

/-- Consecutive ticks in which a job has faulted, after a boundary (R43): 16 marks one that stays torn down until its bit of
JOB_READMIT is written. -/
def faultCount (limit old : Nat) (fault readmit : Bool) : Nat :=
  if fault ∧ old + 1 < limit then old + 1
  else if fault ∨ old = 16 then (if readmit then 0 else 16)
  else 0

/-- The job contexts of a stall at the Reset step (R43): each is rebuilt, unless its job stays torn down or the stall is. -/
def State.rebuildJobs (s : State) (st : Nat) : State :=
  let x := s.stall st
  let limit := max 1 (bits (s.reg (Reg.STALL_FAULT_LIMIT st)) 3 0)
  let cnt := fun (j : Nat) => faultCount limit (mapGetD x.faultTicks j 0) (x.faultNow.getLsbD j) (x.readmit.getLsbD j)
  let held := (List.range 32).foldl (fun (w : Word) j => if cnt j = 16 then w ||| jobBit j else w) 0
  let t := s.setStall st { x with
    faultTicks := (List.range 32).filterMap (fun j => if cnt j = 0 then none else some (j, cnt j))
    faultNow := 0, readmit := 0 }
  let old := s.reg (Reg.STALL_JOB_FAULTED st)
  t.setReg (Reg.STALL_JOB_FAULTED st) (if bits (s.reg (Reg.STALL_STATE st)) 1 0 = 2 then old ||| held else held)

/-- What a tick leaves in a stream's record is cleared for the next. -/
def Stream.nextTick (x : Stream) : Stream :=
  { x with fetched := none, flagged := false, placed := [], pics := [], picsTaken := 0, aus := [] }

/-- The Reset step (R26, R43, R107, R372). -/
def State.resetStep (s : State) : State :=
  let s1 := (List.range 8).foldl (fun (a : State) st => a.rebuildJobs st) s.applyResets
  { s1 with
    clusters := s1.clusters.map (fun (e : Nat × Cluster) => (e.1, { e.2 with lens := [] }))
    streams := s1.streams.map (fun (e : Nat × Stream) => (e.1, e.2.nextTick))
    sessions := s1.sessions.map (fun (e : Nat × Session) => (e.1, { e.2 with taken := 0 }))
    tau := { s1.tau with sections := [] }
    ledger := { s1.ledger with gaps := [], late := [], clipped := [] } }

/-- A tick begins (R21, R23, R27, R383): grain 0, its number, the delay that its sheet records, a firmware switch. -/
def State.beginTick (s : State) (number : Word) (lateEclk : BitVec 16) : State :=
  let t := (s.setReg Reg.TICK_SEQ number).setReg Reg.TICK_GRAIN 0
  { t with ledger := { t.ledger with
      armed := false, ticking := true, grainTclk := 0, lateEclk := lateEclk, lateTick := none } }.firmwareSwitch

/-- The boundary that a tick event stands for, and its successor (R21, R23). -/
def State.nextBoundary (s : State) : State :=
  let full := s.fullNs - (s.tsu.ns - s.tsu.nextTick).toNat
  { s with
    ledger := { s.ledger with
      boundaryNs := s.tsu.nextTick, boundaryWraps := full / 2 ^ 32, boundaryFollow := s.followed, nextSeq := s.ledger.nextSeq + 1 }
    tsu := { s.tsu with nextTick := s.tsu.nextTick + BitVec.ofNat 32 s.periodNs } }

/-- Local time has reached a time of the future: it stands there. -/
def State.reachTime (s : State) (t : Nat) : State :=
  if s.fullNs < t then { s with tsu := { s.tsu with ns := BitVec.ofNat 32 t, frac := 0, wraps := t / 2 ^ 32 } } else s

/-- The event of boundary k with no bank active, or halted under another period (R22, R34 to R36, R347): the requested bank
becomes active there, and its first tick begins with the settings that wait for a Latch step; where the bank is refused, no tick
event is raised. -/
def State.firstTick (s : State) : State :=
  let b := bit (s.reg Reg.LEDGER_SWITCH_REQ) 0
  let s0 := (s.reachTime s.ledger.firstNs).latchService
  match s0.switchRefused b true with
  | some t => if t.bankActive then t.reloadTick else t
  | none =>
    let halted := s0.bankActive && bit (s0.reg Reg.LEDGER_HALT) 0
    let c := s0.free
    let s1 := ((c.2.activateBank b).setField Reg.LEDGER_ACTIVE 5 4 (if halted then 2 else 0)).latchConfig
    let s2 := (List.range 16).foldl (fun (a : State) n => (a.latchSession n).dropEnded n) s1
    let s3 := (s2.latchVariant (bits c.1 1 0)).preloadHeaders
    (s3.nextBoundary.beginTick s.ledger.nextSeq 0).edge 5

/-- A tick event (R23, R27): in Arm, or before any tick of the bank, the tick begins; before that it begins when the boundary
sequence has finished. -/
def State.tickEvent (s : State) (lateEclk : BitVec 16) : State :=
  if s.tsu.running = false ∨ s.periodNs = 0 then s
  else
    let ahead := (s.tsu.nextTick - s.tsu.ns).toNat
    let s1 := (if ahead < 2 ^ 31 then s.reachTime (s.fullNs + ahead) else s).nextBoundary
    if s.ledger.armed = true ∨ s.ledger.ticking = false then s1.beginTick s.ledger.nextSeq 0
    else { s1.tally Reg.TICK_LATE_START with ledger := { s1.ledger with lateTick := some lateEclk } }

/-- A tick event as R22 and R23 raise one: the edge of source 245 comes with it (R326). At the boundary that a first bank waits for
the bank becomes active. -/
def State.raiseTick (s : State) (lateEclk : BitVec 16) : State :=
  if s.tsu.running = true ∧ s.ledger.firstNs ≠ 0 then s.firstTick
  else if s.tsu.running = true ∧ s.periodNs ≠ 0 then (s.tickEvent lateEclk).edge 5
  else s

/-- TICK_EVENT (R23). -/
def execTickEvent (lateEclk : BitVec 16) (s : State) : Out := done (s.raiseTick lateEclk)

/-- The boundary sequence's steps up to Arm (R26). -/
def State.boundary (s : State) (choice : Nat) (ageing : List (BitVec 16)) : State :=
  let s1 := (((s.drainCheck.takeSnapshot ageing).latchStep choice).preloadHeaders).resetStep
  { s1.setReg Reg.TICK_GRAIN (BitVec.ofNat 32 (2 ^ 31 + (bits (s1.reg Reg.TICK_HORIZON) 17 0 + 37) % 2 ^ 18)) with
    ledger := { s1.ledger with armed := true } }

/-- BOUNDARY_SEQUENCE (R26, R27): it runs once in each tick of an active bank; a tick event that came before it has finished
takes effect at its end. -/
def execBoundarySequence (choice : Fin 4) (ageing : List (BitVec 16)) (s : State) : Out :=
  done (if s.bankActive = true ∧ s.ledger.ticking = true ∧ s.ledger.armed = false then
    let t := s.boundary choice.val ageing
    match t.ledger.lateTick with
    | some d => t.beginTick (t.ledger.nextSeq - 1) d
    | none => t
  else s)

/-- Boundary k of R21 under a period, the next one with that number modulo 2^32, for a switch with no bank active or out of the
halted state (R34, R347): its local time, none where it is refused. -/
def State.firstBoundary (s : State) (period : Nat) (k : Word) : Option Nat :=
  if period = 0 then none
  else
    let ph := s.regN Reg.TICK_PHASE_NS
    let c := (s.fullNs - ph) / period
    let d := (k - BitVec.ofNat 32 c).toNat
    let t := ph + (c + d) * period
    if 2 ^ 31 < d ∨ t < s.fullNs + 1000000 then none else some t

/-- A switch is requested (R34, R36, R347). -/
def State.requestSwitch (s : State) (b : Bool) : State :=
  let k := s.reg Reg.LEDGER_SWITCH_TICK
  let period := bits (s.bankWord b 0x004) 17 0 * 1000
  if s.bankState b ≠ 2 then s.missSwitch
  else if s.bankActive = false ∨ (s.haltStage = 2 ∧ period ≠ s.periodNs) then
    match s.firstBoundary period k with
    | none => s.missSwitch
    | some t =>
      { s with
        ledger := { s.ledger with firstNs := t, nextSeq := k }
        tsu := { s.tsu with nextTick := BitVec.ofNat 32 t } }
  else
    let d := (k - s.tick).toNat
    if d = 0 ∨ 2 ^ 31 < d ∨ (d = 1 ∧ s.ledger.armed = true) then s.missSwitch else s

/-- SWITCH_REQ (R34, R52): without the valid bit a request is withdrawn. -/
def execSwitchReq (m : Master) (v : Word) (s : State) : Out :=
  done (s.gate m 0x011 (fun t =>
    let u := { t.setReg Reg.LEDGER_SWITCH_REQ (v &&& 3) with ledger := { t.ledger with firstNs := 0 } }
    if bit v 1 then u.requestSwitch (bit v 0) else u))

/-- HALT (R36): latched at the next Latch step. -/
def execHalt (m : Master) (v : Word) (s : State) : Out :=
  done (s.gate m 0x011 (fun t => t.setReg Reg.LEDGER_HALT (v &&& 1)))

/-- One TCLK edge: local time (R335), the comparator (R23), the grain counter (R24). The delay of a tick event that comes too
early is a free value. -/
def State.tclk (s : State) : State :=
  let s1 := s.tsuTick
  if s1.tsu.running = false then s1
  else
    let s2 := if s1.ledger.firstNs ≠ 0 then (if s1.ledger.firstNs ≤ s1.fullNs then s1.raiseTick 0 else s1)
      else if s1.periodNs ≠ 0 ∧ (s1.tsu.ns - s1.tsu.nextTick).toNat < 2 ^ 31 then
        let f := s1.free
        f.2.raiseTick (f.1.setWidth 16)
      else s1
    if s2.ledger.ticking = false ∨ s2.ledger.armed = true then s2
    else if s2.ledger.grainTclk + 1 < 256 then { s2 with ledger := { s2.ledger with grainTclk := s2.ledger.grainTclk + 1 } }
    else
      let g := bits (s2.reg Reg.TICK_GRAIN) 17 0 + 1
      { s2 with ledger := { s2.ledger with grainTclk := 0 } }.setReg Reg.TICK_GRAIN
        (BitVec.ofNat 32 (g % 2 ^ 18 + (if s2.regN Reg.TICK_HORIZON ≤ g then 2 ^ 31 else 0)))

end Sys2Proof.Machine
end

