-- ==== Sys2Proof/Machine/Ethernet.lean ====
section
/-!
DEFINITION. The Ethernet ports (R348 to R350, R352, R355, R356), the flow table (R185 to R187, R202) and the flow-table path
of the intake (R180, R184).
-/
namespace Sys2Proof.Machine

/-- A port works (R348): its power domain is on and its CTL.ENABLE is 1. -/
def State.portOn (s : State) (p : Nat) : Bool := s.domOn 23 && bit (s.reg (Reg.CTL (pageEp p))) 0

/-- The two words of a 48-bit address. -/
def macOf (lo hi : Word) : BitVec 48 := BitVec.ofNat 48 (lo.toNat + bits hi 15 0 * 2 ^ 32)

/-- The port's MAC address. -/
def State.portMac (s : State) (p : Nat) : BitVec 48 := macOf (s.reg (Reg.EP_MAC_LO p)) (s.reg (Reg.EP_MAC_HI p))

/-- Domain d is enabled and uses port p (R354). -/
def State.domainOn (s : State) (d p : Nat) : Bool :=
  bit (s.reg (Reg.DOMAIN_CFG d)) 0 && s.domainPort d == p

/-- A domain with a peer-to-peer or 802.1AS profile uses the port (R349). -/
def State.p2pOn (s : State) (p : Nat) : Bool :=
  (List.range 2).any (fun d => s.domainOn d p &&
    (bits (s.reg (Reg.DOMAIN_CFG d)) 3 2 == 1 || bits (s.reg (Reg.DOMAIN_CFG d)) 3 2 == 2))

/-- The PTP multicast addresses of a domain's CFG (R349; PRESUMED, IEEE 1588 annexes: notes/assumptions/31.md). -/
def ptpAddrs (cfg : Word) : List (BitVec 48) :=
  let t := bits cfg 5 4
  let peer := bits cfg 3 2 == 1
  if bits cfg 3 2 = 2 then [0x0180C200000E]
  else if t = 0 then [0x011B19000000]
  else if t = 1 then 0x01005E000181 :: (if peer then [0x01005E00006B] else [])
  else 0x333300000181 :: (if peer then [0x33330000006B] else [])

/-- The frame is accepted locally (R349). -/
def State.accepts (s : State) (p : Nat) (dest : BitVec 48) : Bool :=
  decide (dest = s.portMac p) || decide (dest = 0xFFFFFFFFFFFF) ||
  (List.range 2).any (fun d => s.domainOn d p && (ptpAddrs (s.reg (Reg.DOMAIN_CFG d))).contains dest) ||
  (List.range 16).any (fun b => bit (s.reg (Reg.EP_MC_HI p b)) 31 &&
    decide (macOf (s.reg (Reg.EP_MC_LO p b)) (s.reg (Reg.EP_MC_HI p b)) = dest))

/-- The frames that wait to leave on a port. -/
def State.fwdQueue (s : State) (p : Nat) : List FwdFrame := if p = 0 then s.eth.fwd0 else s.eth.fwd1

/-- Set the frames that wait to leave on a port. -/
def State.setFwd (s : State) (p : Nat) (q : List FwdFrame) : State :=
  if p = 0 then { s with eth := { s.eth with fwd0 := q } } else { s with eth := { s.eth with fwd1 := q } }

/-- The record of a frame that port p received, in a forwarding buffer, with its ingress stamp (R338, R350). -/
def State.fwdOf (s : State) (p : Nat) (f : EthFrame) : FwdFrame :=
  { len := f.len.toNat
    event := match f.payload with
      | .ptp _ m _ _ => decide (m.toNat ≤ 3)
      | _ => false
    correct := match f.payload with
      | .ptp as m _ _ => !as && decide (m.toNat ≤ 1)
      | _ => false
    ingress := (s.ingressStamp p f.ingress f.ingressFrac).1
    ingressFrac := (s.ingressStamp p f.ingress f.ingressFrac).2 }

/-- A frame into a forwarding queue: a PTP event message goes ahead of every queued frame (R350). -/
def enqueueFwd (f : FwdFrame) (q : List FwdFrame) : List FwdFrame := if f.event then f :: q else q ++ [f]

/-- FWD_EN, and the frame is not for the receiving port itself (R350). -/
def State.forwards (s : State) (p : Nat) (dest : BitVec 48) : Bool :=
  bit (s.reg Reg.SYSTEM_FWD_CTL) 0 && decide (dest ≠ s.portMac p)

/-- The frame fits in the 32 KiB buffer of its direction. -/
def State.fwdFits (s : State) (p : Nat) (f : EthFrame) : Bool :=
  decide (((s.fwdQueue (1 - p)).map FwdFrame.len).sum + f.len.toNat ≤ 32768)

/-- The forwarding copy (R350). -/
def State.forward (s : State) (p : Nat) (f : EthFrame) : State :=
  if s.forwards p f.dest then
    if s.fwdFits p f then s.setFwd (1 - p) (enqueueFwd (s.fwdOf p f) (s.fwdQueue (1 - p)))
    else s.tally Reg.SYSTEM_FWD_DROP
  else s

/-- Word i of an address. -/
def addrWord (a : BitVec 128) (i : Nat) : Word := BitVec.ofNat 32 (a.toNat / 2 ^ (32 * i))

/-- Entry b of the flow table is valid and matches the packet's port, IP version and destination port (R185). -/
def State.flowPort (s : State) (b p : Nat) (v6 : Bool) (dport : BitVec 16) : Bool :=
  let c := s.reg (Reg.FLOW_FLOW_CTL b)
  bit c 0 && bit c (1 + p) && bit c 3 == v6 && bits (s.reg (Reg.FLOW_FLOW_DPORT b)) 15 0 == dport.toNat

/-- Entry b matches the packet's source address and SSRC (R185). -/
def State.flowSource (s : State) (b : Nat) (v6 : Bool) (src : BitVec 128) (ssrc : Word) : Bool :=
  let c := s.reg (Reg.FLOW_FLOW_CTL b)
  (bit c 4 ||
    (decide (s.reg (Reg.FLOW_FLOW_SRC0 b) = addrWord src 0) &&
      (!v6 || (decide (s.reg (Reg.FLOW_FLOW_SRC1 b) = addrWord src 1) && decide (s.reg (Reg.FLOW_FLOW_SRC2 b) = addrWord src 2) &&
        decide (s.reg (Reg.FLOW_FLOW_SRC3 b) = addrWord src 3))))) &&
  (!bit c 5 || decide (s.reg (Reg.FLOW_FLOW_SSRC b) = ssrc))

/-- Entry b matches whole, the payload type included (R185). -/
def State.flowMatch (s : State) (b p : Nat) (v6 : Bool) (src : BitVec 128) (dport : BitVec 16) (r : RtpPacket) : Bool :=
  s.flowPort b p v6 dport && s.flowSource b v6 src r.ssrc &&
  bits (s.reg (Reg.FLOW_FLOW_CTL b)) 22 16 == r.payloadType.toNat

/-- A new-source record (R186, R202). -/
def State.newSource (s : State) (p : Nat) (v6 : Bool) (src : BitVec 128) (dport : BitVec 16) : State :=
  if s.eth.newSources.length < 16 then
    let w : Word := BitVec.ofNat 32 (2 ^ 31 + (p + 1) * 2 ^ 29 + (if v6 then 2 ^ 28 else 0) + dport.toNat)
    (({ s with eth := { s.eth with newSources := s.eth.newSources ++ [(w, src)] } }).tally Reg.FLOW_NEW_SOURCE).event 0x201 1
  else (s.tally Reg.FLOW_NEWSRC_LOST).event 0x201 2

/-- The operand of the running variant's CUTOFF entry: its intake plan (R176). -/
def State.intakePlan (s : State) : Option Nat :=
  if s.bankActive then
    ((s.entriesOf s.actBank s.variant).find? (fun e => e.2.unit == 0x1F && e.2.action == 9)).map (fun e => e.2.operand)
  else none

/-- Base and GUAR of a stream's circular area (R180); without a plan it has no bytes. -/
def State.rtpArea (s : State) (x : Nat) : Nat × Nat :=
  match s.intakePlan with
  | some p => (match s.planRecAt p x with
    | some r => (r.base, r.guar)
    | none => (0, 0))
  | none => (0, 0)

/-- Bytes of a stream's circular area that are not decoded yet. -/
def State.rtpHeld (s : State) (x : Nat) : Nat :=
  let st := s.stream x
  ((st.aus ++ st.rtpCut ++ st.rtpDone ++ st.openAu.toList).map Au.raw).sum +
  (s.vds.map (fun v => match v.2.frame with
    | some f => if f.stream = x then f.au.raw else 0
    | none => 0)).sum

/-- The pieces of n bytes at an offset of a circular area: offset and length. -/
def ringPieces (size pos n : Nat) : List (Nat × Nat) :=
  let o := pos % size
  if o + n ≤ size then [(o, n)] else [(o, size - o), (0, n - (size - o))]

/-- The extents of a packet's units in a circular area of the video store. -/
def rtpExtents (base size pos : Nat) (us : List (BitVec 16 × BitVec 16 × Bool)) : List (Nat × Nat × Bool) :=
  us.flatMap (fun u => ((ringPieces size (pos + u.1.toNat) u.2.1.toNat).zipIdx.map
    (fun q => (base + q.1.1, q.1.2, u.2.2 && q.2 == 0))))

/-- The payload of a packet into the circular area. -/
def State.rtpStore (s : State) (base size pos : Nat) (d : List Byte) : State :=
  ((ringPieces size pos d.length).foldl (fun (a : State × List Byte) q =>
    ((a.1.write { store := .video, addr := base + q.1 } (a.2.take q.2)).st, a.2.drop q.2)) (s, d)).1

/-- A packet joins the open access unit, a new one where none is open (R180, R184). One that its area cannot take is dropped:
RTP_OVER, and the access unit is damaged. -/
def State.rtpJoin (s : State) (x : Nat) (r : RtpPacket) : State :=
  let ar := s.rtpArea x
  let st := s.stream x
  let n := r.payload.length
  let a := { st.current with time := r.timestamp }
  if ar.2 < st.rtpBytes + n ∨ 2 * ar.2 < s.rtpHeld x + n then
    (s.tally Reg.FLOW_RTP_OVER).setStream x
      { st with openAu := some { a with damaged := true }, rtpTime := r.timestamp, rtpPkts := insertPkt (r.seq, []) st.rtpPkts }
  else
    (s.rtpStore ar.1 (2 * ar.2) st.rtpPos r.payload).setStream x
      { st with
        openAu := some { a with raw := a.raw + n }
        rtpTime := r.timestamp
        rtpPkts := insertPkt (r.seq, rtpExtents ar.1 (2 * ar.2) st.rtpPos r.units) st.rtpPkts
        rtpPos := if ar.2 = 0 then 0 else (st.rtpPos + n) % (2 * ar.2)
        rtpBytes := st.rtpBytes + n }

/-- A packet that the flow table delivers to a stream (R180, R182, R184). -/
def State.rtpTake (s : State) (x : Nat) (r : RtpPacket) : State :=
  if (s.stream x).rtpIsLate r then s.tally Reg.FLOW_RTP_LATE
  else
    let s1 := if (s.stream x).openAu.isSome ∧ (s.stream x).rtpTime ≠ r.timestamp then s.closeRtp x false else s
    let s2 := s1.rtpJoin x r
    if r.marker then s2.closeRtp x false else s2

/-- A UDP packet at the flow table (R184 to R186). -/
def State.flowPacket (s : State) (p : Nat) (v6 : Bool) (src : BitVec 128) (dport : BitVec 16) (fragment : Bool)
    (rtp : Option RtpPacket) : State :=
  if fragment then s.tally Reg.FLOW_RTP_BAD
  else
    match rtp with
    | none =>
      if (List.range 256).any (fun b => s.flowPort b p v6 dport) then s.tally Reg.FLOW_RTP_BAD else s.tally Reg.FLOW_FLOW_MISS
    | some r =>
      match (List.range 256).find? (fun b => s.flowMatch b p v6 src dport r) with
      | some b =>
        let x := bits (s.reg (Reg.FLOW_FLOW_CTL b)) 15 8
        if s.streamOn x = false ∨ s.container x ≠ 4 then s.tally Reg.FLOW_FLOW_MISS
        else
          let s1 := s.tally (Reg.FLOW_FLOW_HIT b)
          if r.version2 = false ∨ r.modeOk = false then s1.tally Reg.FLOW_RTP_BAD else s1.rtpTake x r
      | none =>
        if (List.range 256).any (fun b => s.flowPort b p v6 dport && !s.flowSource b v6 src r.ssrc) then s.newSource p v6 src dport
        else s.tally Reg.FLOW_FLOW_MISS

/-- A PTP frame goes to the MGC with its ingress stamp (R338, R349). -/
def State.ptpToMgc (s : State) (p : Nat) (f : EthFrame) : State :=
  (s.tally (Reg.EP_PTP_RX p)).send (.ethToMgc p (some (s.ingressStamp p f.ingress f.ingressFrac)))

/-- A frame that the port accepts (R349). -/
def State.takeFrame (s : State) (p : Nat) (f : EthFrame) : State :=
  match f.payload with
  | .ptp _ _ _ _ => s.ptpToMgc p f
  | .arp t => if t = s.reg (Reg.EP_IPV4 p) then s.send (.ethToMgc p none) else s.tally (Reg.EP_RX_OTHER p)
  | .neighbour t =>
    if addrWord t 0 = s.reg (Reg.EP_IPV6_0 p) ∧ addrWord t 1 = s.reg (Reg.EP_IPV6_1 p) ∧
        addrWord t 2 = s.reg (Reg.EP_IPV6_2 p) ∧ addrWord t 3 = s.reg (Reg.EP_IPV6_3 p) then s.send (.ethToMgc p none)
    else s.tally (Reg.EP_RX_OTHER p)
  | .udp v6 src dport frag rtp => s.flowPacket p v6 src dport frag rtp
  | .pause => s.tally (Reg.EP_RX_OTHER p)
  | .other => s.tally (Reg.EP_RX_OTHER p)

/-- The payload is a PTP frame. -/
def isPtp : EthPayload → Bool
  | .ptp _ _ _ _ => true
  | _ => false

/-- ETH_FRAME_RX: the classification of R349, in its order. -/
def execEthFrameRx (port : Fin 2) (f : EthFrame) (s : State) : Out :=
  let p := port.val
  done (if s.portOn p = false then s
  else if f.fcsOk = false ∨ f.len.toNat < 64 ∨ 9216 < f.len.toNat then s.tally (Reg.EP_RX_ERR p)
  else if 2 ≤ f.tags.val ∨ f.payload = .pause then s.tally (Reg.EP_RX_OTHER p)
  else if f.dest.toNat / 16 = 0x0180C200000 then
    if f.dest = 0x0180C200000E ∧ isPtp f.payload = true ∧ s.p2pOn p = true then s.ptpToMgc p f
    else s.tally (Reg.EP_RX_OTHER p)
  else
    let s1 := s.forward p f
    if s.accepts p f.dest then s1.takeFrame p f
    else if s.forwards p f.dest ∧ s.fwdFits p f then s1
    else s1.tally (Reg.EP_RX_FILTERED p))

/-- What a forwarded 1588 event message's correctionField gains: egress minus ingress, in units of 2^-16 ns (R350). -/
def residence (f : FwdFrame) (egress : Word) (egressFrac : Byte) : Int :=
  ((egress - f.ingress).toInt * 256 + ((egressFrac.toNat : Int) - f.ingressFrac.toNat)) * 256

/-- FORWARD_TX (R338, R350): the frame at the head of the queue leaves on the port, at the captured local time the command
carries. -/
def execForwardTx (port : Fin 2) (egress : Word) (egressFrac : Byte) (s : State) : Out :=
  done (if s.portOn port.val = false then s
  else
    match s.fwdQueue port.val with
    | [] => s
    | f :: q =>
      let s1 := (s.setFwd port.val q).tally Reg.SYSTEM_FWD_FRAMES
      if f.correct then (s1.tally Reg.SYSTEM_TC_CORRECTED).send (.ethForward port.val
        (residence f (s.egressStamp port.val egress egressFrac).1 (s.egressStamp port.val egress egressFrac).2))
      else s1.send (.ethForward port.val 0))

/-- ETH_LINK_CHANGE (R341, R352). -/
def execEthLinkChange (port : Fin 2) (up : Bool) (rate : BitVec 3) (s : State) : Out :=
  let p := port.val
  done (if s.portOn p = false then s
  else
    let w : Word := BitVec.ofNat 32 ((if up then 1 + 2 * rate.toNat else 0) + 65536 * (s.tick.toNat % 65536))
    let s1 := (((s.setReg (Reg.EP_LINK p) w).tally (Reg.EP_LINK_CHANGE p)).event (pageEp p) 1).edge (6 + p)
    if up then s1
    else (List.range 2).foldl (fun (a : State) d => if a.domainOn d p then a.setDomState d 4 else a) s1)

/-- The registers of a flow entry (R187). -/
def flowKeys (b : Nat) : List Nat :=
  [Reg.FLOW_FLOW_CTL b, Reg.FLOW_FLOW_DPORT b, Reg.FLOW_FLOW_SRC0 b, Reg.FLOW_FLOW_SRC1 b, Reg.FLOW_FLOW_SRC2 b,
   Reg.FLOW_FLOW_SRC3 b, Reg.FLOW_FLOW_SSRC b]

/-- Copy one flow entry, or the staging set, to another. -/
def State.copyFlow (s : State) (src dst : Nat) : State :=
  ((flowKeys src).zip (flowKeys dst)).foldl (fun (a : State) k => a.setReg k.2 (s.reg k.1)) s

/-- FLOW_SEL (R187): the staging set is loaded from the selected entry. -/
def execFlowSel (m : Master) (v : Word) (s : State) : Out :=
  done (s.gate m 0x201 (fun t => (t.setReg Reg.FLOW_FLOW_SEL (v &&& 0xFF)).copyFlow (bits v 7 0) flowStaging))

/-- FLOW_COMMIT (R187): bit 0 copies the staging set into the selected entry. -/
def execFlowCommit (m : Master) (v : Word) (s : State) : Out :=
  done (s.gate m 0x201 (fun t =>
    if bit v 0 then t.copyFlow flowStaging (bits (t.reg Reg.FLOW_FLOW_SEL) 7 0) else t))

/-- The port word of the oldest new-source record; 0 where there is none. -/
def State.newSourceWord (s : State) : Word :=
  match s.eth.newSources with
  | [] => 0
  | r :: _ => r.1

/-- Remove the oldest new-source record and latch its address (R202). -/
def State.popSource (s : State) : State :=
  match s.eth.newSources with
  | [] => s
  | r :: q =>
    (((({ s with eth := { s.eth with newSources := q } }).setReg Reg.FLOW_NEWSRC_ADDR0 (addrWord r.2 0)).setReg
      Reg.FLOW_NEWSRC_ADDR1 (addrWord r.2 1)).setReg Reg.FLOW_NEWSRC_ADDR2 (addrWord r.2 2)).setReg Reg.FLOW_NEWSRC_ADDR3
      (addrWord r.2 3)

/-- NEWSRC_POP (R202, R414): a read by the page's owner removes the oldest record. -/
def execNewsrcPop (m : Master) (s : State) : Out :=
  done (s.readGate m 0x201 s.newSourceWord State.popSource)

end Sys2Proof.Machine
end

