-- ==== Sys2Proof/Machine/Registers.lean ====
section
/-!
DEFINITION. Register writes (R3 to R7, R47, R201, R389, R410 to R415): the common header, the generic write field by field,
and which registers have a meaning of their own.
-/
namespace Sys2Proof.Machine

/-- OWNER_WRITE (R7, R389, R411): from the current owner, or from the MGC while the ledger owns the page. -/
def execOwnerWrite (m : Master) (page : BitVec 12) (v : Word) (s : State) : Out :=
  let p := page.toNat
  done (match (if m = .host then s.hostBlocked p else none) with
    | some t => t
    | none =>
      match pageDesc p with
      | none => s
      | some _ =>
        let o := s.owner p
        if (o ≠ masterCode m ∧ (m ≠ .mgc ∨ o ≠ 2)) ∨ s.locked p 31 = true ∨ bits v 1 0 = 3 then s.drop p
        else s.setReg (Reg.OWNER p) (v &&& 3))

/-- LOCK_WRITE (R7, R389): bits written as 1 are set; a write that would clear a set bit counts. -/
def execLockWrite (m : Master) (page : BitVec 12) (v : Word) (s : State) : Out :=
  let p := page.toNat
  done (s.gate m p (fun t =>
    let old := t.reg (Reg.LOCK p)
    (if old &&& ~~~v = 0 then t else t.drop p).setReg (Reg.LOCK p) (old ||| v)))

/-- The event bits of a page. -/
def eventMask (p : Nat) : Word :=
  match pageDesc p with
  | some d => BitVec.ofNat 32 d.events
  | none => 0

/-- EVT_RAW_CLEAR (R5): bits that hardware sets in the same cycle (`hw`) stay set. -/
def execEvtRawClear (m : Master) (page : BitVec 12) (v : Word) (hw : Word) (s : State) : Out :=
  let p := page.toNat
  let h := hw &&& eventMask p
  let s1 := if h = 0 then s else s.event p h
  done (s1.gate m p (fun t => t.setReg (Reg.EVT_RAW p) (t.reg (Reg.EVT_RAW p) &&& ~~~(v &&& ~~~h))))

/-- EVT_SET (R4). -/
def execEvtSet (m : Master) (page : BitVec 12) (v : Word) (s : State) : Out :=
  let p := page.toNat
  done (s.gate m p (fun t => t.event p (v &&& eventMask p)))

/-- The tallies of a page are cleared (R6), with what the page shows since the last TALLY_CLR (R96, R291). -/
def State.clearTallies (s : State) (p : Nat) : State :=
  let mine := fun (k : Nat) => isTally k && keyPage k == p
  let t := { s with
    regs := s.regs.filter (fun e => !mine e.1)
    sheet := { s.sheet with snapshot := s.sheet.snapshot.filter (fun e => !mine e.1) } }
  if p = 0x318 then { t with pools := t.pools.map (fun (e : Nat × Pool) => (e.1, { e.2 with lowFree := e.2.free })) }
  else
    match pageDesc p with
    | some d =>
      if d.code = 0x0101 then
        let l := bits (t.reg (Reg.MX_CLAMP d.inst)) 1 0
        t.setReg (Reg.MX_CLAMP d.inst) (BitVec.ofNat 32 (17 * l))
      else t
    | none => t

/-- TALLY_CLR (R6): events counted in the same cycle (`same`, the offsets of their tallies) are counted after the clear. -/
def execTallyClr (m : Master) (page : BitVec 12) (v : Word) (same : List (BitVec 12)) (s : State) : Out :=
  let p := page.toNat
  let s1 := s.gate m p (fun t => if bit v 0 then t.clearTallies p else t)
  done (same.foldl (fun (a : State) o =>
    if isTally o.toNat = true ∧ (regDesc p o.toNat).isSome = true then a.tally (a.keyAt p o.toNat) else a) s1)

/-- The cap register of a regulator, the bundle's figure beside it, the page and its RATE_CAP_IGNORED; the MGC's regulator is
fixed (R47, R52, R53). -/
def capRegs (r : Regulator) : Option (Nat × Nat × Nat × Nat) :=
  match r with
  | .stallDram st => some (Reg.STALL_DRAM_RATE st.val, Reg.STALL_DRAM_RATE_BUNDLE st.val, pageStall st.val, Reg.STALL_RATE_CAP_IGNORED st.val)
  | .stallFabric st => some (Reg.STALL_FAB_RATE st.val, Reg.STALL_FAB_RATE_BUNDLE st.val, pageStall st.val, Reg.STALL_RATE_CAP_IGNORED st.val)
  | .media => some (Reg.SHARED_MEDIA_RATE, Reg.SHARED_MEDIA_RATE_BUNDLE, 0x012, Reg.SHARED_RATE_CAP_IGNORED)
  | .hostDma => some (Reg.SHARED_HDMA_RATE, Reg.SHARED_HDMA_RATE_BUNDLE, 0x012, Reg.SHARED_RATE_CAP_IGNORED)
  | .tau => some (Reg.SHARED_TAU_RATE, Reg.SHARED_TAU_RATE_BUNDLE, 0x012, Reg.SHARED_RATE_CAP_IGNORED)
  | .mgc => none

/-- RATE_CAP_WRITE (R47): the cap takes effect at the next switch; one above the active bundle's figure is held, and counted. -/
def execRateCapWrite (m : Master) (r : Regulator) (v : Word) (s : State) : Out :=
  done (match capRegs r with
    | none => s
    | some (cap, fig, p, ign) =>
      s.gate m p (fun t =>
        let u := t.setReg cap (v &&& 0xFFFF)
        if t.bankActive = true ∧ t.regN fig < bits v 15 0 then u.tally ign else u))

/-- The written or effective ENABLE of a stream is 1 (R201). -/
def State.ctxEnabled (s : State) (x : Nat) : Bool := bit (s.reg (Reg.INTAKE_CTX_CTL x)) 0 || bit (s.effReg (Reg.INTAKE_CTX_CTL x)) 0

/-- A refused configuration write (R201). -/
def State.refuseCfg (s : State) : State := (s.tally Reg.INTAKE_CFG_REFUSED).event 0x200 4

/-- INTAKE_CONFIG_WRITE (R201): a register of the selected stream, in effect from the next Latch step. With ENABLE at 1 the
ring's registers and CTX_CTL[31:1] are held; CTX_CTL[0] is still written. -/
def execIntakeConfigWrite (m : Master) (offset : BitVec 12) (v : Word) (s : State) : Out :=
  let o := offset.toNat
  done (s.gate m 0x200 (fun t =>
    match (if [0x114, 0x118, 0x11C, 0x120].contains o then regDesc 0x200 o else none) with
    | none => t
    | some d =>
      let x := t.bankOf 0x200 o
      let k := bkey x 0x200 o
      let w := mergeBits (t.reg k) (fieldsMask d.fields) v
      if t.ctxEnabled x = false then t.setReg k w
      else if o = 0x114 then
        let u := t.setReg k (mergeBits (t.reg k) 1 v)
        if (w ^^^ t.reg k) &&& 0xFFFFFFFE = 0 then u else u.refuseCfg
      else t.refuseCfg))

/-- The state that an outcome answers. -/
def stateOf (d : State) (o : Out) : State :=
  match o with
  | .next s => s
  | _ => d

/-- A write of SEC.CMD by its op (R391); another op names no command. -/
def secCommand (m : Master) (v : Word) (s : State) : Out :=
  let a : Byte := BitVec.ofNat 8 (bits v 15 8)
  match bits v 2 0 with
  | 1 => execFirmwareUpdate m a s
  | 2 => execRecord m a s
  | 3 => execAdvance m a s
  | 4 => execRaiseSvnMin m a s
  | _ => done (s.gate m 0x006 (fun t => t))

/-- The writes of the chip, ledger and stall pages that have a meaning of their own. -/
def chipWrite (m : Master) (p o : Nat) (v : Word) : Option (State → Out) :=
  if p = 0x002 ∧ o = 0x10C then some (execLoad m v)
  else if p = 0x003 ∧ o = 0x108 then some (execFwData m v)
  else if p = 0x003 ∧ o = 0x110 then some (execFwGo m v)
  else if p = 0x003 ∧ o = 0x114 then some (execTrain m v)
  else if p = 0x003 ∧ o = 0x118 then some (execRstStall m v)
  else if p = 0x003 ∧ o = 0x11C then some (execRstUnit m v)
  else if p = 0x004 ∧ o = 0x100 then some (execPwrReq m false v)
  else if p = 0x004 ∧ o = 0x104 then some (execPwrReq m true v)
  else if p = 0x005 ∧ o = 0x130 then some (execPwrLimit m v)
  else if p = 0x006 ∧ o = 0x110 then some (secCommand m v)
  else if p = 0x006 ∧ o = 0x140 then some (execQuoteReq m v)
  else if p = 0x007 ∧ o = 0x148 then some (execKeyProg m v)
  else if p = 0x008 ∧ o = 0x144 then some (execComplete m false v)
  else if p = 0x009 ∧ o = 0x144 then some (execComplete m true v)
  else if p = 0x008 ∧ o = 0x148 then some (execHostIdle m v)
  else if p = 0x00A ∧ o = 0x100 then some (execMtReq m v)
  else if p = 0x00A ∧ o = 0x104 then some (execMtCancel m v)
  else if p = 0x00A ∧ o = 0x118 then some (execSvcUnit m v)
  else if p = 0x010 ∧ o = 0x104 then some (execPhaseNs m v)
  else if p = 0x011 ∧ o = 0x108 then some (execSwitchReq m v)
  else if p = 0x011 ∧ o = 0x110 then some (execHalt m v)
  else if p = 0x012 ∧ o = 0x104 then some (execRateCapWrite m .media v)
  else if p = 0x012 ∧ o = 0x110 then some (execRateCapWrite m .hostDma v)
  else if p = 0x012 ∧ o = 0x11C then some (execRateCapWrite m .tau v)
  else if 0x018 ≤ p ∧ p ≤ 0x01F ∧ o = 0x114 then some (execRateCapWrite m (.stallDram (Fin.ofNat 8 (p - 0x018))) v)
  else if 0x018 ≤ p ∧ p ≤ 0x01F ∧ o = 0x120 then some (execRateCapWrite m (.stallFabric (Fin.ofNat 8 (p - 0x018))) v)
  else if 0x018 ≤ p ∧ p ≤ 0x01F ∧ o = 0x130 then some (execJobReadmit m (Fin.ofNat 8 (p - 0x018)) v)
  else if 0x100 ≤ p ∧ p < 0x180 ∧ 1 ≤ p % 16 ∧ p % 16 ≤ 8 ∧ o = 0x110 then
    some (execEngineService m (Fin.ofNat 64 ((p - 0x100) / 16 * 8 + (p % 16 - 1))) v)
  else none

/-- The writes of the media pages that have a meaning of their own. -/
def mediaWrite (m : Master) (p o : Nat) (v : Word) : Option (State → Out) :=
  if p = 0x200 ∧ (o = 0x114 ∨ o = 0x118 ∨ o = 0x11C ∨ o = 0x120) then some (execIntakeConfigWrite m (BitVec.ofNat 12 o) v)
  else if p = 0x201 ∧ o = 0x100 then some (execFlowSel m v)
  else if p = 0x201 ∧ o = 0x120 then some (execFlowCommit m v)
  else if p = 0x204 ∧ o = 0x128 then some (execSessCommit m v)
  else if p = 0x21D ∧ o = 0x100 then some (execProxyGeometryWrite m false v)
  else if p = 0x21D ∧ o = 0x104 then some (execProxyGeometryWrite m true v)
  else if p = 0x21D ∧ o = 0x108 then some (execProxyGen m v)
  else if p = 0x220 ∧ o = 0x100 then some (execNextLocal m v)
  else if p = 0x220 ∧ o = 0x104 then some (execTauFlush m v)
  else if p = 0x221 ∧ o = 0x108 then some (execRingCfg m v)
  else none

/-- The writes of the memory, endpoint and time pages that have a meaning of their own. -/
def uncoreWrite (m : Master) (p o : Nat) (v : Word) : Option (State → Out) :=
  if 0x300 ≤ p ∧ p ≤ 0x307 ∧ o = 0x100 then some (execDcCfg m (Fin.ofNat 8 (p - 0x300)) v)
  else if 0x300 ≤ p ∧ p ≤ 0x307 ∧ o = 0x108 then some (execChannelRelease m (Fin.ofNat 8 (p - 0x300)) v)
  else if p = 0x310 ∧ o = 0x104 then some (execMapSetWrite m false v)
  else if p = 0x310 ∧ o = 0x108 then some (execMapSetWrite m true v)
  else if p = 0x400 ∧ o = 0x108 then some (execContainRelease m v)
  else if p = 0x400 ∧ o = 0x10C then some (execReadLimit m v)
  else if p = 0x500 ∧ o = 0x110 then some (execSetNs m v)
  else if p = 0x500 ∧ o = 0x114 then some (execSel m v)
  else if (p = 0x501 ∨ p = 0x502) ∧ o = 0x100 then some (execDomainCfg m (Fin.ofNat 2 (p - 0x501)) v)
  else if (p = 0x501 ∨ p = 0x502) ∧ o = 0x110 then some (execOffsetWrite m (Fin.ofNat 2 (p - 0x501)) v)
  else if (p = 0x501 ∨ p = 0x502) ∧ o = 0x118 then some (execDomainStateWrite m (Fin.ofNat 2 (p - 0x501)) v)
  else if (p = 0x501 ∨ p = 0x502) ∧ o = 0x120 then some (execGmChange m (Fin.ofNat 2 (p - 0x501)) v)
  else none

/-- The writes of the common header that have a meaning of their own (R4); `hw`: event bits that hardware sets in the same cycle
(R5). -/
def headerWrite (m : Master) (page : BitVec 12) (o : Nat) (v hw : Word) : Option (State → Out) :=
  if o = 0x010 then some (execEvtRawClear m page v hw)
  else if o = 0x018 then some (execEvtSet m page v)
  else if o = 0x01C then some (execOwnerWrite m page v)
  else if o = 0x020 then some (execLockWrite m page v)
  else if o = 0x028 then some (execTallyClr m page v [])
  else none

/-- The meaning of a write to a register that has one of its own. -/
def ownWrite (m : Master) (page : BitVec 12) (o : Nat) (v hw : Word) : Option (State → Out) :=
  let p := page.toNat
  if o < 0x100 then headerWrite m page o v hw
  else if p < 0x180 then chipWrite m p o v
  else if p < 0x300 then mediaWrite m p o v
  else uncoreWrite m p o v

/-- A register is RWL and its lock bit is set (R4, R413). -/
def State.regLocked (s : State) (p : Nat) (d : RegDesc) : Bool :=
  match d.access, d.lock with
  | .rwl, some n => s.locked p n
  | _, _ => false

/-- The generic write of a register by its page's owner: the bits of its fields; read-only and write-only registers take
none. -/
def State.plainWrite (s : State) (p o : Nat) (v : Word) : State :=
  match regDesc p o with
  | none => s
  | some d =>
    if d.access ≠ .rw ∧ d.access ≠ .rwl then s
    else if s.regLocked p d then s.drop p
    else
      let k := s.keyAt p o
      s.setReg k (mergeBits (s.reg k) (if o = 0x014 then eventMask p else fieldsMask d.fields) v)

/-- A register write whose collision, if any, has been resolved. -/
def State.regWrite (s : State) (m : Master) (page : BitVec 12) (o : Nat) (v hw : Word) : Out :=
  match ownWrite m page o v hw with
  | some f => f s
  | none => done (s.gate m page.toNat (fun t => t.plainWrite page.toNat o v))

/-- The bits of a register's fields in which an internal update writes any bit (R413). -/
def collided (d : RegDesc) (mask : Word) : Word :=
  if d.perBit then mask
  else d.fields.foldl (fun (w : Word) f => if fieldMask f.1 f.2 &&& mask = 0 then w else w ||| fieldMask f.1 f.2) 0

/-- The internal update of a collision has been made, and the write counts as dropped for the fields that it loses, at most once
(R413). The state, and the value that the rest of the write carries. -/
def State.collide (s : State) (m : Master) (p o : Nat) (v : Word) (c : Collision) : State × Word :=
  match regDesc p o with
  | none => (s, v)
  | some d =>
    if d.access ≠ .rw ∧ d.access ≠ .rwl then (s, v)
    else
      let k := s.keyAt p o
      let mask := c.mask &&& fieldsMask d.fields
      let s1 := s.setReg k (mergeBits (s.reg k) mask c.value)
      let hit := collided d mask
      let s2 := if hit ≠ 0 ∧ s1.admits m p = true ∧ s1.regLocked p d = false then s1.drop p else s1
      (s2, mergeBits v hit (s1.reg k))

/-- REGISTER_WRITE (R3 to R7, R410 to R413, R415). -/
def execRegisterWrite (m : Master) (page offset : BitVec 12) (v : Word) (col : Option Collision) (s : State) : Out :=
  let p := page.toNat
  let o := offset.toNat
  if 0xF00 ≤ p ∧ 0x100 ≤ o ∧ o < 0xE00 ∧ s.admits m p = true then .refused .debugLayout
  else
    match col with
    | none => s.regWrite m page o v 0
    | some c =>
      let x := s.collide m p o v c
      x.1.regWrite m page o x.2 (c.mask &&& c.value)

end Sys2Proof.Machine
end

