-- ==== Sys2Proof/Machine/Staging.lean ====
section
/-!
DEFINITION. The staging DMA (R42, R288, R412, R430): entries of UNIT 0x22, their register writes, run-ons and completion.
-/
namespace Sys2Proof.Machine

/-- The register writes of an entry's descriptors, made by the ledger (R412). -/
def State.ledgerWrites (s : State) (ws : List (BitVec 12 × BitVec 12 × Word)) : State :=
  ws.foldl (fun (a : State) w => stateOf a (execRegisterWrite .ledger w.1 w.2.1 w.2.2 none a)) s

/-- The check that a cluster of the consuming stall presents for a staging DMA whose source lies in a pool's region (R288): a
refusal faults the job that runs there, with cause 0x04. The state, and whether the transfer may run. -/
def State.stageCheck (s : State) (st : Nat) (src : Option Ptr) : State × Bool :=
  match src with
  | none => (s, true)
  | some p =>
    if s.inPoolRegion p = false then (s, true)
    else
      let r := s.bpmCheck (15 + (s.stallClusters st).headD 0) p
      (if r.2 then r.1 else r.1.jobFault st 4, r.2)

/-- A staging transfer starts (R42, R314, R430). -/
def State.stageStart (s : State) (x : Transfer) : State :=
  let at_ := fun (p : Ptr) => s.relocate s.unitOdd p
  let g : Staging := { src := x.src.map at_, dst := x.dst.map at_, hostAddr := x.hostAddr.toNat, len := x.len, stall := x.stall.val
                       streams := x.streams.map Fin.val }
  let c := (s.ledgerWrites x.regWrites).stageCheck g.stall g.src
  if c.2 = false then c.1.markUnstaged g.dst g.len g.stall g.streams
  else
    let t : State := { c.1 with ledger := { c.1.ledger with staging := some g } }
    if (g.src.isNone && t.mayIssue) = true then t.pull .hostRead g.hostAddr g.len else t

/-- STAGING_DMA_ENTRY (R42): an entry whose start falls during a run-on starts when that ends. -/
def execStagingDmaEntry (i : EntryIx) (x : Transfer) (s : State) : Out :=
  done (match s.entryFor i.val 0x22 0x22 2 with
    | none => s
    | some _ =>
      if s.ledger.staging.isSome then { s with ledger := { s.ledger with stagingWait := s.ledger.stagingWait ++ [x] } }
      else s.stageStart x)

/-- The bytes of a transfer, and whether its source could be read (R42). -/
def State.stagingBytes (s : State) (g : Staging) (data : List Byte) : State × Option (List Byte) :=
  match g.src with
  | none => (s, if data.length < g.len then none else some (data.take g.len))
  | some p =>
    let r := s.read p g.len
    (r.st, if r.status = 0 then some r.data else none)

/-- The bytes go to the buffer, which counts as staged from now on; or to host memory (R42, R314). Only the MGC writes the ledger
banks (R275). -/
def State.stageWriteOut (s : State) (g : Staging) (d : List Byte) : State :=
  match g.dst with
  | none => if s.mayIssue then s.post g.hostAddr d else s
  | some p =>
    let w := if p.store = .common ∧ 0x2E00000 < p.addr + d.length then { st := s, status := 1, data := [] } else s.write p d
    if w.status ≠ 0 then w.st.markUnstaged g.dst g.len g.stall g.streams
    else
      match w.st.flat p with
      | some k => { w.st with ledger := { w.st.ledger with unstaged := mapDel k w.st.ledger.unstaged } }
      | none => w.st

/-- The next entry that has waited for a run-on starts (R42). -/
def State.stageNext (s : State) : State :=
  match s.ledger.stagingWait with
  | [] => s
  | x :: r => { s with ledger := { s.ledger with stagingWait := r } }.stageStart x

/-- A read of a staging transfer. -/
def Egress.isHostRead : Egress → Bool
  | .hostRead _ _ => true
  | _ => false

/-- STAGING_DMA_DONE (R42): `data` is what host memory answers. A transfer that needs the link does not complete while the
endpoint issues no request. -/
def execStagingDmaDone (data : List Byte) (s : State) : Out :=
  done (match s.ledger.staging with
    | none => s
    | some g =>
      if (g.src.isNone = true ∨ g.dst.isNone = true) ∧ s.mayIssue = false then s
      else
        let r := ({ s with ledger := { s.ledger with staging := none } }.endReads Egress.isHostRead).stagingBytes g data
        match r.2 with
        | some d => (r.1.stageWriteOut g d).stageNext
        | none => (r.1.markUnstaged g.dst g.len g.stall g.streams).stageNext)

end Sys2Proof.Machine
end

