-- ==== Sys2Proof/Machine/Manage.lean ====
section
/-!
DEFINITION. Reading a register (R3, R4, R357, R414) and the I2C target (R366, R367).
-/
namespace Sys2Proof.Machine

/-- The state of a domain as POWER.STATE shows it (R374): 3 in transition. -/
def State.domShown (s : State) (d : Nat) : Nat := if (mapGet s.power.moving d).isSome then 3 else s.domState d

/-- n domains from d on, two bits each. -/
def State.domWord (s : State) (d n : Nat) : Word := BitVec.ofNat 32 (((List.range n).map (fun i => s.domShown (d + i) * 4 ^ i)).sum)

/-- A tag of a codebook table (R170). -/
def tagWord (t : CodeTable) : Word :=
  BitVec.ofNat 32 (t.number.toNat + (if t.size256 then 256 else 0) + 512 * t.efmt.toNat + (if t.valid then 2 ^ 31 else 0))

/-- The state of an engine (R95): OFF, CLEARING, OUT, REJOIN, IDLE, or RUN while passes or drains of it wait. DRAIN and FAULTED
stand only within a command. -/
def State.engineState (s : State) (c e : Nat) : Nat :=
  if s.domOn c = false then 0
  else if s.power.clearing.contains c then 5
  else if s.svc.engOut.getLsbD e then 6
  else if s.svc.engRejoin.getLsbD e then 7
  else if (s.engine e).work.isEmpty then 1 else 2

/-- The registers of a cluster's pages that show its state (R95, R120, R170). -/
def State.clusterShown (s : State) (p o : Nat) : Option Word :=
  let c := (p - 0x100) / 16
  let k := p % 16
  if k = 0 ∧ o = 0x10C then
    let w := s.reg (Reg.CLUSTER_LEN_SEL c)
    some (mapGetD (s.cluster c).lens (bits w 4 0 * 16 + bits w 11 8) 0)
  else if 1 ≤ k ∧ k ≤ 8 ∧ o = 0x00C then
    let e := 8 * c + (k - 1)
    some (BitVec.ofNat 32 (s.engineState c e +
      (if bit (s.reg (Reg.MX_MAP e)) 16 then 256 else 0) + 512 * s.clampLevel c))
  else if k = 9 ∧ o = 0x108 then some (mapGetD (s.cluster c).lfsr (bits (s.reg (Reg.VX_LFSR_SEL c)) 5 0) 0)
  else if k = 9 ∧ o = 0x110 then
    let w := s.reg (Reg.VX_CB_TAG_SEL c)
    let e := s.engine (8 * c + bits w 2 0)
    some (tagWord (match bits w 5 4 with
      | 0 => e.aTable
      | 1 => e.bTable
      | _ => (s.cluster c).vxTable))
  else none

/-- The registers of the BPM page that show the selected pool and buffer (R291). -/
def State.bpmShown (s : State) (o : Nat) : Option Word :=
  let p := s.pool (bits (s.reg Reg.BPM_POOL_SEL) 5 0)
  let b := mapGet p.owners (bits (s.reg Reg.BPM_BUF_SEL) 11 0)
  let store := match p.store with
    | .common => 1
    | .spad c => 2 + 16 * c.val
    | _ => 0
  match o with
  | 0x104 => some (BitVec.ofNat 32 (p.count + 65536 * p.bpMask.toNat + (if p.valid then 2 ^ 31 else 0)))
  | 0x108 => some (BitVec.ofNat 32 p.base)
  | 0x10C => some (BitVec.ofNat 32 (p.base / 2 ^ 32 % 32 + 256 * store))
  | 0x110 => some (BitVec.ofNat 32 p.bufSize)
  | 0x114 => some (BitVec.ofNat 32 (p.warn + 65536 * p.bp))
  | 0x118 => some (BitVec.ofNat 32 (p.free + 65536 * p.lowFree))
  | 0x120 => some (match b with
    | none => 0
    | some os => BitVec.ofNat 32 (((os.zipIdx.map (fun x => x.1 * 16 ^ x.2)).sum) + 65536 * (slotNames os).length + 2 ^ 31))
  | _ => none

/-- The registers of an ICU page that show its state (R334). -/
def State.icuShown (s : State) (t o : Nat) : Option Word :=
  let x := s.target t
  if 0x120 ≤ o ∧ o ≤ 0x13C then
    some (BitVec.ofNat 32 (((List.range 32).map (fun b => if s.pendingSrc (8 * (o - 0x120) + b) then 2 ^ b else 0)).sum))
  else if o = 0x140 then some (s.claimValue t)
  else if o = 0x14C then
    some (match x.active with
      | some n => BitVec.ofNat 32 (n + 256)
      | none => 0)
  else if o = 0x150 then
    some (BitVec.ofNat 32 ((if x.output then 1 else 0) + (if x.idle then 2 else 0) + (if s.icu.onFclk then 65536 else 0)))
  else if o = 0x154 then some (x.running.setWidth 32)
  else none

/-- The registers of the fuse page that show the fuses (R392). -/
def State.fuseShown (s : State) (o : Nat) : Option Word :=
  let i := bits (s.reg Reg.FUSE_KEY_SEL) 1 0
  if o = 0x104 then
    some (BitVec.ofNat 32 ((if s.keyProgrammed i then 1 else 0) + (if s.keyRevoked i then 2 else 0) + (if s.keySpoiled i then 4 else 0)))
  else if 0x128 ≤ o ∧ o ≤ 0x144 then some (BitVec.ofNat 32 ((s.keyHash i).toNat / 2 ^ (8 * (o - 0x128))))
  else if o = 0x14C then some (BitVec.ofNat 32 s.sec.fuses.dsn.toNat)
  else if o = 0x150 then some (BitVec.ofNat 32 (s.sec.fuses.dsn.toNat / 2 ^ 32))
  else if o = 0x154 then some s.sec.fuses.subsys
  else none

/-- The registers of the service page that show the selected queue entry (R406). -/
def State.testShown (s : State) (o : Nat) : Option Word :=
  if o ≠ 0x110 ∧ o ≠ 0x114 then none
  else
    match s.mtEntry (bits (s.reg Reg.SERVICE_MT_RES_SEL) 3 0) with
    | none => some 0
    | some e =>
      some (if o = 0x110 then BitVec.ofNat 32 (e.result + 256 * e.test + 65536 * e.target)
        else match e.failAddr with
          | some a => BitVec.ofNat 32 (a + 2 ^ 31)
          | none => 0)

/-- SET_STATE of the selected set (R294, R308). -/
def State.setShown (s : State) : Word :=
  let i := bits (s.reg Reg.MAP_SET_SEL) 2 0
  BitVec.ofNat 32 ((if s.setValid i then 1 else 0) + (if s.setIgnored i then 2 else 0))

/-- The value of a register that shows the device's state and is stored nowhere else. -/
def State.shown (s : State) (p o : Nat) : Option Word :=
  if p = 0x004 ∧ o = 0x108 then some (s.domWord 0 16)
  else if p = 0x004 ∧ o = 0x10C then some (s.domWord 16 13)
  else if p = 0x006 ∧ o = 0x14C then some s.quoteWord
  else if p = 0x007 then s.fuseShown o
  else if p = 0x008 ∨ p = 0x009 then s.icuShown (p - 0x008) o
  else if p = 0x00A then s.testShown o
  else if 0x100 ≤ p ∧ p < 0x180 then s.clusterShown p o
  else if p = 0x201 ∧ o = 0x124 then some s.newSourceWord
  else if p = 0x310 ∧ o = 0x10C then some s.setShown
  else if p = 0x318 then s.bpmShown o
  else if p = 0x500 ∧ o = 0x100 then some s.tsu.ns
  else none

/-- A register of a block whose domain is not on, that holds its status: it reads its reset value (R357); a store's CLEAR_STATE is no
such register (R292). -/
def State.statusDark (s : State) (p : Nat) (d : RegDesc) : Bool :=
  match (pageDesc p).bind PageDesc.domain with
  | some x => !s.domOn x && d.access == .ro && !isTally d.off && decide (d.off = 0x00C ∨ 0x100 ≤ d.off) &&
      !(d.off == 0x100 && (p == 0x319 || (List.range 8).any (fun c => p == pageSpad c)))
  | none => false

/-- The value of a register, without any side effect of a read (R3, R4, R357, R414). -/
def State.readReg (s : State) (p o : Nat) : Word :=
  match regDesc p o with
  | none => 0
  | some d =>
    if d.access = .wo then 0
    else if s.statusDark p d then regReset (bkey 0 p o)
    else (s.shown p o).getD (s.reg (s.keyAt p o))

/-- What a master reads (R336, R414): each has a latched TIME_FRAC of its own. A read over I2C latches none, so that `readReg` shows
TIME_FRAC at its reset value (DEDUCED, notes/assumptions/24.md). -/
def State.readRegBy (s : State) (m : Master) (p o : Nat) : Word :=
  if p = 0x500 ∧ o = 0x104 then
    match m with
    | .host => s.tsu.latchHost
    | .mgc => s.tsu.latchMgc
    | .ledger => s.tsu.latchLedger
  else s.readReg p o

/-- The pages that read as 0 over I2C (R367, R390). -/
def i2cHidden (p : Nat) : Bool := p == 0x006 || p == 0x007 || decide (0xF00 ≤ p)

/-- An I2C transaction that answers with bytes: the address match is an edge of source 240 (R327, R366). -/
def State.i2cAnswer (s : State) (d : List Byte) : State := (s.edge 0).send (.i2cData d)

/-- The 16 readings as stored (R360). -/
def State.readings (s : State) : List (BitVec 16) :=
  (List.range 16).map (fun n => BitVec.ofNat 16 (s.regN (Reg.THERMAL_TEMP0 + 4 * (n / 2)) / 2 ^ (16 * (n % 2))))

/-- The highest of some readings. -/
def highest (l : List (BitVec 16)) : BitVec 16 := l.foldl (fun a x => if a.toInt < x.toInt then x else a) (l.headD 0)

/-- I2C_READ_MAX_TEMP (R367). -/
def execI2cReadMaxTemp (s : State) : Out := done (s.i2cAnswer (leBytes 2 (highest s.readings).toNat))

/-- I2C_READ_TEMPS (R367). -/
def execI2cReadTemps (s : State) : Out := done (s.i2cAnswer (s.readings.flatMap (fun x => leBytes 2 x.toNat)))

/-- I2C_READ_POWER (R367). -/
def execI2cReadPower (s : State) : Out := done (s.i2cAnswer (leBytes 4 (s.regN Reg.THERMAL_PWR_EST)))

/-- I2C_READ_BOOT_STATE (R367). -/
def execI2cReadBootState (s : State) : Out := done (s.i2cAnswer (leBytes 1 (bits (s.reg Reg.BOOT_STATE) 3 0)))

/-- I2C_READ_STATUS (R367): alarm, trip, highest clamp level. -/
def execI2cReadStatus (s : State) : Out :=
  done (s.i2cAnswer (leBytes 1 ((if s.power.alarm then 1 else 0) + (if s.power.tripped then 2 else 0) +
    4 * ((List.range 8).map s.clampLevel).foldl max 0)))

/-- I2C_SET_POINTER (R367). -/
def execI2cSetPointer (v : Word) (s : State) : Out := done { s.edge 0 with i2cPtr := BitVec.ofNat 32 (bits v 23 0) }

/-- I2C_READ_REGISTER (R367): no side effect, and nothing of the secure and debug pages. -/
def execI2cReadRegister (s : State) : Out :=
  let p := bits s.i2cPtr 11 0
  done (s.i2cAnswer (leBytes 4 (if i2cHidden p then 0 else (s.readReg p (4 * bits s.i2cPtr 23 12)).toNat)))

/-- The command bytes of the I2C target (R367). -/
def i2cCommands : List Byte := [0x01, 0x02, 0x03, 0x04, 0x05, 0x10, 0x11]

/-- I2C_BAD (R367): a byte that is no command is NACKed and counted. -/
def execI2cBad (b : Byte) (s : State) : Out :=
  done (if i2cCommands.contains b then s else ((s.edge 0).send .i2cNack).tally Reg.BOOT_I2C_BAD)

end Sys2Proof.Machine
end

