-- ==== Sys2Proof/Machine/Dispatch.lean ====
section
/-!
DEFINITION. The meaning of a command: one arm for each constructor.
-/
namespace Sys2Proof.Machine

/-- What a command does to everything but the queue. -/
def exec (i : Instr) (s : State) : Host.Outcome State Fault Refusal :=
  match i with
  | .tickEvent lateEclk => Sys2Proof.Machine.execTickEvent lateEclk s
  | .boundarySequence choice ageing => Sys2Proof.Machine.execBoundarySequence choice ageing s
  | .switchReq m v => Sys2Proof.Machine.execSwitchReq m v s
  | .halt m v => Sys2Proof.Machine.execHalt m v s
  | .programSlotStart ix => Sys2Proof.Machine.execProgramSlotStart ix s
  | .programSlotEnd st => Sys2Proof.Machine.execProgramSlotEnd st s
  | .loadEntryStart ix => Sys2Proof.Machine.execLoadEntryStart ix s
  | .loadEntryEnd st => Sys2Proof.Machine.execLoadEntryEnd st s
  | .stallMaintEntry ix => Sys2Proof.Machine.execStallMaintEntry ix s
  | .mtTestDone q passed failAddr => Sys2Proof.Machine.execMtTestDone q passed failAddr s
  | .decodeEntry ix => Sys2Proof.Machine.execDecodeEntry ix s
  | .decodeFrame vd h => Sys2Proof.Machine.execDecodeFrame vd h s
  | .decodeFrameDone vd r => Sys2Proof.Machine.execDecodeFrameDone vd r s
  | .decodeBudgetExpiry vd => Sys2Proof.Machine.execDecodeBudgetExpiry vd s
  | .preprocEntry ix => Sys2Proof.Machine.execPreprocEntry ix s
  | .ppSlot pp => Sys2Proof.Machine.execPpSlot pp s
  | .ppSlotDone pp => Sys2Proof.Machine.execPpSlotDone pp s
  | .ppBudgetExpiry pp => Sys2Proof.Machine.execPpBudgetExpiry pp s
  | .encodeEntry ix => Sys2Proof.Machine.execEncodeEntry ix s
  | .encodePicture ve => Sys2Proof.Machine.execEncodePicture ve s
  | .encodePictureDone ve rowBits payload recon => Sys2Proof.Machine.execEncodePictureDone ve rowBits payload s recon
  | .encAbandon ve sliceBits skip => Sys2Proof.Machine.execEncAbandon ve sliceBits skip s
  | .assocEntry ix frames => Sys2Proof.Machine.execAssocEntry ix frames s
  | .assocCut => Sys2Proof.Machine.execAssocCut s
  | .cutoff ix => Sys2Proof.Machine.execCutoff ix s
  | .indexReadDone ix => Sys2Proof.Machine.execIndexReadDone ix s
  | .intakeDmaEntry ix => Sys2Proof.Machine.execIntakeDmaEntry ix s
  | .intakeReadDone data => Sys2Proof.Machine.execIntakeReadDone data s
  | .demultiplexerEntry ix data parse lists => Sys2Proof.Machine.execDemultiplexerEntry ix data parse s lists
  | .sheetEntry ix stop => Sys2Proof.Machine.execSheetEntry ix stop s
  | .evidenceDelivery ix => Sys2Proof.Machine.execEvidenceDelivery ix s
  | .csiCutoff ix => Sys2Proof.Machine.execCsiCutoff ix s
  | .stagingDmaEntry ix x => Sys2Proof.Machine.execStagingDmaEntry ix x s
  | .stagingDmaDone data => Sys2Proof.Machine.execStagingDmaDone data s
  | .dcMaintEntry ix => Sys2Proof.Machine.execDcMaintEntry ix s
  | .dcMaintEnd dc lanes => Sys2Proof.Machine.execDcMaintEnd dc lanes s
  | .recentreLate dc => Sys2Proof.Machine.execRecentreLate dc s
  | .nop c pc => Sys2Proof.Machine.execNop c pc s
  | .matmul c pc => Sys2Proof.Machine.execMatmul c pc s
  | .expand c pc => Sys2Proof.Machine.execExpand c pc s
  | .s2d c pc => Sys2Proof.Machine.execS2d c pc s
  | .pool c pc => Sys2Proof.Machine.execPool c pc s
  | .ldlen c pc => Sys2Proof.Machine.execLdlen c pc s
  | .move c pc => Sys2Proof.Machine.execMove c pc s
  | .cvt c pc par => Sys2Proof.Machine.execCvt c pc par s
  | .ew c pc par => Sys2Proof.Machine.execEw c pc par s
  | .red c pc par => Sys2Proof.Machine.execRed c pc par s
  | .softmax c pc par => Sys2Proof.Machine.execSoftmax c pc par s
  | .qscale c pc par => Sys2Proof.Machine.execQscale c pc par s
  | .quant c pc par => Sys2Proof.Machine.execQuant c pc par s
  | .wht c pc par => Sys2Proof.Machine.execWht c pc par s
  | .select c pc par => Sys2Proof.Machine.execSelect c pc par s
  | .kpred c pc par => Sys2Proof.Machine.execKpred c pc par s
  | .cbload c pc par => Sys2Proof.Machine.execCbload c pc par s
  | .passIssue e t => Sys2Proof.Machine.execPassIssue e t s
  | .blockDrain e ce ue => Sys2Proof.Machine.execBlockDrain e ce ue s
  | .clampWindowStart c => Sys2Proof.Machine.execClampWindowStart c s
  | .thermalSample temps mw => Sys2Proof.Machine.execThermalSample temps mw s
  | .fabricGrant target new => Sys2Proof.Machine.execFabricGrant target new s
  | .regulatorAdmit r chan bytes elapsed write => Sys2Proof.Machine.execRegulatorAdmit r chan bytes elapsed s write
  | .scratchpadGrant c bank new => Sys2Proof.Machine.execScratchpadGrant c bank new s
  | .dramBatch dc sub new held soft => Sys2Proof.Machine.execDramBatch dc sub new held soft s
  | .refab dc sub same => Sys2Proof.Machine.execRefab dc sub s same
  | .alertN dc => Sys2Proof.Machine.execAlertN dc s
  | .bpmAlloc q pool owner others => Sys2Proof.Machine.execBpmAlloc q pool owner s others
  | .bpmAddOwner q p owner others => Sys2Proof.Machine.execBpmAddOwner q p owner s others
  | .bpmRelease q p owner others => Sys2Proof.Machine.execBpmRelease q p owner s others
  | .bpmCheck q p others => Sys2Proof.Machine.execBpmCheck q p s others
  | .csiFs port vc frameNo ecc => Sys2Proof.Machine.execCsiFs port vc frameNo ecc s
  | .csiLongPacket port vc dt ecc crcOk payload => Sys2Proof.Machine.execCsiLongPacket port vc dt ecc crcOk payload s
  | .csiFe port vc frameNo ecc => Sys2Proof.Machine.execCsiFe port vc frameNo ecc s
  | .csiLinkChange port link => Sys2Proof.Machine.execCsiLinkChange port link s
  | .ethFrameRx port f => Sys2Proof.Machine.execEthFrameRx port f s
  | .forwardTx port egress egressFrac => Sys2Proof.Machine.execForwardTx port egress egressFrac s
  | .ethLinkChange port up rate => Sys2Proof.Machine.execEthLinkChange port up rate s
  | .ptpEventTx d seqId msgType stamp frac => Sys2Proof.Machine.execPtpEventTx d seqId msgType stamp frac s
  | .txStampRead m d => Sys2Proof.Machine.execTxStampRead m d s
  | .flowSel m v => Sys2Proof.Machine.execFlowSel m v s
  | .flowCommit m v => Sys2Proof.Machine.execFlowCommit m v s
  | .newsrcPop m => Sys2Proof.Machine.execNewsrcPop m s
  | .load m v => Sys2Proof.Machine.execLoad m v s
  | .discard m v => Sys2Proof.Machine.execDiscard m v s
  | .loadPhaseEnd => Sys2Proof.Machine.execLoadPhaseEnd s
  | .bar2Read offset n grain => Sys2Proof.Machine.execBar2Read offset n grain s
  | .bar2Write offset data grain => Sys2Proof.Machine.execBar2Write offset data grain s
  | .bar0Bad read => Sys2Proof.Machine.execBar0Bad read s
  | .registerWrite m page offset v col => Sys2Proof.Machine.execRegisterWrite m page offset v col s
  | .ownerWrite m page v => Sys2Proof.Machine.execOwnerWrite m page v s
  | .lockWrite m page v => Sys2Proof.Machine.execLockWrite m page v s
  | .evtRawClear m page v hw => Sys2Proof.Machine.execEvtRawClear m page v hw s
  | .evtSet m page v => Sys2Proof.Machine.execEvtSet m page v s
  | .tallyClr m page v same => Sys2Proof.Machine.execTallyClr m page v same s
  | .interruptDisable set => Sys2Proof.Machine.execInterruptDisable set s
  | .d3hotEntry => Sys2Proof.Machine.execD3hotEntry s
  | .d0Return => Sys2Proof.Machine.execD0Return s
  | .inboundUr k => Sys2Proof.Machine.execInboundUr k s
  | .hostCompletion c k waited => Sys2Proof.Machine.execHostCompletion c s k waited
  | .completionTimeout k us => Sys2Proof.Machine.execCompletionTimeout s k us
  | .linkDown => Sys2Proof.Machine.execLinkDown s
  | .containRelease m v => Sys2Proof.Machine.execContainRelease m v s
  | .readLimit m v => Sys2Proof.Machine.execReadLimit m v s
  | .l1Entry substate => Sys2Proof.Machine.execL1Entry substate s
  | .l1Exit ix inL0 => Sys2Proof.Machine.execL1Exit ix inL0 s
  | .flr => Sys2Proof.Machine.execFlr s
  | .hotReset => Sys2Proof.Machine.execHotReset s
  | .perstAssert => Sys2Proof.Machine.execPerstAssert s
  | .perstDeassert => Sys2Proof.Machine.execPerstDeassert s
  | .powerOnReset strap => Sys2Proof.Machine.execPowerOnReset strap s
  | .supplyOutOfRange => Sys2Proof.Machine.execSupplyOutOfRange s
  | .pllLock => Sys2Proof.Machine.execPllLock s
  | .claim m t => Sys2Proof.Machine.execClaim m t s
  | .complete m t v => Sys2Proof.Machine.execComplete m t v s
  | .hostIdle m v => Sys2Proof.Machine.execHostIdle m v s
  | .holdoffExpiry t g => Sys2Proof.Machine.execHoldoffExpiry t g s
  | .edgeLatch src => Sys2Proof.Machine.execEdgeLatch src s
  | .timeNsRead m => Sys2Proof.Machine.execTimeNsRead m s
  | .setNs m v => Sys2Proof.Machine.execSetNs m v s
  | .phaseNs m v => Sys2Proof.Machine.execPhaseNs m v s
  | .offsetWrite m d v => Sys2Proof.Machine.execOffsetWrite m d v s
  | .gmChange m d v => Sys2Proof.Machine.execGmChange m d v s
  | .domainCfg m d v => Sys2Proof.Machine.execDomainCfg m d v s
  | .domainStateWrite m d v => Sys2Proof.Machine.execDomainStateWrite m d v s
  | .sel m v => Sys2Proof.Machine.execSel m v s
  | .handoverEnd => Sys2Proof.Machine.execHandoverEnd s
  | .pwrReq m hi v => Sys2Proof.Machine.execPwrReq m hi v s
  | .domainTransitionDone d => Sys2Proof.Machine.execDomainTransitionDone d s
  | .storeClearDone d => Sys2Proof.Machine.execStoreClearDone d s
  | .deepIdleEntry mgcWaits => Sys2Proof.Machine.execDeepIdleEntry mgcWaits s
  | .deepIdleWake => Sys2Proof.Machine.execDeepIdleWake s
  | .pwrLimit m v => Sys2Proof.Machine.execPwrLimit m v s
  | .fwData m v => Sys2Proof.Machine.execFwData m v s
  | .fwGo m v => Sys2Proof.Machine.execFwGo m v s
  | .firmwareVerifyDone => Sys2Proof.Machine.execFirmwareVerifyDone s
  | .train m v => Sys2Proof.Machine.execTrain m v s
  | .trainingDone dc r => Sys2Proof.Machine.execTrainingDone dc r s
  | .channelRelease m dc v => Sys2Proof.Machine.execChannelRelease m dc v s
  | .dcCfg m dc v => Sys2Proof.Machine.execDcCfg m dc v s
  | .mapSetWrite m cfg v => Sys2Proof.Machine.execMapSetWrite m cfg v s
  | .rstStall m v => Sys2Proof.Machine.execRstStall m v s
  | .rstUnit m v => Sys2Proof.Machine.execRstUnit m v s
  | .firmwareUpdate m arg => Sys2Proof.Machine.execFirmwareUpdate m arg s
  | .updateReady => Sys2Proof.Machine.execUpdateReady s
  | .record m arg => Sys2Proof.Machine.execRecord m arg s
  | .advance m arg => Sys2Proof.Machine.execAdvance m arg s
  | .raiseSvnMin m arg => Sys2Proof.Machine.execRaiseSvnMin m arg s
  | .fuseBurnDone readBackOk => Sys2Proof.Machine.execFuseBurnDone readBackOk s
  | .keyProg m v => Sys2Proof.Machine.execKeyProg m v s
  | .quoteReq m v => Sys2Proof.Machine.execQuoteReq m v s
  | .quoteDone => Sys2Proof.Machine.execQuoteDone s
  | .quoteData m => Sys2Proof.Machine.execQuoteData m s
  | .tamper src => Sys2Proof.Machine.execTamper src s
  | .wipeDone => Sys2Proof.Machine.execWipeDone s
  | .scrubDue bank soft => Sys2Proof.Machine.execScrubDue bank soft s
  | .scrubWriteback bank cancelled => Sys2Proof.Machine.execScrubWriteback bank cancelled s
  | .mtReq m v => Sys2Proof.Machine.execMtReq m v s
  | .mtCancel m v => Sys2Proof.Machine.execMtCancel m v s
  | .svcUnit m v => Sys2Proof.Machine.execSvcUnit m v s
  | .engineService m e v => Sys2Proof.Machine.execEngineService m e v s
  | .i2cReadMaxTemp => Sys2Proof.Machine.execI2cReadMaxTemp s
  | .i2cReadTemps => Sys2Proof.Machine.execI2cReadTemps s
  | .i2cReadPower => Sys2Proof.Machine.execI2cReadPower s
  | .i2cReadBootState => Sys2Proof.Machine.execI2cReadBootState s
  | .i2cReadStatus => Sys2Proof.Machine.execI2cReadStatus s
  | .i2cSetPointer v => Sys2Proof.Machine.execI2cSetPointer v s
  | .i2cReadRegister => Sys2Proof.Machine.execI2cReadRegister s
  | .sessCommit m v => Sys2Proof.Machine.execSessCommit m v s
  | .tauFlush m v => Sys2Proof.Machine.execTauFlush m v s
  | .nextLocal m v => Sys2Proof.Machine.execNextLocal m v s
  | .jobReadmit m st v => Sys2Proof.Machine.execJobReadmit m st v s
  | .rateCapWrite m r v => Sys2Proof.Machine.execRateCapWrite m r v s
  | .ringCfg m v => Sys2Proof.Machine.execRingCfg m v s
  | .intakeConfigWrite m offset v => Sys2Proof.Machine.execIntakeConfigWrite m offset v s
  | .proxyGen m v => Sys2Proof.Machine.execProxyGen m v s
  | .proxyGeometryWrite m frames v => Sys2Proof.Machine.execProxyGeometryWrite m frames v s
  | .maintEntry ix => Sys2Proof.Machine.execMaintEntry ix s
  | .i2cBad b => Sys2Proof.Machine.execI2cBad b s
  | .configurationWrite f v => Sys2Proof.Machine.execConfigurationWrite f v s
  | .dlActive rate width => Sys2Proof.Machine.execDlActive rate width s
  | .recordCheckDone => Sys2Proof.Machine.execRecordCheckDone s
  | .functionReady => Sys2Proof.Machine.execFunctionReady s

end Sys2Proof.Machine
end

