-- ==== Sys2Proof/Machine/Step.lean ====
section
/-!
DEFINITION. One step: the command at the front of the queue, or, on an empty queue, one TCLK edge.
-/
namespace Sys2Proof.Machine

/-- One step. On an empty queue no command waits and a TCLK edge passes (notes/assumptions/6.md). -/
def step (s : State) : Host.Outcome State Fault Refusal :=
  match s.pending with
  | [] => done s.tclk
  | c :: r => exec c { s with pending := r }

/-- The state with the command that a table word spells at the front of its queue; the table gives no row bits, so no
word spells one and the state stays. -/
def State.withFetchWord (s : State) (nbits w : Nat) : State :=
  match decodeTableWord nbits w with
  | none => s
  | some c => { s with pending := c :: s.pending }

end Sys2Proof.Machine
end

