-- ==== Sys2Proof/Safety.lean ====
section
/-!
DEFINITION. The terms in which claims are stated: what a command leaves alone, and the relations between the fields of the state
that every step keeps.
-/
namespace Sys2Proof.Machine

/-- The tallies that may count with any command, because they count rises of the interrupt outputs (R320, R331). -/
def riseTallies : List Nat := [Reg.ICU_BYPASS 0, Reg.ICU_BYPASS 1, Reg.ENDPOINT_PME_SENT]

/-- Every register but those listed and the tallies of `riseTallies` reads as before. -/
def SameRegs (ks : List Nat) (s t : State) : Prop := ∀ k, k ∉ ks → k ∉ riseTallies → t.reg k = s.reg k

/-- Every byte of every store reads as before, under the flat numbers of the stores' bytes. -/
def SameBytes (s t : State) : Prop := ∀ k, t.byte k = s.byte k

/-- Nothing but registers, the interrupt controller, the endpoint and the record of what was sent differs. -/
def SameRest (s t : State) : Prop :=
  { t with regs := s.regs, icu := s.icu, ep := s.ep, egress := s.egress } = s

/-- Nothing of the endpoint differs but INTA and PME, which follow the host output (R317, R320). -/
def SameEp (s t : State) : Prop :=
  { t.ep with inta := s.ep.inta, pmeStatus := s.ep.pmeStatus, wakeLow := s.ep.wakeLow } = s.ep

/-- A tally after one event (R6). -/
def State.counted (s : State) (k : Nat) : Word := BitVec.ofNat 32 (min ((s.reg k).toNat + 1) 0xFFFFFFFF)

/-- What a trigger of containment leaves (R321, R323): a new episode where none stands or a release is pending; else its code is
added to those seen. `ks` are the registers that the command changes besides. -/
def State.Contains (s : State) (code : Nat) (ks : List Nat) (t : State) : Prop :=
  (bit (s.reg Reg.ENDPOINT_CONTAIN) 8 = true ∨ s.frozenLink = false →
    t.reg Reg.ENDPOINT_CONTAIN = BitVec.ofNat 32 (code + 65536 * (s.tick.toNat % 65536)) ∧
    t.reg Reg.ENDPOINT_CONTAIN_CAUSE = BitVec.ofNat 32 (code + 2 ^ (7 + code)) ∧
    t.reg Reg.ENDPOINT_CONTAIN_TALLY = s.counted Reg.ENDPOINT_CONTAIN_TALLY ∧
    t.reg (Reg.EVT_RAW 0x400) = s.reg (Reg.EVT_RAW 0x400) ||| 1 ∧
    t.reg Reg.ENDPOINT_RELEASE_CANCEL =
      (if bit (s.reg Reg.ENDPOINT_CONTAIN) 8 then s.counted Reg.ENDPOINT_RELEASE_CANCEL else s.reg Reg.ENDPOINT_RELEASE_CANCEL) ∧
    SameRegs ([Reg.ENDPOINT_CONTAIN, Reg.ENDPOINT_CONTAIN_CAUSE, Reg.ENDPOINT_CONTAIN_TALLY, Reg.EVT_RAW 0x400,
      Reg.ENDPOINT_RELEASE_CANCEL] ++ ks) s t) ∧
  (bit (s.reg Reg.ENDPOINT_CONTAIN) 8 = false ∧ s.frozenLink = true →
    t.reg Reg.ENDPOINT_CONTAIN_CAUSE = s.reg Reg.ENDPOINT_CONTAIN_CAUSE ||| BitVec.ofNat 32 (2 ^ (7 + code)) ∧
    SameRegs (Reg.ENDPOINT_CONTAIN_CAUSE :: ks) s t)

/-- Nothing makes an access wait or meet an error: no latent error, no store being cleared, no channel closed by a MAINT entry (R279,
R280, R301, R302). -/
def State.AtRest (s : State) : Prop := s.upsets = [] ∧ s.power.clearing = [] ∧ ∀ c, (s.dram c).closed = false

/-- The instruction of opcode `op` at `pc` of cluster c is the next to start, and its words are read without an error (R97, R99):
`x` holds its stall, job and words. -/
def State.NextIs (s : State) (c : Fin 8) (pc op : Nat) (x : Issue) : Prop :=
  ∃ sl, s.nextInstr c pc = some (x.st, sl) ∧ x.job = sl.job ∧ x.c = c ∧
    x.ws = s.words { store := .spad c, addr := pc } 16 ∧ s.refusesAccess { store := .spad c, addr := pc } 64 = none ∧
    s.AtRest ∧ bits (x.w 0) 7 0 = op

/-- It runs: no setting of it is refused, its predicate holds, and no engine or operand of a MATMUL that has not completed makes it
wait (R98 to R100). -/
def State.Runs (s : State) (c : Fin 8) (pc op : Nat) (x : Issue) : Prop :=
  s.NextIs c pc op x ∧ instrBad x.ws = false ∧ s.predicate x = true ∧ s.held x = false

/-- What the sequencer shows of an instruction that has started (R120): one more has started, and SEQ_PC shows it. -/
def State.Started (s t : State) (c : Fin 8) (pc : Nat) : Prop :=
  (t.cluster c.val).started = (s.cluster c.val).started + 1 ∧ t.reg (Reg.CLUSTER_SEQ_PC c.val) = BitVec.ofNat 32 pc

/-- The byte ranges can be read by a job: none is refused at the address that parity relocates it to. -/
def State.CanRead (s : State) (rs : List (Ptr × Nat)) : Prop :=
  ∀ r ∈ rs, s.refusesAccess (s.relocate s.unitOdd r.1) r.2 = none

/-- The byte ranges can be written by a job: none is refused, and none lies in the ledger banks (R275). -/
def State.CanWrite (s : State) (rs : List (Ptr × Nat)) : Prop :=
  ∀ r ∈ rs, s.refusesAccess (s.relocate s.unitOdd r.1) r.2 = none ∧
    ¬ ((s.relocate s.unitOdd r.1).store = .common ∧ 0x2E00000 < (s.relocate s.unitOdd r.1).addr + r.2)

/-- Every byte outside the ranges, at the addresses that parity relocates them to, reads as before. -/
def State.SameOutside (s t : State) (rs : List (Ptr × Nat)) : Prop :=
  ∀ k, (∀ r ∈ rs, ∀ i < r.2, s.flat (ptrAdd (s.relocate s.unitOdd r.1) i) ≠ some k) → t.byte k = s.byte k

/-- The bytes of a range, at the address that parity relocates it to. -/
def State.shows (s : State) (p : Ptr) (n : Nat) : List Byte := s.peeks (s.relocate s.unitOdd p) n

/-- The effective length that word k of an instruction gives: the register's value, clipped at the maximum (R108, R145). -/
def State.effective (s : State) (x : Issue) (k : Nat) : Nat :=
  if bit (x.w k) 24 then min (s.len x.c.val x.job (bits (x.w k) 23 20)).toNat (bits (x.w k) 19 0) else bits (x.w k) 19 0

/-- The output pixels of EXPAND, S2D or POOL in order (R116 to R118): the window of each, the first byte that it writes, and how
many bytes. -/
def Issue.patchRanges (x : Issue) (op : Nat) : List (List (Option (Nat × Nat)) × Ptr × Nat) :=
  let e := elemBytes (bits (x.w 1) 27 24)
  let n := bits (x.w 3) 15 0
  if op = 0x02 then
    (List.range (bits (x.w 5) 31 16 * expandWidth x)).map (fun k =>
      let ws := expandWindow x (bits (x.w 5) 15 0 + k / expandWidth x) (k % expandWidth x)
      (ws, ptrAdd x.dst (k * descStride (x.w 9)), max (descStride (x.w 9)) (ws.length * (n * e))))
  else if op = 0x03 then
    let b := bits (x.w 1) 3 0
    let ow := cdiv (bits (x.w 2) 31 16) b
    (List.range (cdiv (bits (x.w 2) 15 0) b * ow)).map (fun k =>
      (s2dWindow x (k / ow) (k % ow), ptrAdd x.dst (k / ow * descStride (x.w 9) + k % ow * (b * b * n * e)), b * b * n * e))
  else
    let ow := outSize (bits (x.w 2) 31 16) (bits (x.w 4) 11 8 + bits (x.w 4) 15 12) 1 (bits (x.w 1) 7 4) (bits (x.w 1) 15 12)
    (List.range (bits (x.w 5) 31 16 * ow)).map (fun k =>
      (poolWindow x (bits (x.w 5) 15 0 + k / ow) (k % ow), ptrAdd x.dst (k / ow * descStride (x.w 9) + k % ow * n * e), n * e))

/-- The groups of a vector instruction over r rows and cn columns (R146, R154 to R159): the ranges that each reads and writes. -/
def Issue.vxRanges (x : Issue) (op r cn : Nat) : List (List (Ptr × Nat) × List (Ptr × Nat)) :=
  let bb := elemBits x.d.fmt
  let row := fun (i j n : Nat) => elemRange (x.x.row i) (elemBits x.x.fmt) j n
  let p := bits (x.w 12) 11 8
  if op = 0x42 then (List.range r).map (fun i => ([row i 0 cn], [(ptrAdd x.d.p (4 * i), 4)]))
  else if op = 0x43 then (List.range r).map (fun i => ([row i 0 cn], [(x.d.row i, (cn * bb + 7) / 8)]))
  else if op = 0x44 then (List.range r).flatMap (fun i => (blockGroups p cn).map (fun ks =>
    ([x.blockRange i p cn ks], [(ptrAdd (x.d.row i) (4 * ks.headD 0), 4 * ks.length)])))
  else if op = 0x46 then (List.range r).flatMap (fun i => (blockGroups p (cn / 2 ^ p * 2 ^ p)).map (fun ks =>
    ([x.blockRange i p (cn / 2 ^ p * 2 ^ p) ks], [(ptrAdd (x.d.row i) (4 * (ks.headD 0 * 2 ^ p)), 4 * (ks.length * 2 ^ p))])))
  else
    (vGroups (decide (op ≠ 0x45) && x.x.blocked) r cn).map (fun g =>
      (x.x.ranges g.1 g.2 ++ (x.yRanges g.1 g.2 ++ (if op = 0x40 then x.zRanges g.2 else [])),
       g.1.map (fun i => (ptrAdd (x.d.row i) (g.2.headD 0 * bb / 8), (g.2.length * bb + 7) / 8))))

/-- The host output follows the sources, and INTA follows the output (R317, R322, R328). -/
def State.OutputsFollow (s : State) : Prop :=
  s.icu.host.output = s.icuOut 0 s.icu.host.idle ∧ s.ep.inta = s.intaNow

end Sys2Proof.Machine
end

