-- ==== Sys2Proof/Certificates/Slice0/Obligations.lean ====
section
/-!
DEFINITION. The statements for the provers: one proposition each; OBLIGATIONS.json lists them.
-/
open Sys2Proof Sys2Proof.Machine

/-- Where a command waits at the front of the queue, a step answers what the command answers on the state with the rest of
the queue. (00_scope.md, notes/assumptions/6.md) -/
def Obligations.StepRunsFrontCommand : Prop :=
  ∀ (c : Instr) (r : List Instr) (s : State), s.pending = c :: r → step s = exec c { s with pending := r }

/-- The model's choice of log entry 6: on an empty queue a step is one TCLK edge. While no tick is due and none runs,
local time advances by the increment and nothing else of time or ledger changes; before the time PLL has locked
nothing changes but the outputs that follow their sources. (R335, R364, notes/assumptions/6.md) -/
def Obligations.EmptyQueueLetsATclkEdgePass : Prop :=
  ∀ s : State, s.pending = [] →
    (s.tsu.running = false → step s = .next (settle s)) ∧
    (s.tsu.running = true → s.ledger.firstNs = 0 → s.periodNs = 0 → s.ledger.ticking = false →
      s.tsu.residual = 0 →
      ∃ t, step s = .next t ∧
        t.tsu.ns.toNat * 2 ^ 32 + t.tsu.frac.toNat =
          (s.tsu.ns.toNat * 2 ^ 32 + s.tsu.frac.toNat + s.tsu.inc.toNat) % 2 ^ 64 ∧
        t.ledger = s.ledger ∧ t.tsu.nextTick = s.tsu.nextTick ∧ SameRegs [] s t ∧ SameBytes s t)

/-- Whatever the state before it, a step that answers a next state leaves the host output of the interrupt controller
equal to whether no source is active and a presentable one is pending, and INTA equal to that output where Interrupt
Disable, containment and PERST# allow it. (R317, R322, R328, 15_interrupt_controller.md) -/
def Obligations.OutputsFollowSourcesAfterEveryStep : Prop :=
  ∀ s t : State, step s = .next t → t.OutputsFollow

/-- The state after reset meets the relation that every step keeps: neither the host output nor INTA is asserted, and no
source is pending. (R373, R328) -/
def Obligations.ResetStateOutputsFollow : Prop :=
  State.reset.OutputsFollow ∧ State.reset.icu.host.output = false ∧ State.reset.ep.inta = false

/-- After reset every register of every page reads the reset value of its table; CHIP_ID, OWNER of a page of the host and
of one of the MGC, the tick period, the bank states and a cap of a regulator are named; every byte of an on-chip store
reads 0, no power domain is on, no bus master or memory space is enabled, and no command waits. Where the rules leave
a point open, it rests on the model's reading in log entries 7, 8 and 9. (R280, R371, R373, R408, R409,
20_register_page_map.md) -/
def Obligations.ResetValues : Prop :=
  (∀ k, State.reset.reg k = regReset k) ∧
  State.reset.reg Reg.CHIP_CHIP_ID = 0x00106410 ∧ State.reset.owner 0x011 = 0 ∧ State.reset.owner 0x010 = 1 ∧
  State.reset.reg Reg.TICK_PERIOD_US = 0 ∧ State.reset.reg Reg.LEDGER_BANK_STATE = 0 ∧
  State.reset.reg (Reg.STALL_DRAM_RATE 3) = 0x0000FFFF ∧ State.reset.reg Reg.THERMAL_PWR_LIMIT = 0x0000FDE8 ∧
  (∀ k, flatIsDram k = false → State.reset.byte k = 0) ∧
  (∀ d, State.reset.domOn d = false) ∧ State.reset.ep.busMaster = false ∧ State.reset.ep.memorySpace = false ∧
  State.reset.pending = []

/-- A write that the page admits, to a register with read-write access that has no meaning of its own and whose lock bit
is clear, writes the register's fields and keeps its reserved bits; every other register, every byte of the stores and
everything else stays. Only an admitted write at a block-specific offset of a debug page, whose layout the spec keeps
out, stops by name; every other register write answers a next state. Where the rules leave a point open, it rests on
the model's reading in log entries 16 and 76. (R3, R4, R410, R413, R415) -/
def Obligations.RegisterWriteByTheOwner : Prop :=
  (∀ (m : Master) (page off : BitVec 12) (v : Word) (d : RegDesc) (s : State),
    s.admits m page.toNat = true → regDesc page.toNat off.toNat = some d → (d.access = .rw ∨ d.access = .rwl) →
    s.regLocked page.toNat d = false → ownWrite m page off.toNat v 0 = none → (off.toNat < 0x100 ∨ 0xE00 ≤ off.toNat ∨ page.toNat < 0xF00) →
    ∃ t, exec (.registerWrite m page off v none) s = .next t ∧
      t.reg (s.keyAt page.toNat off.toNat) = mergeBits (s.reg (s.keyAt page.toNat off.toNat))
          (if off.toNat = 0x014 then eventMask page.toNat else fieldsMask d.fields) v ∧
      SameRegs [s.keyAt page.toNat off.toNat] s t ∧ SameBytes s t ∧ SameRest s t) ∧
  (∀ (m : Master) (page off : BitVec 12) (v : Word) (col : Option Collision) (s : State),
    (0xF00 ≤ page.toNat ∧ 0x100 ≤ off.toNat ∧ off.toNat < 0xE00 ∧ s.admits m page.toNat = true →
      exec (.registerWrite m page off v col) s = .refused .debugLayout) ∧
    (¬ (0xF00 ≤ page.toNat ∧ 0x100 ≤ off.toNat ∧ off.toNat < 0xE00 ∧ s.admits m page.toNat = true) →
      ∃ t, exec (.registerWrite m page off v col) s = .next t))

/-- A register write of the MGC or the ledger to an implemented page that it does not own, at every offset of the page but
OWNER, reserved offsets and those of the debug pages included, changes no register but the page's DROP_TALLY, which
counts one and saturates; so do a write of LOCK, EVT_RAW, EVT_SET and TALLY_CLR as commands of their own. (R3, R410,
R412) -/
def Obligations.WritesOfOtherMastersAreDropped : Prop :=
  ∀ (m : Master) (page off : BitVec 12) (v : Word) (s : State), m ≠ .host → (pageDesc page.toNat).isSome = true →
    s.owner page.toNat ≠ masterCode m → off.toNat ≠ 0x01C →
    ∀ c ∈ [Instr.registerWrite m page off v none, .lockWrite m page v, .evtRawClear m page v 0, .evtSet m page v,
            .tallyClr m page v []],
      ∃ t, exec c s = .next t ∧
        t.reg (Reg.DROP_TALLY page.toNat) = BitVec.ofNat 32 (min ((s.reg (Reg.DROP_TALLY page.toNat)).toNat + 1) 0xFFFFFFFF) ∧
        SameRegs [Reg.DROP_TALLY page.toNat] s t ∧ SameBytes s t ∧ SameRest s t

/-- OWNER takes the value written by the page's owner, or by the MGC while the ledger owns the page, and the new owner
governs from then on; the value 3, a write of another master and a write while lock bit 31 is set leave it and count
in DROP_TALLY. (R7, R389, R411) -/
def Obligations.OwnerRegister : Prop :=
  ∀ (m : Master) (page : BitVec 12) (v : Word) (s : State), (pageDesc page.toNat).isSome = true →
    (m = .host → s.hostBlocked page.toNat = none) →
    (bits v 1 0 ≠ 3 → s.locked page.toNat 31 = false → (s.owner page.toNat = masterCode m ∨ (m = .mgc ∧ s.owner page.toNat = 2)) →
      ∃ t, exec (.ownerWrite m page v) s = .next t ∧ t.owner page.toNat = bits v 1 0 ∧
        SameRegs [Reg.OWNER page.toNat] s t ∧ SameBytes s t ∧ SameRest s t) ∧
    ((bits v 1 0 = 3 ∨ s.locked page.toNat 31 = true ∨ (s.owner page.toNat ≠ masterCode m ∧ (m ≠ .mgc ∨ s.owner page.toNat ≠ 2))) →
      ∃ t, exec (.ownerWrite m page v) s = .next t ∧ t.owner page.toNat = s.owner page.toNat ∧
        t.reg (Reg.DROP_TALLY page.toNat) = BitVec.ofNat 32 (min ((s.reg (Reg.DROP_TALLY page.toNat)).toNat + 1) 0xFFFFFFFF) ∧
        SameRegs [Reg.DROP_TALLY page.toNat] s t ∧ SameBytes s t ∧ SameRest s t)

/-- A write to LOCK that the page admits sets the bits written as 1 and clears none; where it would have cleared a set bit
it counts in DROP_TALLY, and otherwise it does not. A write to OWNER with the value 3 leaves OWNER and counts in
DROP_TALLY. (R7) -/
def Obligations.LockBitsAreSetOnly : Prop :=
  ∀ (m : Master) (page : BitVec 12) (v : Word) (s : State), s.admits m page.toNat = true →
    (∃ t, exec (.lockWrite m page v) s = .next t ∧
      t.reg (Reg.LOCK page.toNat) = s.reg (Reg.LOCK page.toNat) ||| v ∧
      t.reg (Reg.DROP_TALLY page.toNat) =
        (if s.reg (Reg.LOCK page.toNat) &&& ~~~v = 0 then s.reg (Reg.DROP_TALLY page.toNat)
         else BitVec.ofNat 32 (min ((s.reg (Reg.DROP_TALLY page.toNat)).toNat + 1) 0xFFFFFFFF)) ∧
      SameRegs [Reg.LOCK page.toNat, Reg.DROP_TALLY page.toNat] s t ∧ SameBytes s t ∧ SameRest s t) ∧
    (bits v 1 0 = 3 → ∃ t, exec (.ownerWrite m page v) s = .next t ∧ t.reg (Reg.OWNER page.toNat) = s.reg (Reg.OWNER page.toNat) ∧
      t.reg (Reg.DROP_TALLY page.toNat) = BitVec.ofNat 32 (min ((s.reg (Reg.DROP_TALLY page.toNat)).toNat + 1) 0xFFFFFFFF) ∧
      SameRegs [Reg.DROP_TALLY page.toNat] s t ∧ SameBytes s t ∧ SameRest s t)

/-- A write to EVT_RAW that the page admits clears the bits written as 1 but those that hardware sets in the same cycle,
which are set afterwards; a write to EVT_SET sets the bits of the page's events. No other register changes. (R5) -/
def Obligations.EventBitsSetAndCleared : Prop :=
  ∀ (m : Master) (page : BitVec 12) (v hw : Word) (s : State), s.admits m page.toNat = true →
    (∃ t, exec (.evtRawClear m page v hw) s = .next t ∧
      t.reg (Reg.EVT_RAW page.toNat) =
        (s.reg (Reg.EVT_RAW page.toNat) &&& ~~~v) ||| (hw &&& eventMask page.toNat) ∧
      SameRegs [Reg.EVT_RAW page.toNat] s t ∧ SameBytes s t ∧ SameRest s t) ∧
    (∃ t, exec (.evtSet m page v) s = .next t ∧
      t.reg (Reg.EVT_RAW page.toNat) = s.reg (Reg.EVT_RAW page.toNat) ||| (v &&& eventMask page.toNat) ∧
      SameRegs [Reg.EVT_RAW page.toNat] s t ∧ SameBytes s t ∧ SameRest s t) ∧
    (∀ (p : Nat) (d : PageDesc), pageDesc p = some d → (∀ x, d.domain = some x → s.domOn x = true ∧ s.power.clearing.contains x = false) →
      (s.pageLine p = true ↔ ∃ n < 32, bit (s.reg (Reg.EVT_RAW p)) n = true ∧ bit (s.reg (Reg.EVT_EN p)) n = true))

/-- Counting an event adds one to a tally that stops at 0xFFFF_FFFF. A write of 1 to TALLY_CLR bit 0 that the page admits
makes every tally of the page at 0xE00 to 0xEFF, and DROP_TALLY, read 0, but for a tally whose event is counted in the
same cycle, which reads 1; a write of 0 clears nothing. (R6) -/
def Obligations.TalliesSaturateAndClear : Prop :=
  (∀ (s : State) (k : Nat), (s.tally k).reg k = (if s.reg k = 0xFFFFFFFF then 0xFFFFFFFF else s.reg k + 1)) ∧
  (∀ (m : Master) (page : BitVec 12) (v : Word) (same : List (BitVec 12)) (s : State), s.admits m page.toNat = true →
    bit v 0 = true → same.Nodup →
    ∃ t, exec (.tallyClr m page v same) s = .next t ∧ SameBytes s t ∧
      (∀ k, isTally k = true → keyPage k = page.toNat → k ∉ riseTallies →
        (∀ o ∈ same, (regDesc page.toNat o.toNat).isSome = true → k ≠ s.keyAt page.toNat o.toNat) → t.reg k = 0) ∧
      (∀ o ∈ same, isTally o.toNat = true → (regDesc page.toNat o.toNat).isSome = true →
        s.keyAt page.toNat o.toNat ∉ riseTallies → t.reg (s.keyAt page.toNat o.toNat) = 1)) ∧
  (∀ (m : Master) (page : BitVec 12) (v : Word) (s : State), s.admits m page.toNat = true → bit v 0 = false →
    ∃ t, exec (.tallyClr m page v []) s = .next t ∧ SameRegs [] s t)

/-- The winner at a target is the lowest-numbered presentable source. A read of CLAIM by the page's owner with no active
source returns the winner and makes it the active source, starts its group's hold-off timer unless the hold-off is 0,
takes the pending state of a pulse or edge source, and counts in CLAIMS; with no presentable source it returns 0 and
takes nothing. A read by another master returns the same value and changes nothing. (R328, R329, R330, R414) -/
def Obligations.ClaimTakesTheLowestSource : Prop :=
  (∀ (s : State) (t n : Nat) (idle : Bool), s.winner t idle = some n →
    n < 256 ∧ s.presentable t idle n = true ∧ ∀ k < n, s.presentable t idle k = false) ∧
  (∀ (m : Master) (t : Bool) (n : Nat) (s : State), s.owner (8 + targetNo t) = masterCode m →
    (m = .host → s.hostReadBlocked = none) → (s.target (targetNo t)).active = none →
    s.winner (targetNo t) (s.target (targetNo t)).idle = some n →
    ∃ u, exec (.claim m t) s = .next u ∧ (u.target (targetNo t)).active = some n ∧
      (u.target (targetNo t)).running.getLsbD (n / 16) =
        decide (bits (s.reg (rkey (8 + targetNo t) (0x180 + 4 * (n / 16)))) 15 0 ≠ 0) ∧
      (n = 0 → u.icu.pulse0 = false) ∧ (∀ e < 8, n = 240 + e → u.icu.edges.getLsbD e = false) ∧
      u.reg (Reg.ICU_CLAIMS (targetNo t)) =
        BitVec.ofNat 32 (min ((s.reg (Reg.ICU_CLAIMS (targetNo t))).toNat + 1) 0xFFFFFFFF) ∧
      (∃ r, u.egress = s.egress ++ Egress.readCompletion (BitVec.ofNat 32 (n + 0x100)) :: r) ∧ SameBytes s u) ∧
  (∀ (m : Master) (t : Bool) (s : State), (m = .host → s.hostReadBlocked = none) →
    (s.target (targetNo t)).active = none → s.winner (targetNo t) (s.target (targetNo t)).idle = none →
    s.owner (8 + targetNo t) = masterCode m →
    ∃ u, exec (.claim m t) s = .next u ∧ (u.target (targetNo t)).active = none ∧
      (∃ r, u.egress = s.egress ++ Egress.readCompletion 0 :: r) ∧ SameRegs [Reg.ICU_HOST_IDLE 0] s u) ∧
  (∀ (m : Master) (t : Bool) (s : State), (m = .host → s.hostReadBlocked = none) → s.owner (8 + targetNo t) ≠ masterCode m →
    ∃ u, exec (.claim m t) s = .next u ∧ (u.target (targetNo t)).active = (s.target (targetNo t)).active ∧
      (∃ r, u.egress = s.egress ++ Egress.readCompletion (s.claimValue (targetNo t)) :: r) ∧ SameRegs [] s u ∧ SameRest s u)

/-- A write of COMPLETE that the page admits ends the active source where it names it; any other write leaves the active
source, counts in COMPLETE_IGNORED and raises the page's event. (R329) -/
def Obligations.CompleteEndsTheActiveSource : Prop :=
  ∀ (m : Master) (t : Bool) (v : Word) (s : State), s.admits m (8 + targetNo t) = true →
    ((s.target (targetNo t)).active = some (bits v 7 0) →
      ∃ u, exec (.complete m t v) s = .next u ∧ (u.target (targetNo t)).active = none ∧ SameRegs [] s u ∧ SameBytes s u ∧
        SameRest s u) ∧
    ((s.target (targetNo t)).active ≠ some (bits v 7 0) →
      ∃ u, exec (.complete m t v) s = .next u ∧ (u.target (targetNo t)).active = (s.target (targetNo t)).active ∧
        u.reg (Reg.ICU_COMPLETE_IGNORED (targetNo t)) =
          BitVec.ofNat 32 (min ((s.reg (Reg.ICU_COMPLETE_IGNORED (targetNo t))).toNat + 1) 0xFFFFFFFF) ∧
        u.reg (Reg.EVT_RAW (8 + targetNo t)) = s.reg (Reg.EVT_RAW (8 + targetNo t)) ||| 1 ∧
        SameRegs [Reg.ICU_COMPLETE_IGNORED (targetNo t), Reg.EVT_RAW (8 + targetNo t)] s u ∧ SameBytes s u ∧ SameRest s u)

/-- The expiry of a hold-off timer ends it and no other timer of that target; HOST_IDLE written by the owner of the host
page sets the bypass of the host's hold-offs; an edge at a latch leaves its source 240 + n pending and every other
latch as it was. Where the rules leave a point open, it rests on the model's reading in log entry 23. (R326, R327,
R330, R331, R332) -/
def Obligations.HoldOffIdleAndEdges : Prop :=
  (∀ (t : Bool) (g : Fin 16) (s : State), ∃ u, exec (.holdoffExpiry t g) s = .next u ∧
    (∀ k : Fin 16, (u.target (targetNo t)).running.getLsbD k.val =
      (if k = g then false else (s.target (targetNo t)).running.getLsbD k.val)) ∧
    (u.target (targetNo t)).active = (s.target (targetNo t)).active ∧ SameRegs [] s u ∧ SameBytes s u ∧ SameRest s u) ∧
  (∀ (m : Master) (v : Word) (s : State), s.admits m 0x008 = true → ∃ u, exec (.hostIdle m v) s = .next u ∧
    u.icu.host.idle = bit v 0 ∧ u.reg (Reg.ICU_HOST_IDLE 0) = v &&& 1 ∧ u.icu.host.active = s.icu.host.active ∧
    SameRegs [Reg.ICU_HOST_IDLE 0] s u ∧ SameBytes s u ∧ SameRest s u) ∧
  (∀ (e : Fin 8) (s : State), ∃ u, exec (.edgeLatch e) s = .next u ∧ u.pendingSrc (240 + e.val) = true ∧
    (∀ k : Fin 8, k ≠ e → u.pendingSrc (240 + k.val) = s.pendingSrc (240 + k.val)) ∧ u.icu.pulse0 = s.icu.pulse0 ∧
    SameRegs [] s u ∧ SameBytes s u ∧ SameRest s u)

/-- A read of TIME_NS that reaches the device returns the nanosecond count and latches the fraction for the reading
master. While no bank is active, or the device is halted, a write of SET_NS that the page admits sets the count,
clears the fraction, counts in STEP, and where no switch waits loads the next tick value with the first boundary PHASE
+ k x PERIOD at least 1 ms ahead of the full time that goes with the count (a free value); a write of PHASE_NS is
taken, too. At any other time both are dropped and counted, and local time stays. Where the rules leave a point open,
it rests on the model's reading in log entries 37 and 100. (R335, R336, R347, R414) -/
def Obligations.LocalTimeReadStepAndPhase : Prop :=
  (∀ (m : Master) (s : State), (m = .host → s.hostReadBlocked = none) → ∃ t, exec (.timeNsRead m) s = .next t ∧
    (∃ r, t.egress = s.egress ++ Egress.readCompletion s.tsu.ns :: r) ∧
    t.tsu = (match m with
      | .host => { s.tsu with latchHost := s.tsu.frac }
      | .mgc => { s.tsu with latchMgc := s.tsu.frac }
      | .ledger => { s.tsu with latchLedger := s.tsu.frac }) ∧ SameRegs [] s t ∧ SameBytes s t) ∧
  (∀ (m : Master) (v : Word) (s : State), s.admits m 0x500 = true →
    ((s.bankActive = false ∨ s.haltStage = 2) → ∃ t, exec (.setNs m v) s = .next t ∧
      t.tsu.ns = v ∧ t.tsu.frac = 0 ∧ t.tsu.inc = s.tsu.inc ∧
      t.reg Reg.TIME_STEP = BitVec.ofNat 32 (min ((s.reg (Reg.TIME_STEP)).toNat + 1) 0xFFFFFFFF) ∧
      (s.ledger.firstNs = 0 → s.periodNs ≠ 0 → ∃ k,
        t.tsu.nextTick = BitVec.ofNat 32 (s.regN Reg.TICK_PHASE_NS + k * s.periodNs) ∧ t.ledger.nextSeq = BitVec.ofNat 32 k ∧
        t.tsu.wraps * 2 ^ 32 + v.toNat + 1000000 ≤ s.regN Reg.TICK_PHASE_NS + k * s.periodNs ∧
        ∀ j < k, s.regN Reg.TICK_PHASE_NS + j * s.periodNs < t.tsu.wraps * 2 ^ 32 + v.toNat + 1000000) ∧
      SameRegs [Reg.TIME_STEP] s t ∧ SameBytes s t) ∧
    ((s.bankActive = true ∧ s.haltStage ≠ 2) → ∃ t, exec (.setNs m v) s = .next t ∧ t.tsu = s.tsu ∧
      t.reg (Reg.DROP_TALLY 0x500) = BitVec.ofNat 32 (min ((s.reg (Reg.DROP_TALLY 0x500)).toNat + 1) 0xFFFFFFFF) ∧ SameRegs [Reg.DROP_TALLY 0x500] s t ∧ SameBytes s t ∧ SameRest s t)) ∧
  (∀ (m : Master) (v : Word) (s : State), s.admits m 0x010 = true →
    ((s.bankActive = false ∨ s.haltStage = 2) → ∃ t, exec (.phaseNs m v) s = .next t ∧ t.reg Reg.TICK_PHASE_NS = v ∧
      t.tsu.ns = s.tsu.ns ∧ t.tsu.frac = s.tsu.frac ∧
      (s.ledger.firstNs = 0 → s.periodNs ≠ 0 → ∃ k, t.tsu.nextTick = BitVec.ofNat 32 (v.toNat + k * s.periodNs) ∧
        s.fullNs + 1000000 ≤ v.toNat + k * s.periodNs ∧ ∀ j < k, v.toNat + j * s.periodNs < s.fullNs + 1000000) ∧
      SameRegs [Reg.TICK_PHASE_NS] s t ∧ SameBytes s t) ∧
    ((s.bankActive = true ∧ s.haltStage ≠ 2) → ∃ t, exec (.phaseNs m v) s = .next t ∧ t.tsu = s.tsu ∧
      t.reg (Reg.DROP_TALLY 0x010) = BitVec.ofNat 32 (min ((s.reg (Reg.DROP_TALLY 0x010)).toNat + 1) 0xFFFFFFFF) ∧ SameRegs [Reg.DROP_TALLY 0x010] s t ∧ SameBytes s t ∧ SameRest s t))

/-- An OFFSET write that the page admits to a domain that is not followed stores the offset and updates no term. To the
followed domain outside a handover it sets F and the phase term by the servo or the slew formula, clamped to 50 ppm
and to BOUND, counts in CLAMPED when the phase term was clamped, and sets INC and RATE from their sum; INC is 2^34
plus the rate share rounded to nearest with ties toward zero. During a handover F follows the offset less the residual
in whole nanoseconds, and the phase term is held. (R342, R344, notes/assumptions/35.md) -/
def Obligations.OffsetWritesDriveTheRate : Prop :=
  (∀ (x : Int) (d : Nat), 0 < d → 2 * (x - d * roundTowardZero x d).natAbs ≤ d ∧
    (2 * (x - d * roundTowardZero x d).natAbs = d → (d * roundTowardZero x d).natAbs < x.natAbs)) ∧
  (∀ (m : Master) (d : Fin 2) (v : Word) (s : State), s.admits m (pageDomain d.val) = true →
    (s.followed ≠ d.val → ∃ t, exec (.offsetWrite m d v) s = .next t ∧ t.reg (Reg.DOMAIN_OFFSET d.val) = v ∧
      SameRegs [Reg.DOMAIN_OFFSET d.val] s t ∧ SameBytes s t ∧ SameRest s t) ∧
    (s.followed = d.val → ∀ (o f phi b : Int), o = v.toInt - s.tsu.residual.tdiv (2 ^ 32) →
      b = (bits (s.reg (Reg.DOMAIN_CFG d.val)) 25 16 : Int) * 1000 →
      (bit (s.reg (Reg.DOMAIN_CFG d.val)) 1 = false →
        f = s.tsu.freq + ((bits (s.reg (Reg.DOMAIN_GAINS d.val)) 31 16 : Int) * o) / 256 ∧
        phi = -(((bits (s.reg (Reg.DOMAIN_GAINS d.val)) 15 0 : Int) * o) / 256)) →
      (bit (s.reg (Reg.DOMAIN_CFG d.val)) 1 = true → f = -(s.reg (Reg.DOMAIN_RATIO d.val)).toInt ∧
        phi = (-(o * 1000000000)).tdiv (2 ^ ((BitVec.ofNat 8 (bits (s.reg (Reg.DOMAIN_INTERVAL d.val)) 7 0)).toInt + 30).toNat)) →
      ∃ t, exec (.offsetWrite m d v) s = .next t ∧ t.reg (Reg.DOMAIN_OFFSET d.val) = v ∧
        t.tsu.freq = clampInt (-50000) 50000 f ∧
        t.tsu.phase = (if s.tsu.residual = 0 then clampInt (-b) b phi else s.tsu.phase) ∧
        t.tsu.inc = BitVec.ofInt 36 (2 ^ 34 + roundTowardZero ((t.tsu.freq + t.tsu.phase) * 2 ^ 34) 1000000000) ∧
        t.tsu.ns = s.tsu.ns ∧ t.tsu.frac = s.tsu.frac ∧ t.tsu.residual = s.tsu.residual ∧
        t.reg Reg.TIME_RATE = BitVec.ofInt 32 (t.tsu.freq + t.tsu.phase) ∧
        t.reg (Reg.DOMAIN_CLAMPED d.val) = (if s.tsu.residual = 0 ∧ (phi < -b ∨ b < phi) then
          BitVec.ofNat 32 (min ((s.reg (Reg.DOMAIN_CLAMPED d.val)).toNat + 1) 0xFFFFFFFF) else s.reg (Reg.DOMAIN_CLAMPED d.val)) ∧
        SameRegs [Reg.DOMAIN_OFFSET d.val, Reg.DOMAIN_CLAMPED d.val, Reg.TIME_RATE, Reg.TIME_FREQ, Reg.TIME_INC_FRAC,
          Reg.TIME_INC_NS] s t ∧ SameBytes s t))

/-- When a STATE write takes the followed domain out of LOCKED, the device follows the other domain if that is LOCKED and
counts FAILOVER and HANDOVER, and is otherwise in holdover with the phase term 0, counting HOLDOVER. When a domain
becomes LOCKED, or SEL is written, and the domain SEL names is LOCKED and not followed, it is followed. A handover
sets the residual to the new domain's last OFFSET and holds the phase term at -sign(H) x BOUND; its end leaves
residual and phase term 0. F never changes by any of these, and local time does not step. (R344, R345, R353,
notes/assumptions/36.md) -/
def Obligations.FollowedDomainChanges : Prop :=
  (∀ (s : State) (d : Nat) (n : Nat), d < 2 → n < 2 → ∀ t : State,
    t = (if n = 0 then s.follow d else s.holdover) →
    t.tsu.freq = s.tsu.freq ∧ t.tsu.ns = s.tsu.ns ∧ t.tsu.frac = s.tsu.frac ∧
    (n = 0 → t.followed = d ∧ t.tsu.residual = (s.reg (Reg.DOMAIN_OFFSET d)).toInt * 2 ^ 32 ∧
      t.tsu.phase = -(s.reg (Reg.DOMAIN_OFFSET d)).toInt.sign * ((bits (s.reg (Reg.DOMAIN_CFG d)) 25 16 : Int) * 1000) ∧
      t.reg Reg.TIME_HANDOVER = BitVec.ofNat 32 (min ((s.reg (Reg.TIME_HANDOVER)).toNat + 1) 0xFFFFFFFF) ∧
      SameRegs [Reg.TIME_HANDOVER, Reg.TIME_FOLLOW, Reg.TIME_HAND_REM, Reg.TIME_RATE, Reg.TIME_FREQ, Reg.TIME_INC_FRAC,
        Reg.TIME_INC_NS] s t) ∧
    (n = 1 → t.followed = 2 ∧ t.tsu.residual = 0 ∧ t.tsu.phase = 0 ∧ t.reg Reg.TIME_HOLDOVER = BitVec.ofNat 32 (min ((s.reg (Reg.TIME_HOLDOVER)).toNat + 1) 0xFFFFFFFF) ∧
      bit (t.reg (Reg.EVT_RAW 0x500)) 1 = true ∧
      SameRegs [Reg.TIME_HOLDOVER, Reg.EVT_RAW 0x500, Reg.TIME_FOLLOW, Reg.TIME_HAND_REM, Reg.TIME_RATE, Reg.TIME_FREQ,
        Reg.TIME_INC_FRAC, Reg.TIME_INC_NS] s t)) ∧
  (∀ (m : Master) (d : Fin 2) (v : Word) (s : State), s.admits m (pageDomain d.val) = true →
    ∃ t, exec (.domainStateWrite m d v) s = .next t ∧ bits (t.reg (Reg.DOMAIN_STATE d.val)) 2 0 = bits v 2 0 ∧
      t.tsu.freq = s.tsu.freq ∧ t.tsu.ns = s.tsu.ns ∧ t.tsu.frac = s.tsu.frac ∧ SameBytes s t ∧
      (s.followed = d.val → bits v 2 0 ≠ 3 → bits (s.reg (Reg.DOMAIN_STATE (1 - d.val))) 2 0 = 3 →
        t.followed = 1 - d.val ∧ t.reg Reg.TIME_FAILOVER = BitVec.ofNat 32 (min ((s.reg (Reg.TIME_FAILOVER)).toNat + 1) 0xFFFFFFFF) ∧
        t.tsu.residual = (s.reg (Reg.DOMAIN_OFFSET (1 - d.val))).toInt * 2 ^ 32) ∧
      (s.followed = d.val → bits v 2 0 ≠ 3 → bits (s.reg (Reg.DOMAIN_STATE (1 - d.val))) 2 0 ≠ 3 → t.followed = 2 ∧ t.tsu.phase = 0) ∧
      (bits v 2 0 = 3 → bits (s.reg (Reg.DOMAIN_STATE d.val)) 2 0 ≠ 3 → bits (s.reg Reg.TIME_SEL) 1 0 = d.val →
        s.followed ≠ d.val → t.followed = d.val ∧ t.reg Reg.TIME_HANDOVER = BitVec.ofNat 32 (min ((s.reg (Reg.TIME_HANDOVER)).toNat + 1) 0xFFFFFFFF))) ∧
  (∀ (m : Master) (v : Word) (s : State), s.admits m 0x500 = true →
    ∃ t, exec (.sel m v) s = .next t ∧ t.reg Reg.TIME_SEL = v &&& 3 ∧ t.tsu.freq = s.tsu.freq ∧ SameBytes s t ∧
      (bits v 1 0 < 2 → s.followed ≠ bits v 1 0 → bits (s.reg (Reg.DOMAIN_STATE (bits v 1 0))) 2 0 = 3 → t.followed = bits v 1 0) ∧
      (bits v 1 0 < 2 → (s.followed = bits v 1 0 ∨ bits (s.reg (Reg.DOMAIN_STATE (bits v 1 0))) 2 0 ≠ 3) →
        SameRegs [Reg.TIME_SEL] s t ∧ SameRest s t) ∧
      (2 ≤ bits v 1 0 → s.followed < 2 → t.followed = 2 ∧ t.tsu.phase = 0)) ∧
  (∀ s : State, (s.tsu.residual ≠ 0 → ∃ t, exec .handoverEnd s = .next t ∧ t.tsu.residual = 0 ∧ t.tsu.phase = 0 ∧
      t.tsu.freq = s.tsu.freq ∧ t.tsu.ns = s.tsu.ns ∧ bit (t.reg Reg.TIME_FOLLOW) 2 = false ∧ t.followed = s.followed ∧
      t.reg Reg.TIME_HAND_REM = 0) ∧
    (s.tsu.residual = 0 → ∃ t, exec .handoverEnd s = .next t ∧ t.tsu = s.tsu ∧ SameRegs [] s t ∧ SameBytes s t ∧ SameRest s t))

/-- A GM_ID_HI write that the page admits stores the word; where the clockIdentity differs from the one at the previous
such write it counts GM_CHANGE, sets EVT_RAW bit 0 and takes a LOCKED domain to ACQUIRING. A CFG write is dropped
while its lock bit is set, dropped and counted in GUARD_REFUSE where it raises S beyond what an ACTIVE or WEIGHED bank
allows, and else takes effect with S as the larger BOUND of the enabled domains. An event message sent for a domain
leaves its stamp, corrected for its port's mode, rate and ADJ_TX, with sequenceId and messageType with the valid bit,
counting a stamp not yet read as lost; a read by the owner clears the valid bit only, and a read by another master
changes nothing. The corrections lie within half of 1/256 ns of the rule's values. Where the rules leave a point open,
it rests on the model's reading in log entries 37 and 95. (R25, R338, R339, R341, R343, R354, R414) -/
def Obligations.GrandmastersBoundsAndTransmitStamps : Prop :=
  (∀ (m : Master) (d : Fin 2) (v : Word) (s : State), s.admits m (pageDomain d.val) = true →
    ∃ t, exec (.gmChange m d v) s = .next t ∧ t.reg (Reg.DOMAIN_GM_ID_HI d.val) = v ∧ SameBytes s t ∧
      (v ++ s.reg (Reg.DOMAIN_GM_ID_LO d.val) = (if d = 0 then s.tsu.gmA else s.tsu.gmB) →
        SameRegs [Reg.DOMAIN_GM_ID_HI d.val] s t ∧ t.tsu = s.tsu) ∧
      (v ++ s.reg (Reg.DOMAIN_GM_ID_LO d.val) ≠ (if d = 0 then s.tsu.gmA else s.tsu.gmB) →
        (if d = 0 then t.tsu.gmA else t.tsu.gmB) = v ++ s.reg (Reg.DOMAIN_GM_ID_LO d.val) ∧
        t.reg (Reg.DOMAIN_GM_CHANGE d.val) = BitVec.ofNat 32 (min ((s.reg (Reg.DOMAIN_GM_CHANGE d.val)).toNat + 1) 0xFFFFFFFF) ∧ bit (t.reg (Reg.EVT_RAW (pageDomain d.val))) 0 = true ∧
        (bits (s.reg (Reg.DOMAIN_STATE d.val)) 2 0 = 3 → bits (t.reg (Reg.DOMAIN_STATE d.val)) 2 0 = 2) ∧
        (bits (s.reg (Reg.DOMAIN_STATE d.val)) 2 0 ≠ 3 →
          SameRegs [Reg.DOMAIN_GM_ID_HI d.val, Reg.DOMAIN_GM_CHANGE d.val, Reg.EVT_RAW (pageDomain d.val)] s t))) ∧
  (∀ (m : Master) (d : Fin 2) (v : Word) (s : State), s.admits m (pageDomain d.val) = true → ∀ new old : Nat,
    new = max (if bit v 0 then bits v 25 16 else 0)
      (if bit (s.reg (Reg.DOMAIN_CFG (1 - d.val))) 0 then bits (s.reg (Reg.DOMAIN_CFG (1 - d.val))) 25 16 else 0) →
    old = max (if bit (s.reg (Reg.DOMAIN_CFG d.val)) 0 then bits (s.reg (Reg.DOMAIN_CFG d.val)) 25 16 else 0)
      (if bit (s.reg (Reg.DOMAIN_CFG (1 - d.val))) 0 then bits (s.reg (Reg.DOMAIN_CFG (1 - d.val))) 25 16 else 0) →
    (s.locked (pageDomain d.val) 0 = true → ∃ t, exec (.domainCfg m d v) s = .next t ∧
      t.reg (Reg.DROP_TALLY (pageDomain d.val)) = BitVec.ofNat 32 (min ((s.reg (Reg.DROP_TALLY (pageDomain d.val))).toNat + 1) 0xFFFFFFFF) ∧ SameRegs [Reg.DROP_TALLY (pageDomain d.val)] s t ∧ SameRest s t) ∧
    (s.locked (pageDomain d.val) 0 = false → old < new → (∃ b, s.bankGuardOk b new = false) →
      ∃ t, exec (.domainCfg m d v) s = .next t ∧ t.reg Reg.TICK_GUARD_REFUSE = BitVec.ofNat 32 (min ((s.reg (Reg.TICK_GUARD_REFUSE)).toNat + 1) 0xFFFFFFFF) ∧
        SameRegs [Reg.TICK_GUARD_REFUSE] s t ∧ SameBytes s t ∧ SameRest s t) ∧
    (s.locked (pageDomain d.val) 0 = false → (new ≤ old ∨ ∀ b, s.bankGuardOk b new = true) →
      ∃ t, exec (.domainCfg m d v) s = .next t ∧ t.reg (Reg.DOMAIN_CFG d.val) = v &&& 0x03FFFF7F ∧
        t.reg Reg.TICK_CORR_S = BitVec.ofNat 32 new ∧
        SameRegs [Reg.DOMAIN_CFG d.val, Reg.TICK_CORR_S] s t ∧ SameBytes s t ∧ SameRest s t)) ∧
  (∀ (d : Fin 2) (q : BitVec 16) (y : BitVec 4) (stamp : Word) (frac : Byte) (s : State),
    ∃ t, exec (.ptpEventTx d q y stamp frac) s = .next t ∧
      t.reg (Reg.DOMAIN_TX_STAMP_NS d.val) = (s.egressStamp (s.domainPort d.val) stamp frac).1 ∧
      t.reg (Reg.DOMAIN_TX_STAMP_INFO d.val) =
        (8#4 ++ (s.egressStamp (s.domainPort d.val) stamp frac).2 ++ y ++ q : BitVec 32) ∧
      t.reg (Reg.DOMAIN_TX_STAMP_LOST d.val) = (if bit (s.reg (Reg.DOMAIN_TX_STAMP_INFO d.val)) 31 then
        BitVec.ofNat 32 (min ((s.reg (Reg.DOMAIN_TX_STAMP_LOST d.val)).toNat + 1) 0xFFFFFFFF) else s.reg (Reg.DOMAIN_TX_STAMP_LOST d.val)) ∧
      SameRegs [Reg.DOMAIN_TX_STAMP_NS d.val, Reg.DOMAIN_TX_STAMP_INFO d.val, Reg.DOMAIN_TX_STAMP_LOST d.val] s t ∧
      SameBytes s t ∧ SameRest s t) ∧
  (∀ (m : Master) (d : Fin 2) (s : State), (m = .host → s.hostReadBlocked = none) →
    ∃ t, exec (.txStampRead m d) s = .next t ∧
      (∃ r, t.egress = s.egress ++ Egress.readCompletion (s.reg (Reg.DOMAIN_TX_STAMP_INFO d.val)) :: r) ∧
      t.reg (Reg.DOMAIN_TX_STAMP_INFO d.val) = (if s.owner (pageDomain d.val) = masterCode m then
        s.reg (Reg.DOMAIN_TX_STAMP_INFO d.val) &&& 0x7FFFFFFF else s.reg (Reg.DOMAIN_TX_STAMP_INFO d.val)) ∧
      SameRegs [Reg.DOMAIN_TX_STAMP_INFO d.val] s t ∧ SameBytes s t ∧ SameRest s t) ∧
  (∀ x ∈ [(false, 4, 51200, 38400), (true, 4, 56000, 41600), (true, 3, 104000, 76800), (true, 2, 200000, 148800),
      (true, 1, 488000, 364800)],
    ((stampCorrections x.1 x.2.1).1 * 1000 - (x.2.2.1 : Int) * 256).natAbs ≤ 500 ∧
    ((stampCorrections x.1 x.2.1).2 * 1000 - (x.2.2.2 : Int) * 256).natAbs ≤ 500)

/-- With local time running, a tick period set, no switch waiting from idle, and local time at or past the next tick
value, a tick event adds the period to the next tick value, leaves local time, and raises the edge of source 245. In
Arm, or as the first of a bank, it begins the tick: the number shown is the boundary's, the grain count 0, the delay
0. Before Arm it counts LATE_START, leaves the number and the grain, and its delay waits for the end of the boundary
sequence. Without a running clock it does nothing; without a period it does nothing either. Where the rules leave a
point open, it rests on the model's reading in log entries 37 and 39. (R21, R22, R23, R27, R326) -/
def Obligations.TickEventsBeginTicks : Prop :=
  ∀ (d : BitVec 16) (s : State), s.ledger.firstNs = 0 →
    ((s.tsu.running = false ∨ s.periodNs = 0) → ∃ t, exec (.tickEvent d) s = .next t ∧ t.tsu = s.tsu ∧ t.ledger = s.ledger ∧
      SameRegs [] s t ∧ SameBytes s t ∧ SameRest s t) ∧
    (s.tsu.running = true → s.periodNs ≠ 0 → (s.tsu.ns - s.tsu.nextTick).toNat < 2 ^ 31 →
      ∃ t, exec (.tickEvent d) s = .next t ∧ t.tsu.nextTick = s.tsu.nextTick + BitVec.ofNat 32 s.periodNs ∧
        t.tsu.ns = s.tsu.ns ∧ t.tsu.frac = s.tsu.frac ∧ t.pendingSrc 245 = true ∧
        ((s.ledger.armed = true ∨ s.ledger.ticking = false) →
          t.reg Reg.TICK_SEQ = s.ledger.nextSeq ∧ t.reg Reg.TICK_GRAIN = 0 ∧ t.ledger.ticking = true ∧ t.ledger.armed = false ∧
          t.ledger.lateEclk = 0 ∧ t.ledger.lateTick = none ∧ t.ledger.nextSeq = s.ledger.nextSeq + 1 ∧
          (s.sec.updLatched = false → SameRegs [Reg.TICK_SEQ, Reg.TICK_GRAIN] s t ∧ SameBytes s t)) ∧
        (s.ledger.armed = false → s.ledger.ticking = true →
          t.reg Reg.TICK_LATE_START = BitVec.ofNat 32 (min ((s.reg Reg.TICK_LATE_START).toNat + 1) 0xFFFFFFFF) ∧
          t.ledger.lateTick = some d ∧ t.ledger.ticking = true ∧ t.ledger.armed = false ∧
          SameRegs [Reg.TICK_LATE_START] s t ∧ SameBytes s t))

/-- The boundary sequence of a ticking bank that is not armed clears every length register, every stream's picture records
and access units of the tick and the lists of gaps, late and clipped streams. It ends armed, the grain register
showing H + 37 with its boundary bit, or, where a tick event has come before it finished, with the tick begun at grain
0. With no bank active, before the first tick or once armed it changes nothing. Where the rules leave a point open, it
rests on the model's reading in log entries 38 and 39. (R26, R27, R97, R107) -/
def Obligations.BoundarySequenceClearsTheTick : Prop :=
  ∀ (c : Fin 4) (a : List (BitVec 16)) (s : State),
    ((s.bankActive = false ∨ s.ledger.ticking = false ∨ s.ledger.armed = true) →
      ∃ t, exec (.boundarySequence c a) s = .next t ∧ t.ledger = s.ledger ∧ SameRegs [] s t ∧ SameBytes s t ∧ SameRest s t) ∧
    (s.bankActive = true → s.ledger.ticking = true → s.ledger.armed = false →
      ∃ t, exec (.boundarySequence c a) s = .next t ∧ (∀ n, (t.cluster n).lens = []) ∧
        (∀ x, (t.stream x).pics = [] ∧ (t.stream x).aus = [] ∧ (t.stream x).fetched = none) ∧
        t.ledger.gaps = [] ∧ t.ledger.late = [] ∧ t.ledger.clipped = [] ∧
        ((t.ledger.armed = true ∧ bit (t.reg Reg.TICK_GRAIN) 31 = true ∧
            bits (t.reg Reg.TICK_GRAIN) 17 0 = (bits (t.reg Reg.TICK_HORIZON) 17 0 + 37) % 2 ^ 18) ∨
          (t.ledger.armed = false ∧ t.ledger.ticking = true ∧ t.ledger.lateTick = none ∧ t.reg Reg.TICK_GRAIN = 0)))

/-- A write of SWITCH_REQ that the page admits without the valid bit withdraws a request. With it, the request is refused
(the valid bit clears, SWITCH_MISSED counts, the page event is raised) where the bank named is not WEIGHED, where tick
k - 1 is over or its boundary sequence has run, or where k lies more than 2^31 ticks ahead; otherwise it stands. With
no bank active the boundary that it waits for is the k-th of the bank's period, at least 1 ms ahead. HALT takes bit 0.
At the first halt stage the media, CSI and demultiplexer entries and the host DMA CUTOFF do not run, at the second
none. (R34, R36, R347, notes/assumptions/40.md) -/
def Obligations.SwitchRequestsAndHalts : Prop :=
  (∀ (m : Master) (v : Word) (s : State), s.admits m 0x011 = true → ∀ (b : Bool) (refuse : State → Prop), b = bit v 0 →
    (refuse = fun t => bit (t.reg Reg.LEDGER_SWITCH_REQ) 1 = false ∧ bit (t.reg (Reg.EVT_RAW 0x011)) 0 = true ∧
      t.reg Reg.LEDGER_SWITCH_MISSED = BitVec.ofNat 32 (min ((s.reg Reg.LEDGER_SWITCH_MISSED).toNat + 1) 0xFFFFFFFF) ∧
      t.ledger.firstNs = 0 ∧
      SameRegs [Reg.LEDGER_SWITCH_REQ, Reg.LEDGER_SWITCH_MISSED, Reg.EVT_RAW 0x011] s t ∧ SameBytes s t) →
    (bit v 1 = false → ∃ t, exec (.switchReq m v) s = .next t ∧ t.reg Reg.LEDGER_SWITCH_REQ = v &&& 3 ∧ t.ledger.firstNs = 0 ∧
      SameRegs [Reg.LEDGER_SWITCH_REQ] s t ∧ SameBytes s t) ∧
    (bit v 1 = true → s.bankState b ≠ 2 → ∃ t, exec (.switchReq m v) s = .next t ∧ refuse t) ∧
    (bit v 1 = true → s.bankState b = 2 → s.bankActive = true →
      (s.haltStage = 2 → bits (s.bankWord b 0x004) 17 0 * 1000 = s.periodNs) → ∀ d : Nat,
      d = (s.reg Reg.LEDGER_SWITCH_TICK - s.reg Reg.TICK_SEQ).toNat →
      ((d = 0 ∨ 2 ^ 31 < d ∨ (d = 1 ∧ s.ledger.armed = true)) → ∃ t, exec (.switchReq m v) s = .next t ∧ refuse t) ∧
      ((d ≠ 0 ∧ d ≤ 2 ^ 31 ∧ (d ≠ 1 ∨ s.ledger.armed = false)) → ∃ t, exec (.switchReq m v) s = .next t ∧
        t.reg Reg.LEDGER_SWITCH_REQ = v &&& 3 ∧ SameRegs [Reg.LEDGER_SWITCH_REQ] s t ∧ SameBytes s t)) ∧
    (bit v 1 = true → s.bankState b = 2 →
      (s.bankActive = false ∨ (s.haltStage = 2 ∧ bits (s.bankWord b 0x004) 17 0 * 1000 ≠ s.periodNs)) →
      (s.firstBoundary (bits (s.bankWord b 0x004) 17 0 * 1000) (s.reg Reg.LEDGER_SWITCH_TICK) = none →
        ∃ t, exec (.switchReq m v) s = .next t ∧ refuse t) ∧
      (∀ x, s.firstBoundary (bits (s.bankWord b 0x004) 17 0 * 1000) (s.reg Reg.LEDGER_SWITCH_TICK) = some x →
        ∃ t, exec (.switchReq m v) s = .next t ∧ t.reg Reg.LEDGER_SWITCH_REQ = v &&& 3 ∧ t.ledger.firstNs = x ∧
          t.tsu.nextTick = BitVec.ofNat 32 x ∧ SameRegs [Reg.LEDGER_SWITCH_REQ] s t ∧ SameBytes s t))) ∧
  (∀ (s : State) (p : Nat) (k : Word) (x : Nat), s.firstBoundary p k = some x →
    s.fullNs + 1000000 ≤ x ∧ ∃ j, x = s.regN Reg.TICK_PHASE_NS + j * p ∧ BitVec.ofNat 32 j = k) ∧
  (∀ (m : Master) (v : Word) (s : State), s.admits m 0x011 = true → ∃ t, exec (.halt m v) s = .next t ∧
    t.reg Reg.LEDGER_HALT = v &&& 1 ∧ SameRegs [Reg.LEDGER_HALT] s t ∧ SameBytes s t ∧ SameRest s t) ∧
  (∀ (s : State) (i : Nat) (e : Entry), s.entry i = some e → s.bankActive = true ∧ s.haltStage ≠ 2 ∧
    (s.haltStage = 1 → ¬ (0x10 ≤ e.unit ∧ e.unit ≤ 0x1D) ∧ e.unit ≠ 0x20 ∧ e.unit ≠ 0x21 ∧ ¬ (e.unit = 0x1F ∧ e.action = 9)))

/-- A PROGRAM entry of a working stall whose slot is free, not alternate-only, runs its job if the job is not blocked and
its header can be read: the slot names entry, job and model, the accumulators of the stall's clusters hold nothing
live, no instruction has started, and each cluster's sequencer shows the job running. A blocked one runs its alternate
where that is not blocked and counts ALT_RUN, and else idles and counts IDLE_SLOT. A job is blocked exactly for the
reasons of R40 and in the first tick of a cold switch. The end of the slot leaves none running; where no engine has
work left, it counts LATE_STOP exactly if some instruction has not started. Where the rules leave a point open, it
rests on the model's reading in log entries 12 and 44. (R35, R40, R41, R85, R97) -/
def Obligations.ProgramSlots : Prop :=
  (∀ (s : State) (e : Entry), s.blocked e = true ↔ (s.ledger.coldTick = true ∨
    bit (s.reg (Reg.STALL_JOB_FAULTED e.unit)) e.job = true ∨ bit (s.effReg (Reg.STALL_JOB_SUSPEND e.unit)) e.job = true ∨
    ¬ (bit (s.reg (Reg.STALL_RESIDENT e.unit)) 31 = true ∧ bits (s.reg (Reg.STALL_RESIDENT e.unit)) 15 0 = e.model))) ∧
  (∀ (i : EntryIx) (s : State) (e : Entry) (runs : Nat → Nat → Entry → State → Prop), s.entryFor i.val 0 7 1 = some e →
    e.altOnly = false → bits (s.reg (Reg.STALL_STATE e.unit)) 1 0 = 1 → (s.stall e.unit).slot = none →
    (runs = fun k n x t => (t.stall e.unit).slot = some ⟨n, x.job, x.model⟩ ∧
      (∀ c ∈ s.stallClusters e.unit, (t.cluster c).started = 0 ∧ t.reg (Reg.CLUSTER_SEQ_STATE c) = BitVec.ofNat 32 (1 + 256 * x.job) ∧
        ∀ a ∈ t.acc, a.1 / (8 * 2048 * 32) ≠ c) ∧
      SameRegs (k :: Reg.STALL_INTAKE_GAP x.unit :: (s.stallClusters x.unit).map Reg.CLUSTER_SEQ_STATE) s t ∧ SameBytes s t) →
    (∀ h, s.blocked e = false → s.jobHeader i.val e = some h →
      ∃ t, exec (.programSlotStart i) s = .next t ∧ runs (Reg.STALL_INTAKE_GAP e.unit) i.val e t) ∧
    (∀ j a h, s.blocked e = true → s.altEntry e = some (j, a) → a.unit = e.unit → s.jobHeader j a = some h →
      ∃ t, exec (.programSlotStart i) s = .next t ∧ runs (Reg.STALL_ALT_RUN e.unit) j a t ∧
        t.reg (Reg.STALL_ALT_RUN e.unit) = BitVec.ofNat 32 (min ((s.reg (Reg.STALL_ALT_RUN e.unit)).toNat + 1) 0xFFFFFFFF)) ∧
    (s.blocked e = true → s.altEntry e = none →
      ∃ t, exec (.programSlotStart i) s = .next t ∧ (t.stall e.unit).slot = none ∧
        t.reg (Reg.STALL_IDLE_SLOT e.unit) = BitVec.ofNat 32 (min ((s.reg (Reg.STALL_IDLE_SLOT e.unit)).toNat + 1) 0xFFFFFFFF) ∧
        SameRegs [Reg.STALL_IDLE_SLOT e.unit] s t ∧ SameBytes s t)) ∧
  (∀ (st : Fin 8) (s : State), ∃ t, exec (.programSlotEnd st) s = .next t ∧ (t.stall st.val).slot = none ∧
    ((s.stall st.val).slot.isSome = true → (∀ c ∈ s.stallClusters st.val, ∀ e ∈ clusterEngines c, (s.engine e).work = []) →
      t.reg (Reg.STALL_LATE_STOP st.val) = (if (∃ c ∈ s.stallClusters st.val, (s.cluster c).started < (s.cluster c).count) then
        BitVec.ofNat 32 (min ((s.reg (Reg.STALL_LATE_STOP st.val)).toNat + 1) 0xFFFFFFFF) else s.reg (Reg.STALL_LATE_STOP st.val)) ∧
      SameBytes s t))

/-- The start of a LOAD entry of a working stall ends the residency of the previous model and nothing else of the
registers. Its end makes the model resident exactly where all its copies succeed, and leaves the stall with none where
one fails. A write of JOB_READMIT that the page admits is kept, for the jobs that are torn down, until the boundary.
At the boundary the jobs of a stall that works are torn down no longer, but for one that has faulted in FAULT_LIMIT
consecutive ticks (0 taken as 1) and has not been readmitted. Where the rules leave a point open, it rests on the
model's reading in log entries 43 and 100. (R39, R43, R56) -/
def Obligations.LoadEntriesAndReadmission : Prop :=
  (∀ (i : EntryIx) (s : State) (e : Entry), s.entryFor i.val 0 7 7 = some e → bits (s.reg (Reg.STALL_STATE e.unit)) 1 0 = 1 →
    ∃ t, exec (.loadEntryStart i) s = .next t ∧ (t.stall e.unit).loading = some (e.model, i.val) ∧
      t.reg (Reg.STALL_RESIDENT e.unit) = 0 ∧ (t.stall e.unit).slot = (s.stall e.unit).slot ∧
      (∀ n, n ≠ e.unit → t.stall n = s.stall n) ∧ SameRegs [Reg.STALL_RESIDENT e.unit] s t ∧ SameBytes s t) ∧
  (∀ (st : Fin 8) (s : State) (model k sec job n pl sl : Nat) (r : Region) (x : State × Bool),
    (s.stall st.val).loading = some (model, k) → s.modelOf st.val model = some (sec, job, n, pl, sl) →
    s.active.recs.find? (fun r => r.kind == 1 && r.section_ == sec) = some r →
    x = ((s.stallClusters st.val).zipIdx.flatMap (fun c => loadCopies r n pl sl c.2 c.1)).foldl
      (fun (a : State × Bool) c => if a.2 then a.1.copy c.1 c.2.1 c.2.2 else a)
      (s.setStall st.val { s.stall st.val with loading := none }, true) →
    ∃ t, exec (.loadEntryEnd st) s = .next t ∧ (∀ a, t.byte a = x.1.byte a) ∧
      t.reg (Reg.STALL_RESIDENT st.val) =
        (if x.2 = true ∧ bits (x.1.reg (Reg.STALL_STATE st.val)) 1 0 = 1 then BitVec.ofNat 32 (model + 2 ^ 31)
         else x.1.reg (Reg.STALL_RESIDENT st.val))) ∧
  (∀ (m : Master) (st : Fin 8) (v : Word) (s : State), s.admits m (pageStall st.val) = true →
    ∃ t, exec (.jobReadmit m st v) s = .next t ∧ (t.stall st.val).readmit = (s.stall st.val).readmit ||| (v &&& s.reg (Reg.STALL_JOB_FAULTED st.val)) ∧
      (t.stall st.val).faultTicks = (s.stall st.val).faultTicks ∧ SameRegs [] s t ∧ SameBytes s t) ∧
  (∀ (s : State) (st j : Nat), j < 32 → bits (s.reg (Reg.STALL_STATE st)) 1 0 ≠ 2 → ∀ (limit old : Nat) (f r : Bool),
    limit = max 1 (bits (s.reg (Reg.STALL_FAULT_LIMIT st)) 3 0) → old = mapGetD (s.stall st).faultTicks j 0 →
    f = (s.stall st).faultNow.getLsbD j → r = (s.stall st).readmit.getLsbD j → old ≤ 16 →
    bit ((s.rebuildJobs st).reg (Reg.STALL_JOB_FAULTED st)) j =
      (!r && (if f then decide (limit ≤ old + 1) else decide (old = 16))) ∧
    (((s.rebuildJobs st).stall st).readmit = 0 ∧ ((s.rebuildJobs st).stall st).faultNow = 0))

/-- A fault of the job that runs in a stall records job, cause and tick number in FAULT_INFO, counts in JOB_FAULT, marks
the job torn down and ends the slot; with cause 0x07 residency ends too. A channel that freezes, and was not frozen,
shows FROZEN, records its cause, and every stall that is assigned and has the channel in its pitch loses its resident
model and shows state 2. Other stalls keep theirs. (R43, R44, R45, R304) -/
def Obligations.JobFaultsAndFrozenChannels : Prop :=
  (∀ (s : State) (st cause : Nat) (x : Slot), st < 8 → (s.stall st).slot = some x → x.job < 32 →
    ((s.jobFault st cause).stall st).slot = none ∧
    (s.jobFault st cause).reg (Reg.STALL_FAULT_INFO st) = BitVec.ofNat 32 (x.job + 256 * cause + 65536 * ((s.reg Reg.TICK_SEQ).toNat % 65536)) ∧
    bit ((s.jobFault st cause).reg (Reg.STALL_JOB_FAULTED st)) x.job = true ∧
    (s.jobFault st cause).reg (Reg.STALL_JOB_FAULT st) = BitVec.ofNat 32 (min ((s.reg (Reg.STALL_JOB_FAULT st)).toNat + 1) 0xFFFFFFFF) ∧
    (s.jobFault st cause).reg (Reg.STALL_RESIDENT st) = (if cause = 7 then 0 else s.reg (Reg.STALL_RESIDENT st)) ∧
    (∀ n, n ≠ st → (s.jobFault st cause).stall n = s.stall n) ∧
    (∀ n < 8, n ≠ st → (s.jobFault st cause).reg (Reg.STALL_RESIDENT n) = s.reg (Reg.STALL_RESIDENT n))) ∧
  (∀ (s : State) (c cause : Nat) (off : Option Nat), c < 8 → s.chanState c ≠ 2 →
    (s.freeze c cause off).chanState c = 2 ∧
    (s.freeze c cause off).reg (Reg.DC_FRZ_CAUSE c) = BitVec.ofNat 32 (cause + 65536 * ((s.reg Reg.TICK_SEQ).toNat % 65536)) ∧
    (s.freeze c cause off).reg (Reg.DC_FREEZE c) = BitVec.ofNat 32 (min ((s.reg (Reg.DC_FREEZE c)).toNat + 1) 0xFFFFFFFF) ∧
    (∀ st < 8, (bits (s.reg (Reg.STALL_PITCH st)) 7 0).testBit c = true → bits (s.reg (Reg.STALL_STATE st)) 1 0 ≠ 0 →
      (s.freeze c cause off).reg (Reg.STALL_STATE st) = 2 ∧ (s.freeze c cause off).reg (Reg.STALL_RESIDENT st) = 0) ∧
    (∀ st < 8, (bits (s.reg (Reg.STALL_PITCH st)) 7 0).testBit c = false →
      (s.freeze c cause off).reg (Reg.STALL_STATE st) = s.reg (Reg.STALL_STATE st) ∧
      (s.freeze c cause off).reg (Reg.STALL_RESIDENT st) = s.reg (Reg.STALL_RESIDENT st)))

/-- A staging entry that starts while another runs waits behind it. Otherwise, where its source is host memory or lies in
no pool's region, the transfer begins with the tick parity's addresses after the register writes of its descriptors.
The completion of a transfer from host memory with enough data writes exactly its bytes to the buffer, which no longer
counts as not staged; one with too few leaves the stores and marks the buffer. A transfer that needs the link does not
complete while the endpoint issues no request. Where the rules leave a point open, it rests on the model's reading in
log entry 48. (R42, R412, R430) -/
def Obligations.StagingTransfers : Prop :=
  (∀ (i : EntryIx) (x : Transfer) (s : State) (e : Entry), s.entryFor i.val 0x22 0x22 2 = some e →
    (s.ledger.staging.isSome = true → ∃ t, exec (.stagingDmaEntry i x) s = .next t ∧ t.ledger.staging = s.ledger.staging ∧
      t.ledger.stagingWait = s.ledger.stagingWait ++ [x] ∧ SameRegs [] s t ∧ SameBytes s t) ∧
    (s.ledger.staging = none →
      (∀ p, x.src = some p → (s.ledgerWrites x.regWrites).inPoolRegion (s.relocate s.unitOdd p) = false) →
      ∃ t, exec (.stagingDmaEntry i x) s = .next t ∧
        t.ledger.staging = some ⟨x.src.map (s.relocate s.unitOdd), x.dst.map (s.relocate s.unitOdd), x.hostAddr.toNat, x.len,
          x.stall.val, x.streams.map Fin.val⟩ ∧
        SameBytes (s.ledgerWrites x.regWrites) t ∧ SameRegs [] (s.ledgerWrites x.regWrites) t)) ∧
  (∀ (d : List Byte) (s : State), s.ledger.staging = none → ∃ t, exec (.stagingDmaDone d) s = .next t ∧
    t.ledger = s.ledger ∧ SameRegs [] s t ∧ SameBytes s t) ∧
  (∀ (d : List Byte) (s : State) (g : Staging), s.ledger.staging = some g → (g.src = none ∨ g.dst = none) → s.mayIssue = false →
    ∃ t, exec (.stagingDmaDone d) s = .next t ∧ t.ledger = s.ledger ∧ SameRegs [] s t ∧ SameBytes s t) ∧
  (∀ (d : List Byte) (s : State) (g : Staging) (p : Ptr) (k : Nat), s.ledger.staging = some g → g.src = none → g.dst = some p →
    s.mayIssue = true → s.ledger.stagingWait = [] → s.flat p = some k →
    (g.len ≤ d.length → s.refusesAccess p g.len = none → s.AtRest → ¬ (p.store = .common ∧ 0x2E00000 < p.addr + g.len) → ∃ t, exec (.stagingDmaDone d) s = .next t ∧
      t.ledger.staging = none ∧ mapGet t.ledger.unstaged k = none ∧ t.mem = (s.pokes p (d.take g.len)).mem ∧ SameRegs [] s t) ∧
    (d.length < g.len → ∃ t, exec (.stagingDmaDone d) s = .next t ∧
      t.ledger.staging = none ∧ mapGet t.ledger.unstaged k = some (g.stall, g.len, g.streams) ∧ SameRegs [] s t ∧ SameBytes s t))

/-- A write of MT_REQ that the page admits does nothing where the same request is pending, is dropped and counted where
all 16 entries of the queue hold requests that have not ended, and else enters a pending request with its test and
target. MT_CANCEL ends the pending request it names, or with bit 31 every one, as cancelled, and leaves running and
ended ones. A MAINT entry of a stall or of a media unit that lists the one pending request, whose target's domain is
on and whose bound fits its length less 8 ECLK, starts it and counts MT_RUN; one that does not fit is counted in
MT_NOFIT and stays pending. The end of a running test records pass or fail, a failed one in MT_FAIL with the failing
address for tests 2 and 3. Where the rules leave a point open, it rests on the model's reading in log entry 71. (R399,
R400, R401, R403) -/
def Obligations.TestRequests : Prop :=
  (∀ (m : Master) (v : Word) (s : State), s.admits m 0x00A = true →
    ((∃ x ∈ s.svc.queue, x.result = 0 ∧ x.test = bits v 2 0 ∧ x.target = bits v 15 8) →
      ∃ t, exec (.mtReq m v) s = .next t ∧ t.svc = s.svc ∧ SameRegs [] s t ∧ SameBytes s t ∧ SameRest s t) ∧
    ((∀ x ∈ s.svc.queue, ¬ (x.result = 0 ∧ x.test = bits v 2 0 ∧ x.target = bits v 15 8)) →
      (16 ≤ s.svc.queue.length → (∀ x ∈ s.svc.queue, x.result < 2) → ∃ t, exec (.mtReq m v) s = .next t ∧ t.svc = s.svc ∧
        t.reg (Reg.DROP_TALLY 0x00A) = BitVec.ofNat 32 (min ((s.reg (Reg.DROP_TALLY 0x00A)).toNat + 1) 0xFFFFFFFF) ∧
        SameRegs [Reg.DROP_TALLY 0x00A] s t ∧ SameBytes s t) ∧
      (s.svc.queue.length < 16 → ∃ t e, exec (.mtReq m v) s = .next t ∧ t.svc.queue = s.svc.queue ++ [e] ∧
        e.test = bits v 2 0 ∧ e.target = bits v 15 8 ∧ e.result = 0 ∧ e.taken = false ∧ (∀ x ∈ s.svc.queue, x.order < e.order) ∧
        SameRegs [Reg.SERVICE_MT_STATE, Reg.SERVICE_SVC_OUT, Reg.SERVICE_SVC_REJOIN] s t ∧ SameBytes s t) ∧
      (∀ k, 16 ≤ s.svc.queue.length → s.svc.queue.findIdx? (fun x => decide (2 ≤ x.result)) = some k →
        ∃ t e, exec (.mtReq m v) s = .next t ∧ t.svc.queue = s.svc.queue.set k e ∧ e.test = bits v 2 0 ∧
          e.target = bits v 15 8 ∧ e.result = 0 ∧ (∀ x ∈ s.svc.queue, x.order < e.order) ∧ SameBytes s t))) ∧
  (∀ (m : Master) (v : Word) (s : State), s.admits m 0x00A = true → s.svc.queue.length ≤ 16 →
    ∃ t, exec (.mtCancel m v) s = .next t ∧ t.svc.queue.length = s.svc.queue.length ∧
      (∀ k x, s.svc.queue[k]? = some x → t.svc.queue[k]? = some (if x.result = 0 ∧ (bit v 31 = true ∨ k = bits v 3 0) then
        { x with result := 4, failAddr := none, taken := false } else x)) ∧ SameBytes s t) ∧
  (∀ (i : EntryIx) (media : Bool) (s : State) (e : Entry) (x : MtEntry) (hs ws : List Word),
    (if media then s.entryFor i.val 0x10 0x1D 8 else s.entryFor i.val 0 7 8) = some e →
    s.actionWords e.operand 4 = some hs → s.actionWords (e.operand + 16) (bits (wordAt hs 0) 6 0) = some ws →
    s.svc.queue = [x] → x.result = 0 → s.targetOn x = true → (∃ w ∈ ws, bits w 2 0 = x.test ∧ bits w 15 8 = x.target) →
    (testBound x.test x.target ≤ e.length * 1536 - 8 →
      ∃ t, exec (if media then .maintEntry i else .stallMaintEntry i) s = .next t ∧
        t.svc.queue = [{ x with result := 1, taken := true }] ∧
        t.reg Reg.SERVICE_MT_RUN = BitVec.ofNat 32 (min ((s.reg Reg.SERVICE_MT_RUN).toNat + 1) 0xFFFFFFFF)) ∧
    (e.length * 1536 - 8 < testBound x.test x.target → x.taken = false →
      ∃ t, exec (if media then .maintEntry i else .stallMaintEntry i) s = .next t ∧ t.svc.queue = [x] ∧
        t.reg Reg.SERVICE_MT_NOFIT = BitVec.ofNat 32 (min ((s.reg Reg.SERVICE_MT_NOFIT).toNat + 1) 0xFFFFFFFF) ∧ SameBytes s t)) ∧
  (∀ (q : Fin 16) (passed : Bool) (a : BitVec 23) (s : State) (x : MtEntry), s.svc.queue[q.val]? = some x → x.result = 1 →
    (∀ y ∈ s.svc.queue, y.taken = true → y.result ≠ 0) →
    ∃ t, exec (.mtTestDone q passed a) s = .next t ∧
      t.svc.queue = s.svc.queue.set q.val { x with
        result := if passed then 2 else 3, taken := false,
        failAddr := if passed = false ∧ (x.test = 2 ∨ x.test = 3) then some a.toNat else none } ∧
      t.reg Reg.SERVICE_MT_FAIL = (if passed then s.reg Reg.SERVICE_MT_FAIL else
        BitVec.ofNat 32 (min ((s.reg Reg.SERVICE_MT_FAIL).toNat + 1) 0xFFFFFFFF)))

/-- A scrub of a bank whose domain is on moves the bank's pointer to the next unit, and at the last one wraps and counts
SCRUB_PASS; where it meets no error nothing else changes. A write-back repairs the corrected words of its bank, and
each that a foreground write came first to counts SCRUB_CANCEL. A write of SVC_UNIT that the page admits leaves its
request for the next Latch step if it is valid and names a media unit, and else nothing; a write of an engine's
SERVICE leaves its own unless lock bit 0 holds it. Where the rules leave a point open, it rests on the model's reading
in log entry 72. (R394, R395, R404, R406) -/
def Obligations.ScrubAndServiceRequests : Prop :=
  (∀ (b : Nat) (g : ScrubBank) (s : State), scrubBank b = some g → s.scrubRuns b = true →
    ∃ t, exec (.scrubDue b []) s = .next t ∧
      mapGetD t.svc.scrub b 0 = (if g.count ≤ mapGetD s.svc.scrub b 0 + 1 then 0 else mapGetD s.svc.scrub b 0 + 1) ∧
      (∀ c, c ≠ b → mapGetD t.svc.scrub c 0 = mapGetD s.svc.scrub c 0) ∧
      (s.upsets = [] → t.reg Reg.SERVICE_SCRUB_PASS = (if g.count ≤ mapGetD s.svc.scrub b 0 + 1 then
          BitVec.ofNat 32 (min ((s.reg Reg.SERVICE_SCRUB_PASS).toNat + 1) 0xFFFFFFFF) else s.reg Reg.SERVICE_SCRUB_PASS) ∧
        SameRegs [Reg.SERVICE_SCRUB_PASS] s t ∧ SameBytes s t)) ∧
  (∀ (b : Nat) (s : State), scrubBank b = none ∨ s.scrubRuns b = false → ∃ t, exec (.scrubDue b []) s = .next t ∧
    t.svc = s.svc ∧ SameRegs [] s t ∧ SameBytes s t) ∧
  (∀ (b : Nat) (c : Bool) (s : State), ∃ t, exec (.scrubWriteback b c) s = .next t ∧
    (∀ e ∈ t.svc.writeback, e.2 ≠ b) ∧ (∀ e ∈ s.svc.writeback, e.2 ≠ b → e ∈ t.svc.writeback) ∧
    (∀ u, u ∈ t.upsets ↔ u ∈ s.upsets ∧ ∀ e ∈ s.svc.writeback, e.2 = b → u.1 ≠ e.1) ∧
    t.reg Reg.SERVICE_SCRUB_CANCEL = BitVec.ofNat 32 (min ((s.reg Reg.SERVICE_SCRUB_CANCEL).toNat +
      (s.svc.writeback.filter (fun e => e.2 == b && s.overwritten c e.1)).length) 0xFFFFFFFF) ∧
    SameRegs [Reg.SERVICE_SCRUB_CANCEL] s t ∧ SameBytes s t) ∧
  (∀ (m : Master) (v : Word) (s : State), s.admits m 0x00A = true →
    (bit v 31 = true → 0x10 ≤ bits v 7 0 → bits v 7 0 ≤ 0x1D → ∃ t, exec (.svcUnit m v) s = .next t ∧
      mapGet t.svc.unitReq (bits v 7 0 - 0x10) = some (bit v 8) ∧
      (∀ u, u ≠ bits v 7 0 - 0x10 → mapGet t.svc.unitReq u = mapGet s.svc.unitReq u) ∧ t.svc.out = s.svc.out ∧
      SameRegs [] s t ∧ SameBytes s t) ∧
    (¬ (bit v 31 = true ∧ 0x10 ≤ bits v 7 0 ∧ bits v 7 0 ≤ 0x1D) → ∃ t, exec (.svcUnit m v) s = .next t ∧ t.svc = s.svc ∧
      SameRegs [] s t ∧ SameBytes s t ∧ SameRest s t)) ∧
  (∀ (m : Master) (e : Fin 64) (v : Word) (s : State), s.admits m (pageMx e.val) = true →
    (s.locked (pageMx e.val) 0 = false → ∃ t, exec (.engineService m e v) s = .next t ∧ t.reg (Reg.MX_SERVICE e.val) = v &&& 1 ∧
      mapGet t.svc.engReq e.val = some (bit v 0) ∧ t.svc.engOut = s.svc.engOut ∧ SameRegs [Reg.MX_SERVICE e.val] s t ∧ SameBytes s t) ∧
    (s.locked (pageMx e.val) 0 = true → ∃ t, exec (.engineService m e v) s = .next t ∧ t.svc = s.svc ∧
      t.reg (Reg.DROP_TALLY (pageMx e.val)) =
        BitVec.ofNat 32 (min ((s.reg (Reg.DROP_TALLY (pageMx e.val))).toNat + 1) 0xFFFFFFFF) ∧
      SameRegs [Reg.DROP_TALLY (pageMx e.val)] s t ∧ SameBytes s t ∧ SameRest s t))

/-- A CUTOFF entry asks for the index table where the endpoint may issue requests, in packets of at most
Max_Read_Request_Size, those beyond the limit of outstanding reads waiting, and else flags every ring stream
substituted. The indices that arrive give each ring stream the span up to its write index; a span longer than the ring
flags the stream. An intake DMA entry whose indices have not come counts INDEX_LATE and flags every ring stream; with
them it grants each stream at least the smaller of its span and its guarantee, and no more than its span. When the
reads have completed every stream with a span has its read index at its write index, and no byte of DRAM has changed.
Where the rules leave a point open, it rests on the model's reading in log entry 49. (R171, R173, R174, R177, R179,
R309, R315) -/
def Obligations.IntakeOfRings : Prop :=
  (∀ (i : EntryIx) (s : State) (e : Entry), s.entryFor i.val 0x1F 0x1F 9 = some e →
    (s.mayIssue = true → ∀ (k : Nat) (es : List Egress), k = s.readRoom - s.ep.reads.length →
      es = s.ep.waiting ++ (cutsAt (128 * 2 ^ s.ep.maxReadRequest.val)
        (hostAddr (s.reg Reg.INTAKE_INDEX_TABLE_LO) (s.reg Reg.INTAKE_INDEX_TABLE_HI)) 1024).map (fun x => .indexRead x.1 x.2) →
      ∃ t, exec (.cutoff i) s = .next t ∧ t.intake.pending = true ∧ t.intake.plan = e.operand ∧
      (∃ r, t.egress = s.egress ++ es.take k ++ r) ∧ t.ep.waiting = es.drop k ∧ t.ep.reads = s.ep.reads ++ es.take k ∧
      SameRegs [] s t ∧ SameBytes s t) ∧
    (s.mayIssue = false → ∃ t, exec (.cutoff i) s = .next t ∧ t.intake.pending = false ∧
      (∀ x < 256, s.ringStream x = true → (t.stream x).flagged = true) ∧ SameRegs [] s t ∧ SameBytes s t)) ∧
  (∀ (ix : List Word) (s : State), s.intake.pending = true → s.frozenLink = false →
    ∃ t, exec (.indexReadDone ix) s = .next t ∧ t.intake.ready = true ∧ t.intake.pending = false ∧ SameBytes s t ∧
      (∀ x < 256, s.ringStream x = true → ∀ span : Nat, span = (ix.getD x 0 - s.reg (Reg.INTAKE_READ_IDX x)).toNat →
        (span = 0 → t.stream x = s.stream x) ∧
        (0 < span → span ≤ s.ringUnits x → (t.stream x).fetched = some (ix.getD x 0)) ∧
        (s.ringUnits x < span → (t.stream x).flagged = true ∧ bit (t.reg (Reg.EVT_RAW 0x200)) 1 = true)) ∧
      SameRegs [Reg.INTAKE_RING_BAD, Reg.EVT_RAW 0x200] s t) ∧
  (∀ (i : EntryIx) (s : State) (e : Entry) (a b : Nat), s.entryFor i.val 0x1F 0x1F 2 = some e → s.planHeader e.operand = some (a, b) →
    s.AtRest → s.refusesAccess (s.actionPtr e.operand) 4160 = none →
    (s.intake.ready = false → s.intake.pending = true → ∃ t, exec (.intakeDmaEntry i) s = .next t ∧ t.intake.pending = false ∧
      t.reg Reg.INTAKE_INDEX_LATE = BitVec.ofNat 32 (min ((s.reg (Reg.INTAKE_INDEX_LATE)).toNat + 1) 0xFFFFFFFF) ∧ (∀ x < 256, s.ringStream x = true → (t.stream x).flagged = true) ∧
      SameRegs [Reg.INTAKE_INDEX_LATE, Reg.EVT_RAW 0x200] s t ∧ SameBytes s t) ∧
    (s.intake.ready = true → s.intake.want = [] → ∃ t, exec (.intakeDmaEntry i) s = .next t ∧ t.intake.active = true ∧
      t.intake.ready = false ∧ SameRegs [] s t ∧ SameBytes s t ∧
      (∀ x < 256, s.ringStream x = true → ∀ p, s.planRecAt e.operand x = some p → 0 < p.guar →
        min (s.spanBytes x) p.guar ≤ mapGetD t.intake.want x 0 ∧ mapGetD t.intake.want x 0 ≤ s.spanBytes x))) ∧
  (∀ (data : List (Fin 256 × List Byte)) (s : State), s.intake.active = true → s.frozenLink = false →
    ∃ t, exec (.intakeReadDone data) s = .next t ∧ t.intake.active = false ∧
      (∀ x < 256, ∀ w, (s.stream x).fetched = some w → t.reg (Reg.INTAKE_READ_IDX x) = w) ∧
      ∀ k, flatIsDram k = true → t.byte k = s.byte k)

/-- A demultiplexer entry ends the reads that are outstanding and what they were granted. For a stream of the flow-table
path that is enabled, not flagged and not in proxy pass, it takes in the access units completed before the cut-off, in
order, numbered from the stream's running count. Where its ring reads have completed, a ring stream has no access unit
open when the entry ends. A record whose header sets a reserved field, or whose TYPE does not suit its container, is
counted in REC_BAD and passed over. Where the rules leave a point open, it rests on the model's reading in log entries
34 and 79. (R175, R179, R180, R182) -/
def Obligations.DemultiplexerEntries : Prop :=
  (∀ (i : EntryIx) (data : List (Fin 256 × List Byte)) (parse : List (Fin 256 × List RecordParse))
    (lists : List (Fin 256 × List (BitVec 19))) (s : State) (e : Entry),
    s.entryFor i.val 0x21 0x21 2 = some e →
    ∃ t, exec (.demultiplexerEntry i data parse lists) s = .next t ∧ t.intake.active = false ∧ t.intake.want = [] ∧ t.intake.spans = [] ∧
      t.intake.plan = e.operand ∧
      (∀ x < 256, s.streamOn x = true → s.container x = 4 → (s.stream x).flagged = false → s.passMode x ≠ 2 →
        (t.stream x).aus = (s.stream x).aus ++ (s.stream x).rtpCut.zipIdx.map (fun a =>
          { a.1 with frameNo := (s.stream x).frameNo + BitVec.ofNat 32 a.2 }) ∧
        (t.stream x).frameNo = (s.stream x).frameNo + BitVec.ofNat 32 (s.stream x).rtpCut.length ∧ (t.stream x).rtpCut = []) ∧
      (s.intake.active = false → s.AtRest → s.refusesAccess (s.actionPtr e.operand) 4160 = none → ∀ x < 256, s.ringStream x = true → (s.planRecAt e.operand x).isSome = true →
        (t.stream x).openAu = none)) ∧
  (∀ (s : State) (x : Nat) (p : Span) (r : RecordParse) (n : Nat), p.granted ≤ p.total → p.arrived = p.granted → 0 < p.recMax →
    n = (32 + bits (bytesWord (p.bytes.take 32) 0) 23 0 + 63) / 64 * 64 → n ≤ p.granted → 32 ≤ p.granted →
    recordBad p.container (p.bytes.take 32) = true →
    (s.walkRecords x p [r] 0 0 1).reg Reg.DEMUX_REC_BAD = BitVec.ofNat 32 (min ((s.reg (Reg.DEMUX_REC_BAD)).toNat + 1) 0xFFFFFFFF) ∧ (s.walkRecords x p [r] 0 0 1).stream x = s.stream x)

/-- A DECODE entry starts the walk of its slot list. An access unit that comes to an idle decoder, with parameter sets
within the stream's limits, in RUN or as a random access point, not a RASL picture to be discarded, not damaged, and
with a buffer free in a pool that is not lost, is started: the lowest free buffer takes the owner DPB, the decoder
shows the frame, and PARAM_SIZE and PARAM_FMT show the sets. Sets beyond the limits put the stream in HOLD with
outcome 7; without parameter sets, or outside RUN without a random access point, the unit ends with outcome 8 and no
frame starts. Where the rules leave a point open, it rests on the model's reading in log entries 51 and 84. (R189,
R190, R193, R198, R201) -/
def Obligations.DecodersTakeAccessUnits : Prop :=
  (∀ (i : EntryIx) (s : State) (e : Entry) (w : Walk), s.entryFor i.val 0x10 0x17 3 = some e → s.startWalk i.val e = some w → s.AtRest →
    ∃ t, exec (.decodeEntry i) s = .next t ∧ (t.vd (e.unit - 0x10)).walk = some w ∧ (t.vd (e.unit - 0x10)).frame = none ∧
      t.reg (Reg.STATUS (pageVd (e.unit - 0x10))) = 1 ∧ SameRegs [Reg.STATUS (pageVd (e.unit - 0x10))] s t ∧ SameBytes s t) ∧
  (∀ (vd : Fin 8) (h : AuHeader) (s : State) (w w1 : Walk) (x budget : Nat) (au : Au) (rest : List Au) (p : PlanRec),
    (s.vd vd.val).walk = some w → (s.vd vd.val).frame = none → s.nextDecode w 65 = some (w1, x, budget) → x < 256 →
    (s.stream x).aus = au :: rest → s.planRec x = some p →
    (∀ b0 : Nat, h.params = true → exceeds p (s.codec x) h = false → (s.ctxState x = 2 ∨ h.rap = true) →
      (h.rasl = false ∨ (s.stream x).skipRasl = false) → au.damaged = false → (s.pool p.pool).valid = true →
      (s.pool p.pool).lost = false → (s.pool p.pool).bpMask.getLsbD 0 = false → (s.pool p.pool).lowest = some b0 →
      ∃ t, exec (.decodeFrame vd h) s = .next t ∧
        (t.vd vd.val).frame = some ⟨x, au, h, some ((s.pool p.pool).buf b0), budget⟩ ∧
        (t.vd vd.val).walk = some { w1 with done := w1.done + 1 } ∧ (t.stream x).aus = rest ∧
        mapGet (t.pool p.pool).owners b0 = some [1] ∧ t.reg (Reg.STATUS (pageVd vd.val)) = 2 ∧
        t.reg (Reg.INTAKE_PARAM_SIZE x) = BitVec.ofNat 32 (h.width.toNat + 65536 * h.height.toNat) ∧ SameBytes s t) ∧
    (h.params = true → exceeds p (s.codec x) h = true → ∃ t, exec (.decodeFrame vd h) s = .next t ∧ (t.vd vd.val).frame = none ∧
      (t.stream x).aus = rest ∧ bits (t.reg (Reg.INTAKE_CTX_STATE x)) 2 0 = 3 ∧ bits (t.reg (Reg.INTAKE_CTX_STATE x)) 11 8 = 7 ∧
      t.reg (Reg.VD_HOLD_SKIP vd.val) = BitVec.ofNat 32 (min ((s.reg (Reg.VD_HOLD_SKIP vd.val)).toNat + 1) 0xFFFFFFFF) ∧ SameBytes s t) ∧
    (s.ctxState x ≠ 3 → (h.params = false ∨ (exceeds p (s.codec x) h = false ∧ s.ctxState x ≠ 2 ∧ h.rap = false)) →
      ∃ t, exec (.decodeFrame vd h) s = .next t ∧ (t.vd vd.val).frame = none ∧ (t.stream x).aus = rest ∧
        bits (t.reg (Reg.INTAKE_CTX_STATE x)) 11 8 = 8 ∧ bits (t.reg (Reg.INTAKE_CTX_STATE x)) 2 0 ≠ 2 ∧
        t.reg Reg.DEMUX_NO_SYNC = BitVec.ofNat 32 (min ((s.reg (Reg.DEMUX_NO_SYNC)).toNat + 1) 0xFFFFFFFF) ∧ SameBytes s t))

/-- A frame whose reads lie in its grant list and whose references are released as it asks, decoded into its pool buffer,
writes exactly its bytes there, with mid-value chroma where it is monochrome, counts FRAME_DONE, shows outcome 0, puts
the stream in RUN, and passes on one picture record with the buffer, the access unit's time, clip and frame number,
not concealed. A frame whose budget expires, or that ends in a syntax, bounds or memory error, shows its outcome,
counts in its tally, leaves the decoder idle, and passes on one record of that outcome. A decoder without a frame does
nothing. Where the rules leave a point open, it rests on the model's reading in log entries 51, 52 and 84. (R193,
R194, R197, R203, R205) -/
def Obligations.FramesEndWithAnOutcome : Prop :=
  (∀ (vd : Fin 8) (s : State), (s.vd vd.val).frame = none → ∀ c ∈ [Instr.decodeBudgetExpiry vd, .decodeFrameDone vd .syntaxError],
    ∃ t, exec c s = .next t ∧ SameRegs [] s t ∧ SameBytes s t ∧ SameRest s t) ∧
  (∀ (vd : Fin 8) (s : State) (f : VdFrame), (s.vd vd.val).frame = some f → f.stream < 256 →
    (∀ (c : Instr) (o : Nat), ((c = .decodeBudgetExpiry vd ∧ o = 1) ∨ (c = .decodeFrameDone vd .syntaxError ∧ o = 2) ∨
        (c = .decodeFrameDone vd .bounds ∧ o = 3) ∨ (c = .decodeFrameDone vd .memory ∧ o = 4)) →
      ∃ t q, exec c s = .next t ∧ (t.vd vd.val).frame = none ∧ t.reg (Reg.STATUS (pageVd vd.val)) = 1 ∧
        bits (t.reg (Reg.INTAKE_CTX_STATE f.stream)) 11 8 = o ∧
        t.reg (Reg.VD_LAST vd.val) = BitVec.ofNat 32 (f.stream + 256 * o + 65536 * ((s.reg Reg.TICK_SEQ).toNat % 65536)) ∧
        t.reg (outcomeTally vd.val o) = BitVec.ofNat 32 (min ((s.reg (outcomeTally vd.val o)).toNat + 1) 0xFFFFFFFF) ∧
        (t.stream f.stream).pics = (s.stream f.stream).pics ++ [q] ∧ q.outcome = o ∧ q.time = f.au.time ∧ SameBytes s t) ∧
    (∀ (d : List Byte) (ref : Bool) (drops : List Word) (reads : List (Ptr × Nat)) (b : Ptr) (n : Nat) (w : State),
      f.buf = some b → s.poolOf b = some n → s.AtRest → (s.pool n).lost = false →
      (∀ r ∈ f.au.ranges ++ reads, s.refusesAccess r.1 r.2 = none) → (∀ r ∈ reads, s.granted f (s.pool n).bufSize r = true) →
      picEnd f.header d ≤ (s.pool n).bufSize → s.refusesAccess b d.length = none →
      (f.header.mono = true → s.refusesAccess (ptrAdd b (monoChroma f.header).1) (monoChroma f.header).2.length = none) →
      w = (if f.header.mono then (s.pokes b d).pokes (ptrAdd b (monoChroma f.header).1) (monoChroma f.header).2 else s.pokes b d) →
      (w.dropNames vd.val f.stream drops).2 = true → ((w.dropNames vd.val f.stream drops).1.bpmAdd vd.val b 2).2 = true →
      ∃ t q, exec (.decodeFrameDone vd (.decoded d ref drops reads)) s = .next t ∧ (t.vd vd.val).frame = none ∧
        t.mem = w.mem ∧ bits (t.reg (Reg.INTAKE_CTX_STATE f.stream)) 2 0 = 2 ∧
        bits (t.reg (Reg.INTAKE_CTX_STATE f.stream)) 11 8 = 0 ∧ t.reg (Reg.VD_FRAME_DONE vd.val) = BitVec.ofNat 32 (min ((s.reg (Reg.VD_FRAME_DONE vd.val)).toNat + 1) 0xFFFFFFFF) ∧
        (t.stream f.stream).pics = (s.stream f.stream).pics ++ [q] ∧ q.buf = some b ∧ q.outcome = 0 ∧ q.concealed = false ∧
        q.time = f.au.time ∧ q.frameNo = f.au.frameNo ∧ q.clipId = f.au.clipId ∧ q.cropW = f.header.cropW.toNat))

/-- A PREPROC entry starts the walk of its slot list. The unit's next slot takes the stream's picture record of the place
that the records before it in variant order leave: where there is none it is idle and its sample area is written as
filler; a record of a flagged stream, of a missing sensor, of a picture missing from its group, or without a buffer
gives a substitute with reason 2, 4, 5 or 1, which is filler where the descriptor keeps nothing. The end of the slot
counts its source, shows it in LAST, and for a substitute writes exactly its manifest entry; where the BPM refuses its
release the slot is no sample and shows reason 6; the expiry of a sample slot's budget turns it into filler with
reason 8 and counts PP_ABANDON. Where the rules leave a point open, it rests on the model's reading in log entries 50,
54, 58 and 85. (R204, R205, R212, R213, R215, R227) -/
def Obligations.PreprocessingSlots : Prop :=
  (∀ (i : EntryIx) (s : State) (e : Entry) (w : Walk), s.entryFor i.val 0x1A 0x1D 4 = some e → s.startWalk i.val e = some w → s.AtRest →
    ∃ t, exec (.preprocEntry i) s = .next t ∧ (t.pp (e.unit - 0x1A)).walk = some w ∧ (t.pp (e.unit - 0x1A)).work = none ∧
      t.reg (Reg.STATUS (pagePp (e.unit - 0x1A))) = 1 ∧ SameRegs [Reg.STATUS (pagePp (e.unit - 0x1A))] s t ∧ SameBytes s t) ∧
  (∀ (pp : Fin 4) (s : State) (w w1 : Walk) (r : PpRec) (d : PpDesc) (n : Nat), (s.pp pp.val).walk = some w → (s.pp pp.val).work = none →
    s.nextSlot w 129 = some (w1, r) → (s.stream r.stream).aus = [] → s.ppDesc r.desc = some d → s.AtRest → n = s.picOrdinal w1 r.stream →
    ((s.stream r.stream).pics[n]? = none →
      ∃ t k, exec (.ppSlot pp) s = .next t ∧ (t.pp pp.val).walk = some { w1 with done := w1.done + 1 } ∧ (t.pp pp.val).work = some k ∧
        k.source = 3 ∧ k.reason = 0 ∧ k.stream = r.stream ∧ k.slot = r.slot + w1.done ∧ k.budget = r.budget ∧
        t.reg (Reg.STATUS (pagePp pp.val)) = 2 ∧ t.mem = (s.writeSample d (r.slot + w1.done) d.filler).mem) ∧
    (∀ (p : PicRec) (reason : Nat), (s.stream r.stream).pics[n]? = some p →
      ((p.kind = 1 ∧ reason = 2) ∨ (p.kind = 4 ∧ reason = 4) ∨ (p.kind = 5 ∧ reason = 5) ∨
        ((p.kind = 0 ∨ p.kind = 3) ∧ p.buf = none ∧ reason = 1)) →
      ∃ t k, exec (.ppSlot pp) s = .next t ∧ (t.pp pp.val).work = some k ∧ k.reason = reason ∧ (k.source = 1 ∨ k.source = 2) ∧
        k.pic = some p ∧ (t.stream r.stream).picsTaken = max (s.stream r.stream).picsTaken (n + 1) ∧
        (d.keepEn = false → k.source = 2 ∧ t.mem = (s.writeSample d (r.slot + w1.done) d.filler).mem))) ∧
  (∀ (pp : Fin 4) (s : State) (k : PpWork), (s.pp pp.val).work = some k →
    (∃ t, exec (.ppSlotDone pp) s = .next t ∧ (t.pp pp.val).work = none ∧ t.reg (Reg.STATUS (pagePp pp.val)) = 1) ∧
    ((s.releasePic pp.val k.pic).2 = false → (s.ppDesc k.desc).isSome = true → ∃ t src, exec (.ppSlotDone pp) s = .next t ∧
      t.reg (Reg.PP_LAST pp.val) = BitVec.ofNat 32 (k.stream + 256 * src + 4096 * 6 + 65536 * ((s.reg Reg.TICK_SEQ).toNat % 65536)) ∧
      (k.source = 0 → src = 1 ∨ src = 2) ∧ (k.source ≠ 0 → src = k.source)) ∧
    ((s.releasePic pp.val k.pic).2 = true → ∃ t, exec (.ppSlotDone pp) s = .next t ∧
      t.reg (sourceTally pp.val k.source) = BitVec.ofNat 32 (min ((s.reg (sourceTally pp.val k.source)).toNat + 1) 0xFFFFFFFF) ∧
      t.reg (Reg.PP_LAST pp.val) = BitVec.ofNat 32 (k.stream + 256 * k.source + 4096 * k.reason +
        65536 * ((s.reg Reg.TICK_SEQ).toNat % 65536)) ∧
      (s.ppDesc k.desc = none → SameBytes s t) ∧
      (∀ d p, s.ppDesc k.desc = some d → k.pic = some p → k.source ≠ 0 → p.kind < 2 →
        t.mem = ((s.releasePic pp.val k.pic).1.unitWrite (ptrAdd (s.relocate s.ppOdd d.man) (16 * k.slot)) (wordBytes
          [BitVec.ofNat 32 (k.stream + 256 * k.source + (if p.concealed then 2048 else 0) + (if p.refConcealed then 4096 else 0) +
            (if k.proxy then 8192 else 0) + (if k.sat then 16384 else 0) + 65536 * p.outcome + 2 ^ 20 * k.reason),
           p.frameNo, p.time, p.clipId])).mem)) ∧
    (k.source = 0 → k.reason = 0 → ∃ t q, exec (.ppBudgetExpiry pp) s = .next t ∧ (t.pp pp.val).work = some q ∧ q.source = 2 ∧
      q.reason = 8 ∧ q.stream = k.stream ∧ q.slot = k.slot ∧ t.reg (Reg.PP_PP_ABANDON pp.val) = BitVec.ofNat 32 (min ((s.reg (Reg.PP_PP_ABANDON pp.val)).toNat + 1) 0xFFFFFFFF)) ∧
    (k.source ≠ 0 → ∃ t, exec (.ppBudgetExpiry pp) s = .next t ∧ (t.pp pp.val).work = some k ∧ SameRegs [] s t ∧ SameBytes s t))

/-- A write of SESS_COMMIT bit 0 that the page admits keeps the selected session's description for the Latch step and
shows REQUESTED where the session does not run. At the Latch step a described session that the plan admits runs with
that description, no picture coded; a refused one shows state 4 with its reason and counts REQ_REFUSED, with reason 2
in NO_SOURCE too; without ENABLE it is idle. A session whose description is out of range is refused with reason 4 at
the latest. Where the rules leave a point open, it rests on the model's reading in log entry 61. (R258, R259, R272) -/
def Obligations.EncoderSessions : Prop :=
  (∀ (m : Master) (v : Word) (s : State), s.admits m 0x204 = true → ∀ n : Nat, n = bits (s.reg Reg.EVIDENCE_SESS_SEL) 3 0 →
    (bit v 0 = true → ∃ t, exec (.sessCommit m v) s = .next t ∧ (t.session n).commit = some (s.sessRegs n) ∧
      (t.session n).running = (s.session n).running ∧ (∀ k, k ≠ n → t.session k = s.session k) ∧
      t.reg (Reg.EVIDENCE_SESS_STATE n) = (if (s.session n).running then s.reg (Reg.EVIDENCE_SESS_STATE n) else 1) ∧
      SameRegs [Reg.EVIDENCE_SESS_STATE n] s t ∧ SameBytes s t) ∧
    (bit v 0 = false → ∃ t, exec (.sessCommit m v) s = .next t ∧ SameRegs [] s t ∧ SameBytes s t ∧ SameRest s t)) ∧
  (∀ (s : State) (n : Nat) (c : List Word), n < 16 → (s.session n).commit = some c → (s.session n).running = false →
    (bit (wordAt c 0) 0 = false → ((s.latchSession n).session n).running = false ∧
      (s.latchSession n).reg (Reg.EVIDENCE_SESS_STATE n) = 0) ∧
    (bit (wordAt c 0) 0 = true → s.sessReason n c = 0 → ((s.latchSession n).session n).running = true ∧
      ((s.latchSession n).session n).cfg = c ∧ ((s.latchSession n).session n).coded = 0 ∧
      (s.latchSession n).reg (Reg.EVIDENCE_SESS_STATE n) = 2 ∧ SameRegs [Reg.EVIDENCE_SESS_STATE n] s (s.latchSession n)) ∧
    (bit (wordAt c 0) 0 = true → s.sessReason n c ≠ 0 → ((s.latchSession n).session n).running = false ∧
      (s.latchSession n).reg (Reg.EVIDENCE_SESS_STATE n) = BitVec.ofNat 32 (4 + 16 * s.sessReason n c) ∧
      (s.latchSession n).reg Reg.EVIDENCE_REQ_REFUSED = BitVec.ofNat 32 (min ((s.reg (Reg.EVIDENCE_REQ_REFUSED)).toNat + 1) 0xFFFFFFFF) ∧
      (s.latchSession n).reg Reg.EVIDENCE_NO_SOURCE = (if s.sessReason n c = 2 then BitVec.ofNat 32 (min ((s.reg (Reg.EVIDENCE_NO_SOURCE)).toNat + 1) 0xFFFFFFFF) else s.reg Reg.EVIDENCE_NO_SOURCE))) ∧
  (∀ (s : State) (n : Nat) (c : List Word), s.sessReason n c ≤ 4 ∧ (cfgBad c = true → s.sessReason n c ≠ 0))

/-- An ENCODE entry starts the walk of its slot list. A clip's next picture, not concealed, of the session's coded size,
with staging area and pool in service, allowance above the floor and a buffer free, begins with the lowest free buffer
as its reconstruction; a concealed one begins as a skip picture; a change of the coded size, or a clip's picture
beyond the plan's limits, ends the session and begins nothing. The end of a clip's picture of a running session counts
it as coded and keeps its slice bits; an abandoned one counts ENC_ABANDON and is coded as a skip picture. The rate
control never lowers QP and never raises it beyond 51. Where the rules leave a point open, it rests on the model's
reading in log entries 62 and 86. (R259, R261, R262, R265, R266) -/
def Obligations.EncodedPictures : Prop :=
  (∀ (i : EntryIx) (s : State) (e : Entry) (w : Walk), s.entryFor i.val 0x18 0x19 5 = some e → s.startWalk i.val e = some w → s.AtRest →
    ∃ t, exec (.encodeEntry i) s = .next t ∧ (t.ve (e.unit - 0x18)).walk = some { w with count := w.count % 32 } ∧
      (t.ve (e.unit - 0x18)).work = none ∧ t.reg (Reg.STATUS (pageVe (e.unit - 0x18))) = 1 ∧
      SameRegs [Reg.STATUS (pageVe (e.unit - 0x18))] s t ∧ SameBytes s t) ∧
  (∀ (ve : Fin 2) (s : State) (w w1 : Walk) (n budget : Nat) (p : PicRec) (rest : List PicRec) (pl : SessPlan) (x : Session),
    (s.ve ve.val).walk = some w → (s.ve ve.val).work = none → s.nextPicture w 17 = some (w1, n, budget) → x = s.session n →
    x.sources = p :: rest → s.sessPlan n = some pl → s.AtRest →
    ((x.width = 0 ∨ (x.width = p.width ∧ x.height = p.height)) → cfgKind x.cfg < 2 → codedTooBig pl false p.cropW p.cropH = false →
      (∀ b0, p.concealed = false → s.sessUp pl = true → clipRows (cfgKind x.cfg) p.cropH * 64 < x.allowance →
        (s.pool pl.refPool).valid = true → (s.pool pl.refPool).bpMask.getLsbD 2 = false → (s.pool pl.refPool).lowest = some b0 →
        ∃ t k, exec (.encodePicture ve) s = .next t ∧ (t.ve ve.val).work = some k ∧ k.skip = false ∧ k.session = n ∧ k.pic = p ∧
          k.recon = some ((s.pool pl.refPool).buf b0) ∧ k.qp = cfgQi x.cfg ∧ (t.session n).sources = rest ∧
          mapGet (t.pool pl.refPool).owners b0 = some [5] ∧ t.reg (Reg.STATUS (pageVe ve.val)) = 2 ∧ SameBytes s t) ∧
      (p.concealed = true → ∃ t k, exec (.encodePicture ve) s = .next t ∧ (t.ve ve.val).work = some k ∧ k.skip = true ∧
        k.recon = none ∧ (t.session n).sources = rest ∧ SameBytes s t)) ∧
    (((x.width ≠ 0 ∧ (x.width ≠ p.width ∨ x.height ≠ p.height)) ∨ (cfgKind x.cfg < 2 ∧ codedTooBig pl false p.cropW p.cropH = true)) → ∃ t, exec (.encodePicture ve) s = .next t ∧
      (t.ve ve.val).work = none ∧ (t.session n).running = false ∧ (t.session n).sources = [])) ∧
  (∀ (ve : Fin 2) (s : State) (k : VeWork), (s.ve ve.val).work = some k → k.session < 16 →
    (∀ (rowBits : List Nat) (payload recon : List Byte), ∃ t, exec (.encodePictureDone ve rowBits payload recon) s = .next t ∧
      (t.ve ve.val).work = none ∧ t.reg (Reg.STATUS (pageVe ve.val)) = 1 ∧
      ((s.session k.session).running = true → cfgKind (s.session k.session).cfg < 2 →
        (t.session k.session).coded = (s.session k.session).coded + 1 ∧
        (t.session k.session).bits = (rowBits.sum :: (s.session k.session).bits).take 64)) ∧
    (∀ (sb : BitVec 32) (skip : List Byte), ∃ t, exec (.encAbandon ve sb skip) s = .next t ∧ (t.ve ve.val).work = none ∧
      t.reg (Reg.VE_ENC_ABANDON ve.val) = BitVec.ofNat 32 (min ((s.reg (Reg.VE_ENC_ABANDON ve.val)).toNat + 1) 0xFFFFFFFF) ∧
      ((s.session k.session).running = true → cfgKind (s.session k.session).cfg < 2 →
        (t.session k.session).coded = (s.session k.session).coded + 1))) ∧
  (∀ (rows a dq r b qp : Nat) (l : List Nat), qp ≤ 51 → qp ≤ (rateControl rows a dq r b qp l).1 ∧ (rateControl rows a dq r b qp l).1 ≤ 51)

/-- While the endpoint issues no request an evidence delivery shows HELD for every running session and sends nothing;
otherwise the 512 bytes of status records are the last write. A SHEET entry with the link takes the held sheets,
oldest first, off the holdback, up to the plan's count, and then delivers the tick's: SEQ counts them all, the tick's
sheet goes to its slot of the ring, its header last, and source 0 is pending. Where containment stops a delivery the
sheets before it are counted and the tick's is held. Without the link it keeps the sheet in the holdback, which never
holds more than 16: a seventeenth drops the oldest. Where the rules leave a point open, it rests on the model's
reading in log entries 60, 64 and 99. (R15, R242, R253, R269) -/
def Obligations.EvidenceAndSheetDeliveries : Prop :=
  (∀ (i : EntryIx) (s : State) (e : Entry) (ws : List Word), s.entryFor i.val 0x1F 0x1F 2 = some e →
    s.actionWords e.operand 2 = some ws → wordAt ws 0 = 5 → s.AtRest →
    (∀ r < bits (wordAt ws 1) 4 0, s.refusesAccess (s.actionPtr (e.operand + 64 + 32 * r)) 32 = none) →
    (s.mayIssue = false → ∃ t, exec (.evidenceDelivery i) s = .next t ∧
      (∀ n < 16, (s.session n).running = true → t.reg (Reg.EVIDENCE_SESS_STATE n) = 3) ∧
      (∃ r, t.egress = s.egress ++ r ∧ ∀ x ∈ r, ∀ b y, x ≠ Egress.hostWrite b y) ∧ SameRegs ((List.range 16).map Reg.EVIDENCE_SESS_STATE) s t ∧ SameBytes s t) ∧
    (s.mayIssue = true → ∃ t l d r, exec (.evidenceDelivery i) s = .next t ∧ d.length = 512 ∧ SameBytes s t ∧
      (∀ n < 16, (s.session n).running = true → t.reg (Reg.EVIDENCE_SESS_STATE n) = 2) ∧
      t.egress = s.egress ++ l ++ (({ s with egress := [] } : State).post
        (hostAddr (s.reg Reg.EVIDENCE_STATUS_BASE_LO) (s.reg Reg.EVIDENCE_STATUS_BASE_HI)) d).egress ++ r ∧
      (∀ x ∈ r, ∀ b y, x ≠ Egress.hostWrite b y) ∧ ((∀ n < 16, (s.session n).staged = []) → l = []))) ∧
  (∀ (i : EntryIx) (s : State), (s.entryFor i.val 0x1F 0x1F 2 = none → ∃ t, exec (.evidenceDelivery i) s = .next t ∧
      SameRegs [] s t ∧ SameBytes s t ∧ SameRest s t) ∧
    (s.entryFor i.val 0x1F 0x1F 10 = none → ∀ stop, ∃ t, exec (.sheetEntry i stop) s = .next t ∧
      SameRegs [] s t ∧ SameBytes s t ∧ SameRest s t)) ∧
  (∀ (i : EntryIx) (s : State) (e : Entry) (p : SheetPlan), s.entryFor i.val 0x1F 0x1F 10 = some e → s.sheetPlan e.operand = some p → s.AtRest →
    (s.mayIssue = true → ∃ t l a d r, exec (.sheetEntry i none) s = .next t ∧
      t.reg Reg.SHEET_SEQ = s.reg Reg.SHEET_SEQ + BitVec.ofNat 32 (min p.perTick s.sheet.held.length + 1) ∧
      t.sheet.held = s.sheet.held.drop p.perTick ∧ t.sheet.dropped = 0 ∧ t.icu.pulse0 = true ∧
      a = (s.setReg Reg.SHEET_SEQ (t.reg Reg.SHEET_SEQ - 1)).slotAddr ∧
      t.egress = s.egress ++ l ++ ((({ s with egress := [] } : State).post (a + 0x40) (d.drop 0x40)).post a (d.take 0x40)).egress ++ r ∧
      (∀ x ∈ r, ∀ b y, x ≠ Egress.hostWrite b y) ∧ bytesWord d 0 = t.reg Reg.SHEET_SEQ - 1) ∧
    (s.mayIssue = true → s.sheet.held.length ≤ 16 → ∀ (k : Fin 17) (n : BitVec 24), ∃ t, exec (.sheetEntry i (some (k, n))) s = .next t ∧
      t.reg Reg.SHEET_SEQ = s.reg Reg.SHEET_SEQ + BitVec.ofNat 32 (min k.val (min p.perTick s.sheet.held.length)) ∧
      t.icu.pulse0 = s.icu.pulse0 ∧ t.sheet.held.length ≤ 16 ∧
      t.sheet.held.getLast? = some ⟨s.reg Reg.TICK_SEQ, s.freeArea, s.assembly p, (s.buildSheet p).1.length⟩) ∧
    (s.mayIssue = false → s.sheet.held.length ≤ 16 → ∀ stop, ∃ t, exec (.sheetEntry i stop) s = .next t ∧
      (∃ r, t.egress = s.egress ++ r ∧ ∀ x ∈ r, ∀ b y, x ≠ Egress.hostWrite b y) ∧
      t.reg Reg.SHEET_SEQ = s.reg Reg.SHEET_SEQ ∧ t.icu.pulse0 = s.icu.pulse0 ∧ t.sheet.held.length ≤ 16 ∧
      t.sheet.held = s.sheet.held.drop (if s.sheet.held.length = 16 then 1 else 0) ++ [⟨s.reg Reg.TICK_SEQ, s.freeArea, s.assembly p, (s.buildSheet p).1.length⟩] ∧
      t.sheet.dropped = s.sheet.dropped + (if s.sheet.held.length = 16 then 1 else 0) ∧
      t.reg Reg.SHEET_HELD = BitVec.ofNat 32 t.sheet.held.length))

/-- An ASSOC entry with a readable plan leaves one section for each stream of the plan in its order, and LIVE as the sum
of their live tracks; with every frame finished it does not set the TAU running. The cut of a running entry counts
ASSOC_CUT, raises the event and shows it idle. A TAU_FLUSH that the page admits marks its stream unless an end is
marked already. NEXT_LOCAL is dropped while an entry runs or its lock bit is set. The local number 0x3FFFFF is never
issued. Where the rules leave a point open, it rests on the model's reading in log entries 59 and 99. (R230, R237,
R238, R241, R246, R255) -/
def Obligations.AssociationEntries : Prop :=
  (∀ (i : EntryIx) (s : State) (e : Entry) (p : TauPlan), s.entryFor i.val 0x1E 0x1E 6 = some e → s.tauPlan e.operand = some p →
    ∀ n, ∃ t, exec (.assocEntry i n) s = .next t ∧ t.tau.sections.map Section.stream = p.streams.map TauStream.stream ∧
      t.reg Reg.TAU_LIVE = BitVec.ofNat 32 ((t.tau.sections.map Section.live).sum % 65536) ∧
      (n = none → t.tau.busy = s.tau.busy)) ∧
  (∀ s : State, (s.tau.busy = true → ∃ t, exec .assocCut s = .next t ∧ t.tau.busy = false ∧ t.tau.sections = s.tau.sections ∧
      bit (t.reg Reg.TAU_CURRENT) 12 = false ∧ t.reg Reg.TAU_ASSOC_CUT = BitVec.ofNat 32 (min ((s.reg (Reg.TAU_ASSOC_CUT)).toNat + 1) 0xFFFFFFFF) ∧ bit (t.reg (Reg.EVT_RAW 0x220)) 0 = true ∧
      SameRegs [Reg.TAU_CURRENT, Reg.TAU_ASSOC_CUT, Reg.EVT_RAW 0x220] s t ∧ SameBytes s t) ∧
    (s.tau.busy = false → ∃ t, exec .assocCut s = .next t ∧ SameRegs [] s t ∧ SameBytes s t ∧ SameRest s t)) ∧
  (∀ (m : Master) (v : Word) (s : State), s.admits m 0x220 = true →
    (∃ t, exec (.tauFlush m v) s = .next t ∧ SameRegs [] s t ∧ SameBytes s t ∧
      (t.stream (bits v 7 0)).trackEnd = (if bit v 31 = true ∧ (s.stream (bits v 7 0)).trackEnd = 0 then 4
        else (s.stream (bits v 7 0)).trackEnd) ∧ (∀ x, x ≠ bits v 7 0 → t.stream x = s.stream x)) ∧
    (s.tau.busy = false → s.locked 0x220 0 = false → ∃ t, exec (.nextLocal m v) s = .next t ∧
      t.reg Reg.TAU_NEXT_LOCAL = v &&& 0x003FFFFF ∧ SameRegs [Reg.TAU_NEXT_LOCAL] s t ∧ SameBytes s t ∧ SameRest s t) ∧
    ((s.tau.busy = true ∨ s.locked 0x220 0 = true) → ∃ t, exec (.nextLocal m v) s = .next t ∧
      t.reg (Reg.DROP_TALLY 0x220) = BitVec.ofNat 32 (min ((s.reg (Reg.DROP_TALLY 0x220)).toNat + 1) 0xFFFFFFFF) ∧ SameRegs [Reg.DROP_TALLY 0x220] s t ∧ SameBytes s t ∧ SameRest s t)) ∧
  (∀ n < 2 ^ 22, (localNumber n).1 ≠ 0x3FFFFF ∧ (localNumber n).2 ≠ 0x3FFFFF ∧ (localNumber n).2 < 2 ^ 22)

/-- Every assignment of R236 pairs each detection with at most one track and each track with at most one detection, out of
the gated pairs. The pairs are considered in rising cost. The cost of a box with itself is 0 and that of two boxes
that do not overlap is 0xFFFF; no cost exceeds 0xFFFF. Where the rules leave a point open, it rests on the model's
reading in log entry 59. (R235, R236) -/
def Obligations.AssignmentOfDetections : Prop :=
  (∀ ps : List (Nat × Nat × Nat), ((assign (sortPairs ps) []).map Prod.fst).Nodup ∧
    ((assign (sortPairs ps) []).map (fun x => x.2.1)).Nodup ∧ (∀ x ∈ assign (sortPairs ps) [], (x.2.2, x.2.1, x.1) ∈ ps) ∧
    (sortPairs ps).Pairwise (fun a b => a.1 ≤ b.1) ∧ (sortPairs ps).Perm ps) ∧
  (∀ b : BoxCodes, b.l < b.r → b.t < b.b → b.r < 65536 → b.b < 65536 → pairCost b b = 0) ∧
  (∀ a b : BoxCodes, a.l < a.r → a.t < a.b → a.r < 65536 → a.b < 65536 → b.l < b.r → b.t < b.b → b.r < 65536 → b.b < 65536 →
    a.r ≤ b.l → pairCost a b = 0xFFFF) ∧
  (∀ a b : BoxCodes, pairCost a b ≤ 0xFFFF)

/-- Where neither PERST# nor an FLR stands, a configuration write sets its one bit or field of the endpoint, a payload or
request size only where it is supported, and may let waiting reads go out; the write that sets 10-Bit Tag Requester
Enable makes READ_LIMIT 256, and clearing PME_Status releases WAKE#. Interrupt Disable set takes INTA away with its
message. D3hot shows PM_HOLD in CONTAIN with the tick number, and counts nothing there, unless a containment stands;
the return to D0 changes no register. During an FLR each configuration request gets retry status only. The first words
of the configuration header show the IDs, the enables and Interrupt Status, which follows the host output. Where the
rules leave a point open, it rests on the model's reading in log entries 9, 18, 91 and 92. (R310, R315, R317, R318,
R320, R324) -/
def Obligations.ConfigurationAndPowerStates : Prop :=
  (∀ (f : CfgField) (v : BitVec 4) (s : State), s.ep.perst = false → s.ep.flr = false →
    ∃ t, exec (.configurationWrite f v) s = .next t ∧
      t.ep.memorySpace = (if f = .memorySpaceEnable then v.getLsbD 0 else s.ep.memorySpace) ∧
      t.ep.busMaster = (if f = .busMasterEnable then v.getLsbD 0 else s.ep.busMaster) ∧
      t.ep.extTag = (if f = .extendedTag then v.getLsbD 0 else s.ep.extTag) ∧
      t.ep.tag10 = (if f = .tenBitTag then v.getLsbD 0 else s.ep.tag10) ∧
      t.ep.ecrcCheck = (if f = .ecrcCheck then v.getLsbD 0 else s.ep.ecrcCheck) ∧
      t.ep.pmeEn = (if f = .pmeEn then v.getLsbD 0 else s.ep.pmeEn) ∧
      t.ep.aspmL1 = (if f = .aspmL1 then v.getLsbD 0 else s.ep.aspmL1) ∧
      t.ep.cplTimeout = (if f = .completionTimeout then v else s.ep.cplTimeout) ∧
      (f = .pmeStatus → v.getLsbD 0 = true → s.hostRise = false → t.ep.pmeStatus = false ∧ t.ep.wakeLow = false) ∧
      t.ep.maxPayload.val = (if f = .maxPayload ∧ v.toNat < 3 then v.toNat else s.ep.maxPayload.val) ∧
      t.ep.maxReadRequest.val = (if f = .maxReadRequest ∧ v.toNat < 6 then v.toNat else s.ep.maxReadRequest.val) ∧
      ((∀ hi w, f ≠ .bar false hi w) → t.ep.bar0 = s.ep.bar0) ∧ ((∀ hi w, f ≠ .bar true hi w) → t.ep.bar2 = s.ep.bar2) ∧
      (∀ w, f = .bar false true w → t.ep.bar0.toNat = w.toNat * 2 ^ 32 + s.ep.bar0.toNat % 2 ^ 32) ∧
      (∀ w, f = .bar false false w → t.ep.bar0.toNat = s.ep.bar0.toNat / 2 ^ 32 * 2 ^ 32 + w.toNat / 2 ^ 24 * 2 ^ 24) ∧
      (∀ hi w, f = .bar true hi w → t.ep.bar2.toNat = if hi then w.toNat * 2 ^ 32 else s.ep.bar2.toNat) ∧
      t.ep.reads ++ t.ep.waiting = s.ep.reads ++ s.ep.waiting ∧ s.ep.reads.length ≤ t.ep.reads.length ∧
      t.ep.intDisable = s.ep.intDisable ∧ t.ep.d3hot = s.ep.d3hot ∧ t.ep.l2 = s.ep.l2 ∧
      t.reg Reg.ENDPOINT_READ_LIMIT = (if f = .tenBitTag ∧ v.getLsbD 0 = true ∧ s.ep.tag10 = false then 256
        else s.reg Reg.ENDPOINT_READ_LIMIT) ∧
      SameRegs [Reg.ENDPOINT_READ_LIMIT] s t ∧ SameBytes s t ∧ SameRest s t) ∧
  (∀ (x : Bool) (s : State), s.ep.perst = false → s.ep.flr = false →
    ∃ t, exec (.interruptDisable x) s = .next t ∧ t.ep.intDisable = x ∧ (x = true → t.ep.inta = false) ∧
      (x = true → s.ep.inta = true → Egress.deassertIntx ∈ t.egress.drop s.egress.length) ∧
      (x = false → s.ep.inta = false → t.ep.inta = true → Egress.assertIntx ∈ t.egress.drop s.egress.length) ∧
      SameRegs [] s t ∧ SameBytes s t ∧ SameRest s t) ∧
  (∀ s : State, s.ep.perst = false → s.ep.flr = false → s.ep.d3hot = false →
    ∃ t, exec .d3hotEntry s = .next t ∧ t.ep.d3hot = true ∧ SameBytes s t ∧ SameRest s t ∧
      (s.contained = true → SameRegs [] s t) ∧
      (s.contained = false → t.reg Reg.ENDPOINT_CONTAIN = BitVec.ofNat 32 (6 + 65536 * (s.tick.toNat % 65536)) ∧
        SameRegs [Reg.ENDPOINT_CONTAIN, Reg.ENDPOINT_CONTAIN_CAUSE, Reg.EVT_RAW 0x400] s t)) ∧
  (∀ s : State, s.ep.perst = false → s.ep.flr = false → ∃ t, exec .d0Return s = .next t ∧ t.ep.d3hot = false ∧ t.ep.busMaster = s.ep.busMaster ∧
    t.ep.memorySpace = s.ep.memorySpace ∧ SameRegs [] s t ∧ SameBytes s t ∧ SameRest s t) ∧
  (∀ (f : CfgField) (v : BitVec 4) (x : Bool) (s : State), s.ep.perst = false → s.ep.flr = true →
    ∀ c ∈ [Instr.configurationWrite f v, .interruptDisable x, .d3hotEntry, .d0Return, .inboundUr .type1Config],
      (s.ep.d3hot = false ∨ c ≠ .d3hotEntry) → ∃ t, exec c s = .next t ∧
      (∃ r, t.egress = s.egress ++ Egress.crs :: r) ∧ SameEp s t ∧ SameRegs [] s t ∧ SameBytes s t ∧ SameRest s t) ∧
  (∀ s : State, s.cfgWord 0 = some 0x64101F6B ∧ ∃ w, s.cfgWord 4 = some w ∧ bit w 1 = s.ep.memorySpace ∧ bit w 2 = s.ep.busMaster ∧
    bit w 10 = s.ep.intDisable ∧ bit w 19 = s.icu.host.output)

/-- A link that reaches DL_Active shows its rate and width, in L0, and opens the window for firmware where the PLLs have
locked and boot waits for it. L1 or a substate is entered where ASPM is enabled and no host-DMA entry runs or comes
within L1_LEAD grains; L2 at the root port's wish. Exit for a host-DMA entry, or for traffic of the host, leads from
L1 or a substate to L0; a link not in L0 at the entry's START counts L1_LATE with its event, and another link in
another state stays. A link that leaves DL_Active reads 0 and triggers containment with code 1. A function that is
ready answers configuration requests again. Where the rules leave a point open, it rests on the model's reading in log
entries 20 and 91. (R319, R321, R323, R324, R325, R368) -/
def Obligations.LinkStates : Prop :=
  (∀ (r : BitVec 3) (w : BitVec 4) (s : State), s.ep.perst = false →
    ∃ t, exec (.dlActive r w) s = .next t ∧ t.reg Reg.ENDPOINT_LINK = BitVec.ofNat 32 (r.toNat + 16 * w.toNat + 256) ∧
      t.ep.l2 = false ∧ t.bootCode = (if s.bootCode = 0 ∧ s.icu.onFclk = true then 1 else s.bootCode) ∧
      SameRegs [Reg.ENDPOINT_LINK, Reg.BOOT_STATE, Reg.EVT_RAW 0x003] s t ∧ SameBytes s t ∧ SameRest s t) ∧
  (∀ (x : Fin 4) (s : State), bit (s.reg Reg.ENDPOINT_LINK) 8 = true →
    ∃ t, exec (.l1Entry x) s = .next t ∧
      bits (t.reg Reg.ENDPOINT_LINK) 11 9 = (if x = 3 then 4 else if s.ep.aspmL1 = true ∧ s.hdmaSoon = false then x.val + 1
        else bits (s.reg Reg.ENDPOINT_LINK) 11 9) ∧
      bits (t.reg Reg.ENDPOINT_LINK) 8 0 = bits (s.reg Reg.ENDPOINT_LINK) 8 0 ∧
      t.ep.l2 = (if x = 3 then true else s.ep.l2) ∧ SameRegs [Reg.ENDPOINT_LINK] s t ∧ SameBytes s t ∧ SameRest s t) ∧
  (∀ (i : EntryIx) (l0 : Bool) (e : Entry) (s : State), s.entry i.val = some e → e.unit = 0x1F →
    ∃ t, exec (.l1Exit (some i) l0) s = .next t ∧
      bits (t.reg Reg.ENDPOINT_LINK) 11 9 =
        (if bits (s.reg Reg.ENDPOINT_LINK) 11 9 ≤ 3 then 0 else bits (s.reg Reg.ENDPOINT_LINK) 11 9) ∧
      t.reg Reg.ENDPOINT_L1_LATE = (if l0 then s.reg Reg.ENDPOINT_L1_LATE else s.counted Reg.ENDPOINT_L1_LATE) ∧
      t.reg (Reg.EVT_RAW 0x400) = (if l0 then s.reg (Reg.EVT_RAW 0x400) else s.reg (Reg.EVT_RAW 0x400) ||| 2) ∧
      SameRegs [Reg.ENDPOINT_LINK, Reg.ENDPOINT_L1_LATE, Reg.EVT_RAW 0x400] s t ∧ SameBytes s t ∧ SameEp s t ∧ SameRest s t) ∧
  (∀ (l0 : Bool) (s : State), ∃ t, exec (.l1Exit none l0) s = .next t ∧
      bits (t.reg Reg.ENDPOINT_LINK) 11 9 =
        (if bits (s.reg Reg.ENDPOINT_LINK) 11 9 ≤ 3 then 0 else bits (s.reg Reg.ENDPOINT_LINK) 11 9) ∧
      bits (t.reg Reg.ENDPOINT_LINK) 8 0 = bits (s.reg Reg.ENDPOINT_LINK) 8 0 ∧
      SameRegs [Reg.ENDPOINT_LINK] s t ∧ SameBytes s t ∧ SameEp s t ∧ SameRest s t) ∧
  (∀ s : State, bit (s.reg Reg.ENDPOINT_LINK) 8 = true →
    ∃ t, exec .linkDown s = .next t ∧ t.reg Reg.ENDPOINT_LINK = 0 ∧ s.Contains 1 [Reg.ENDPOINT_LINK] t ∧ SameBytes s t ∧
      (t.ep.waiting = [] ∨ t.ep.waiting = s.ep.waiting) ∧ SameEp { s with ep := { s.ep with waiting := t.ep.waiting } } t ∧ SameRest s t) ∧
  (∀ s : State, ∃ t, exec .functionReady s = .next t ∧ t.ep.flr = false ∧ SameRegs [] s t ∧ SameBytes s t ∧ SameRest s t)

/-- A completion ends its device read, and the reads that wait for a tag go out in its place; a poisoned, a malformed and,
with ECRC checking on, an ECRC-failed completion or other packet trigger containment with codes 3, 5 and 4, and more
than the Completion Timeout Value with code 2: the error message is sent first, and reads that wait are dropped. A
completion that comes while a containment stands is counted in CPL_DISCARD. A release that the page admits sets
RELEASE_PENDING where the link is in DL_Active and a containment stands, and counts as dropped elsewhere; READ_LIMIT
takes 32 to 768 and drops other values. Where the rules leave a point open, it rests on the model's reading in log
entries 18 and 91. (R315, R321, R322, R323) -/
def Obligations.ContainmentAndItsEnd : Prop :=
  (∀ (c : CplStatus) (k w : Nat) (s : State), k < s.ep.reads.length → c ≠ .ecrcOther →
    ∃ t, exec (.hostCompletion c k w) s = .next t ∧ SameBytes s t ∧ SameRest s t ∧
      t.reg Reg.ENDPOINT_READ_WAIT = (if s.ep.waiting = [] then s.reg Reg.ENDPOINT_READ_WAIT
        else BitVec.ofNat 32 (min ((s.reg Reg.ENDPOINT_READ_WAIT).toNat + w) 0xFFFFFFFF)) ∧
      t.reg Reg.ENDPOINT_CPL_DISCARD =
        (if s.frozenLink then s.counted Reg.ENDPOINT_CPL_DISCARD else s.reg Reg.ENDPOINT_CPL_DISCARD) ∧
      (c = .good ∨ (c = .ecrc ∧ s.ep.ecrcCheck = false) → SameRegs [Reg.ENDPOINT_CPL_DISCARD, Reg.ENDPOINT_READ_WAIT] s t ∧
        t.ep.reads ++ t.ep.waiting = s.ep.reads.eraseIdx k ++ s.ep.waiting ∧
        (s.mayIssue = true → t.ep.waiting = s.ep.waiting.drop (s.readRoom - (s.ep.reads.length - 1)))) ∧
      (∀ n : Nat, ((c = .poisoned ∧ n = 3) ∨ (c = .ecrc ∧ s.ep.ecrcCheck = true ∧ n = 4) ∨ (c = .malformed ∧ n = 5)) →
        s.Contains n [Reg.ENDPOINT_CPL_DISCARD, Reg.ENDPOINT_READ_WAIT] t ∧
        (s.frozenLink = false → bit (s.reg Reg.ENDPOINT_CONTAIN) 8 = false → t.ep.reads = s.ep.reads.eraseIdx k ∧ t.ep.waiting = [] ∧
          ∃ r, t.egress = s.egress ++ Egress.aerMessage n :: r))) ∧
  (∀ (k w : Nat) (s : State), (s.ep.ecrcCheck = false → ∃ t, exec (.hostCompletion .ecrcOther k w) s = .next t ∧ SameRegs [] s t ∧
      SameBytes s t ∧ SameEp s t ∧ SameRest s t) ∧
    (s.ep.ecrcCheck = true → ∃ t, exec (.hostCompletion .ecrcOther k w) s = .next t ∧ s.Contains 4 [] t ∧ t.ep.reads = s.ep.reads ∧
      SameBytes s t ∧ SameRest s t)) ∧
  (∀ (k us : Nat) (s : State), k < s.ep.reads.length →
    (us ≤ cplTimeoutUs s.ep.cplTimeout → ∃ t, exec (.completionTimeout k us) s = .next t ∧ SameRegs [] s t ∧ SameBytes s t ∧
      SameEp s t ∧ SameRest s t) ∧
    (cplTimeoutUs s.ep.cplTimeout < us → ∃ t, exec (.completionTimeout k us) s = .next t ∧ t.ep.reads = s.ep.reads.eraseIdx k ∧
      s.Contains 2 [] t ∧ SameBytes s t ∧ SameRest s t ∧
      (s.frozenLink = false → bit (s.reg Reg.ENDPOINT_CONTAIN) 8 = false → t.ep.waiting = [] ∧
        ∃ r, t.egress = s.egress ++ Egress.aerMessage 2 :: r))) ∧
  (∀ (m : Master) (v : Word) (s : State), s.admits m 0x400 = true →
    ∃ t, exec (.containRelease m v) s = .next t ∧ SameBytes s t ∧ SameEp s t ∧ SameRest s t ∧
      (bit v 0 = false → SameRegs [] s t) ∧
      (bit v 0 = true → bit (s.reg Reg.ENDPOINT_LINK) 8 = true → s.frozenLink = true →
        t.reg Reg.ENDPOINT_CONTAIN = s.reg Reg.ENDPOINT_CONTAIN ||| 0x100 ∧ SameRegs [Reg.ENDPOINT_CONTAIN] s t) ∧
      (bit v 0 = true → (bit (s.reg Reg.ENDPOINT_LINK) 8 = false ∨ s.frozenLink = false) →
        t.reg (Reg.DROP_TALLY 0x400) = s.counted (Reg.DROP_TALLY 0x400) ∧ SameRegs [Reg.DROP_TALLY 0x400] s t)) ∧
  (∀ (m : Master) (v : Word) (s : State), s.admits m 0x400 = true →
    ∃ t, exec (.readLimit m v) s = .next t ∧ SameBytes s t ∧ SameEp s t ∧ SameRest s t ∧
      (32 ≤ bits v 9 0 ∧ bits v 9 0 ≤ 768 → t.reg Reg.ENDPOINT_READ_LIMIT = BitVec.ofNat 32 (bits v 9 0) ∧
        SameRegs [Reg.ENDPOINT_READ_LIMIT] s t) ∧
      (bits v 9 0 < 32 ∨ 768 < bits v 9 0 → t.reg (Reg.DROP_TALLY 0x400) = s.counted (Reg.DROP_TALLY 0x400) ∧
        SameRegs [Reg.DROP_TALLY 0x400] s t))

/-- A BAR 2 read or write whose every piece lies in a set with its channel up, and meets no latent error, reads or writes
the bytes at the device address that the window gives. A write into bytes that a load protects is discarded and
counted. A request that its grain or the host-DMA regulator holds counts once as held. A read that a set or channel
refuses gets Completer Abort and counts once in AP_ERR, a write counts there. A bad access to BAR 0 counts in
BAR0_BAD, a read of that kind and a request without support also in UR_SENT with the answer of an Unsupported Request;
a Type 1 vendor message leaves everything. Where the rules leave a point open, it rests on the model's reading in log
entries 15, 29 and 82. (R59, R311, R312, R313, R316) -/
def Obligations.BarAccesses : Prop :=
  (∀ (o : Word) (n : BitVec 13) (g : BitVec 18) (s : State), s.hostReadBlocked = none → s.AtRest →
    (∀ held : Bool, (∀ p ∈ cutsAt 256 (s.apAddr o) n.toNat, s.refusesAccess { store := .dram, addr := p.1 } p.2 = none) →
      held = (!s.apAdmits g.toNat || ((cutsAt 256 (s.apAddr o) n.toNat).foldl (fun (a : State × Bool) p =>
        ((a.1.takeHdma false p.1 p.2).1, a.2 || (a.1.takeHdma false p.1 p.2).2)) (s, false)).2) →
      ∃ t, exec (.bar2Read o n g) s = .next t ∧
        (∃ r, t.egress = s.egress ++ Egress.memCompletion ((cutsAt 256 (s.apAddr o) n.toNat).flatMap
          (fun p => s.peeks { store := .dram, addr := p.1 } p.2)) false :: r) ∧
        t.reg Reg.APERTURE_AP_HELD = (if held then s.counted Reg.APERTURE_AP_HELD else s.reg Reg.APERTURE_AP_HELD) ∧
        SameRegs [Reg.APERTURE_AP_HELD] s t ∧ SameBytes s t ∧ SameEp s t) ∧
    ((∃ p ∈ cutsAt 256 (s.apAddr o) n.toNat, s.refusesAccess { store := .dram, addr := p.1 } p.2 ≠ none) →
      ∃ t, exec (.bar2Read o n g) s = .next t ∧ (∃ r, t.egress = s.egress ++ Egress.completerAbort :: r) ∧
        t.reg Reg.APERTURE_AP_ERR = s.counted Reg.APERTURE_AP_ERR ∧ SameBytes s t ∧ SameEp s t)) ∧
  (∀ (o : Word) (d : List Byte) (g : BitVec 18) (s : State), s.hostBlocked 0 = none → s.AtRest →
    s.protected_ (s.apAddr o) d.length = false → s.secProtected (s.apAddr o) d.length = false →
    ((∀ p ∈ cutsAt 256 (s.apAddr o) d.length, s.refusesAccess { store := .dram, addr := p.1 } p.2 = none) →
      ∃ t, exec (.bar2Write o d g) s = .next t ∧
        (∀ k, t.byte k = ((cutsAt 256 (s.apAddr o) d.length).foldl (fun (u : State) p =>
          u.pokes { store := .dram, addr := p.1 } ((d.drop (p.1 - s.apAddr o)).take p.2)) s).byte k) ∧
        SameRegs [Reg.APERTURE_AP_HELD] s t ∧ SameEp s t) ∧
    ((∃ p ∈ cutsAt 256 (s.apAddr o) d.length, 0 < p.2 ∧ s.refusesAccess { store := .dram, addr := p.1 } p.2 ≠ none) →
      ∃ t, exec (.bar2Write o d g) s = .next t ∧ t.reg Reg.APERTURE_AP_ERR = s.counted Reg.APERTURE_AP_ERR ∧ SameEp s t)) ∧
  (∀ (o : Word) (d : List Byte) (g : BitVec 18) (s : State), s.hostBlocked 0 = none →
    s.protected_ (s.apAddr o) d.length = true →
    ∃ t, exec (.bar2Write o d g) s = .next t ∧ t.reg Reg.LOADER_STAGE_WRITE_DROP = s.counted Reg.LOADER_STAGE_WRITE_DROP ∧
      SameRegs [Reg.LOADER_STAGE_WRITE_DROP] s t ∧ SameBytes s t ∧ SameEp s t ∧ SameRest s t) ∧
  (∀ (s : State), s.hostReadBlocked = none → ∃ t, exec (.bar0Bad true) s = .next t ∧
    t.reg Reg.ENDPOINT_BAR0_BAD = s.counted Reg.ENDPOINT_BAR0_BAD ∧ t.reg Reg.ENDPOINT_UR_SENT = s.counted Reg.ENDPOINT_UR_SENT ∧
    SameRegs [Reg.ENDPOINT_BAR0_BAD, Reg.ENDPOINT_UR_SENT] s t ∧ SameBytes s t ∧ SameEp s t ∧ SameRest s t) ∧
  (∀ (s : State), s.hostBlocked 0 = none → ∃ t, exec (.bar0Bad false) s = .next t ∧
    t.reg Reg.ENDPOINT_BAR0_BAD = s.counted Reg.ENDPOINT_BAR0_BAD ∧ SameRegs [Reg.ENDPOINT_BAR0_BAD] s t ∧ SameBytes s t ∧
    SameEp s t ∧ SameRest s t) ∧
  (∀ (k : UrKind) (s : State), s.ep.perst = false → ∃ t, exec (.inboundUr k) s = .next t ∧ SameBytes s t ∧ SameEp s t ∧
    SameRest s t ∧
    (k ∈ [UrKind.io, .lockedRead, .atomic] ∨ (k = .type1Config ∧ s.ep.flr = false) ∨ (k = .d3hotMemory false ∧ s.ep.d3hot = true) →
      t.reg Reg.ENDPOINT_UR_SENT = s.counted Reg.ENDPOINT_UR_SENT ∧
      (∃ r, t.egress = s.egress ++ Egress.unsupportedRequest :: r) ∧ SameRegs [Reg.ENDPOINT_UR_SENT] s t) ∧
    (k = .vendorType1 ∨ k = .d3hotMemory true → SameRegs [] s t))

/-- A write of PWR.REQ that the page admits is judged domain by domain: a reserved code changes nothing, and the state
that the domain is in or goes to shows in REQ, but for a trip, and requests nothing (log entry 89); a request that the
banks, a training channel, the common store's use, a trip or (the model's choice, log entry 89) a cluster kept off
forbids leaves REQ and counts in DROP_TALLY of the domain's page; any other shows in REQ and begins a transition or,
during one, waits as the last request. The end of a transition leaves the domain in the state it went to, counts in
TRANSITIONS and raises the event; off, a cluster's scratchpad and the common store read 0 and a pair's channels are
OFF; on from off, the store's clear begins, and its end shows in CLEAR_STATE. A common store that a LOAD has come to
use in the meantime stays as it is (log entry 89). With no transition in progress nothing changes. Where the rules
leave a point open, it rests on the model's reading in log entries 21 and 89. (R280, R281, R292, R300, R357, R359,
R374) -/
def Obligations.PowerDomainsFollowRequests : Prop :=
  (∀ (m : Master) (hi : Bool) (v : Word) (s : State), s.admits m 0x004 = true →
    ∃ t, exec (.pwrReq m hi v) s = .next t ∧ SameBytes s t ∧
      ∀ i < (if hi then 13 else 16), ∀ (d r k : Nat), d = i + (if hi then 16 else 0) → r = bits v (2 * i + 1) (2 * i) →
        k = (if hi then Reg.POWER_REQ1 else Reg.POWER_REQ0) →
        ((r = 3 ∨ s.domTarget d = r) → mapGet t.power.moving d = mapGet s.power.moving d ∧
          mapGet t.power.queued d = mapGet s.power.queued d ∧
          bits (t.reg k) (2 * i + 1) (2 * i) = (if r = 3 ∨ s.power.tripped = true then bits (s.reg k) (2 * i + 1) (2 * i) else r) ∧
          t.reg (Reg.DROP_TALLY (domainPage d)) = s.reg (Reg.DROP_TALLY (domainPage d))) ∧
        (r ≠ 3 → s.domTarget d ≠ r → (s.power.tripped = true ∨ (r < 2 ∧ s.powerHeld d = true) ∨ (r = 2 ∧ s.keptOff d = true)) →
          mapGet t.power.moving d = mapGet s.power.moving d ∧ mapGet t.power.queued d = mapGet s.power.queued d ∧
          bits (t.reg k) (2 * i + 1) (2 * i) = bits (s.reg k) (2 * i + 1) (2 * i) ∧
          t.reg (Reg.DROP_TALLY (domainPage d)) = s.counted (Reg.DROP_TALLY (domainPage d))) ∧
        (r ≠ 3 → s.domTarget d ≠ r → s.power.tripped = false → ((r = 2 ∧ s.keptOff d = false) ∨ (r < 2 ∧ s.powerHeld d = false)) →
          bits (t.reg k) (2 * i + 1) (2 * i) = r ∧
          t.reg (Reg.DROP_TALLY (domainPage d)) = s.reg (Reg.DROP_TALLY (domainPage d)) ∧
          ((mapGet s.power.moving d).isSome = true → mapGet t.power.queued d = some r ∧
            mapGet t.power.moving d = mapGet s.power.moving d) ∧
          (mapGet s.power.moving d = none → s.domState d ≠ r → mapGet t.power.moving d = some r))) ∧
  (∀ (d : Fin 29) (s : State), mapGet s.power.moving d.val = none →
    ∃ t, exec (.domainTransitionDone d) s = .next t ∧ t.power = s.power ∧ SameRegs [] s t ∧ SameBytes s t ∧ SameRest s t) ∧
  (∀ (r : Nat) (s : State), mapGet s.power.moving 24 = some r → r < 2 → s.powerHeld 24 = true → mapGet s.power.queued 24 = none →
    ∃ t, exec (.domainTransitionDone 24) s = .next t ∧ t.domState 24 = s.domState 24 ∧ mapGet t.power.moving 24 = none ∧
      t.reg (Reg.DROP_TALLY 0x319) = s.counted (Reg.DROP_TALLY 0x319) ∧ SameRegs [Reg.DROP_TALLY 0x319] s t ∧ SameBytes s t) ∧
  (∀ (d : Fin 29) (r : Nat) (s : State), mapGet s.power.moving d.val = some r → (d.val ≠ 24 ∨ 2 ≤ r ∨ s.powerHeld 24 = false) →
    ∃ t, exec (.domainTransitionDone d) s = .next t ∧ t.domState d.val = r ∧
      (∀ x : Fin 29, x ≠ d → t.domState x.val = s.domState x.val) ∧
      t.reg Reg.POWER_TRANSITIONS = s.counted Reg.POWER_TRANSITIONS ∧
      t.reg (Reg.EVT_RAW 0x004) = s.reg (Reg.EVT_RAW 0x004) ||| 1 ∧
      (∀ q, mapGet s.power.queued d.val = some q → q ≠ r → 2 ≤ q ∨ s.powerHeld d.val = false → mapGet t.power.moving d.val = some q) ∧
      (r = 1 → SameBytes s t ∧ (mapGet s.power.queued d.val = none → SameRegs [Reg.POWER_TRANSITIONS, Reg.EVT_RAW 0x004] s t)) ∧
      (r = 0 → 25 ≤ d.val → t.chanState (2 * (d.val - 25)) = 0 ∧ t.chanState (2 * (d.val - 25) + 1) = 0) ∧
      (r = 0 ∨ (r = 2 ∧ s.domState d.val = 0) →
        (∀ c : Fin 8, d.val = c.val → ∀ a < 0x800000, t.byte (storeBase (.spad c) + a) = 0) ∧
        (d.val = 24 → ∀ a < 0x3000000, t.byte (storeBase .common + a) = 0)) ∧
      (r = 2 → s.domState d.val = 0 → d.val < 8 ∨ d.val = 24 → d.val ∈ t.power.clearing)) ∧
  (∀ (d : Fin 29) (s : State) (p : Nat), s.power.clearing.contains d.val = true →
    p = (if d.val < 8 then pageSpad d.val else 0x319) →
    ∃ t, exec (.storeClearDone d) s = .next t ∧ t.reg (Reg.STORE_CLEAR_STATE p) = 2 ∧
      t.reg (Reg.EVT_RAW p) = s.reg (Reg.EVT_RAW p) ||| 2 ∧ t.power.clearing = s.power.clearing.erase d.val ∧
      SameRegs [Reg.STORE_CLEAR_STATE p, Reg.EVT_RAW p] s t ∧ SameBytes s t)

/-- A sample shows its readings and the power estimate. With x the larger of the thresholds at or below a cluster's
reading and the power level, the cluster's clamp level rises to x at once, falls by one in the 64th sample in a row
below it, and stays else; any other sample starts the count again. The level takes effect at the cluster's window
start. A reading at T_ALARM raises the alarm, once for as long as it stands; one at T_TRIP switches every domain off
and latches the trip. PWR_LIMIT drops values above 65,000 and every value under its lock bit. Deep idle is entered
exactly under the conditions of R365, and left with the edges of the meantime counted on both pages. Where the rules
leave a point open, it rests on the model's reading in log entries 21 and 22. (R87, R331, R332, R360, R361, R362,
R365) -/
def Obligations.ThermalSamplesClampAlarmAndTrip : Prop :=
  (∀ (temps : List (BitVec 16)) (mw : Word) (s : State), ∃ t, exec (.thermalSample temps mw) s = .next t ∧
    (∀ w < 8, t.reg (Reg.THERMAL_TEMP0 + 4 * w) =
      BitVec.ofNat 32 ((reading temps (2 * w)).toNat + 65536 * (reading temps (2 * w + 1)).toNat)) ∧
    t.reg Reg.THERMAL_PWR_EST = mw ∧
    (∀ c < 8, ∀ x, x = s.clampX (reading temps c).toInt (powerLevel mw.toNat (s.regN Reg.THERMAL_PWR_LIMIT)) →
      t.clampLevel c = (if s.clampLevel c < x then x
        else if x < s.clampLevel c ∧ 63 ≤ (s.cluster c).clampBelow then s.clampLevel c - 1 else s.clampLevel c) ∧
      (t.cluster c).clampBelow = (if x < s.clampLevel c ∧ (s.cluster c).clampBelow < 63 then (s.cluster c).clampBelow + 1 else 0)) ∧
    t.power.alarm = (List.range 16).any (fun n => decide (s.threshold Reg.THERMAL_T_CLAMP3 31 16 ≤ (reading temps n).toInt)) ∧
    (t.power.alarm = true → s.power.alarm = false →
      t.reg Reg.THERMAL_ALARM = s.counted Reg.THERMAL_ALARM ∧ t.pendingSrc 244 = true) ∧
    ((∃ n < 16, s.threshold Reg.THERMAL_T_TRIP 15 0 ≤ (reading temps n).toInt) → s.power.tripped = false →
      t.power.tripped = true ∧ t.power.tripLow = true ∧ t.reg Reg.THERMAL_TRIP = s.counted Reg.THERMAL_TRIP ∧
      ∀ d < 29, t.domState d = 0 ∧ mapGet t.power.moving d = none) ∧
    ((∀ n < 16, (reading temps n).toInt < s.threshold Reg.THERMAL_T_TRIP 15 0) →
      { t.power with alarm := s.power.alarm } = s.power ∧ SameBytes s t)) ∧
  (∀ (c : Fin 8) (s : State), ∃ t, exec (.clampWindowStart c) s = .next t ∧ (t.cluster c.val).clampNow = (s.cluster c.val).clampNext ∧
    (∀ x, x ≠ c.val → t.cluster x = s.cluster x) ∧ SameRegs [] s t ∧ SameBytes s t) ∧
  (∀ (m : Master) (v : Word) (s : State), s.admits m 0x005 = true → ∃ t, exec (.pwrLimit m v) s = .next t ∧ SameBytes s t ∧
    SameRest s t ∧
    (s.locked 0x005 1 = false ∧ bits v 16 0 ≤ 65000 → t.reg Reg.THERMAL_PWR_LIMIT = BitVec.ofNat 32 (bits v 16 0) ∧
      SameRegs [Reg.THERMAL_PWR_LIMIT] s t) ∧
    (s.locked 0x005 1 = true ∨ 65000 < bits v 16 0 → t.reg (Reg.DROP_TALLY 0x005) = s.counted (Reg.DROP_TALLY 0x005) ∧
      SameRegs [Reg.DROP_TALLY 0x005] s t)) ∧
  (∀ (w : Bool) (s : State), ∃ t, exec (.deepIdleEntry w) s = .next t ∧ SameRegs [] s t ∧ SameBytes s t ∧
    (w = true ∧ s.deepIdleOk = true → t.power.deepIdle = true ∧ t.icu.onFclk = false) ∧
    (w = false ∨ s.deepIdleOk = false → t.power = s.power ∧ SameRest s t)) ∧
  (∀ s : State, ∃ t, exec .deepIdleWake s = .next t ∧ SameBytes s t ∧
    SameRegs [Reg.ICU_EDGE_LATCHED 0, Reg.ICU_EDGE_LATCHED 1] s t ∧
    (s.power.deepIdle = true ∧ s.wakeEdge = true → t.power.deepIdle = false ∧ t.icu.uncounted = 0 ∧ ∀ i < 2, t.reg (Reg.ICU_EDGE_LATCHED i) =
      BitVec.ofNat 32 (min ((s.reg (Reg.ICU_EDGE_LATCHED i)).toNat + s.icu.uncounted) 0xFFFFFFFF)) ∧
    (s.power.deepIdle = false ∨ s.wakeEdge = false → SameRegs [] s t ∧ SameRest s t))

/-- Each class shows in BOOT.STATE. Hot reset and FLR empty both banks, destroy the pools, forget streams, sessions,
holdback and tracks, put the clusters off and reset the host target and the endpoint, whose function answers retry
status during an FLR; they keep DRAM bytes, fuses, local time and the MGC. PERST#, and a supply out of range in its
place, put every domain and channel off as well and hold the device; its release restarts the ROM with the fused
lifecycle state. Power-on reset keeps the fuses only, as PERST# does; either may leave the bits of an interrupted burn
burnt or not, but no lifecycle bit before the wipe has ended, and a key slot programmed or spoiled: every store byte
reads 0, local time and all registers are at reset but the boot and security ones that the ROM sets. INTA is
deasserted by each. The lock of the PLLs starts local time and the FCLK, ends the power-on clear, and opens the window
for firmware where the link is up. A stall reset clears its stall's residency and slot, a unit reset its unit's page,
whose STATUS then shows whether its domain is on; during a running bank both wait for the Reset step. Where the rules
leave a point open, it rests on the model's reading in log entries 19 and 20. (R324, R333, R364, R368, R371, R372,
R373, R421) -/
def Obligations.ResetClassesReach : Prop :=
  (∀ (c : Instr) (s : State), c = .hotReset ∨ c = .flr → ∃ t, exec c s = .next t ∧
    bits (t.reg Reg.BOOT_STATE) 6 4 = (if c = .flr then 4 else 3) ∧ t.ep.flr = decide (c = .flr) ∧
    t.reg Reg.LEDGER_BANK_STATE = 0 ∧ t.bankActive = false ∧ t.pools = [] ∧ t.streams = [] ∧ t.sessions = [] ∧ t.stalls = [] ∧
    t.sheet.held = [] ∧ t.tau = {} ∧ t.ep.memorySpace = false ∧ t.ep.busMaster = false ∧ t.ep.inta = false ∧
    t.reg Reg.ENDPOINT_CONTAIN = 0 ∧ (∀ k < 8, t.domTarget k = 0) ∧ (∀ k, flatIsDram k = true → t.byte k = s.byte k) ∧
    t.tsu = s.tsu ∧ t.sec.fuses = s.sec.fuses ∧ t.sec.running = s.sec.running ∧ t.pending = s.pending) ∧
  (∀ s : State, ∃ t, exec .perstAssert s = .next t ∧ t.ep.perst = true ∧ t.ep.inta = false ∧ t.ep.supplyHold = false ∧
    bits (t.reg Reg.BOOT_STATE) 6 4 = 2 ∧ t.pendingSrc 242 = true ∧ (∀ d < 29, t.domState d = 0) ∧ (∀ c < 8, t.chanState c = 0) ∧
    t.reg Reg.LEDGER_BANK_STATE = 0 ∧ t.pools = [] ∧ t.power.tripped = false ∧ t.sec.running = none ∧ t.sec.identity = false ∧
    (s.sec.cmd = none → t.sec.fuses = s.sec.fuses) ∧ (s.sec.wiping = true → t.sec.fuses.lc = s.sec.fuses.lc) ∧
    (∀ i < 4, s.sec.cmd = some (.keyProg i) → t.keyProgrammed i = true ∨ t.keySpoiled i = true) ∧ t.sec.cmd = none ∧
    t.tsu.ns = s.tsu.ns ∧ t.tsu.frac = s.tsu.frac ∧ t.pending = s.pending) ∧
  (∀ s : State, s.ep.perst = false → ∃ t, exec .supplyOutOfRange s = .next t ∧ t.ep.perst = true ∧ t.ep.supplyHold = true ∧
    t.ep.inta = false ∧ (∀ d < 29, t.domState d = 0) ∧ (∀ c < 8, t.chanState c = 0) ∧ t.sec.running = none ∧
    (s.sec.cmd = none → t.sec.fuses = s.sec.fuses) ∧ t.tsu.ns = s.tsu.ns) ∧
  (∀ s : State, s.ep.perst = true → s.ep.supplyHold = false → ∃ t, exec .perstDeassert s = .next t ∧ t.ep.perst = false ∧
    t.ep.wakeLow = false ∧ t.bootCode = 0 ∧ t.sec.lcBoot.toNat = s.lcFused ∧ t.icu.onFclk = false ∧ t.pendingSrc 243 = true ∧
    t.sec.wiping = false ∧ t.sec.fuses = s.sec.fuses) ∧
  (∀ s : State, s.ep.perst = true → s.ep.supplyHold = true → ∃ t, exec .perstDeassert s = .next t ∧ t.ep.perst = true ∧
    SameRegs [] s t ∧ SameBytes s t ∧ SameRest s t) ∧
  (∀ (strap : BitVec 2) (s : State), ∃ t, exec (.powerOnReset strap) s = .next t ∧
    (s.sec.cmd = none → t.sec.fuses = s.sec.fuses) ∧ (s.sec.wiping = true → t.sec.fuses.lc = s.sec.fuses.lc) ∧
    t.pending = s.pending ∧ t.tsu = {} ∧ t.ledger = {} ∧ t.streams = [] ∧ t.power = {} ∧ t.ep.perst = false ∧ t.ep.inta = false ∧
    bits (t.reg Reg.BOOT_STATE) 6 4 = 1 ∧ bits (t.reg Reg.BOOT_STATE) 9 8 = strap.toNat ∧ t.bootCode = 0 ∧
    (∀ k, flatIsDram k = false → t.byte k = 0) ∧ (∀ c < 8, t.epoch c = s.epoch c + 1) ∧
    SameRegs [Reg.BOOT_STATE, Reg.EVT_RAW 0x003, Reg.SECURITY_LC, Reg.SECURITY_FW_INFO, Reg.STORE_CLEAR_STATE 0x31A,
      Reg.CHIP_CHIP_ID, Reg.THERMAL_T_CLAMP1, Reg.THERMAL_T_CLAMP3, Reg.THERMAL_T_TRIP] State.reset t) ∧
  (∀ s : State, ∃ t, exec .pllLock s = .next t ∧ t.tsu.running = true ∧ t.icu.onFclk = true ∧ SameBytes s t ∧
    t.bootCode = (if s.bootCode = 0 ∧ bit (s.reg Reg.ENDPOINT_LINK) 8 = true then 1 else s.bootCode) ∧
    (bit (s.reg (Reg.STORE_CLEAR_STATE 0x31A)) 1 = false → t.reg (Reg.STORE_CLEAR_STATE 0x31A) = 2) ∧
    SameRegs [Reg.BOOT_STATE, Reg.EVT_RAW 0x003, Reg.STORE_CLEAR_STATE 0x31A, Reg.EVT_RAW 0x31A] s t) ∧
  (∀ (m : Master) (v : Word) (s : State), s.admits m 0x003 = true → ∃ t, exec (.rstStall m v) s = .next t ∧
    (s.resetNow = true → ∀ st : Fin 8, if bit v st.val then (t.stall st.val).slot = none ∧ (t.stall st.val).loading = none ∧
        t.reg (Reg.STALL_RESIDENT st.val) = 0
      else t.stall st.val = s.stall st.val ∧ t.reg (Reg.STALL_RESIDENT st.val) = s.reg (Reg.STALL_RESIDENT st.val)) ∧
    (s.resetNow = false → SameRegs [] s t ∧ SameBytes s t ∧
      ∀ st : Fin 8, (t.stall st.val).resetPending = (bit v st.val || (s.stall st.val).resetPending))) ∧
  (∀ (m : Master) (v : Word) (s : State), s.admits m 0x003 = true → bit v 31 = true → ∃ t, exec (.rstUnit m v) s = .next t ∧
    SameBytes s t ∧
    (s.resetNow = true → unitResettable (bits v 7 0) = true →
      (∀ k, unitPages (bits v 7 0) (keyPage k) = true → (∀ p, mediaUnitPage (bits v 7 0 - 8) = some p → k ≠ Reg.STATUS p) →
        t.reg k = regReset k) ∧
      (∀ p, mediaUnitPage (bits v 7 0 - 8) = some p → t.reg (Reg.STATUS p) = (if s.domOn (bits v 7 0 - 8) then 1 else 0)) ∧
      t.reg Reg.BOOT_UNIT_RESET = s.counted Reg.BOOT_UNIT_RESET ∧ bits (t.reg Reg.BOOT_STATE) 6 4 = 6) ∧
    (s.resetNow = false → t.ledger.unitResets = s.ledger.unitResets ++ [bits v 7 0] ∧ SameRegs [] s t))

/-- In WAIT_FW and FW_REFUSED a DWord written to FW_DATA lies at FW_ADDR of the MGC memory, low byte first, and FW_ADDR
advances by 4; in any other state, or beyond 1,572,864 bytes, the write is dropped and counted. FW_GO with a length
set enters VERIFY from those two states, does nothing without a length, and is dropped elsewhere. At the end of the
verification a good image runs and BOOT.STATE reads RUNNING; a bad one leaves FW_REFUSED with its reason; outside
VERIFY nothing changes. Where the rules leave a point open, it rests on the model's reading in log entry 20. (R368,
R369, R374, R381, R391) -/
def Obligations.FirmwareWindowAndVerification : Prop :=
  (∀ (m : Master) (v : Word) (s : State), s.admits m 0x003 = true →
    ((s.bootCode = 1 ∨ s.bootCode = 3) → s.regN Reg.BOOT_FW_ADDR + 4 ≤ 1572864 →
      ∃ t, exec (.fwData m v) s = .next t ∧
        t.reg Reg.BOOT_FW_ADDR = BitVec.ofNat 32 (s.regN Reg.BOOT_FW_ADDR + 4) &&& 0x001FFFFC ∧
        (∀ i < 4, t.byte (storeBase .mgcMem + s.regN Reg.BOOT_FW_ADDR + i) = BitVec.ofNat 8 (v.toNat / 256 ^ i)) ∧
        (∀ k, (k < storeBase .mgcMem + s.regN Reg.BOOT_FW_ADDR ∨ storeBase .mgcMem + s.regN Reg.BOOT_FW_ADDR + 4 ≤ k) →
          t.byte k = s.byte k) ∧
        SameRegs [Reg.BOOT_FW_ADDR] s t) ∧
    ((s.bootCode ≠ 1 ∧ s.bootCode ≠ 3) ∨ 1572864 < s.regN Reg.BOOT_FW_ADDR + 4 →
      ∃ t, exec (.fwData m v) s = .next t ∧ t.reg (Reg.DROP_TALLY 0x003) = s.counted (Reg.DROP_TALLY 0x003) ∧
        SameRegs [Reg.DROP_TALLY 0x003] s t ∧ SameBytes s t ∧ SameRest s t)) ∧
  (∀ (m : Master) (v : Word) (s : State), s.admits m 0x003 = true → bit v 0 = true → ∃ t, exec (.fwGo m v) s = .next t ∧
    SameBytes s t ∧ SameRest s t ∧
    ((s.bootCode = 1 ∨ s.bootCode = 3) → s.regN Reg.BOOT_FW_LEN ≠ 0 → t.bootCode = 2 ∧
      t.reg (Reg.EVT_RAW 0x003) = s.reg (Reg.EVT_RAW 0x003) ||| 1 ∧ SameRegs [Reg.BOOT_STATE, Reg.EVT_RAW 0x003] s t) ∧
    ((s.bootCode = 1 ∨ s.bootCode = 3) → s.regN Reg.BOOT_FW_LEN = 0 → SameRegs [] s t) ∧
    (s.bootCode ≠ 1 → s.bootCode ≠ 3 → t.reg (Reg.DROP_TALLY 0x003) = s.counted (Reg.DROP_TALLY 0x003) ∧
      SameRegs [Reg.DROP_TALLY 0x003] s t)) ∧
  (∀ s : State, ∃ t, exec .firmwareVerifyDone s = .next t ∧ SameBytes s t ∧
    (s.bootCode ≠ 2 → SameRegs [] s t ∧ SameRest s t) ∧
    (s.bootCode = 2 → s.verifyImage (s.halfBytes false) (s.regN Reg.BOOT_FW_LEN) = 0 →
      t.bootCode = 4 ∧ t.sec.half = false ∧ t.sec.fuses = s.sec.fuses ∧
      t.sec.running = some (bytesWord (s.peeks (halfPtr false) 0x080) 0x018).toNat) ∧
    (s.bootCode = 2 → ∀ r, r = s.verifyImage (s.halfBytes false) (s.regN Reg.BOOT_FW_LEN) → r ≠ 0 →
      t.bootCode = 3 ∧ t.reg Reg.SECURITY_CMD_STATE = BitVec.ofNat 32 (5 + 256 * r) ∧ t.sec = s.sec ∧
      SameRegs [Reg.BOOT_STATE, Reg.EVT_RAW 0x003, Reg.SECURITY_CMD_STATE] s t))

/-- A configuration is taken by a channel that is OFF with its lock bit clear, where it names a row of the table, no
reserved code and the rate of the other populated channels, or leaves the channel unpopulated; else it is dropped
whole. A set is written only while both banks are EMPTY and the lock bit is clear. TRAIN makes each named channel that
is populated and OFF, with boot done, read RETRAINING and its contents undefined, and drops once where one was
ignored. The end of a training puts the channel in service with its lanes where every lane passes at 16 taps or more,
or OFF with the failed step. A release trains a frozen channel anew with its capture registers cleared, and is dropped
for any other. Where the rules leave a point open, it rests on the model's reading in log entry 80. (R293, R294, R300,
R306, R307, R308, R370) -/
def Obligations.ChannelsAreConfiguredTrainedAndReleased : Prop :=
  (∀ (m : Master) (dc : Fin 8) (v : Word) (s : State), s.admits m (pageDc dc.val) = true → ∀ ok : Prop,
    ok = (s.locked (pageDc dc.val) 0 = false ∧ s.chanState dc.val = 0 ∧ (bit v 0 = true → dcRowOk v = true ∧
      ∀ n < 8, n ≠ dc.val → bit (s.reg (Reg.DC_CFG n)) 0 = true → bits (s.reg (Reg.DC_CFG n)) 2 1 = bits v 2 1)) →
    ∃ t, exec (.dcCfg m dc v) s = .next t ∧ SameBytes s t ∧ SameRest s t ∧
      (ok → t.reg (Reg.DC_CFG dc.val) = v &&& 0x7F ∧ SameRegs [Reg.DC_CFG dc.val] s t) ∧
      (¬ ok → t.reg (Reg.DROP_TALLY (pageDc dc.val)) = s.counted (Reg.DROP_TALLY (pageDc dc.val)) ∧
        SameRegs [Reg.DROP_TALLY (pageDc dc.val)] s t)) ∧
  (∀ (m : Master) (cfg : Bool) (v : Word) (s : State), s.admits m 0x310 = true → ∀ (b : Nat) (ok : Prop),
    b = bits (s.reg Reg.MAP_SET_SEL) 2 0 → ok = (s.locked 0x310 0 = false ∧ s.bankState false = 0 ∧ s.bankState true = 0) →
    ∃ t, exec (.mapSetWrite m cfg v) s = .next t ∧ SameRest s t ∧
      (ok → cfg = true → t.reg (Reg.MAP_SET_CFG b) = v &&& 0x001F1FFF ∧ SameRegs [Reg.MAP_SET_CFG b] s t) ∧
      (ok → cfg = false → t.reg (Reg.MAP_SET_BASE b) = v &&& 0x7F ∧ SameRegs [Reg.MAP_SET_BASE b] s t) ∧
      (¬ ok → t.reg (Reg.DROP_TALLY 0x310) = s.counted (Reg.DROP_TALLY 0x310) ∧ SameRegs [Reg.DROP_TALLY 0x310] s t)) ∧
  (∀ (m : Master) (v : Word) (s : State), s.admits m 0x003 = true → ∃ t, exec (.train m v) s = .next t ∧
    (∀ c < 8, if bit v c = true ∧ s.trainable c = true then
        t.chanState c = 3 ∧ t.epoch c = s.epoch c + 1 ∧
        (s.domOn (25 + c / 2) = false → mapGet t.power.moving (25 + c / 2) = some 2)
      else t.reg (Reg.DC_STATE c) = s.reg (Reg.DC_STATE c) ∧ t.epoch c = s.epoch c) ∧
    t.reg (Reg.DROP_TALLY 0x003) = (if (List.range 8).any (fun c => bit v c && !s.trainable c) then
      s.counted (Reg.DROP_TALLY 0x003) else s.reg (Reg.DROP_TALLY 0x003)) ∧
    (∀ k, flatIsDram k = false → t.byte k = s.byte k)) ∧
  (∀ (dc : Fin 8) (r : TrainEnd) (s : State) (cfg : Word), cfg = s.reg (Reg.DC_CFG dc.val) → ∃ t, exec (.trainingDone dc r) s = .next t ∧
    SameBytes s t ∧ (∀ c, c ≠ dc.val → t.dram c = s.dram c) ∧ t.epoch dc.val = s.epoch dc.val ∧
    (s.chanState dc.val ≠ 3 → SameRegs [] s t ∧ SameRest s t) ∧
    (∀ ls, s.chanState dc.val = 3 → r = .swept ls → sweepFails cfg ls = none → t.reg (Reg.DC_STATE dc.val) = 1 ∧
      t.reg (Reg.EVT_RAW (pageDc dc.val)) = s.reg (Reg.EVT_RAW (pageDc dc.val)) ||| 2 ∧ (t.dram dc.val).trained = true ∧
      (∀ x ∈ channelLanes cfg, 16 ≤ (laneVal cfg ls x).eye ∧
        t.reg (Reg.DC_LANE_VAL dc.val (laneKey x.1.val x.2.1 x.2.2)) = laneWord (laneVal cfg ls x))) ∧
    (∀ (p l : Nat) (a b : Bool), s.chanState dc.val = 3 →
      ((∃ ls, r = .swept ls ∧ sweepFails cfg ls = some (p, l, a, b)) ∨ (∃ (q : Fin 7) (n : Fin 5), r = .timedOut q n a b ∧ p = q.val + 1 ∧
        l = (if q.val = 6 then (componentLanes cfg n.val).headD 0 else n.val))) →
      t.reg (Reg.DC_STATE dc.val) = trainFailWord p l a b ∧
      SameRegs [Reg.DC_STATE dc.val, Reg.EVT_RAW (pageDc dc.val)] s t ∧ SameRest s t)) ∧
  (∀ (m : Master) (dc : Fin 8) (v : Word) (s : State), s.admits m (pageDc dc.val) = true → bit v 0 = true →
    ∃ t, exec (.channelRelease m dc v) s = .next t ∧
      (s.chanState dc.val = 2 → t.chanState dc.val = 3 ∧ t.reg (Reg.DC_FRZ_CAUSE dc.val) = 0 ∧
        t.epoch dc.val = s.epoch dc.val + 1 ∧ ∀ k, k / 2 ^ 34 ≠ dc.val → t.byte k = s.byte k) ∧
      (s.chanState dc.val ≠ 2 → t.reg (Reg.DROP_TALLY (pageDc dc.val)) = s.counted (Reg.DROP_TALLY (pageDc dc.val)) ∧
        SameRegs [Reg.DROP_TALLY (pageDc dc.val)] s t ∧ SameBytes s t ∧ SameRest s t))

/-- A batch of an open channel in service takes up to 8 reads and then up to 8 writes from its queue, oldest first and
none that is held; each read is answered with the 64 bytes of its burst as they stood, each write with no data, and a
burst that the batch does not write keeps its bytes. Those left wait in order. A closed channel queues and counts, one
that is down or in retention answers with errors and counts DOWN_ACCESS. A refresh of an open channel scrubs the next
burst, corrects a correctable error there and wraps at the end. A DC MAINT entry closes its channel, and its end
applies the re-centred lanes, no read tap moved by more than 8, and opens it. RECENTRE_LATE counts with its event.
ALERT_n freezes the channel with cause 3 and the stalls whose pitch holds it. Where the rules leave a point open, it
rests on the model's reading in log entries 14, 30, 77 and 81. (R45, R296, R297, R301, R303, R304) -/
def Obligations.ChannelsServeBatchesAndMaintenance : Prop :=
  (∀ (dc : Fin 8) (sub : Bool) (new : List DramReq) (held : BitVec 32) (s : State) (q : List DramReq) (burst : DramReq → Nat),
    s.upsets = [] → q = (s.dram dc.val).queue sub ++ new →
    burst = (fun (r : DramReq) => dc.val * 2 ^ 34 + r.offset.toNat / 64 * 64) →
    (s.chanServes dc.val = true → (s.dram dc.val).closed = false →
      ∃ t, exec (.dramBatch dc sub new held []) s = .next t ∧ ((t.dram dc.val).queue sub) = (takeBatch q held).2 ∧
        (∃ r, t.egress = s.egress ++ (takeBatch q held).1.map (fun x => Egress.dramResponse x.initiator.val
          (if x.write = none then (List.range 64).map (fun i => s.byte (burst x + i)) else []) false false) ++ r) ∧
        (∀ k, (∀ x ∈ (takeBatch q held).1, x.write ≠ none → ¬ (burst x ≤ k ∧ k < burst x + 64)) → t.byte k = s.byte k) ∧
        (∀ w o d, (takeBatch q held).1.filter (fun x => x.write.isSome) = [w] → w.write = some (o, d) →
          ∀ i < d.length, o.toNat + i < 64 → t.byte (burst w + o.toNat + i) = d.getD i 0) ∧
        SameRegs [Reg.DC_SPREAD_HOLD dc.val, Reg.DC_RFM_ISSUED dc.val] s t) ∧
    (s.chanServes dc.val = true → (s.dram dc.val).closed = true →
      ∃ t, exec (.dramBatch dc sub new held []) s = .next t ∧ ((t.dram dc.val).queue sub) = q ∧
        SameRegs [Reg.DC_MAINT_HOLD dc.val] s t ∧ SameBytes s t) ∧
    (s.chanServes dc.val = false →
      ∃ t, exec (.dramBatch dc sub new held []) s = .next t ∧ t.dram dc.val = s.dram dc.val ∧
        (∃ r, t.egress = s.egress ++ new.map (fun x => Egress.dramResponse x.initiator.val [] true false) ++ r) ∧
        (s.chanState dc.val = 2 → SameRegs [] s t) ∧ SameRegs [Reg.DC_DOWN_ACCESS dc.val] s t ∧ SameBytes s t)) ∧
  (∀ (dc : Fin 8) (sub same : Bool) (s : State) (n o : Nat), s.chanServes dc.val = true →
    (s.dram dc.val).closed = false → n = (if sub then (s.dram dc.val).scrubB else (s.dram dc.val).scrubA) →
    o = n * 128 + (if sub then 64 else 0) →
    ((mapGet s.upsets (dc.val * 2 ^ 34 + o)).any upsetBad = false →
      ∃ t, exec (.refab dc sub same) s = .next t ∧ SameBytes s t ∧
        (if sub then (t.dram dc.val).scrubB else (t.dram dc.val).scrubA) = (if s.scrubBursts dc.val ≤ n + 1 then 0 else n + 1) ∧
        (if sub then (t.dram dc.val).scrubA else (t.dram dc.val).scrubB) =
          (if sub then (s.dram dc.val).scrubA else (s.dram dc.val).scrubB) ∧
        mapGet t.upsets (dc.val * 2 ^ 34 + o) = none ∧
        t.reg (Reg.DC_SCRUB_PASS dc.val) = (if s.scrubBursts dc.val ≤ n + 1 then s.counted (Reg.DC_SCRUB_PASS dc.val)
          else s.reg (Reg.DC_SCRUB_PASS dc.val)) ∧
        t.reg (Reg.DC_SCRUB_CE dc.val) = (if mapGet s.upsets (dc.val * 2 ^ 34 + o) = none then s.reg (Reg.DC_SCRUB_CE dc.val)
          else s.counted (Reg.DC_SCRUB_CE dc.val)) ∧
        SameRegs [Reg.DC_SCRUB_PASS dc.val, Reg.DC_SCRUB_CE dc.val, Reg.DC_RFM_ISSUED dc.val] s t) ∧
    ((mapGet s.upsets (dc.val * 2 ^ 34 + o)).any upsetBad = true → s.chanState dc.val = 1 →
      ∃ t, exec (.refab dc sub same) s = .next t ∧ t.chanState dc.val = 2 ∧
        t.reg (Reg.DC_FRZ_CAUSE dc.val) = BitVec.ofNat 32 (2 + 65536 * (s.tick.toNat % 65536)))) ∧
  (∀ (i : EntryIx) (e : Entry) (s : State), s.entryFor i.val 0x28 0x2F 8 = some e → s.chanServes (e.unit - 0x28) = true →
    s.sweepErrors (e.unit - 0x28) = [] →
    ∃ t, exec (.dcMaintEntry i) s = .next t ∧ (t.dram (e.unit - 0x28)).closed = true ∧ SameRegs [] s t ∧ SameBytes s t) ∧
  (∀ (dc : Fin 8) (ls : List LaneSweep) (s : State), (s.dram dc.val).closed = true → (ls.map laneIx).Nodup →
    ∃ t, exec (.dcMaintEnd dc ls) s = .next t ∧ (t.dram dc.val).closed = false ∧ SameBytes s t ∧
      (∀ x ∈ ls, t.reg (Reg.DC_LANE_VAL dc.val (laneIx x)) = laneWord (s.recentred dc.val ls x) ∧
        ∀ now : Nat, now = bits (s.reg (Reg.DC_LANE_VAL dc.val (laneIx x))) 6 0 →
          now ≤ (s.recentred dc.val ls x).read + 8 ∧ (s.recentred dc.val ls x).read ≤ now + 8) ∧
      (ls = [] → SameRegs [] s t)) ∧
  (∀ (dc : Fin 8) (s : State), s.chanState dc.val = 1 → ∃ t, exec (.recentreLate dc) s = .next t ∧
    t.reg (Reg.DC_RECENTRE_LATE dc.val) = s.counted (Reg.DC_RECENTRE_LATE dc.val) ∧
    t.reg (Reg.EVT_RAW (pageDc dc.val)) = s.reg (Reg.EVT_RAW (pageDc dc.val)) ||| 4 ∧
    SameRegs [Reg.DC_RECENTRE_LATE dc.val, Reg.EVT_RAW (pageDc dc.val)] s t ∧ SameBytes s t ∧ SameRest s t) ∧
  (∀ (dc : Fin 8) (s : State), s.chanState dc.val = 1 → ∃ t, exec (.alertN dc) s = .next t ∧ t.chanState dc.val = 2 ∧
    t.reg (Reg.DC_FRZ_CAUSE dc.val) = BitVec.ofNat 32 (3 + 65536 * (s.tick.toNat % 65536)) ∧
    t.reg (Reg.DC_FREEZE dc.val) = s.counted (Reg.DC_FREEZE dc.val) ∧ t.epoch dc.val = s.epoch dc.val + 1 ∧
    (∀ k, flatIsDram k = true → k / 2 ^ 34 ≠ dc.val → t.byte k = s.byte k) ∧
    (∀ st < 8, (bits (s.reg (Reg.STALL_PITCH st)) 7 0).testBit dc.val = true → bits (s.reg (Reg.STALL_STATE st)) 1 0 ≠ 0 →
      t.reg (Reg.STALL_STATE st) = 2 ∧ t.reg (Reg.STALL_RESIDENT st) = 0 ∧ (t.stall st).slot = none))

/-- Whatever the sets hold, two device addresses that lie in sets have different places; a place lies in a populated
channel of its set's mask and below that channel's capacity; and the place of an address in set i is the one that the
formula of the map gives: the k-th lowest channel of the mask with k the block number modulo P, at OFF GiB and block
number divided by P. Where the rules leave a point open, it rests on the model's reading in log entry 25. (R293, R294) -/
def Obligations.DramAddressesDoNotShareABurst : Prop :=
  (∀ (s : State) (a b : Nat) (x y : Nat × Nat), s.dramPlace a = some x → s.dramPlace b = some y → a ≠ b → x ≠ y) ∧
  (∀ (s : State) (a c o : Nat), s.dramPlace a = some (c, o) → c < 8 ∧ bit (s.reg (Reg.DC_CFG c)) 0 = true ∧
    o < dcCapacity (s.reg (Reg.DC_CFG c)) * 2 ^ 30) ∧
  (∀ (s : State) (i a : Nat), i < 8 → s.setValid i = true → a < 2 ^ 37 → (s.mapSet i).base * 2 ^ 30 ≤ a →
    a < (s.mapSet i).base * 2 ^ 30 + (s.mapSet i).p * (s.mapSet i).size * 2 ^ 30 → ∀ d u,
    d = a - (s.mapSet i).base * 2 ^ 30 → u = d / 256 →
    ∃ c, (maskChannels (s.mapSet i).mask)[u % (s.mapSet i).p]? = some c ∧
      s.dramPlace a = some (c, (s.mapSet i).off * 2 ^ 30 + u / (s.mapSet i).p * 256 + d % 256))

/-- A write of bytes to any store that is not refused, and meets no uncorrectable error in a word or burst that it covers
in part, is served: the same bytes read back, every byte of every store outside them is as before, and the memory list
keeps its canonical form. (R275, R279, R294, R432, 12_onchip_memory_and_buffer_pools.md) -/
def Obligations.StoresReadBackWhatIsWritten : Prop :=
  ∀ (s : State) (p : Ptr) (d : List Byte), d ≠ [] → s.refusesAccess p d.length = none →
    (s.meetErrors p.store (s.partialUnits p d.length)).2 ≠ 2 →
    ∀ t, t = (s.write p d).st → (s.write p d).status = 0 ∧ t.peeks p d.length = d ∧
      (∀ k, (∀ i < d.length, s.flat (ptrAdd p i) ≠ some k) → t.byte k = s.byte k) ∧
      (Memory.wf s.mem → Memory.wf t.mem)

/-- An allocation that the requester may make, of a valid pool without back-pressure for it, lends the lowest-numbered
free buffer with the owner named, in its only slot, and replies its address; with no free buffer it replies EMPTY and
counts. An add of an allowed owner to a lent buffer with a free slot takes one; with four held it is refused with
reason 6. The other names keep their slots. A release empties one slot that holds the owner, and with the last one the
buffer is free again. A check of a lent buffer's address changes nothing. A request refused with reason 1, 2, 3, 4 or
5 counts in PTR_REFUSED, shows reason and requester, and leaves every pool. Requests that are pending together are
served one whole after another, the earlier first, and of one FCLK the lower requester first. Where the rules leave a
point open, it rests on the model's reading in log entries 74 and 90. (R284, R285, R286, R287, R288) -/
def Obligations.PoolsLendAndTakeBackBuffers : Prop :=
  (∀ (q : Fin 32) (n : BitVec 6) (o : BitVec 4) (s : State) (p : Pool), p = s.pool n.toNat → mayAlloc q.val o.toNat = true →
    p.valid = true → (p.bpMask.getLsbD (bpmClass q.val) = false ∨ p.bp < p.free) →
    (∀ b, b < p.count → (∀ i < b, (mapGet p.owners i).isSome = true) → mapGet p.owners b = none →
      ∃ t, exec (.bpmAlloc q n o []) s = .next t ∧ mapGet (t.pool n.toNat).owners b = some [o.toNat] ∧
        (∀ x, x ≠ b → mapGet (t.pool n.toNat).owners x = mapGet p.owners x) ∧ (∀ x, x ≠ n.toNat → t.pool x = s.pool x) ∧
        (∃ r, t.egress = s.egress ++ Egress.bpmReply (some (p.base + b * p.bufSize)) :: r) ∧
        t.reg Reg.BPM_ALLOC_DONE = s.counted Reg.BPM_ALLOC_DONE ∧ SameBytes s t) ∧
    ((∀ i < p.count, (mapGet p.owners i).isSome = true) →
      ∃ t, exec (.bpmAlloc q n o []) s = .next t ∧ t.pools = s.pools ∧ (∃ r, t.egress = s.egress ++ Egress.bpmReply none :: r) ∧
        t.reg Reg.BPM_ALLOC_EMPTY = s.counted Reg.BPM_ALLOC_EMPTY ∧
        SameRegs [Reg.BPM_ALLOC_EMPTY, Reg.BPM_P_ALLOC_EMPTY n.toNat] s t ∧ SameBytes s t)) ∧
  (∀ (q : Fin 32) (a : Ptr) (o : BitVec 4) (s : State) (n b : Nat) (os : List Nat), s.bpmFind a = .ok (n, b) →
    mapGet (s.pool n).owners b = some os →
    (mayAdd q.val o.toNat = true → (slotNames os).length < 4 → ∃ t, exec (.bpmAddOwner q a o []) s = .next t ∧
      (∃ os1, mapGet (t.pool n).owners b = some os1 ∧ (slotNames os1).Perm (o.toNat :: slotNames os) ∧
        (os.length ≤ 4 → os1.length ≤ 4) ∧ ∀ i, os.getD i 0 ≠ 0 → os1.getD i 0 = os.getD i 0) ∧ (∀ x, x ≠ b → mapGet (t.pool n).owners x = mapGet (s.pool n).owners x) ∧
      (∀ x, x ≠ n → t.pool x = s.pool x) ∧ SameRegs [] s t ∧ SameBytes s t) ∧
    (mayAdd q.val o.toNat = true → 4 ≤ (slotNames os).length → ∃ t, exec (.bpmAddOwner q a o []) s = .next t ∧ t.pools = s.pools ∧
      t.reg Reg.BPM_OWNER_FULL = s.counted Reg.BPM_OWNER_FULL ∧ SameBytes s t) ∧
    (mayRelease q.val o.toNat = true → os.contains o.toNat = true → ∃ t, exec (.bpmRelease q a o []) s = .next t ∧
      (slotNames os = [o.toNat] → mapGet (t.pool n).owners b = none) ∧
      (slotNames os ≠ [o.toNat] → ∃ (os1 : List Nat) (j : Nat), mapGet (t.pool n).owners b = some os1 ∧ os[j]? = some o.toNat ∧ os1[j]? = some 0 ∧
        ∀ i, i ≠ j → os1[i]? = os[i]?) ∧
      (∀ x, x ≠ b → mapGet (t.pool n).owners x = mapGet (s.pool n).owners x) ∧ (∀ x, x ≠ n → t.pool x = s.pool x) ∧ SameBytes s t) ∧
    (∃ t, exec (.bpmCheck q a []) s = .next t ∧ SameRegs [] s t ∧ SameBytes s t ∧ SameRest s t)) ∧
  (∀ (q : Fin 32) (a : Ptr) (o : BitVec 4) (s : State) (r : Nat) (c : Instr),
    (c = .bpmAddOwner q a o [] ∧ r = (if mayAdd q.val o.toNat = false then 5 else match s.bpmFind a with
      | .error e => e
      | .ok _ => 0)) ∨
    (c = .bpmRelease q a o [] ∧ r = (if mayRelease q.val o.toNat = false then 5 else match s.bpmFind a with
      | .error e => e
      | .ok x => if (mapGetD (s.pool x.1).owners x.2 []).contains o.toNat then 0 else 4)) ∨
    (c = .bpmCheck q a [] ∧ (q.val < 15 ∨ 22 < q.val) ∧ r = (match s.bpmFind a with
      | .error e => e
      | .ok _ => 0)) →
    r ≠ 0 → ∃ t, exec c s = .next t ∧ t.pools = s.pools ∧ t.reg Reg.BPM_PTR_REFUSED = s.counted Reg.BPM_PTR_REFUSED ∧
      t.reg Reg.BPM_REFUSE_INFO = BitVec.ofNat 32 (r + 256 * q.val + 65536 * (s.tick.toNat % 65536)) ∧
      t.reg Reg.BPM_REFUSE_ADDR_LO = BitVec.ofNat 32 a.addr ∧ t.reg (Reg.EVT_RAW 0x318) = s.reg (Reg.EVT_RAW 0x318) ||| 4 ∧
      SameBytes s t) ∧
  (∀ (q : Fin 32) (op : BpmOp) (others : List BpmReq) (s : State) (c : Instr),
    ((∃ n o, op = .alloc n o ∧ c = .bpmAlloc q n o others) ∨ (∃ a o, op = .add a o ∧ c = .bpmAddOwner q a o others) ∨
      (∃ a o, op = .release a o ∧ c = .bpmRelease q a o others) ∨ (∃ a, op = .check a ∧ c = .bpmCheck q a others)) →
    ∃ l : List BpmReq, l.Perm (⟨q, op, 0⟩ :: others) ∧
      l.Pairwise (fun x y => x.after < y.after ∨ (x.after = y.after ∧ x.q ≤ y.q)) ∧
      exec c s = .next (settle (l.foldl (fun a x => a.bpmServe x.q.val x.op) s)))

/-- A port that does not receive changes nothing. A header that cannot be corrected counts in HDR_UE and spoils the frames
open on its port and virtual channel. With a usable header, a frame start leaves every valid input there with no frame
or with a new one with the stamp of local time less STAMP_ADJ and the settings in effect, and every other input with a
frame open there without one; where one input is concerned, it has a frame exactly where the pool gives a buffer, else
CSI_POOL_EMPTY counts, and its open frame counts in FRAME_CUT and FRAME_BAD. A long packet of a supported type adds a
line to the frame of every input that it matches, marked bad after a CRC error or a misfit, and writes a line that
fits to the frame's buffer; an unsupported type, or a packet of no input, is dropped and counted. A frame end makes a
good frame of the full height with the same number a candidate, and drops any other, counted in FRAME_BAD where it is
the only one. The cut-off leaves no candidate: an input without a group shows the stamp of its latest candidate, a
member of a group that of the candidate nearest to the anchor's, where it lies in the window. A change of a port's
link shows in LINK with its event. Where the rules leave a point open, it rests on the model's reading in log entries
55, 56 and 57. (R16, R216, R217, R218, R219, R220, R228) -/
def Obligations.SensorFramesStartFillAndEnd : Prop :=
  (∀ (port vc : Fin 4) (no : BitVec 16) (ecc : Ecc) (s : State), s.csiOn port.val = true → ecc ≠ .uncorrectable →
    ∃ t, exec (.csiFs port vc no ecc) s = .next t ∧
      (∀ n < 16, bit (s.inCtl n) 0 = true → inPort (s.inCtl n) = port.val → inVc (s.inCtl n) = vc.val →
        (t.sensor n).openFrame = none ∨ ∃ b, (t.sensor n).openFrame = some
          { buf := b, stamp := s.tsu.ns - BitVec.ofNat 32 (bits (s.reg (Reg.CSI_STAMP_ADJ port.val)) 15 0), frameNo := no
            lines := 0, bad := false, ctl := s.inCtl n, size := s.effReg (Reg.ALIGN_IN_SIZE n) }) ∧
      (∀ n < 16, (bit (s.inCtl n) 0 = false ∨ inPort (s.inCtl n) ≠ port.val ∨ inVc (s.inCtl n) ≠ vc.val) →
        (t.sensor n).openFrame = (if (s.openInputs port.val vc.val).contains n then none else (s.sensor n).openFrame)) ∧
      (∀ n < 16, (t.sensor n).candidates = (s.sensor n).candidates) ∧ SameBytes s t ∧
      (∀ n, (List.range 16).filter (fun x => bit (s.inCtl x) 0 && inPort (s.inCtl x) == port.val && inVc (s.inCtl x) == vc.val) = [n] →
        (s.openInputs port.val vc.val = [] → (s.sensor n).openFrame = none →
          (t.sensor n).openFrame = (s.bpmAlloc 14 (inPool (s.inCtl n)) 3).2.map (fun b =>
            { buf := b, stamp := s.tsu.ns - BitVec.ofNat 32 (bits (s.reg (Reg.CSI_STAMP_ADJ port.val)) 15 0), frameNo := no
              lines := 0, bad := false, ctl := s.inCtl n, size := s.effReg (Reg.ALIGN_IN_SIZE n) }) ∧
          t.reg (Reg.CSI_CSI_POOL_EMPTY port.val) = (if (s.bpmAlloc 14 (inPool (s.inCtl n)) 3).2.isNone
            then s.counted (Reg.CSI_CSI_POOL_EMPTY port.val) else s.reg (Reg.CSI_CSI_POOL_EMPTY port.val))) ∧
        (s.openInputs port.val vc.val = [n] → t.reg (Reg.CSI_FRAME_CUT port.val) = s.counted (Reg.CSI_FRAME_CUT port.val) ∧
          t.reg (Reg.CSI_FRAME_BAD port.val) = s.counted (Reg.CSI_FRAME_BAD port.val)))) ∧
  (∀ (port vc : Fin 4) (no : BitVec 16) (dt : BitVec 6) (ecc : Ecc) (crc : Bool) (d : List Byte) (s : State) (c : Instr),
    c ∈ [Instr.csiFs port vc no ecc, .csiLongPacket port vc dt ecc crc d, .csiFe port vc no ecc] →
    (s.csiOn port.val = false → ∃ t, exec c s = .next t ∧ SameRegs [] s t ∧ SameBytes s t ∧ SameRest s t) ∧
    (s.csiOn port.val = true → ecc = .uncorrectable → ∃ t, exec c s = .next t ∧ SameBytes s t ∧
      t.reg (Reg.CSI_HDR_UE port.val) = s.counted (Reg.CSI_HDR_UE port.val) ∧ SameRegs [Reg.CSI_HDR_UE port.val] s t ∧
      ∀ n < 16, (t.sensor n).openFrame = (if (s.openInputs port.val vc.val).contains n
        then (s.sensor n).openFrame.map (fun f => { f with bad := true }) else (s.sensor n).openFrame))) ∧
  (∀ (port vc : Fin 4) (dt : BitVec 6) (ecc : Ecc) (crc : Bool) (d : List Byte) (s : State), s.csiOn port.val = true →
    ecc ≠ .uncorrectable → ∃ t, exec (.csiLongPacket port vc dt ecc crc d) s = .next t ∧
      (csiTypes.contains dt.toNat = false → t.reg (Reg.CSI_DT_DROP port.val) = s.counted (Reg.CSI_DT_DROP port.val) ∧
        (∀ n, t.sensor n = s.sensor n) ∧ SameBytes s t) ∧
      (csiTypes.contains dt.toNat = true → (∀ n < 16, s.inputMatches n port.val vc.val dt.toNat = false) →
        t.reg (Reg.CSI_NO_INPUT port.val) = s.counted (Reg.CSI_NO_INPUT port.val) ∧ (∀ n, t.sensor n = s.sensor n) ∧ SameBytes s t) ∧
      (csiTypes.contains dt.toNat = true → ∀ n < 16, ∀ f, (s.sensor n).openFrame = some f →
        (t.sensor n).candidates = (s.sensor n).candidates ∧
        (t.sensor n).openFrame = some (if s.inputMatches n port.val vc.val dt.toNat then
          { f with lines := f.lines + 1, bad := f.bad || !crc ||
            !(decide (4 * d.length = bits f.size 15 0 * csiPacket4 dt.toNat) && decide (f.lines < bits f.size 31 16)) } else f)) ∧
      (csiTypes.contains dt.toNat = true → ∀ n f, n < 16 → (s.sensor n).openFrame = some f →
        s.upsets = [] → (∀ x < 16, s.inputMatches x port.val vc.val dt.toNat = decide (x = n)) →
        4 * d.length = bits f.size 15 0 * csiPacket4 dt.toNat → f.lines < bits f.size 31 16 →
        ∀ k, t.byte k = (s.unitWrite (ptrAdd f.buf (f.lines * csiPitch dt.toNat (bits f.size 15 0))) (csiStored dt.toNat d)).byte k)) ∧
  (∀ (port vc : Fin 4) (no : BitVec 16) (ecc : Ecc) (s : State), s.csiOn port.val = true → ecc ≠ .uncorrectable →
    ∃ t, exec (.csiFe port vc no ecc) s = .next t ∧ SameBytes s t ∧
      ∀ n < 16, (∀ f, (s.sensor n).openFrame = some f → (s.openInputs port.val vc.val).contains n = true →
          (t.sensor n).openFrame = none ∧ (t.sensor n).candidates =
            (if f.bad = false ∧ f.lines = bits f.size 31 16 ∧ f.frameNo = no then (s.sensor n).candidates ++ [f]
             else (s.sensor n).candidates) ∧
          (¬ (f.bad = false ∧ f.lines = bits f.size 31 16 ∧ f.frameNo = no) → s.openInputs port.val vc.val = [n] →
            t.reg (Reg.CSI_FRAME_BAD port.val) = s.counted (Reg.CSI_FRAME_BAD port.val))) ∧
        ((s.openInputs port.val vc.val).contains n = false → t.sensor n = s.sensor n)) ∧
  (∀ (i : EntryIx) (port : Fin 4) (link : Word) (s : State) (c : Instr),
    (c = .csiCutoff i ∧ s.entryFor i.val 0x20 0x20 9 = none) ∨ (c = .csiLinkChange port link ∧ s.domOn 22 = false) →
    ∃ t, exec c s = .next t ∧ SameRegs [] s t ∧ SameBytes s t ∧ SameRest s t) ∧
  (∀ (i : EntryIx) (e : Entry) (s : State), s.entryFor i.val 0x20 0x20 9 = some e →
    ∃ t, exec (.csiCutoff i) s = .next t ∧ (∀ n < 16, (t.sensor n).candidates = [] ∧
        (t.sensor n).openFrame = (s.sensor n).openFrame) ∧
      (∀ n f, n ∈ s.validInputs → 8 ≤ s.inGroup n → latest (s.sensor n).candidates = some f →
        t.reg (Reg.ALIGN_IN_LAST n) = f.stamp) ∧
      (∀ g a f n c, g < 8 →
        (match (s.validInputs.filter (fun n => s.inGroup n == g && !(s.sensor n).candidates.isEmpty)).find?
            (fun n => bit (s.effReg (Reg.ALIGN_IN_GROUP n)) 4) with
          | some x => some x
          | none => (s.validInputs.filter (fun n => s.inGroup n == g && !(s.sensor n).candidates.isEmpty)).head?) = some a →
        latest (s.sensor a).candidates = some f → n ∈ s.validInputs → s.inGroup n = g →
        nearest f.stamp (s.sensor n).candidates = some c →
        t.reg (Reg.ALIGN_IN_LAST n) = (if (stampDiff c.stamp f.stamp).natAbs ≤ bits (s.reg (Reg.ALIGN_GRP_WINDOW g)) 15 0 * 1000
          then c.stamp else s.reg (Reg.ALIGN_IN_LAST n)))) ∧
  (∀ (port : Fin 4) (link v : Word) (s : State), s.domOn 22 = true →
    v = link &&& (if [1, 2, 4].contains (bits (s.reg (Reg.CSI_PHY_CFG port.val)) 2 0) then 0x11F else 0x1F) →
    ∃ t, exec (.csiLinkChange port link) s = .next t ∧ t.reg (Reg.CSI_LINK port.val) = v ∧ SameBytes s t ∧ SameRest s t ∧
      (s.reg (Reg.CSI_LINK port.val) = v → SameRegs [] s t) ∧
      (s.reg (Reg.CSI_LINK port.val) ≠ v →
        t.reg (Reg.EVT_RAW (pageCsi port.val)) = s.reg (Reg.EVT_RAW (pageCsi port.val)) ||| 1 ∧
        SameRegs [Reg.CSI_LINK port.val, Reg.EVT_RAW (pageCsi port.val)] s t))

/-- RING_CFG takes 2^5 to 2^10 slots and a host area of 2^16 to 2^24, and drops other values. The four ring registers of
the selected stream are written while its ENABLE is 0, written and in effect; with ENABLE at 1, bit 0 of CTX_CTL is
still written, a change of its other bits and a write of the other three are refused, counted and shown. PROXY RECORDS
and FRAMES are written where the store that they need fits its region, and refused and counted otherwise; the proxy
generation takes 16 bits. A rate cap is written whatever its value, and one above the active bundle's figure counts in
RATE_CAP_IGNORED. Where the rules leave a point open, it rests on the model's reading in log entry 26. (R47, R201,
R223, R225, R242, R256) -/
def Obligations.ConfigurationWritesWithRules : Prop :=
  (∀ (m : Master) (v : Word) (s : State), s.admits m 0x221 = true → ∀ n h, n = bits v 3 0 → h = bits v 12 8 →
    ∃ t, exec (.ringCfg m v) s = .next t ∧ SameBytes s t ∧ SameRest s t ∧
      (5 ≤ n → n ≤ 10 → 16 ≤ h → h ≤ 24 → t.reg Reg.SHEET_RING_CFG = BitVec.ofNat 32 (n + 256 * h) ∧
        SameRegs [Reg.SHEET_RING_CFG] s t) ∧
      ((n < 5 ∨ 10 < n ∨ h < 16 ∨ 24 < h) → t.reg (Reg.DROP_TALLY 0x221) = s.counted (Reg.DROP_TALLY 0x221) ∧
        SameRegs [Reg.DROP_TALLY 0x221] s t)) ∧
  (∀ (m : Master) (o : BitVec 12) (d : RegDesc) (v : Word) (s : State) (k x : Nat), s.admits m 0x200 = true →
    o ∈ [0x114, 0x118, 0x11C, 0x120] → regDesc 0x200 o.toNat = some d → x = s.bankOf 0x200 o.toNat → k = bkey x 0x200 o.toNat →
    ∃ t, exec (.intakeConfigWrite m o v) s = .next t ∧ SameBytes s t ∧ SameRest s t ∧
      (s.ctxEnabled x = false → t.reg k = mergeBits (s.reg k) (fieldsMask d.fields) v ∧ SameRegs [k] s t) ∧
      (s.ctxEnabled x = true → o = 0x114 → t.reg k = mergeBits (s.reg k) 1 v ∧
        t.reg Reg.INTAKE_CFG_REFUSED = (if (mergeBits (s.reg k) (fieldsMask d.fields) v ^^^ s.reg k) &&& 0xFFFFFFFE = 0
          then s.reg Reg.INTAKE_CFG_REFUSED else s.counted Reg.INTAKE_CFG_REFUSED) ∧
        SameRegs [k, Reg.INTAKE_CFG_REFUSED, Reg.EVT_RAW 0x200] s t) ∧
      (s.ctxEnabled x = true → o ≠ 0x114 → t.reg Reg.INTAKE_CFG_REFUSED = s.counted Reg.INTAKE_CFG_REFUSED ∧
        t.reg (Reg.EVT_RAW 0x200) = s.reg (Reg.EVT_RAW 0x200) ||| 4 ∧
        SameRegs [Reg.INTAKE_CFG_REFUSED, Reg.EVT_RAW 0x200] s t)) ∧
  (∀ (m : Master) (fr : Bool) (v : Word) (s : State) (r f : Nat), s.admits m 0x21D = true →
    r = (if fr then bits (s.reg Reg.PROXY_RECORDS) 15 0 else bits v 15 0) →
    f = (if fr then bits v 19 0 else bits (s.reg Reg.PROXY_FRAMES) 19 0) →
    ∃ t, exec (.proxyGeometryWrite m fr v) s = .next t ∧ SameBytes s t ∧ SameRest s t ∧
      (s.proxyFits r f = true → fr = true → t.reg Reg.PROXY_FRAMES = BitVec.ofNat 32 f ∧ SameRegs [Reg.PROXY_FRAMES] s t) ∧
      (s.proxyFits r f = true → fr = false → t.reg Reg.PROXY_RECORDS = BitVec.ofNat 32 r ∧ SameRegs [Reg.PROXY_RECORDS] s t) ∧
      (s.proxyFits r f = false → t.reg Reg.PROXY_CFG_REFUSED = s.counted Reg.PROXY_CFG_REFUSED ∧
        SameRegs [Reg.PROXY_CFG_REFUSED] s t)) ∧
  (∀ (m : Master) (v : Word) (s : State), s.admits m 0x21D = true → ∃ t, exec (.proxyGen m v) s = .next t ∧
    t.reg Reg.PROXY_GEN = BitVec.ofNat 32 (bits v 15 0) ∧ SameRegs [Reg.PROXY_GEN] s t ∧ SameBytes s t ∧ SameRest s t) ∧
  (∀ (m : Master) (r : Regulator) (v : Word) (s : State) (cap fig p ign : Nat), capRegs r = some (cap, fig, p, ign) →
    s.admits m p = true → ∃ t, exec (.rateCapWrite m r v) s = .next t ∧ t.reg cap = v &&& 0xFFFF ∧
      t.reg ign = (if s.bankActive = true ∧ s.regN fig < bits v 15 0 then s.counted ign else s.reg ign) ∧
      t.eff = s.eff ∧ SameRegs [cap, ign] s t ∧ SameBytes s t ∧ SameRest s t)

/-- At a port that works, a frame with a bad check sequence or a length outside 64 to 9,216 counts in RX_ERR; one with two
tags or a PAUSE frame in RX_OTHER; one that is neither accepted nor forwarded in RX_FILTERED. An accepted PTP frame
counts in PTP_RX and goes to the MGC. A frame to be forwarded joins the other port's queue, an event message ahead of
it. An accepted fragment counts in RTP_BAD; an RTP packet that an entry matches, of a running stream, counts in the
lowest such entry's FLOW_HIT; one that comes too late counts in RTP_LATE. A frame at the head leaves and counts, a
1588 Sync or Delay_Req with its residence time. A link change shows in LINK with the tick number, counts, raises event
and edge, and a link that goes down makes its port's domains LOST. FLOW_SEL loads the staging set from its entry,
FLOW_COMMIT stores it back, and a read of the new-source register takes the oldest record, for the owner only. Where
the rules leave a point open, it rests on the model's reading in log entries 31, 32 and 33. (R184, R185, R186, R187,
R202, R341, R348, R349, R350, R352, R414) -/
def Obligations.FramesAtTheEthernetPorts : Prop :=
  (∀ (port : Fin 2) (f : EthFrame) (s : State) (p : Nat) (good plain : Bool), s.portOn port.val = true → p = port.val →
    good = (f.fcsOk && decide (64 ≤ f.len.toNat) && decide (f.len.toNat ≤ 9216)) →
    plain = (good && decide (f.tags.val < 2) && decide (f.payload ≠ .pause) && decide (f.dest.toNat / 16 ≠ 0x0180C200000)) →
    ∃ t, exec (.ethFrameRx port f) s = .next t ∧
      (good = false → t.reg (Reg.EP_RX_ERR p) = s.counted (Reg.EP_RX_ERR p) ∧ SameRegs [Reg.EP_RX_ERR p] s t ∧ SameBytes s t ∧ SameRest s t) ∧
      (good = true → (2 ≤ f.tags.val ∨ f.payload = .pause) → t.reg (Reg.EP_RX_OTHER p) = s.counted (Reg.EP_RX_OTHER p) ∧
        SameRegs [Reg.EP_RX_OTHER p] s t ∧ SameBytes s t ∧ SameRest s t) ∧
      (plain = true → s.accepts p f.dest = false → s.forwards p f.dest = false →
        t.reg (Reg.EP_RX_FILTERED p) = s.counted (Reg.EP_RX_FILTERED p) ∧ SameRegs [Reg.EP_RX_FILTERED p] s t ∧ SameBytes s t ∧
        SameRest s t) ∧
      (plain = true → s.forwards p f.dest = true → t.fwdQueue (1 - p) =
        (if s.fwdFits p f then enqueueFwd (s.fwdOf p f) (s.fwdQueue (1 - p)) else s.fwdQueue (1 - p)) ∧
        (s.fwdFits p f = false → t.reg Reg.SYSTEM_FWD_DROP = s.counted Reg.SYSTEM_FWD_DROP)) ∧
      (plain = true → s.accepts p f.dest = true → isPtp f.payload = true →
        t.reg (Reg.EP_PTP_RX p) = s.counted (Reg.EP_PTP_RX p) ∧ (∃ r, t.egress = s.egress ++ Egress.ethToMgc p (some (s.ingressStamp p f.ingress f.ingressFrac)) :: r) ∧ SameBytes s t) ∧
      (∀ v6 src dp r, plain = true → s.accepts p f.dest = true → f.payload = .udp v6 src dp true r →
        t.reg Reg.FLOW_RTP_BAD = s.counted Reg.FLOW_RTP_BAD ∧ SameBytes s t) ∧
      (∀ v6 src dp r b, plain = true → s.accepts p f.dest = true → f.payload = .udp v6 src dp false (some r) → b < 256 →
        s.flowMatch b p v6 src dp r = true → (∀ x < b, s.flowMatch x p v6 src dp r = false) → ∀ x,
        x = bits (s.reg (Reg.FLOW_FLOW_CTL b)) 15 8 → s.streamOn x = true → s.container x = 4 →
        t.reg (Reg.FLOW_FLOW_HIT b) = s.counted (Reg.FLOW_FLOW_HIT b) ∧
        ((r.version2 = false ∨ r.modeOk = false) → t.reg Reg.FLOW_RTP_BAD = s.counted Reg.FLOW_RTP_BAD ∧ SameBytes s t ∧
          t.stream x = s.stream x) ∧
        (r.version2 = true → r.modeOk = true → (s.stream x).rtpIsLate r = true →
          t.reg Reg.FLOW_RTP_LATE = s.counted Reg.FLOW_RTP_LATE ∧ SameBytes s t ∧ t.stream x = s.stream x))) ∧
  (∀ (port : Fin 2) (e : Word) (fr : Byte) (s : State) (f : FwdFrame) (q : List FwdFrame), s.portOn port.val = true →
    s.fwdQueue port.val = f :: q → ∃ t, exec (.forwardTx port e fr) s = .next t ∧ t.fwdQueue port.val = q ∧
      t.fwdQueue (1 - port.val) = s.fwdQueue (1 - port.val) ∧
      t.reg Reg.SYSTEM_FWD_FRAMES = s.counted Reg.SYSTEM_FWD_FRAMES ∧
      t.reg Reg.SYSTEM_TC_CORRECTED = (if f.correct then s.counted Reg.SYSTEM_TC_CORRECTED else s.reg Reg.SYSTEM_TC_CORRECTED) ∧
      (∃ r, t.egress = s.egress ++ Egress.ethForward port.val (if f.correct then residence f (s.egressStamp port.val e fr).1 (s.egressStamp port.val e fr).2 else 0) :: r) ∧
      SameRegs [Reg.SYSTEM_FWD_FRAMES, Reg.SYSTEM_TC_CORRECTED] s t ∧ SameBytes s t) ∧
  (∀ (port : Fin 2) (up : Bool) (rate : BitVec 3) (s : State) (p : Nat), s.portOn port.val = true → p = port.val →
    ∃ t, exec (.ethLinkChange port up rate) s = .next t ∧
      t.reg (Reg.EP_LINK p) = BitVec.ofNat 32 ((if up then 1 + 2 * rate.toNat else 0) + 65536 * (s.tick.toNat % 65536)) ∧
      t.reg (Reg.EP_LINK_CHANGE p) = s.counted (Reg.EP_LINK_CHANGE p) ∧
      t.reg (Reg.EVT_RAW (pageEp p)) = s.reg (Reg.EVT_RAW (pageEp p)) ||| 1 ∧ t.pendingSrc (246 + p) = true ∧ SameBytes s t ∧
      (up = true → SameRegs [Reg.EP_LINK p, Reg.EP_LINK_CHANGE p, Reg.EVT_RAW (pageEp p)] s t) ∧
      (up = false → ∀ d < 2, s.domainOn d p = true → bits (t.reg (Reg.DOMAIN_STATE d)) 2 0 = 4)) ∧
  (∀ (m : Master) (v : Word) (s : State), s.admits m 0x201 = true → ∃ t, exec (.flowSel m v) s = .next t ∧
    t.reg Reg.FLOW_FLOW_SEL = v &&& 0xFF ∧
    (∀ x ∈ (flowKeys (bits v 7 0)).zip (flowKeys flowStaging), t.reg x.2 = s.reg x.1) ∧
    SameRegs (Reg.FLOW_FLOW_SEL :: flowKeys flowStaging) s t ∧ SameBytes s t ∧ SameRest s t) ∧
  (∀ (m : Master) (v : Word) (s : State), s.admits m 0x201 = true → ∃ t, exec (.flowCommit m v) s = .next t ∧ SameBytes s t ∧
    SameRest s t ∧ (bit v 0 = false → SameRegs [] s t) ∧
    (bit v 0 = true → (∀ x ∈ (flowKeys flowStaging).zip (flowKeys (bits (s.reg Reg.FLOW_FLOW_SEL) 7 0)), t.reg x.2 = s.reg x.1) ∧
      SameRegs (flowKeys (bits (s.reg Reg.FLOW_FLOW_SEL) 7 0)) s t)) ∧
  (∀ (m : Master) (s : State), (m = .host → s.hostReadBlocked = none) → ∃ t, exec (.newsrcPop m) s = .next t ∧ SameBytes s t ∧
    (∃ r, t.egress = s.egress ++ Egress.readCompletion s.newSourceWord :: r) ∧
    (s.owner 0x201 ≠ masterCode m ∨ s.eth.newSources = [] → SameRegs [] s t ∧ SameRest s t) ∧
    (∀ x q, s.owner 0x201 = masterCode m → s.eth.newSources = x :: q → t.eth.newSources = q ∧
      t.reg Reg.FLOW_NEWSRC_ADDR0 = addrWord x.2 0 ∧ t.reg Reg.FLOW_NEWSRC_ADDR3 = addrWord x.2 3 ∧
      SameRegs [Reg.FLOW_NEWSRC_ADDR0, Reg.FLOW_NEWSRC_ADDR1, Reg.FLOW_NEWSRC_ADDR2, Reg.FLOW_NEWSRC_ADDR3] s t))

/-- LOAD to a bank that is not active, with no load in the other, from populated and trained DRAM that overlaps no region
in use, makes the bank LOADING with its first phase shown, and protects the regions that the bundle names; the first
condition that fails is the refusal code, and the bank stays. DISCARD empties a bank, and is dropped and counted for
the active one and for one that is LOADING. At the end of the first three phases a failure of the phase's checks
refuses the bundle: the bank reads REFUSED with the code, and no load runs; without one the next phase begins, the
caps in force kept from the second on. The end of the fifth, without a lost channel, leaves the bank WEIGHED under the
bundle's number. Where the rules leave a point open, it rests on the model's reading in log entries 65, 70 and 93.
(R33, R60, R62, R64, R65, R66, R68, R69) -/
def Obligations.LoadsPassTheirPhases : Prop :=
  (∀ (m : Master) (v : Word) (s : State) (b : Bool), s.admits m 0x002 = true → ∀ c ∈ [Instr.load m v, .discard m v],
    (bit v 4 = false → bit v 0 = false → ∃ t, exec c s = .next t ∧ SameRegs [] s t ∧ SameBytes s t ∧ SameRest s t) ∧
    (bit v 4 = true → bit v 0 = false → b = bit v 5 → ∃ t, exec c s = .next t ∧ SameBytes s t ∧
      (s.bankState b = 3 ∨ s.bankState b = 1 → t.reg (Reg.DROP_TALLY 0x002) = s.counted (Reg.DROP_TALLY 0x002) ∧
        SameRegs [Reg.DROP_TALLY 0x002] s t ∧ SameRest s t) ∧
      (s.bankState b ≠ 3 → s.bankState b ≠ 1 → t.bankState b = 0 ∧ t.bankState (!b) = s.bankState (!b) ∧
        SameRegs [Reg.LEDGER_BANK_STATE, bundleIdReg b] s t ∧ (s.bankState b ≠ 0 → t.reg (bundleIdReg b) = 0 ∧ t.bundle b = {}))) ∧
    (bit v 4 = false → bit v 0 = true → b = bit v 1 → ∀ code : Nat,
      code = (if s.bankState b = 3 then 0x0101 else if s.bankState (!b) = 1 then 0x0102
        else if s.stageInDram s.loadStage (s.regN Reg.LOADER_STAGE_LEN) = false then 0x0103
        else if s.bankActive = true ∧ regionMeets s.active.recs .dram s.loadStage (s.regN Reg.LOADER_STAGE_LEN) = true then 0x0104
        else 0) →
      ∃ t, exec c s = .next t ∧ SameBytes s t ∧
        (code ≠ 0 → t.reg Reg.LEDGER_REFUSE_CODE = BitVec.ofNat 32 code ∧ t.loader = s.loader ∧
          t.reg Reg.LOADER_LOAD_REFUSED = s.counted Reg.LOADER_LOAD_REFUSED ∧
          t.reg (Reg.EVT_RAW 0x002) = s.reg (Reg.EVT_RAW 0x002) ||| 2 ∧
          SameRegs [Reg.LEDGER_REFUSE_CODE, Reg.LOADER_REFUSE_SECT, Reg.LOADER_REFUSE_ITEM, Reg.LOADER_LOAD_REFUSED,
            Reg.EVT_RAW 0x002] s t) ∧
        (code = 0 → t.bankState b = 1 ∧ t.bankState (!b) = s.bankState (!b) ∧
          t.reg Reg.LOADER_STATUS = BitVec.ofNat 32 (33 + (if b then 16 else 0)) ∧
          t.loader.load = some { phase := 1, bank := b, base := s.loadStage, len := s.regN Reg.LOADER_STAGE_LEN } ∧
          t.bundle b = s.bundleAt s.loadStage ∧
          (∀ a n, regionMeets (s.bundleAt s.loadStage).recs .dram a n = true → t.protected_ a n = true) ∧
          SameRegs [Reg.LEDGER_BANK_STATE, bundleIdReg b, Reg.LOADER_STATUS] s t))) ∧
  (∀ s : State, s.loader.load = none → ∃ t, exec .loadPhaseEnd s = .next t ∧ SameRegs [] s t ∧ SameBytes s t ∧ SameRest s t) ∧
  (∀ (s : State) (l : Load) (f : Option Fail), s.loader.load = some l → l.phase ∈ [1, 2, 3] →
    f = (if l.phase = 1 then firstFail (s.signatureFails (s.peeks { store := .dram, addr := l.base } 0xC80)
          (s.peeks { store := .dram, addr := l.base + 0xC80 } 16224) l.len)
        else if l.phase = 2 then firstFail (s.hashFails (s.bundle l.bank) l.base)
        else s.weigh (stageSrc (s.bundle l.bank) l.base) ⟨l.caps⟩ l.corr l.frozen.toNat) →
    ∃ t, exec .loadPhaseEnd s = .next t ∧ SameBytes s t ∧
      (∀ x, f = some x → t.bankState l.bank = 4 ∧ t.reg Reg.LEDGER_REFUSE_CODE = BitVec.ofNat 32 x.code ∧ t.loader.load = none ∧
        t.reg Reg.LOADER_STATUS = 0 ∧ t.reg Reg.LOADER_LOAD_REFUSED = s.counted Reg.LOADER_LOAD_REFUSED) ∧
      (f = none → t.loader.load.map Load.phase = some (l.phase + 1) ∧ t.loader.load.map Load.bank = some l.bank ∧
        t.reg Reg.LOADER_STATUS = BitVec.ofNat 32 (l.phase + 1 + (if l.bank then 16 else 0) + 32) ∧
        (∀ b, t.bundle b = s.bundle b) ∧
        (l.phase = 2 → t.loader.load.map Load.caps = some s.capsNow) ∧ SameRegs [Reg.LOADER_STATUS] s t)) ∧
  (∀ (s : State) (l : Load), s.loader.load = some l → 5 ≤ l.phase →
    firstFail (s.lostFails (stageSrc (s.bundle l.bank) l.base) l.frozen.toNat) = none →
    ∃ t, exec .loadPhaseEnd s = .next t ∧ t.bankState l.bank = 2 ∧ t.loader.load = none ∧
      t.reg (bundleIdReg l.bank) = bytesWord (s.bundle l.bank).header 0x014 ∧ t.reg Reg.LOADER_STATUS = 0)

/-- A request goes in pieces of at most 256 bytes that cross no block of 256, each to the port of its address. A port's
arbiter takes the waiting request whose initiator is the next after the one granted last, in port order, and the
others wait on; a read of an on-chip store that nothing refuses is answered with its bytes, a write stores them, and a
request of a port other than the MGC's for the secure store or a write to the ledger banks gets an error. Without a
request that may go nothing but the new ones joins the queue. A scratchpad bank grants one read and one write: a head
request of the lowest group and port first; the read sees the 128 bytes before the write. A regulator's bucket fills
at its rate up to its depth and a request takes its tokens where they suffice, a write of a part of a burst to DRAM
those of 128 bytes; a stall's request to a channel outside its pitch faults the job with cause 6. Where the rules
leave a point open, it rests on the model's reading in log entries 75, 78 and 82. (R9, R10, R46, R47, R274, R275,
R276, R277) -/
def Obligations.ArbitersAndRegulators : Prop :=
  (∀ (last : Nat) (ws : List FabReq) (r : FabReq), rrPick last ws = some r → r ∈ ws ∧ ∀ x ∈ ws,
    (r.initiator.val + 27 - (last + 1) % 27) % 27 ≤ (x.initiator.val + 27 - (last + 1) % 27) % 27) ∧
  (∀ r : FabReq, ((fabPieces r).map FabReq.bytes).sum = r.bytes ∧ ∀ x ∈ fabPieces r, x.ptr.addr % 256 + x.bytes ≤ 256) ∧
  (∀ (s : State) (r : FabReq) (p : Nat), s.fabPort r.ptr = some p → 0 < r.bytes → r.ptr.addr % 256 + r.bytes ≤ 256 →
    (∀ d, r.write = some d → d.length = r.bytes) → (s.fabArrivals [r]).fabric.waiting = s.fabric.waiting ++ [(p, r)]) ∧
  (∀ (target : Fin 27) (new : List FabReq) (s s0 : State) (all_ : List (Nat × FabReq)) (win : Option FabReq),
    s0 = s.fabArrivals new → all_ = s0.fabric.waiting →
    win = rrPick (mapGetD s.fabric.last target.val 26)
      ((all_.filter (fun x => x.1 == target.val && !s.storeClearing x.2.ptr.store)).map Prod.snd) →
    (win = none → ∃ t, exec (.fabricGrant target new) s = .next t ∧ t.fabric.waiting = all_ ∧ SameBytes s t) ∧
    (∀ r, win = some r → s.outsidePitch r = none → s.AtRest → r.ptr.store ≠ .dram →
      ∃ t, exec (.fabricGrant target new) s = .next t ∧ t.fabric.waiting = all_.erase (target.val, r) ∧
        mapGet t.fabric.last target.val = some r.initiator.val ∧
        (fabProtected r = true → (∃ z, t.egress = s0.egress ++ Egress.fabricResponse r.initiator.val [] true false :: z) ∧ SameBytes s t) ∧
        (fabProtected r = false → r.write = none → s.refusesAccess r.ptr r.bytes = none →
          (∃ z, t.egress = s0.egress ++ Egress.fabricResponse r.initiator.val (s.peeks r.ptr r.bytes) false false :: z) ∧ SameBytes s t) ∧
        (∀ d, fabProtected r = false → r.write = some d → s.refusesAccess r.ptr d.length = none →
          t.peeks r.ptr d.length = d ∧
          (∃ z, t.egress = s0.egress ++ Egress.fabricResponse r.initiator.val [] false false :: z) ∧
          ∀ k, (∀ i < d.length, s.flat (ptrAdd r.ptr i) ≠ some k) → t.byte k = s.byte k))) ∧
  (∀ (side : SpadReq → Bool) (old new : List SpadReq) (r : SpadReq), spadPick side old new = some r →
    r ∈ old ++ new ∧ side r = true ∧
    ∀ x ∈ new, x.head = true → side x = true → r.head = true ∧ r ∈ new ∧ r.group.val ≤ x.group.val ∧
      (r.group = x.group → r.port.val ≤ x.port.val)) ∧
  (∀ (c : Fin 8) (bank : Fin 32) (new : List SpadReq) (s : State) (old : List SpadReq) (rd wr : Option SpadReq),
    s.domOn c.val = true → s.AtRest →
    old = (s.fabric.spadWaiting.filter (fun x => x.1 == c.val * 32 + bank.val)).map Prod.snd →
    rd = spadPick (fun r => r.write.isNone) old new → wr = spadPick (fun r => r.write.isSome) old new →
    ∃ t, exec (.scratchpadGrant c bank new) s = .next t ∧
      (∃ z, t.egress = s.egress ++ rd.toList.map (fun r => Egress.spadResponse r.port.val (s.peeks (spadPtr c bank r.row) 128) false) ++ z) ∧
      (wr = none → SameBytes s t) ∧
      (∀ w d, wr = some w → w.write = some d →
        (∀ i < d.length, i < 128 → t.byte (storeBase (.spad c) + w.row.toNat * 4096 + bank.val * 128 + i) = d.getD i 0) ∧
        ∀ k, (k < storeBase (.spad c) + w.row.toNat * 4096 + bank.val * 128 ∨
          storeBase (.spad c) + w.row.toNat * 4096 + bank.val * 128 + 128 ≤ k) → t.byte k = s.byte k) ∧
      SameRegs [] s t) ∧
  (∀ (r : Regulator) (chan : Option (Fin 8)) (wr : Option (BitVec 6)) (bytes el : Nat) (s : State) (rate depth p have_ : Nat),
    (rate, depth, p) = s.regulator r chan → have_ = min (s.bucket r chan + rate * el) (bucketCap depth p) →
    (∀ st c, r = .stallDram st → chan = some c → (bits (s.reg (Reg.STALL_PITCH st.val)) 7 0).testBit c.val = true) →
    ∃ t, exec (.regulatorAdmit r chan bytes el wr) s = .next t ∧
      t.bucket r chan = (if admitBytes chan wr bytes * 16 * p ≤ have_ then have_ - admitBytes chan wr bytes * 16 * p else have_) ∧
      (∀ r' c', bucketKey r' c' ≠ bucketKey r chan → t.bucket r' c' = s.bucket r' c') ∧ SameRegs [] s t ∧ SameBytes s t) ∧
  (∀ (st c : Fin 8) (wr : Option (BitVec 6)) (bytes el : Nat) (s : State) (x : Slot), (s.stall st.val).slot = some x →
    (bits (s.reg (Reg.STALL_PITCH st.val)) 7 0).testBit c.val = false →
    ∃ t, exec (.regulatorAdmit (.stallDram st) (some c) bytes el wr) s = .next t ∧ (t.stall st.val).slot = none ∧
      t.reg (Reg.STALL_FAULT_INFO st.val) = BitVec.ofNat 32 (x.job + 6 * 256 + 65536 * (s.tick.toNat % 65536)) ∧
      t.reg (Reg.STALL_JOB_FAULT st.val) = s.counted (Reg.STALL_JOB_FAULT st.val)) ∧
  (∀ (chan : Option (Fin 8)) (c : Fin 8) (at_ : BitVec 6) (n : Nat), admitBytes chan none n = n ∧ admitBytes none (some at_) n = n ∧
    (at_.toNat + n ≤ 64 → 0 < n → n < 64 → admitBytes (some c) (some at_) n = 128) ∧
    (at_ = 0 → n % 64 = 0 → admitBytes (some c) (some at_) n = n))

/-- A macro-instruction command that does not name the next instruction of its cluster changes nothing. One with a
reserved opcode, bit or setting is refused: counted, with its event, the running job faulted with cause 1 and
SEQ_STATE faulted. One whose predicate does not hold counts in PRED_SKIP and as started, and does nothing else. One
that needs an engine with work left, or an operand of a MATMUL that has not completed, one of the two writing it,
waits, which SEQ_STATE shows. NOP shows in SEQ_PC and SEQ_STATE only. LDLEN puts the word at its descriptor into the
length register it names and leaves the others. MOVE copies the bytes of its source to its destination, a source in a
pool's region after the check of its address, and leaves every other byte. Where the rules leave a point open, it
rests on the model's reading in log entry 44. (R43, R44, R97, R98, R99, R107, R112, R120, R288) -/
def Obligations.SequencerRefusesSkipsAndStarts : Prop :=
  (∀ (c : Fin 8) (pc : BitVec 23) (par : Option (BitVec 20)) (s : State), ∀ p ∈ [(0x00, Instr.nop c pc), (0x01, .matmul c pc), (0x02, .expand c pc), (0x03, .s2d c pc), (0x04, .pool c pc), (0x05, .ldlen c pc),
      (0x06, .move c pc), (0x40, .cvt c pc par), (0x41, .ew c pc par), (0x42, .red c pc par), (0x43, .softmax c pc par),
      (0x44, .qscale c pc par), (0x45, .quant c pc par), (0x46, .wht c pc par), (0x47, .select c pc par), (0x48, .kpred c pc par),
      (0x49, .cbload c pc par)],
    (s.nextInstr c pc.toNat = none →
      ∃ t, exec p.2 s = .next t ∧ SameRegs [] s t ∧ SameBytes s t ∧ SameRest s t) ∧
    (∀ x, s.NextIs c pc.toNat p.1 x → instrBad x.ws = true →
      ∃ t, exec p.2 s = .next t ∧
        t.reg (Reg.CLUSTER_INSTR_REFUSED c.val) = s.counted (Reg.CLUSTER_INSTR_REFUSED c.val) ∧
        t.reg (Reg.EVT_RAW (pageCluster c.val)) = s.reg (Reg.EVT_RAW (pageCluster c.val)) ||| 1 ∧
        bits (t.reg (Reg.CLUSTER_SEQ_STATE c.val)) 2 0 = 4 ∧ (t.stall x.st).slot = none ∧
        t.reg (Reg.STALL_JOB_FAULT x.st) = s.counted (Reg.STALL_JOB_FAULT x.st) ∧
        t.reg (Reg.STALL_FAULT_INFO x.st) = BitVec.ofNat 32 (x.job + 256 + 65536 * (s.tick.toNat % 65536))) ∧
    (∀ x, s.NextIs c pc.toNat p.1 x → instrBad x.ws = false → s.predicate x = true → s.held x = true →
      ∃ t, exec p.2 s = .next t ∧ bits (t.reg (Reg.CLUSTER_SEQ_STATE c.val)) 2 0 = 2 ∧
        SameRegs [Reg.CLUSTER_SEQ_STATE c.val] s t ∧ SameBytes s t ∧ SameRest s t) ∧
    (∀ x, s.NextIs c pc.toNat p.1 x → instrBad x.ws = false →
      s.predicate x = false → ∃ t, exec p.2 s = .next t ∧ s.Started t c pc.toNat ∧
        t.reg (Reg.CLUSTER_PRED_SKIP c.val) = s.counted (Reg.CLUSTER_PRED_SKIP c.val) ∧
        SameRegs [Reg.CLUSTER_PRED_SKIP c.val, Reg.CLUSTER_SEQ_STATE c.val, Reg.CLUSTER_SEQ_PC c.val] s t ∧ SameBytes s t)) ∧
  (∀ (c : Fin 8) (pc : BitVec 23) (s : State) (x : Issue), s.Runs c pc.toNat 0x00 x →
    ∃ t, exec (.nop c pc) s = .next t ∧ s.Started t c pc.toNat ∧
      (∀ r, t.len c.val x.job r = s.len c.val x.job r) ∧
      SameRegs [Reg.CLUSTER_SEQ_STATE c.val, Reg.CLUSTER_SEQ_PC c.val] s t ∧ SameBytes s t) ∧
  (∀ (c : Fin 8) (pc : BitVec 23) (s : State) (x : Issue), s.Runs c pc.toNat 0x05 x → s.CanRead [(descPtr c (x.w 2), 4)] →
    ∃ t, exec (.ldlen c pc) s = .next t ∧ s.Started t c pc.toNat ∧
      (∀ r < 16, t.len c.val x.job r = (if r = bits (x.w 1) 3 0 then s.elem32 (descPtr c (x.w 2)) 0 else s.len c.val x.job r)) ∧
      SameRegs [Reg.CLUSTER_SEQ_STATE c.val, Reg.CLUSTER_SEQ_PC c.val] s t ∧ SameBytes s t) ∧
  (∀ (c : Fin 8) (pc : BitVec 23) (s : State) (x : Issue) (src dst : Ptr) (n : Nat), s.Runs c pc.toNat 0x06 x →
    src = movePtr c (x.w 2) (x.w 3) → dst = movePtr c (x.w 4) (x.w 5) → n = (x.w 1).toNat →
    (s.inPoolRegion src = true → ∃ y, s.bpmFind src = .ok y) →
    s.moveOutside x.st (s.relocate s.unitOdd src) n = false → s.moveOutside x.st (s.relocate s.unitOdd dst) n = false →
    s.CanRead [(src, n)] → s.CanWrite [(dst, n)] →
    ∃ t, exec (.move c pc) s = .next t ∧ s.Started t c pc.toNat ∧ t.shows dst n = s.shows src n ∧ s.SameOutside t [(dst, n)] ∧
      (t.stall x.st).slot = (s.stall x.st).slot ∧
      SameRegs [Reg.CLUSTER_SEQ_STATE c.val, Reg.CLUSTER_SEQ_PC c.val] s t)

/-- A vector instruction that runs, over effective lengths of which one is 0, counts in ZERO_SHAPE and writes nothing.
With both above 0 and every range of its groups readable and writable it shows in LAST_INSTR, keeps its slot, and
leaves every byte that none of its groups writes; where it has one group, of one row, the bytes written are those that
the rules give: the converted, combined or quantised elements (with no stochastic rounding), the reduction, the scale
of the block, the rotated block. EXPAND, S2D and POOL with readable windows and writable outputs count as done and
leave every byte outside their outputs; a single output holds its window's bytes, in POOL one result for each channel.
Where the rules leave a point open, it rests on the model's reading in log entry 45. (R115, R116, R117, R118, R145,
R146, R148, R153, R154, R155, R157, R158) -/
def Obligations.VectorAndPatchInstructionsWriteTheirResults : Prop :=
  (∀ (c : Fin 8) (pc : BitVec 23) (s : State) (x : Issue) (r cn : Nat), r = s.effective x 2 → cn = s.effective x 3 →
    ∀ p ∈ [(0x40, Instr.cvt c pc none), (0x41, .ew c pc none), (0x42, .red c pc none), (0x43, .softmax c pc none),
      (0x44, .qscale c pc none), (0x45, .quant c pc none), (0x46, .wht c pc none)],
    s.Runs c pc.toNat p.1 x →
    (p.1 = 0x40 → (bits (x.w 1) 19 16 = 10 ∨ bits (x.w 1) 19 16 = 11) →
      tagOk (s.cluster c.val).vxTable (bits (x.w 12) 19 12) = true) →
    (r = 0 ∨ cn = 0 → ∃ t, exec p.2 s = .next t ∧ s.Started t c pc.toNat ∧
      t.reg (Reg.CLUSTER_ZERO_SHAPE c.val) = s.counted (Reg.CLUSTER_ZERO_SHAPE c.val) ∧ SameBytes s t) ∧
    (r ≠ 0 → cn ≠ 0 → s.CanRead ((x.vxRanges p.1 r cn).flatMap Prod.fst) → s.CanWrite ((x.vxRanges p.1 r cn).flatMap Prod.snd) →
      ∃ t, exec p.2 s = .next t ∧ s.Started t c pc.toNat ∧
        t.reg (Reg.VX_LAST_INSTR c.val) = BitVec.ofNat 32 pc.toNat ∧ (t.stall x.st).slot = (s.stall x.st).slot ∧
        s.SameOutside t ((x.vxRanges p.1 r cn).flatMap Prod.snd) ∧
        (r = 1 → ∀ bb vs, bb = elemBits x.d.fmt → vs = s.rowValues x 0 0 cn →
          (p.1 = 0x40 → x.x.blocked = false → cn ≤ 64 → bits (x.w 1) 21 20 ≠ 2 →
            t.shows x.d.p ((cn * bb + 7) / 8) = packCodes bb ((List.range cn).map (fun j =>
              (s.outElem x j (cvtValue x (s.tensorElem x.x 0 j) ((s.ySecond x 0 j).map (fun q => BitVec.ofNat 32 q.1))
                (if bit (x.w 12) 3 then some (s.elem32 (descPtr x.c (x.w 13)) j) else none))).2))) ∧
          (p.1 = 0x41 → x.x.blocked = false → cn ≤ 64 → bits (x.w 1) 21 20 ≠ 2 →
            t.shows x.d.p ((cn * bb + 7) / 8) = packCodes bb ((List.range cn).map (fun j =>
              (s.ewElem x 0 j (s.tensorElem x.x 0 j) (s.ySecond x 0 j)).2))) ∧
          (p.1 = 0x42 → t.shows x.d.p 4 = leBytes 4 (redValue (bits (x.w 1) 7 0) vs).toNat) ∧
          (p.1 = 0x43 → bits (x.w 1) 21 20 ≠ 2 →
            t.shows x.d.p ((cn * bb + 7) / 8) = packCodes bb ((List.range cn).map (fun j =>
              (s.outElem x (j % 64) ((softmaxRow vs).getD j 0)).2))) ∧
          (p.1 = 0x44 → cn ≤ 2 ^ bits (x.w 12) 11 8 →
            t.shows x.d.p 4 = leBytes 4 (blockScale (bits (x.w 1) 19 16) (rowMax (vs.map fabs))).1.toNat) ∧
          (p.1 = 0x45 → cn ≤ 64 → bits (x.w 1) 21 20 ≠ 2 →
            t.shows x.d.p ((cn * bb + 7) / 8) = packCodes bb ((List.range cn).map (fun j =>
              (s.quantElem x j (fpIn x.x.fmt (s.tensorElem x.x 0 j)) (BitVec.ofNat 32 (((s.ySecond x 0 j).map Prod.fst).getD 0))).2))) ∧
          (p.1 = 0x46 → cn = 2 ^ bits (x.w 12) 11 8 →
            t.shows x.d.p (4 * cn) = wordBytes (whtBlock (bits (x.w 12) 11 8) vs))))) ∧
  (∀ (c : Fin 8) (pc : BitVec 23) (s : State) (x : Issue) (e : Nat), e = elemBytes (bits (x.w 1) 27 24) →
    ∀ p ∈ [(0x02, Instr.expand c pc, Reg.PXE_LAST_INSTR c.val, Reg.PXE_EXPAND_DONE c.val),
      (0x03, .s2d c pc, Reg.PXE_LAST_INSTR c.val, Reg.PXE_S2D_DONE c.val),
      (0x04, .pool c pc, Reg.WU_LAST_INSTR c.val, Reg.WU_POOL_DONE c.val)],
    s.Runs c pc.toNat p.1 x →
    s.CanRead ((x.patchRanges p.1).flatMap (fun q => windowReads x e q.1)) → s.CanWrite ((x.patchRanges p.1).map Prod.snd) →
    ∃ t, exec p.2.1 s = .next t ∧ s.Started t c pc.toNat ∧ t.reg p.2.2.1 = BitVec.ofNat 32 pc.toNat ∧
      t.reg p.2.2.2 = s.counted p.2.2.2 ∧ (t.stall x.st).slot = (s.stall x.st).slot ∧
      s.SameOutside t ((x.patchRanges p.1).map Prod.snd) ∧
      ∀ ws d n, x.patchRanges p.1 = [(ws, d, n)] →
        (p.1 = 0x02 → t.shows d n = padTo n (s.windowBytes x e (leBytes e (bits (x.w 4) 31 16)) ws)) ∧
        (p.1 = 0x03 → e ≠ 0 → t.shows d n = s.windowBytes x e (leBytes e 0) ws) ∧
        (p.1 = 0x04 → e ≠ 0 → t.shows d n = packCodes (8 * e) ((List.range (bits (x.w 3) 15 0)).map (fun ch =>
          (s.poolChannel x (bits (x.w 1) 27 24) e ch ws).1))))

/-- A MATMUL that runs, its tables loaded where it names any, with effective lengths above 0 gives each engine of its mask
the work of its walk, a pass for each tile that is not skipped, and counts the skipped ones; with M or N of 0 it
counts ZERO_SHAPE only, with K of 0 it leaves drains only. A pass that an engine may issue, under cluster broadcast
with every engine of the cluster that has work, with control words that are not refused, no error and readable
operands, adds to every accumulator of its columns and 32 lanes the sum of the products with the weights of the
issuing engine, shows its words, counts, and leaves the rest of the work. The drain at the head of the work writes the
accumulators of its columns, a single column as the words of its rows, and leaves every other byte. SELECT leaves the
number of rows kept, KPRED the predicted record, CBLOAD the table of the directory's entry. Where the rules leave a
point open, it rests on the model's reading in log entries 46 and 87. (R73, R79, R83, R84, R85, R86, R105, R106, R109,
R161, R165, R166) -/
def Obligations.MatrixWorkAndTheOtherInstructions : Prop :=
  (∀ (c : Fin 8) (pc : BitVec 23) (s : State) (x : Issue) (es : List Nat) (q : Mm) (m n k : Nat), s.Runs c pc.toNat 0x01 x →
    (∀ e ∈ clusterEngines c.val, (s.engine e).work = []) → es = s.maskEngines c.val (bits (x.w 1) 7 0) →
    (∀ e ∈ es, (bits (x.w 1) 19 16 = 10 ∨ bits (x.w 1) 19 16 = 11 → tagOk (s.engine e).aTable (bits (x.w 2) 23 16) = true) ∧
      (bits (x.w 1) 23 20 = 10 ∨ bits (x.w 1) 23 20 = 11 → tagOk (s.engine e).bTable (bits (x.w 2) 31 24) = true)) →
    q = mmOf x (operandFmt (bits (x.w 1) 19 16) (s.engine (es.headD 0)).aTable)
      (operandFmt (bits (x.w 1) 23 20) (s.engine (es.headD 0)).bTable) →
    m = (if bit (x.w 3) 16 then min (s.len c.val x.job (bits (x.w 3) 7 4)).toNat q.mMax else q.mMax) →
    n = (if bit (x.w 3) 17 then min (s.len c.val x.job (bits (x.w 3) 11 8)).toNat q.nMax else q.nMax) →
    k = (if bit (x.w 3) 18 then min (s.len c.val x.job (bits (x.w 3) 15 12)).toNat q.kMax else q.kMax) →
    ∃ t, exec (.matmul c pc) s = .next t ∧ s.Started t c pc.toNat ∧ SameBytes s t ∧
      (m = 0 ∨ n = 0 → t.engines = s.engines ∧
        t.reg (Reg.CLUSTER_ZERO_SHAPE c.val) = s.counted (Reg.CLUSTER_ZERO_SHAPE c.val)) ∧
      (m ≠ 0 → n ≠ 0 → k = 0 → (∀ e ∈ es, ∀ w ∈ (t.engine e).work, w.isPass = false) ∧
        t.reg (Reg.CLUSTER_ZERO_SHAPE c.val) = s.counted (Reg.CLUSTER_ZERO_SHAPE c.val)) ∧
      (m ≠ 0 → n ≠ 0 → k ≠ 0 → ∀ e i, es[i]? = some e →
        (t.engine e).work = (q.plan x es.length i m n k).work ∧
        ((t.engine e).work.filter EngWork.isPass).length =
          ((q.walk es.length).filter (fun w => !q.skipped es.length i m n k w)).length)) ∧
  (∀ (e : Fin 64) (tm : PassTiming) (s : State) (st : Nat) (sl : Slot) (p : PassWork) (rest : List EngWork),
    s.engineStall e.val = some (st, sl) → nextPass [] (s.engine e.val).work = some (p, rest) → tm.ce = [] → tm.ue = none →
    (bit p.w0 26 = true → bit (s.reg (Reg.MX_MAP e.val)) 16 = false →
      ∃ t, exec (.passIssue e tm) s = .next t ∧ SameRegs [] s t ∧ SameBytes s t ∧ SameRest s t) ∧
    (∀ js : List Issuing, (bit p.w0 26 = false ∨ bit (s.reg (Reg.MX_MAP e.val)) 16 = true) → js = s.passGroup e.val p rest → js ≠ [] →
      s.AtRest → (∀ i ∈ js, wordRefused i.p.w0 i.p.w1 (s.passClasses i.e i.p).1 (s.passClasses i.e i.p).2 = false ∧
        s.passUe i none = none) → s.CanRead (passReads js e.val) →
      ∃ t, exec (.passIssue e tm) s = .next t ∧ SameBytes s t ∧
        (∀ i ∈ js, ∀ lanes : List (List (List Nat)),
          lanes = (if bit i.p.w0 25 then s.loadLanes i.p (bits i.p.w1 3 0) (s.engine i.e).aTable else (s.engine i.e).active) →
          t.reg (Reg.MX_PASS_DONE i.e) = s.counted (Reg.MX_PASS_DONE i.e) ∧ t.reg (Reg.MX_PASS_W0 i.e) = i.p.w0 ∧
          t.reg (Reg.MX_PASS_W1 i.e) = i.p.w1 ∧ (t.engine i.e).work = i.rest ∧ (t.engine i.e).active = lanes ∧
          ∀ f j r, f < passFacets i.p.w0 → j < bits i.p.w0 11 0 → r < 32 →
            ∀ y, y = accEntry f (passFacets i.p.w0) (bits i.p.w0 22 12) j →
            t.accVal i.e y r = some (accumulate (s.passClasses i.e i.p).1 (s.passClasses i.e i.p).2 (bit i.p.w1 24) (bit i.p.w1 25)
              i.p.zpA.toNat i.p.zpB.toNat ((lanes.getD r []).getD f [])
              (feedColumn i.p (bits i.p.w1 7 4) (s.engine e.val).bTable (s.fifoOf p (bits p.w1 7 4)) f j)
              (s.accVal i.e y r) (!bit i.p.w0 27)).1) ∧
        (∀ key, (∀ i ∈ js, ∀ f j r, f < passFacets i.p.w0 → j < bits i.p.w0 11 0 → r < 32 →
          key ≠ accKey i.e (accEntry f (passFacets i.p.w0) (bits i.p.w0 22 12) j) r) → mapGet t.acc key = mapGet s.acc key))) ∧
  (∀ (e : Fin 64) (s : State) (st : Nat) (sl : Slot) (d : DrainWork) (rest : List EngWork) (ws : List (Ptr × Nat)),
    s.engineStall e.val = some (st, sl) → (s.engine e.val).work = .drain d :: rest → s.AtRest → d.rows ≠ 0 →
    (∀ b ∈ (s.engine e.val).bad, ¬ (b.1 = 2 ∧ d.reads b.2 = true)) →
    (d.biasEn = true → s.CanRead (d.parts.map (fun q => (q.2.2, 4 * q.2.1)))) →
    ws = d.parts.flatMap (fun q => (List.range q.2.1).map (fun j => (ptrAdd q.1 (128 * j), 4 * d.rows))) → s.CanWrite ws →
    ∃ t, exec (.blockDrain e [] none) s = .next t ∧ (t.engine e.val).work = rest ∧ s.SameOutside t ws ∧ t.acc = s.acc ∧
      SameRegs [Reg.CLUSTER_BIAS_SAT (e.val / 8)] s t ∧
      ∀ a b, d.parts = [(a, 1, b)] → t.shows a (4 * d.rows) = wordBytes ((List.range d.rows).map (fun r =>
        (drainValue d (s.accVal e.val (accEntry 0 d.facets d.accBase 0) r) (if d.biasEn then s.elem32 b 0 else 0)).1))) ∧
  (∀ (c : Fin 8) (pc : BitVec 23) (s : State) (x : Issue) (cn col cap rows : Nat) (rg : Ptr × Nat), s.Runs c pc.toNat 0x47 x →
    rows = s.effective x 2 → cn = s.effective x 3 → col = bits (x.w 14) 31 20 → cap = bits (x.w 14) 15 0 →
    rg = elemRange (x.x.row 0) (elemBits x.x.fmt) 0 cn →
    (rows = 0 ∨ cn = 0 → ∃ t, exec (.select c pc none) s = .next t ∧ s.Started t c pc.toNat ∧
      t.len c.val x.job (bits (x.w 14) 19 16) = 0 ∧ SameBytes s t) ∧
    (rows = 1 → cn ≠ 0 → s.CanRead [rg] → s.CanWrite [(x.d.p, rg.2)] →
      ∃ t, exec (.select c pc none) s = .next t ∧ s.Started t c pc.toNat ∧ s.SameOutside t [(x.d.p, rg.2)] ∧
        t.len c.val x.job (bits (x.w 14) 19 16) = (if col < cn ∧ 0 < cap ∧
          leNum (num32 (x.w 10)) (numOf x.x.fmt (s.tensorElem x.x 0 col)) = true then 1 else 0))) ∧
  (∀ (c : Fin 8) (pc : BitVec 23) (s : State) (x : Issue) (n : Nat) (ps : List (Ptr × Nat)), s.Runs c pc.toNat 0x48 x →
    n = s.effective x 2 → ps = (List.range n).map (fun i => (ptrAdd (descPtr c (x.w 4)) (i * descStride (x.w 5)), 0x120)) →
    s.CanRead ((descPtr c (x.w 6), 32) :: ps) → s.CanWrite ps →
    ∃ t, exec (.kpred c pc none) s = .next t ∧ s.Started t c pc.toNat ∧ s.SameOutside t ps ∧
      (t.stall x.st).slot = (s.stall x.st).slot ∧
      (n = 1 → t.shows (descPtr c (x.w 4)) 0x120 =
        wordBytes (kpredRecord (x.w 10) (s.elem32 (descPtr c (x.w 6))) (s.elem32 (descPtr c (x.w 4)))))) ∧
  (∀ (c : Fin 8) (pc : BitVec 23) (s : State) (x : Issue) (base p : Ptr) (d : Word) (n cnt eb : Nat), s.Runs c pc.toNat 0x49 x →
    base = descPtr c (x.w 4) → n = bits (x.w 12) 19 12 → d = s.elem32 (ptrAdd base (4 * n)) 0 → cnt = (if bit d 1 then 256 else 16) →
    eb = (if bits d 3 2 = 2 then 16 else 8) → p = ptrAdd base (bits d 31 8 * 64) →
    s.CanRead [(ptrAdd base (4 * n), 4), (p, cnt * eb / 8)] →
    ∃ t, exec (.cbload c pc none) s = .next t ∧ s.Started t c pc.toNat ∧ SameBytes s t ∧ (t.stall x.st).slot = (s.stall x.st).slot ∧
      ∀ tab : CodeTable, tab = { valid := bit d 0, number := BitVec.ofNat 8 n, size256 := bit d 1, efmt := BitVec.ofNat 2 (bits d 3 2)
                                 entries := (List.range cnt).map (fun k => BitVec.ofNat 16 (s.elem p eb k)) } →
        (bits (x.w 1) 25 24 = 2 → (t.cluster c.val).vxTable = tab) ∧
        (∀ e ∈ s.maskEngines c.val (bits (x.w 1) 7 0), (bits (x.w 1) 25 24 = 0 → (t.engine e).aTable = tab) ∧
          (bits (x.w 1) 25 24 = 1 → (t.engine e).bTable = tab)))

/-- With the firmware running and no command running or update ready, a command whose condition fails ends at once in
state 5 with the first reason that applies, and its event; FIRMWARE_UPDATE and RECORD else run in states 1 and 2,
ADVANCE in state 4 with the wipe it begins, RAISE_SVN_MIN in state 4, or ends in state 6 where the minimum stands
already. While a command runs, or an update is ready, another is counted and shows reason 0x0C beside the running
one's code. A copied image that passes its checks is ready in the idle half; one that fails leaves that half cleared.
A record that passes its checks goes on to its burn. A good burn sets the fuses that its command names and no others;
a failed read-back counts, leaves the lifecycle and the revocations as they were but for a key, whose slot it revokes,
and leaves burnt only bits that the command names. KEY_PROG runs for a blank owner slot before deployment, and counts
in KEY_REFUSED elsewhere. Where the rules leave a point open, it rests on the model's reading in log entries 27, 28
and 96. (R375, R376, R377, R378, R379, R380, R381, R382, R384, R391) -/
def Obligations.SecurityCommandsAreJudgedAndEnd : Prop :=
  (∀ (m : Master) (a : Byte) (s : State), s.admits m 0x006 = true →
    ∀ p ∈ [((Instr.firmwareUpdate m a), (1 : Nat), some SecCmd.update,
        if s.stageInDram s.secStage (s.regN Reg.SECURITY_STAGE_LEN) = false then (0x0A : Nat)
        else if s.sec.tampered = true ∨ s.sec.pendingLc = true then 0x0B else 0),
      (.record m a, 2, some .record,
        if s.stageInDram s.secStage (s.regN Reg.SECURITY_STAGE_LEN) = false then 0x0A
        else if s.sec.tampered = true ∨ s.sec.pendingLc = true then 0x0B else 0),
      (.advance m a, 4, some .advance,
        if s.sec.tampered = true ∨ s.sec.pendingLc = true ∨ 2 ≤ s.lcFused ∨ (s.lcFused = 0 ∧ s.ownerSlotReady = false) then 0x0B else 0),
      (.raiseSvnMin m a, if a.toNat ≤ s.svnMin then 6 else 4, if a.toNat ≤ s.svnMin then none else some (.raise a.toNat),
        if s.sec.runSvn < a.toNat then 0x09 else 0)],
    (s.bootCode ≠ 4 → ∃ t, exec p.1 s = .next t ∧ SameRegs [] s t ∧ SameBytes s t ∧ SameRest s t) ∧
    (s.bootCode = 4 → s.sec.cmd ≠ none ∨ bits (s.reg Reg.SECURITY_CMD_STATE) 2 0 = 3 → ∃ t, exec p.1 s = .next t ∧
      t.reg Reg.SECURITY_CMD_REFUSED = s.counted Reg.SECURITY_CMD_REFUSED ∧ t.sec = s.sec ∧
      bits (t.reg Reg.SECURITY_CMD_STATE) 15 8 = 0x0C ∧
      bits (t.reg Reg.SECURITY_CMD_STATE) 7 0 = bits (s.reg Reg.SECURITY_CMD_STATE) 7 0 ∧
      SameRegs [Reg.SECURITY_CMD_REFUSED, Reg.SECURITY_CMD_STATE, Reg.EVT_RAW 0x006] s t ∧ SameBytes s t) ∧
    (s.bootCode = 4 → s.sec.cmd = none → bits (s.reg Reg.SECURITY_CMD_STATE) 2 0 ≠ 3 → p.2.2.2 ≠ 0 → ∃ t, exec p.1 s = .next t ∧ t.sec = s.sec ∧
      t.reg Reg.SECURITY_CMD_STATE = BitVec.ofNat 32 (5 + 256 * p.2.2.2) ∧
      t.reg (Reg.EVT_RAW 0x006) = s.reg (Reg.EVT_RAW 0x006) ||| 2 ∧
      SameRegs [Reg.SECURITY_CMD_STATE, Reg.EVT_RAW 0x006] s t ∧ SameBytes s t) ∧
    (s.bootCode = 4 → s.sec.cmd = none → bits (s.reg Reg.SECURITY_CMD_STATE) 2 0 ≠ 3 → p.2.2.2 = 0 → ∃ t, exec p.1 s = .next t ∧ t.sec.cmd = p.2.2.1 ∧
      t.reg Reg.SECURITY_CMD_STATE = BitVec.ofNat 32 p.2.1 ∧ t.sec.fuses = s.sec.fuses ∧ SameBytes s t ∧
      (p.1 = .advance m a → t.sec.wiping = true ∧ t.sec.identity = false))) ∧
  (∀ (s : State) (n r : Nat) (d : List Byte), s.sec.cmd = some .update → s.AtRest →
    n = min (s.regN Reg.SECURITY_STAGE_LEN) 786432 → s.refusesAccess { store := .dram, addr := s.secStage } n = none →
    d = s.peeks { store := .dram, addr := s.secStage } n ++ List.replicate (786432 - n) 0 →
    r = s.verifyImage d (s.regN Reg.SECURITY_STAGE_LEN) →
    ∃ t, exec .updateReady s = .next t ∧ t.sec.cmd = none ∧ t.sec.half = s.sec.half ∧
      t.halfBytes s.sec.half = s.halfBytes s.sec.half ∧
      (r = 0 → t.halfBytes (!s.sec.half) = d ∧ t.reg Reg.SECURITY_CMD_STATE = 3) ∧
      (r ≠ 0 → t.halfBytes (!s.sec.half) = List.replicate 786432 0 ∧
        t.reg Reg.SECURITY_CMD_STATE = BitVec.ofNat 32 (5 + 256 * r))) ∧
  (∀ (s : State) (n r : Nat) (d : List Byte), s.sec.cmd = some .record → s.AtRest →
    n = min (s.regN Reg.SECURITY_STAGE_LEN) 16352 → s.refusesAccess { store := .dram, addr := s.secStage } n = none →
    d = s.peeks { store := .dram, addr := s.secStage } n → r = s.verifyRecord d (s.regN Reg.SECURITY_STAGE_LEN) →
    ∃ t, exec .recordCheckDone s = .next t ∧ t.sec.fuses = s.sec.fuses ∧ SameBytes s t ∧
      (r ≠ 0 → t.sec.cmd = none ∧ t.reg Reg.SECURITY_CMD_STATE = BitVec.ofNat 32 (5 + 256 * r)) ∧
      (r = 0 → t.reg Reg.SECURITY_CMD_STATE = 4 ∧
        ((bytesWord d 0x004).toNat = 2 → t.sec.cmd = some .returned ∧ t.sec.wiping = true) ∧
        ((bytesWord d 0x004).toNat ≠ 2 → t.sec.cmd = some (.revoke (bits (bytesWord d 0x010) 1 0))))) ∧
  (∀ (ok : Bool) (s : State), ∃ t, exec (.fuseBurnDone ok) s = .next t ∧ SameBytes s t ∧
    (s.sec.cmd = some .advance ∨ s.sec.cmd = some .returned → s.sec.wiping = false → t.sec.cmd = none ∧
      t.sec.fuses = (if ok then { s.sec.fuses with lc := nextLc s.sec.fuses.lc } else s.sec.fuses) ∧
      t.sec.pendingLc = (ok || s.sec.pendingLc)) ∧
    (s.sec.cmd = some .advance ∨ s.sec.cmd = some .returned → s.sec.wiping = true → t.sec = s.sec) ∧
    (∀ n, s.sec.cmd = some (.raise n) → t.sec.cmd = none ∧ { t.sec.fuses with svnMin := s.sec.fuses.svnMin } = s.sec.fuses ∧
      (ok = true → t.sec.fuses.svnMin = s.sec.fuses.svnMin ||| BitVec.ofNat 64 (2 ^ n - 1)) ∧
      (∀ b < 64, (s.sec.fuses.svnMin.getLsbD b = true → t.sec.fuses.svnMin.getLsbD b = true) ∧
        (n ≤ b → t.sec.fuses.svnMin.getLsbD b = s.sec.fuses.svnMin.getLsbD b))) ∧
    (∀ i, s.sec.cmd = some (.revoke i) → t.sec.cmd = none ∧ t.sec.fuses = (if ok then { s.sec.fuses with
      keyRevoked := s.sec.fuses.keyRevoked ||| BitVec.ofNat 4 (2 ^ i) } else s.sec.fuses)) ∧
    (∀ i < 4, s.sec.cmd = some (.keyProg i) → t.sec.cmd = none ∧
      (ok = true → t.keyHash i = s.keyHashReg ∧ t.keyProgrammed i = true) ∧
      (ok = false → t.keyRevoked i = true ∧ t.keyHash i &&& s.keyHashReg = t.keyHash i) ∧
      (∀ j, j ≠ i → t.keyHash j = s.keyHash j ∧ t.keyProgrammed j = s.keyProgrammed j) ∧ t.sec.fuses.lc = s.sec.fuses.lc ∧ t.sec.fuses.svnMin = s.sec.fuses.svnMin) ∧
    (ok = false → ∀ c ∈ [SecCmd.revoke 0, .revoke 1, .revoke 2, .revoke 3, .keyProg 2, .keyProg 3], s.sec.cmd = some c →
      t.reg Reg.FUSE_FUSE_FAIL = s.counted Reg.FUSE_FUSE_FAIL ∧ t.reg (Reg.EVT_RAW 0x007) = s.reg (Reg.EVT_RAW 0x007) ||| 1) ∧
    (s.sec.cmd = none → t.sec = s.sec ∧ SameRegs [] s t)) ∧
  (∀ (m : Master) (v : Word) (s : State) (i : Nat) (bad : Prop), s.admits m 0x007 = true → bit v 0 = true →
    i = bits (s.reg Reg.FUSE_KEY_SEL) 1 0 →
    bad = (i < 2 ∨ 2 ≤ s.lcFused ∨ s.keyHash i ≠ 0 ∨ s.keyProgrammed i = true ∨ s.sec.fuses.keyRevoked.getLsbD i = true ∨
      s.sec.cmd ≠ none) →
    ∃ t, exec (.keyProg m v) s = .next t ∧ t.sec.fuses = s.sec.fuses ∧ SameBytes s t ∧
      (bad → t.sec = s.sec ∧ t.reg Reg.FUSE_KEY_REFUSED = s.counted Reg.FUSE_KEY_REFUSED ∧ SameRegs [Reg.FUSE_KEY_REFUSED] s t) ∧
      (¬ bad → t.sec.cmd = some (.keyProg i) ∧ SameRegs [] s t))

/-- A quote request with an identity, no quote or wipe under way, no tamper and no pending lifecycle begins a quote over
the 256 bytes the rules list; any other is refused, counted and shown. The end of the signature makes the quote ready,
and a read of QUOTE_DATA by the page's owner answers the word at QUOTE_PTR and steps it, another master's does not.
Tamper from any source cancels an update, takes the identity and any quote under way, starts the wipe or merges with
the one that runs, and counts. The end of the wipe leaves the secure store at 0. Each read command of the I2C target
answers the bytes that its row lists, low byte first, with an edge on source 240 and no register changed; the pointer
takes 24 bits, and the register at it reads as any page shows it, the secure and debug pages as 0; an unknown command
byte is NACKed and counted. Where the rules leave a point open, it rests on the model's reading in log entries 24, 28
and 83. (R282, R366, R367, R385, R386, R387, R388, R390, R391, R414) -/
def Obligations.QuotesWipesAndTheI2cTarget : Prop :=
  (∀ (m : Master) (v : Word) (s : State) (ok : Prop), s.admits m 0x006 = true → bit v 0 = true →
    ok = (s.sec.identity = true ∧ s.sec.quoteHead = [] ∧ s.sec.wiping = false ∧ s.sec.tampered = false ∧ s.sec.pendingLc = false) →
    ∃ t, exec (.quoteReq m v) s = .next t ∧ SameBytes s t ∧
      (ok → t.sec.quoteHead = s.quoteBytes ∧ t.sec.quote = [] ∧ t.reg Reg.SECURITY_QUOTE_STATE = 1 ∧
        SameRegs [Reg.SECURITY_QUOTE_STATE] s t) ∧
      (¬ ok → t.sec = s.sec ∧ t.reg Reg.SECURITY_QUOTE_STATE = 3 ∧
        t.reg Reg.SECURITY_QUOTE_REFUSED = s.counted Reg.SECURITY_QUOTE_REFUSED ∧
        t.reg (Reg.EVT_RAW 0x006) = s.reg (Reg.EVT_RAW 0x006) ||| 4 ∧
        SameRegs [Reg.SECURITY_QUOTE_STATE, Reg.SECURITY_QUOTE_REFUSED, Reg.EVT_RAW 0x006] s t)) ∧
  (∀ s : State, s.quoteBytes.length = 256) ∧
  (∀ s : State, s.sec.quoteHead ≠ [] → ∃ t, exec .quoteDone s = .next t ∧ t.sec.quoteHead = [] ∧
    t.sec.quote.take s.sec.quoteHead.length = s.sec.quoteHead ∧ t.reg Reg.SECURITY_QUOTE_STATE = 2 ∧
    t.reg Reg.SECURITY_QUOTES = s.counted Reg.SECURITY_QUOTES ∧
    SameRegs [Reg.SECURITY_QUOTE_STATE, Reg.SECURITY_QUOTES, Reg.EVT_RAW 0x006] s t ∧ SameBytes s t) ∧
  (∀ (m : Master) (s : State), (m = .host → s.hostReadBlocked = none) → ∃ t, exec (.quoteData m) s = .next t ∧
    (∃ r, t.egress = s.egress ++ Egress.readCompletion s.quoteWord :: r) ∧ SameBytes s t ∧ SameRest s t ∧
    (s.owner 0x006 = masterCode m → t.reg Reg.SECURITY_QUOTE_PTR = BitVec.ofNat 32 ((s.regN Reg.SECURITY_QUOTE_PTR + 1) % 8192) ∧
      SameRegs [Reg.SECURITY_QUOTE_PTR] s t) ∧
    (s.owner 0x006 ≠ masterCode m → SameRegs [] s t)) ∧
  (∀ (src : TamperSource) (s : State), ∃ t, exec (.tamper src) s = .next t ∧ t.sec.tampered = true ∧ t.sec.wiping = true ∧
    t.sec.identity = false ∧ t.sec.quoteHead = [] ∧ t.sec.cmd ≠ some .update ∧ t.sec.updLatched =
      (if s.sec.cmd = some .update ∨ bits (s.reg Reg.SECURITY_CMD_STATE) 2 0 = 3 then false else s.sec.updLatched) ∧
    t.sec.fuses = s.sec.fuses ∧ t.reg Reg.SECURITY_TAMPER = s.counted Reg.SECURITY_TAMPER ∧
    t.reg Reg.SECURITY_WIPES = (if s.sec.wiping then s.reg Reg.SECURITY_WIPES else s.counted Reg.SECURITY_WIPES)) ∧
  (∀ s : State, ∃ t, exec .wipeDone s = .next t ∧ SameRegs [] s t ∧
    (s.sec.wiping = true → t.sec.wiping = false ∧ (∀ a < 0x40000, t.byte (storeBase .secure + a) = 0) ∧
      (∀ k, (k < storeBase .secure ∨ storeBase .secure + 0x40000 ≤ k) → t.byte k = s.byte k)) ∧
    (s.sec.wiping = false → SameBytes s t ∧ SameRest s t)) ∧
  (∀ s : State, ∀ p ∈ [(Instr.i2cReadMaxTemp, leBytes 2 (highest s.readings).toNat),
      (.i2cReadTemps, s.readings.flatMap (fun x => leBytes 2 x.toNat)), (.i2cReadPower, leBytes 4 (s.regN Reg.THERMAL_PWR_EST)),
      (.i2cReadBootState, [BitVec.ofNat 8 s.bootCode]),
      (.i2cReadStatus, [BitVec.ofNat 8 ((if s.power.alarm then 1 else 0) + (if s.power.tripped then 2 else 0) +
        4 * ((List.range 8).map s.clampLevel).foldl max 0)]),
      (.i2cReadRegister, leBytes 4 (if i2cHidden (bits s.i2cPtr 11 0) then 0
        else (s.readReg (bits s.i2cPtr 11 0) (4 * bits s.i2cPtr 23 12)).toNat))],
    ∃ t, exec p.1 s = .next t ∧ (∃ r, t.egress = s.egress ++ Egress.i2cData p.2 :: r) ∧ t.pendingSrc 240 = true ∧
      SameRegs [] s t ∧ SameBytes s t ∧ SameRest s t) ∧
  (∀ s : State, s.readings.length = 16 ∧ highest s.readings ∈ s.readings ∧ ∀ x ∈ s.readings, x.toInt ≤ (highest s.readings).toInt) ∧
  (∀ (v : Word) (s : State), ∃ t, exec (.i2cSetPointer v) s = .next t ∧ t.i2cPtr = BitVec.ofNat 32 (bits v 23 0) ∧
    t.pendingSrc 240 = true ∧ SameRegs [] s t ∧ SameBytes s t) ∧
  (∀ (b : Byte) (s : State), b ∉ i2cCommands → ∃ t, exec (.i2cBad b) s = .next t ∧ t.reg Reg.BOOT_I2C_BAD = s.counted Reg.BOOT_I2C_BAD ∧
    (∃ r, t.egress = s.egress ++ Egress.i2cNack :: r) ∧ SameRegs [Reg.BOOT_I2C_BAD] s t ∧ SameBytes s t ∧ SameRest s t)
end

