-- ==== Sys2Proof/Laws/Map.lean ====
section
/-!
SUPPORT. What the operations of a sparse table do: a read after a write, the keys a write leaves alone, and that every
operation keeps the canonical form.
-/
namespace Sys2Proof.Laws
open Sys2Proof.Machine

variable {α : Type}

theorem mapGet_ins_same (x : Nat) (v : α) (t : Tbl α) : mapGet (mapIns x v t) x = some v := by
  induction t with
  | nil => simp [mapIns, mapGet]
  | cons p r ih =>
    obtain ⟨k, w⟩ := p
    simp only [mapIns]
    split
    · simp [mapGet]
    · split
      · simp [mapGet]
      · rename_i h1 h2; simp [mapGet, h2, ih]

theorem mapGet_ins_other {x y : Nat} (h : y ≠ x) (v : α) (t : Tbl α) : mapGet (mapIns x v t) y = mapGet t y := by
  induction t with
  | nil => simp [mapIns, mapGet, h]
  | cons p r ih =>
    obtain ⟨k, w⟩ := p
    simp only [mapIns]
    split
    · simp [mapGet, h]
    · split
      · rename_i h1 h2; subst h2; simp [mapGet, h]
      · simp [mapGet, ih]

theorem mapGet_del_same (x : Nat) (t : Tbl α) : mapGet (mapDel x t) x = none := by
  induction t with
  | nil => simp [mapDel, mapGet]
  | cons p r ih =>
    obtain ⟨k, w⟩ := p
    simp only [mapDel]
    split
    · exact ih
    · rename_i h; simp [mapGet, h, ih]

theorem mapGet_del_other {x y : Nat} (h : y ≠ x) (t : Tbl α) : mapGet (mapDel x t) y = mapGet t y := by
  induction t with
  | nil => simp [mapDel, mapGet]
  | cons p r ih =>
    obtain ⟨k, w⟩ := p
    simp only [mapDel]
    split
    · rename_i h1; subst h1; simp [mapGet, h, ih]
    · simp [mapGet, ih]

/-- Reading back the key just set gives the value. -/
theorem mapGet_put_same [DecidableEq α] (d : Nat → Option α) (x : Nat) (v : α) (t : Tbl α) :
    (mapGet (mapPut d x v t) x).or (d x) = some v := by
  unfold mapPut
  split
  · rename_i h; simp [mapGet_del_same, h]
  · simp [mapGet_ins_same]

theorem mapGet_put_other [DecidableEq α] (d : Nat → Option α) {x y : Nat} (h : y ≠ x) (v : α) (t : Tbl α) :
    mapGet (mapPut d x v t) y = mapGet t y := by
  unfold mapPut
  split
  · exact mapGet_del_other h t
  · exact mapGet_ins_other h v t

@[simp] theorem mapGetD_tblSet_same [DecidableEq α] (d : α) (x : Nat) (v : α) (t : Tbl α) :
    mapGetD (tblSet d x v t) x d = v := by
  have h := mapGet_put_same (fun _ => some d) x v t
  unfold mapGetD tblSet
  cases hg : mapGet (mapPut (fun _ => some d) x v t) x with
  | none => rw [hg] at h; simpa using h
  | some w => rw [hg] at h; simpa using h

theorem mapGetD_tblSet_other [DecidableEq α] (d : α) {x y : Nat} (h : y ≠ x) (v : α) (t : Tbl α) :
    mapGetD (tblSet d x v t) y d = mapGetD t y d := by
  unfold mapGetD tblSet
  rw [mapGet_put_other _ h]

/-- Strictly rising keys, said of every pair. -/
theorem mapSorted_cons {k : Nat} {v : α} {r : Tbl α} :
    mapSorted ((k, v) :: r) = true ↔ (∀ p ∈ r, k < p.1) ∧ mapSorted r = true := by
  induction r generalizing k v with
  | nil => simp [mapSorted]
  | cons p r ih =>
    obtain ⟨k', v'⟩ := p
    constructor
    · intro h
      simp only [mapSorted, Bool.and_eq_true, decide_eq_true_eq] at h
      have h2 := (ih (k := k') (v := v')).mp h.2
      refine ⟨?_, h.2⟩
      intro q hq
      rcases List.mem_cons.mp hq with rfl | hq
      · exact h.1
      · exact Nat.lt_trans h.1 (h2.1 q hq)
    · intro h
      simp only [mapSorted, Bool.and_eq_true, decide_eq_true_eq]
      exact ⟨h.1 (k', v') (by simp), h.2⟩

theorem mem_mapIns {x : Nat} {v : α} {t : Tbl α} {p : Nat × α} (h : p ∈ mapIns x v t) : p = (x, v) ∨ p ∈ t := by
  induction t with
  | nil => simpa [mapIns] using h
  | cons q r ih =>
    obtain ⟨k, w⟩ := q
    simp only [mapIns] at h
    split at h
    · rcases List.mem_cons.mp h with h | h
      · exact .inl h
      · exact .inr h
    · split at h
      · rcases List.mem_cons.mp h with h | h
        · exact .inl h
        · exact .inr (List.mem_cons_of_mem _ h)
      · rcases List.mem_cons.mp h with h | h
        · exact .inr (h ▸ List.mem_cons_self)
        · exact (ih h).imp id (List.mem_cons_of_mem _)

theorem mem_mapDel {x : Nat} {t : Tbl α} {p : Nat × α} (h : p ∈ mapDel x t) : p ∈ t := by
  induction t with
  | nil => simp [mapDel] at h
  | cons q r ih =>
    obtain ⟨k, w⟩ := q
    simp only [mapDel] at h
    split at h
    · exact List.mem_cons_of_mem _ (ih h)
    · rcases List.mem_cons.mp h with h | h
      · exact h ▸ List.mem_cons_self
      · exact List.mem_cons_of_mem _ (ih h)

theorem mapSorted_ins (x : Nat) (v : α) {t : Tbl α} (h : mapSorted t = true) : mapSorted (mapIns x v t) = true := by
  induction t with
  | nil => rfl
  | cons q r ih =>
    obtain ⟨k, w⟩ := q
    have hk := mapSorted_cons.mp h
    simp only [mapIns]
    split
    · rename_i hlt
      refine mapSorted_cons.mpr ⟨?_, h⟩
      intro p hp
      rcases List.mem_cons.mp hp with rfl | hp
      · exact hlt
      · exact Nat.lt_trans hlt (hk.1 p hp)
    · split
      · rename_i h2; subst h2; exact mapSorted_cons.mpr hk
      · rename_i h1 h2
        refine mapSorted_cons.mpr ⟨?_, ih hk.2⟩
        intro p hp
        rcases mem_mapIns hp with rfl | hp
        · simp; omega
        · exact hk.1 p hp

theorem mapSorted_del (x : Nat) {t : Tbl α} (h : mapSorted t = true) : mapSorted (mapDel x t) = true := by
  induction t with
  | nil => rfl
  | cons q r ih =>
    obtain ⟨k, w⟩ := q
    have hk := mapSorted_cons.mp h
    simp only [mapDel]
    split
    · exact ih hk.2
    · exact mapSorted_cons.mpr ⟨fun p hp => hk.1 p (mem_mapDel hp), ih hk.2⟩

/-- Setting a key keeps the canonical form. -/
theorem mapWf_put [DecidableEq α] (d : Nat → Option α) (x : Nat) (v : α) {t : Tbl α} (h : mapWf d t = true) :
    mapWf d (mapPut d x v t) = true := by
  simp only [mapWf, Bool.and_eq_true, mapSparse, List.all_eq_true] at h ⊢
  unfold mapPut
  split
  · exact ⟨mapSorted_del x h.1, fun p hp => h.2 p (mem_mapDel hp)⟩
  · rename_i hne
    refine ⟨mapSorted_ins x v h.1, fun p hp => ?_⟩
    rcases mem_mapIns hp with rfl | hp
    · simpa using hne
    · exact h.2 p hp

end Sys2Proof.Laws
end

