-- ==== Sys2Proof/Laws/State.lean ====
section
/-!
SUPPORT. What each update of the state leaves alone: one lemma for each update and each field that it does not touch, and
the registers as read after an update that leaves the register map.
-/
namespace Sys2Proof.Laws
open Sys2Proof.Machine

variable (s : State)

@[simp] theorem setReg_eff (k : Nat) (v : Word) : (s.setReg k v).eff = s.eff := rfl
@[simp] theorem setReg_mem (k : Nat) (v : Word) : (s.setReg k v).mem = s.mem := rfl
@[simp] theorem setReg_upsets (k : Nat) (v : Word) : (s.setReg k v).upsets = s.upsets := rfl
@[simp] theorem setReg_acc (k : Nat) (v : Word) : (s.setReg k v).acc = s.acc := rfl
@[simp] theorem setReg_tsu (k : Nat) (v : Word) : (s.setReg k v).tsu = s.tsu := rfl
@[simp] theorem setReg_ledger (k : Nat) (v : Word) : (s.setReg k v).ledger = s.ledger := rfl
@[simp] theorem setReg_stalls (k : Nat) (v : Word) : (s.setReg k v).stalls = s.stalls := rfl
@[simp] theorem setReg_clusters (k : Nat) (v : Word) : (s.setReg k v).clusters = s.clusters := rfl
@[simp] theorem setReg_engines (k : Nat) (v : Word) : (s.setReg k v).engines = s.engines := rfl
@[simp] theorem setReg_fabric (k : Nat) (v : Word) : (s.setReg k v).fabric = s.fabric := rfl
@[simp] theorem setReg_pools (k : Nat) (v : Word) : (s.setReg k v).pools = s.pools := rfl
@[simp] theorem setReg_streams (k : Nat) (v : Word) : (s.setReg k v).streams = s.streams := rfl
@[simp] theorem setReg_intake (k : Nat) (v : Word) : (s.setReg k v).intake = s.intake := rfl
@[simp] theorem setReg_vds (k : Nat) (v : Word) : (s.setReg k v).vds = s.vds := rfl
@[simp] theorem setReg_pps (k : Nat) (v : Word) : (s.setReg k v).pps = s.pps := rfl
@[simp] theorem setReg_ves (k : Nat) (v : Word) : (s.setReg k v).ves = s.ves := rfl
@[simp] theorem setReg_sessions (k : Nat) (v : Word) : (s.setReg k v).sessions = s.sessions := rfl
@[simp] theorem setReg_sensors (k : Nat) (v : Word) : (s.setReg k v).sensors = s.sensors := rfl
@[simp] theorem setReg_tau (k : Nat) (v : Word) : (s.setReg k v).tau = s.tau := rfl
@[simp] theorem setReg_sheet (k : Nat) (v : Word) : (s.setReg k v).sheet = s.sheet := rfl
@[simp] theorem setReg_drams (k : Nat) (v : Word) : (s.setReg k v).drams = s.drams := rfl
@[simp] theorem setReg_ep (k : Nat) (v : Word) : (s.setReg k v).ep = s.ep := rfl
@[simp] theorem setReg_icu (k : Nat) (v : Word) : (s.setReg k v).icu = s.icu := rfl
@[simp] theorem setReg_eth (k : Nat) (v : Word) : (s.setReg k v).eth = s.eth := rfl
@[simp] theorem setReg_power (k : Nat) (v : Word) : (s.setReg k v).power = s.power := rfl
@[simp] theorem setReg_loader (k : Nat) (v : Word) : (s.setReg k v).loader = s.loader := rfl
@[simp] theorem setReg_sec (k : Nat) (v : Word) : (s.setReg k v).sec = s.sec := rfl
@[simp] theorem setReg_svc (k : Nat) (v : Word) : (s.setReg k v).svc = s.svc := rfl
@[simp] theorem setReg_keeps (k : Nat) (v : Word) : (s.setReg k v).keeps = s.keeps := rfl
@[simp] theorem setReg_i2cPtr (k : Nat) (v : Word) : (s.setReg k v).i2cPtr = s.i2cPtr := rfl
@[simp] theorem setReg_egress (k : Nat) (v : Word) : (s.setReg k v).egress = s.egress := rfl
@[simp] theorem setReg_freeCtr (k : Nat) (v : Word) : (s.setReg k v).freeCtr = s.freeCtr := rfl
@[simp] theorem setReg_pending (k : Nat) (v : Word) : (s.setReg k v).pending = s.pending := rfl
@[simp] theorem setReg_effReg (k : Nat) (v : Word) (k' : Nat) : (s.setReg k v).effReg k' = s.effReg k' := rfl

@[simp] theorem count_eff (k n : Nat) : (s.count k n).eff = s.eff := rfl
@[simp] theorem count_mem (k n : Nat) : (s.count k n).mem = s.mem := rfl
@[simp] theorem count_upsets (k n : Nat) : (s.count k n).upsets = s.upsets := rfl
@[simp] theorem count_acc (k n : Nat) : (s.count k n).acc = s.acc := rfl
@[simp] theorem count_tsu (k n : Nat) : (s.count k n).tsu = s.tsu := rfl
@[simp] theorem count_ledger (k n : Nat) : (s.count k n).ledger = s.ledger := rfl
@[simp] theorem count_stalls (k n : Nat) : (s.count k n).stalls = s.stalls := rfl
@[simp] theorem count_clusters (k n : Nat) : (s.count k n).clusters = s.clusters := rfl
@[simp] theorem count_engines (k n : Nat) : (s.count k n).engines = s.engines := rfl
@[simp] theorem count_fabric (k n : Nat) : (s.count k n).fabric = s.fabric := rfl
@[simp] theorem count_pools (k n : Nat) : (s.count k n).pools = s.pools := rfl
@[simp] theorem count_streams (k n : Nat) : (s.count k n).streams = s.streams := rfl
@[simp] theorem count_intake (k n : Nat) : (s.count k n).intake = s.intake := rfl
@[simp] theorem count_vds (k n : Nat) : (s.count k n).vds = s.vds := rfl
@[simp] theorem count_pps (k n : Nat) : (s.count k n).pps = s.pps := rfl
@[simp] theorem count_ves (k n : Nat) : (s.count k n).ves = s.ves := rfl
@[simp] theorem count_sessions (k n : Nat) : (s.count k n).sessions = s.sessions := rfl
@[simp] theorem count_sensors (k n : Nat) : (s.count k n).sensors = s.sensors := rfl
@[simp] theorem count_tau (k n : Nat) : (s.count k n).tau = s.tau := rfl
@[simp] theorem count_sheet (k n : Nat) : (s.count k n).sheet = s.sheet := rfl
@[simp] theorem count_drams (k n : Nat) : (s.count k n).drams = s.drams := rfl
@[simp] theorem count_ep (k n : Nat) : (s.count k n).ep = s.ep := rfl
@[simp] theorem count_icu (k n : Nat) : (s.count k n).icu = s.icu := rfl
@[simp] theorem count_eth (k n : Nat) : (s.count k n).eth = s.eth := rfl
@[simp] theorem count_power (k n : Nat) : (s.count k n).power = s.power := rfl
@[simp] theorem count_loader (k n : Nat) : (s.count k n).loader = s.loader := rfl
@[simp] theorem count_sec (k n : Nat) : (s.count k n).sec = s.sec := rfl
@[simp] theorem count_svc (k n : Nat) : (s.count k n).svc = s.svc := rfl
@[simp] theorem count_keeps (k n : Nat) : (s.count k n).keeps = s.keeps := rfl
@[simp] theorem count_i2cPtr (k n : Nat) : (s.count k n).i2cPtr = s.i2cPtr := rfl
@[simp] theorem count_egress (k n : Nat) : (s.count k n).egress = s.egress := rfl
@[simp] theorem count_freeCtr (k n : Nat) : (s.count k n).freeCtr = s.freeCtr := rfl
@[simp] theorem count_pending (k n : Nat) : (s.count k n).pending = s.pending := rfl
@[simp] theorem count_effReg (k n : Nat) (k' : Nat) : (s.count k n).effReg k' = s.effReg k' := rfl

@[simp] theorem tally_eff (k : Nat) : (s.tally k).eff = s.eff := rfl
@[simp] theorem tally_mem (k : Nat) : (s.tally k).mem = s.mem := rfl
@[simp] theorem tally_upsets (k : Nat) : (s.tally k).upsets = s.upsets := rfl
@[simp] theorem tally_acc (k : Nat) : (s.tally k).acc = s.acc := rfl
@[simp] theorem tally_tsu (k : Nat) : (s.tally k).tsu = s.tsu := rfl
@[simp] theorem tally_ledger (k : Nat) : (s.tally k).ledger = s.ledger := rfl
@[simp] theorem tally_stalls (k : Nat) : (s.tally k).stalls = s.stalls := rfl
@[simp] theorem tally_clusters (k : Nat) : (s.tally k).clusters = s.clusters := rfl
@[simp] theorem tally_engines (k : Nat) : (s.tally k).engines = s.engines := rfl
@[simp] theorem tally_fabric (k : Nat) : (s.tally k).fabric = s.fabric := rfl
@[simp] theorem tally_pools (k : Nat) : (s.tally k).pools = s.pools := rfl
@[simp] theorem tally_streams (k : Nat) : (s.tally k).streams = s.streams := rfl
@[simp] theorem tally_intake (k : Nat) : (s.tally k).intake = s.intake := rfl
@[simp] theorem tally_vds (k : Nat) : (s.tally k).vds = s.vds := rfl
@[simp] theorem tally_pps (k : Nat) : (s.tally k).pps = s.pps := rfl
@[simp] theorem tally_ves (k : Nat) : (s.tally k).ves = s.ves := rfl
@[simp] theorem tally_sessions (k : Nat) : (s.tally k).sessions = s.sessions := rfl
@[simp] theorem tally_sensors (k : Nat) : (s.tally k).sensors = s.sensors := rfl
@[simp] theorem tally_tau (k : Nat) : (s.tally k).tau = s.tau := rfl
@[simp] theorem tally_sheet (k : Nat) : (s.tally k).sheet = s.sheet := rfl
@[simp] theorem tally_drams (k : Nat) : (s.tally k).drams = s.drams := rfl
@[simp] theorem tally_ep (k : Nat) : (s.tally k).ep = s.ep := rfl
@[simp] theorem tally_icu (k : Nat) : (s.tally k).icu = s.icu := rfl
@[simp] theorem tally_eth (k : Nat) : (s.tally k).eth = s.eth := rfl
@[simp] theorem tally_power (k : Nat) : (s.tally k).power = s.power := rfl
@[simp] theorem tally_loader (k : Nat) : (s.tally k).loader = s.loader := rfl
@[simp] theorem tally_sec (k : Nat) : (s.tally k).sec = s.sec := rfl
@[simp] theorem tally_svc (k : Nat) : (s.tally k).svc = s.svc := rfl
@[simp] theorem tally_keeps (k : Nat) : (s.tally k).keeps = s.keeps := rfl
@[simp] theorem tally_i2cPtr (k : Nat) : (s.tally k).i2cPtr = s.i2cPtr := rfl
@[simp] theorem tally_egress (k : Nat) : (s.tally k).egress = s.egress := rfl
@[simp] theorem tally_freeCtr (k : Nat) : (s.tally k).freeCtr = s.freeCtr := rfl
@[simp] theorem tally_pending (k : Nat) : (s.tally k).pending = s.pending := rfl
@[simp] theorem tally_effReg (k : Nat) (k' : Nat) : (s.tally k).effReg k' = s.effReg k' := rfl

@[simp] theorem event_eff (p : Nat) (m : Word) : (s.event p m).eff = s.eff := rfl
@[simp] theorem event_mem (p : Nat) (m : Word) : (s.event p m).mem = s.mem := rfl
@[simp] theorem event_upsets (p : Nat) (m : Word) : (s.event p m).upsets = s.upsets := rfl
@[simp] theorem event_acc (p : Nat) (m : Word) : (s.event p m).acc = s.acc := rfl
@[simp] theorem event_tsu (p : Nat) (m : Word) : (s.event p m).tsu = s.tsu := rfl
@[simp] theorem event_ledger (p : Nat) (m : Word) : (s.event p m).ledger = s.ledger := rfl
@[simp] theorem event_stalls (p : Nat) (m : Word) : (s.event p m).stalls = s.stalls := rfl
@[simp] theorem event_clusters (p : Nat) (m : Word) : (s.event p m).clusters = s.clusters := rfl
@[simp] theorem event_engines (p : Nat) (m : Word) : (s.event p m).engines = s.engines := rfl
@[simp] theorem event_fabric (p : Nat) (m : Word) : (s.event p m).fabric = s.fabric := rfl
@[simp] theorem event_pools (p : Nat) (m : Word) : (s.event p m).pools = s.pools := rfl
@[simp] theorem event_streams (p : Nat) (m : Word) : (s.event p m).streams = s.streams := rfl
@[simp] theorem event_intake (p : Nat) (m : Word) : (s.event p m).intake = s.intake := rfl
@[simp] theorem event_vds (p : Nat) (m : Word) : (s.event p m).vds = s.vds := rfl
@[simp] theorem event_pps (p : Nat) (m : Word) : (s.event p m).pps = s.pps := rfl
@[simp] theorem event_ves (p : Nat) (m : Word) : (s.event p m).ves = s.ves := rfl
@[simp] theorem event_sessions (p : Nat) (m : Word) : (s.event p m).sessions = s.sessions := rfl
@[simp] theorem event_sensors (p : Nat) (m : Word) : (s.event p m).sensors = s.sensors := rfl
@[simp] theorem event_tau (p : Nat) (m : Word) : (s.event p m).tau = s.tau := rfl
@[simp] theorem event_sheet (p : Nat) (m : Word) : (s.event p m).sheet = s.sheet := rfl
@[simp] theorem event_drams (p : Nat) (m : Word) : (s.event p m).drams = s.drams := rfl
@[simp] theorem event_ep (p : Nat) (m : Word) : (s.event p m).ep = s.ep := rfl
@[simp] theorem event_icu (p : Nat) (m : Word) : (s.event p m).icu = s.icu := rfl
@[simp] theorem event_eth (p : Nat) (m : Word) : (s.event p m).eth = s.eth := rfl
@[simp] theorem event_power (p : Nat) (m : Word) : (s.event p m).power = s.power := rfl
@[simp] theorem event_loader (p : Nat) (m : Word) : (s.event p m).loader = s.loader := rfl
@[simp] theorem event_sec (p : Nat) (m : Word) : (s.event p m).sec = s.sec := rfl
@[simp] theorem event_svc (p : Nat) (m : Word) : (s.event p m).svc = s.svc := rfl
@[simp] theorem event_keeps (p : Nat) (m : Word) : (s.event p m).keeps = s.keeps := rfl
@[simp] theorem event_i2cPtr (p : Nat) (m : Word) : (s.event p m).i2cPtr = s.i2cPtr := rfl
@[simp] theorem event_egress (p : Nat) (m : Word) : (s.event p m).egress = s.egress := rfl
@[simp] theorem event_freeCtr (p : Nat) (m : Word) : (s.event p m).freeCtr = s.freeCtr := rfl
@[simp] theorem event_pending (p : Nat) (m : Word) : (s.event p m).pending = s.pending := rfl
@[simp] theorem event_effReg (p : Nat) (m : Word) (k' : Nat) : (s.event p m).effReg k' = s.effReg k' := rfl

@[simp] theorem drop_eff (p : Nat) : (s.drop p).eff = s.eff := rfl
@[simp] theorem drop_mem (p : Nat) : (s.drop p).mem = s.mem := rfl
@[simp] theorem drop_upsets (p : Nat) : (s.drop p).upsets = s.upsets := rfl
@[simp] theorem drop_acc (p : Nat) : (s.drop p).acc = s.acc := rfl
@[simp] theorem drop_tsu (p : Nat) : (s.drop p).tsu = s.tsu := rfl
@[simp] theorem drop_ledger (p : Nat) : (s.drop p).ledger = s.ledger := rfl
@[simp] theorem drop_stalls (p : Nat) : (s.drop p).stalls = s.stalls := rfl
@[simp] theorem drop_clusters (p : Nat) : (s.drop p).clusters = s.clusters := rfl
@[simp] theorem drop_engines (p : Nat) : (s.drop p).engines = s.engines := rfl
@[simp] theorem drop_fabric (p : Nat) : (s.drop p).fabric = s.fabric := rfl
@[simp] theorem drop_pools (p : Nat) : (s.drop p).pools = s.pools := rfl
@[simp] theorem drop_streams (p : Nat) : (s.drop p).streams = s.streams := rfl
@[simp] theorem drop_intake (p : Nat) : (s.drop p).intake = s.intake := rfl
@[simp] theorem drop_vds (p : Nat) : (s.drop p).vds = s.vds := rfl
@[simp] theorem drop_pps (p : Nat) : (s.drop p).pps = s.pps := rfl
@[simp] theorem drop_ves (p : Nat) : (s.drop p).ves = s.ves := rfl
@[simp] theorem drop_sessions (p : Nat) : (s.drop p).sessions = s.sessions := rfl
@[simp] theorem drop_sensors (p : Nat) : (s.drop p).sensors = s.sensors := rfl
@[simp] theorem drop_tau (p : Nat) : (s.drop p).tau = s.tau := rfl
@[simp] theorem drop_sheet (p : Nat) : (s.drop p).sheet = s.sheet := rfl
@[simp] theorem drop_drams (p : Nat) : (s.drop p).drams = s.drams := rfl
@[simp] theorem drop_ep (p : Nat) : (s.drop p).ep = s.ep := rfl
@[simp] theorem drop_icu (p : Nat) : (s.drop p).icu = s.icu := rfl
@[simp] theorem drop_eth (p : Nat) : (s.drop p).eth = s.eth := rfl
@[simp] theorem drop_power (p : Nat) : (s.drop p).power = s.power := rfl
@[simp] theorem drop_loader (p : Nat) : (s.drop p).loader = s.loader := rfl
@[simp] theorem drop_sec (p : Nat) : (s.drop p).sec = s.sec := rfl
@[simp] theorem drop_svc (p : Nat) : (s.drop p).svc = s.svc := rfl
@[simp] theorem drop_keeps (p : Nat) : (s.drop p).keeps = s.keeps := rfl
@[simp] theorem drop_i2cPtr (p : Nat) : (s.drop p).i2cPtr = s.i2cPtr := rfl
@[simp] theorem drop_egress (p : Nat) : (s.drop p).egress = s.egress := rfl
@[simp] theorem drop_freeCtr (p : Nat) : (s.drop p).freeCtr = s.freeCtr := rfl
@[simp] theorem drop_pending (p : Nat) : (s.drop p).pending = s.pending := rfl
@[simp] theorem drop_effReg (p : Nat) (k' : Nat) : (s.drop p).effReg k' = s.effReg k' := rfl

@[simp] theorem setField_eff (k hi lo v : Nat) : (s.setField k hi lo v).eff = s.eff := rfl
@[simp] theorem setField_mem (k hi lo v : Nat) : (s.setField k hi lo v).mem = s.mem := rfl
@[simp] theorem setField_upsets (k hi lo v : Nat) : (s.setField k hi lo v).upsets = s.upsets := rfl
@[simp] theorem setField_acc (k hi lo v : Nat) : (s.setField k hi lo v).acc = s.acc := rfl
@[simp] theorem setField_tsu (k hi lo v : Nat) : (s.setField k hi lo v).tsu = s.tsu := rfl
@[simp] theorem setField_ledger (k hi lo v : Nat) : (s.setField k hi lo v).ledger = s.ledger := rfl
@[simp] theorem setField_stalls (k hi lo v : Nat) : (s.setField k hi lo v).stalls = s.stalls := rfl
@[simp] theorem setField_clusters (k hi lo v : Nat) : (s.setField k hi lo v).clusters = s.clusters := rfl
@[simp] theorem setField_engines (k hi lo v : Nat) : (s.setField k hi lo v).engines = s.engines := rfl
@[simp] theorem setField_fabric (k hi lo v : Nat) : (s.setField k hi lo v).fabric = s.fabric := rfl
@[simp] theorem setField_pools (k hi lo v : Nat) : (s.setField k hi lo v).pools = s.pools := rfl
@[simp] theorem setField_streams (k hi lo v : Nat) : (s.setField k hi lo v).streams = s.streams := rfl
@[simp] theorem setField_intake (k hi lo v : Nat) : (s.setField k hi lo v).intake = s.intake := rfl
@[simp] theorem setField_vds (k hi lo v : Nat) : (s.setField k hi lo v).vds = s.vds := rfl
@[simp] theorem setField_pps (k hi lo v : Nat) : (s.setField k hi lo v).pps = s.pps := rfl
@[simp] theorem setField_ves (k hi lo v : Nat) : (s.setField k hi lo v).ves = s.ves := rfl
@[simp] theorem setField_sessions (k hi lo v : Nat) : (s.setField k hi lo v).sessions = s.sessions := rfl
@[simp] theorem setField_sensors (k hi lo v : Nat) : (s.setField k hi lo v).sensors = s.sensors := rfl
@[simp] theorem setField_tau (k hi lo v : Nat) : (s.setField k hi lo v).tau = s.tau := rfl
@[simp] theorem setField_sheet (k hi lo v : Nat) : (s.setField k hi lo v).sheet = s.sheet := rfl
@[simp] theorem setField_drams (k hi lo v : Nat) : (s.setField k hi lo v).drams = s.drams := rfl
@[simp] theorem setField_ep (k hi lo v : Nat) : (s.setField k hi lo v).ep = s.ep := rfl
@[simp] theorem setField_icu (k hi lo v : Nat) : (s.setField k hi lo v).icu = s.icu := rfl
@[simp] theorem setField_eth (k hi lo v : Nat) : (s.setField k hi lo v).eth = s.eth := rfl
@[simp] theorem setField_power (k hi lo v : Nat) : (s.setField k hi lo v).power = s.power := rfl
@[simp] theorem setField_loader (k hi lo v : Nat) : (s.setField k hi lo v).loader = s.loader := rfl
@[simp] theorem setField_sec (k hi lo v : Nat) : (s.setField k hi lo v).sec = s.sec := rfl
@[simp] theorem setField_svc (k hi lo v : Nat) : (s.setField k hi lo v).svc = s.svc := rfl
@[simp] theorem setField_keeps (k hi lo v : Nat) : (s.setField k hi lo v).keeps = s.keeps := rfl
@[simp] theorem setField_i2cPtr (k hi lo v : Nat) : (s.setField k hi lo v).i2cPtr = s.i2cPtr := rfl
@[simp] theorem setField_egress (k hi lo v : Nat) : (s.setField k hi lo v).egress = s.egress := rfl
@[simp] theorem setField_freeCtr (k hi lo v : Nat) : (s.setField k hi lo v).freeCtr = s.freeCtr := rfl
@[simp] theorem setField_pending (k hi lo v : Nat) : (s.setField k hi lo v).pending = s.pending := rfl
@[simp] theorem setField_effReg (k hi lo v : Nat) (k' : Nat) : (s.setField k hi lo v).effReg k' = s.effReg k' := rfl

@[simp] theorem clearReg_eff (k : Nat) : (s.clearReg k).eff = s.eff := rfl
@[simp] theorem clearReg_mem (k : Nat) : (s.clearReg k).mem = s.mem := rfl
@[simp] theorem clearReg_upsets (k : Nat) : (s.clearReg k).upsets = s.upsets := rfl
@[simp] theorem clearReg_acc (k : Nat) : (s.clearReg k).acc = s.acc := rfl
@[simp] theorem clearReg_tsu (k : Nat) : (s.clearReg k).tsu = s.tsu := rfl
@[simp] theorem clearReg_ledger (k : Nat) : (s.clearReg k).ledger = s.ledger := rfl
@[simp] theorem clearReg_stalls (k : Nat) : (s.clearReg k).stalls = s.stalls := rfl
@[simp] theorem clearReg_clusters (k : Nat) : (s.clearReg k).clusters = s.clusters := rfl
@[simp] theorem clearReg_engines (k : Nat) : (s.clearReg k).engines = s.engines := rfl
@[simp] theorem clearReg_fabric (k : Nat) : (s.clearReg k).fabric = s.fabric := rfl
@[simp] theorem clearReg_pools (k : Nat) : (s.clearReg k).pools = s.pools := rfl
@[simp] theorem clearReg_streams (k : Nat) : (s.clearReg k).streams = s.streams := rfl
@[simp] theorem clearReg_intake (k : Nat) : (s.clearReg k).intake = s.intake := rfl
@[simp] theorem clearReg_vds (k : Nat) : (s.clearReg k).vds = s.vds := rfl
@[simp] theorem clearReg_pps (k : Nat) : (s.clearReg k).pps = s.pps := rfl
@[simp] theorem clearReg_ves (k : Nat) : (s.clearReg k).ves = s.ves := rfl
@[simp] theorem clearReg_sessions (k : Nat) : (s.clearReg k).sessions = s.sessions := rfl
@[simp] theorem clearReg_sensors (k : Nat) : (s.clearReg k).sensors = s.sensors := rfl
@[simp] theorem clearReg_tau (k : Nat) : (s.clearReg k).tau = s.tau := rfl
@[simp] theorem clearReg_sheet (k : Nat) : (s.clearReg k).sheet = s.sheet := rfl
@[simp] theorem clearReg_drams (k : Nat) : (s.clearReg k).drams = s.drams := rfl
@[simp] theorem clearReg_ep (k : Nat) : (s.clearReg k).ep = s.ep := rfl
@[simp] theorem clearReg_icu (k : Nat) : (s.clearReg k).icu = s.icu := rfl
@[simp] theorem clearReg_eth (k : Nat) : (s.clearReg k).eth = s.eth := rfl
@[simp] theorem clearReg_power (k : Nat) : (s.clearReg k).power = s.power := rfl
@[simp] theorem clearReg_loader (k : Nat) : (s.clearReg k).loader = s.loader := rfl
@[simp] theorem clearReg_sec (k : Nat) : (s.clearReg k).sec = s.sec := rfl
@[simp] theorem clearReg_svc (k : Nat) : (s.clearReg k).svc = s.svc := rfl
@[simp] theorem clearReg_keeps (k : Nat) : (s.clearReg k).keeps = s.keeps := rfl
@[simp] theorem clearReg_i2cPtr (k : Nat) : (s.clearReg k).i2cPtr = s.i2cPtr := rfl
@[simp] theorem clearReg_egress (k : Nat) : (s.clearReg k).egress = s.egress := rfl
@[simp] theorem clearReg_freeCtr (k : Nat) : (s.clearReg k).freeCtr = s.freeCtr := rfl
@[simp] theorem clearReg_pending (k : Nat) : (s.clearReg k).pending = s.pending := rfl
@[simp] theorem clearReg_effReg (k : Nat) (k' : Nat) : (s.clearReg k).effReg k' = s.effReg k' := rfl

@[simp] theorem resetPages_mem (p : Nat → Bool) : (s.resetPages p).mem = s.mem := rfl
@[simp] theorem resetPages_upsets (p : Nat → Bool) : (s.resetPages p).upsets = s.upsets := rfl
@[simp] theorem resetPages_acc (p : Nat → Bool) : (s.resetPages p).acc = s.acc := rfl
@[simp] theorem resetPages_tsu (p : Nat → Bool) : (s.resetPages p).tsu = s.tsu := rfl
@[simp] theorem resetPages_ledger (p : Nat → Bool) : (s.resetPages p).ledger = s.ledger := rfl
@[simp] theorem resetPages_stalls (p : Nat → Bool) : (s.resetPages p).stalls = s.stalls := rfl
@[simp] theorem resetPages_clusters (p : Nat → Bool) : (s.resetPages p).clusters = s.clusters := rfl
@[simp] theorem resetPages_engines (p : Nat → Bool) : (s.resetPages p).engines = s.engines := rfl
@[simp] theorem resetPages_fabric (p : Nat → Bool) : (s.resetPages p).fabric = s.fabric := rfl
@[simp] theorem resetPages_pools (p : Nat → Bool) : (s.resetPages p).pools = s.pools := rfl
@[simp] theorem resetPages_streams (p : Nat → Bool) : (s.resetPages p).streams = s.streams := rfl
@[simp] theorem resetPages_intake (p : Nat → Bool) : (s.resetPages p).intake = s.intake := rfl
@[simp] theorem resetPages_vds (p : Nat → Bool) : (s.resetPages p).vds = s.vds := rfl
@[simp] theorem resetPages_pps (p : Nat → Bool) : (s.resetPages p).pps = s.pps := rfl
@[simp] theorem resetPages_ves (p : Nat → Bool) : (s.resetPages p).ves = s.ves := rfl
@[simp] theorem resetPages_sessions (p : Nat → Bool) : (s.resetPages p).sessions = s.sessions := rfl
@[simp] theorem resetPages_sensors (p : Nat → Bool) : (s.resetPages p).sensors = s.sensors := rfl
@[simp] theorem resetPages_tau (p : Nat → Bool) : (s.resetPages p).tau = s.tau := rfl
@[simp] theorem resetPages_drams (p : Nat → Bool) : (s.resetPages p).drams = s.drams := rfl
@[simp] theorem resetPages_ep (p : Nat → Bool) : (s.resetPages p).ep = s.ep := rfl
@[simp] theorem resetPages_icu (p : Nat → Bool) : (s.resetPages p).icu = s.icu := rfl
@[simp] theorem resetPages_eth (p : Nat → Bool) : (s.resetPages p).eth = s.eth := rfl
@[simp] theorem resetPages_power (p : Nat → Bool) : (s.resetPages p).power = s.power := rfl
@[simp] theorem resetPages_loader (p : Nat → Bool) : (s.resetPages p).loader = s.loader := rfl
@[simp] theorem resetPages_sec (p : Nat → Bool) : (s.resetPages p).sec = s.sec := rfl
@[simp] theorem resetPages_svc (p : Nat → Bool) : (s.resetPages p).svc = s.svc := rfl
@[simp] theorem resetPages_keeps (p : Nat → Bool) : (s.resetPages p).keeps = s.keeps := rfl
@[simp] theorem resetPages_i2cPtr (p : Nat → Bool) : (s.resetPages p).i2cPtr = s.i2cPtr := rfl
@[simp] theorem resetPages_egress (p : Nat → Bool) : (s.resetPages p).egress = s.egress := rfl
@[simp] theorem resetPages_freeCtr (p : Nat → Bool) : (s.resetPages p).freeCtr = s.freeCtr := rfl
@[simp] theorem resetPages_pending (p : Nat → Bool) : (s.resetPages p).pending = s.pending := rfl

@[simp] theorem setStall_regs (n : Nat) (v : Stall) : (s.setStall n v).regs = s.regs := rfl
@[simp] theorem setStall_eff (n : Nat) (v : Stall) : (s.setStall n v).eff = s.eff := rfl
@[simp] theorem setStall_mem (n : Nat) (v : Stall) : (s.setStall n v).mem = s.mem := rfl
@[simp] theorem setStall_upsets (n : Nat) (v : Stall) : (s.setStall n v).upsets = s.upsets := rfl
@[simp] theorem setStall_acc (n : Nat) (v : Stall) : (s.setStall n v).acc = s.acc := rfl
@[simp] theorem setStall_tsu (n : Nat) (v : Stall) : (s.setStall n v).tsu = s.tsu := rfl
@[simp] theorem setStall_ledger (n : Nat) (v : Stall) : (s.setStall n v).ledger = s.ledger := rfl
@[simp] theorem setStall_clusters (n : Nat) (v : Stall) : (s.setStall n v).clusters = s.clusters := rfl
@[simp] theorem setStall_engines (n : Nat) (v : Stall) : (s.setStall n v).engines = s.engines := rfl
@[simp] theorem setStall_fabric (n : Nat) (v : Stall) : (s.setStall n v).fabric = s.fabric := rfl
@[simp] theorem setStall_pools (n : Nat) (v : Stall) : (s.setStall n v).pools = s.pools := rfl
@[simp] theorem setStall_streams (n : Nat) (v : Stall) : (s.setStall n v).streams = s.streams := rfl
@[simp] theorem setStall_intake (n : Nat) (v : Stall) : (s.setStall n v).intake = s.intake := rfl
@[simp] theorem setStall_vds (n : Nat) (v : Stall) : (s.setStall n v).vds = s.vds := rfl
@[simp] theorem setStall_pps (n : Nat) (v : Stall) : (s.setStall n v).pps = s.pps := rfl
@[simp] theorem setStall_ves (n : Nat) (v : Stall) : (s.setStall n v).ves = s.ves := rfl
@[simp] theorem setStall_sessions (n : Nat) (v : Stall) : (s.setStall n v).sessions = s.sessions := rfl
@[simp] theorem setStall_sensors (n : Nat) (v : Stall) : (s.setStall n v).sensors = s.sensors := rfl
@[simp] theorem setStall_tau (n : Nat) (v : Stall) : (s.setStall n v).tau = s.tau := rfl
@[simp] theorem setStall_sheet (n : Nat) (v : Stall) : (s.setStall n v).sheet = s.sheet := rfl
@[simp] theorem setStall_drams (n : Nat) (v : Stall) : (s.setStall n v).drams = s.drams := rfl
@[simp] theorem setStall_ep (n : Nat) (v : Stall) : (s.setStall n v).ep = s.ep := rfl
@[simp] theorem setStall_icu (n : Nat) (v : Stall) : (s.setStall n v).icu = s.icu := rfl
@[simp] theorem setStall_eth (n : Nat) (v : Stall) : (s.setStall n v).eth = s.eth := rfl
@[simp] theorem setStall_power (n : Nat) (v : Stall) : (s.setStall n v).power = s.power := rfl
@[simp] theorem setStall_loader (n : Nat) (v : Stall) : (s.setStall n v).loader = s.loader := rfl
@[simp] theorem setStall_sec (n : Nat) (v : Stall) : (s.setStall n v).sec = s.sec := rfl
@[simp] theorem setStall_svc (n : Nat) (v : Stall) : (s.setStall n v).svc = s.svc := rfl
@[simp] theorem setStall_keeps (n : Nat) (v : Stall) : (s.setStall n v).keeps = s.keeps := rfl
@[simp] theorem setStall_i2cPtr (n : Nat) (v : Stall) : (s.setStall n v).i2cPtr = s.i2cPtr := rfl
@[simp] theorem setStall_egress (n : Nat) (v : Stall) : (s.setStall n v).egress = s.egress := rfl
@[simp] theorem setStall_freeCtr (n : Nat) (v : Stall) : (s.setStall n v).freeCtr = s.freeCtr := rfl
@[simp] theorem setStall_pending (n : Nat) (v : Stall) : (s.setStall n v).pending = s.pending := rfl
@[simp] theorem setStall_reg (n : Nat) (v : Stall) (k' : Nat) : (s.setStall n v).reg k' = s.reg k' := rfl
@[simp] theorem setStall_effReg (n : Nat) (v : Stall) (k' : Nat) : (s.setStall n v).effReg k' = s.effReg k' := rfl

@[simp] theorem setCluster_regs (n : Nat) (v : Cluster) : (s.setCluster n v).regs = s.regs := rfl
@[simp] theorem setCluster_eff (n : Nat) (v : Cluster) : (s.setCluster n v).eff = s.eff := rfl
@[simp] theorem setCluster_mem (n : Nat) (v : Cluster) : (s.setCluster n v).mem = s.mem := rfl
@[simp] theorem setCluster_upsets (n : Nat) (v : Cluster) : (s.setCluster n v).upsets = s.upsets := rfl
@[simp] theorem setCluster_acc (n : Nat) (v : Cluster) : (s.setCluster n v).acc = s.acc := rfl
@[simp] theorem setCluster_tsu (n : Nat) (v : Cluster) : (s.setCluster n v).tsu = s.tsu := rfl
@[simp] theorem setCluster_ledger (n : Nat) (v : Cluster) : (s.setCluster n v).ledger = s.ledger := rfl
@[simp] theorem setCluster_stalls (n : Nat) (v : Cluster) : (s.setCluster n v).stalls = s.stalls := rfl
@[simp] theorem setCluster_engines (n : Nat) (v : Cluster) : (s.setCluster n v).engines = s.engines := rfl
@[simp] theorem setCluster_fabric (n : Nat) (v : Cluster) : (s.setCluster n v).fabric = s.fabric := rfl
@[simp] theorem setCluster_pools (n : Nat) (v : Cluster) : (s.setCluster n v).pools = s.pools := rfl
@[simp] theorem setCluster_streams (n : Nat) (v : Cluster) : (s.setCluster n v).streams = s.streams := rfl
@[simp] theorem setCluster_intake (n : Nat) (v : Cluster) : (s.setCluster n v).intake = s.intake := rfl
@[simp] theorem setCluster_vds (n : Nat) (v : Cluster) : (s.setCluster n v).vds = s.vds := rfl
@[simp] theorem setCluster_pps (n : Nat) (v : Cluster) : (s.setCluster n v).pps = s.pps := rfl
@[simp] theorem setCluster_ves (n : Nat) (v : Cluster) : (s.setCluster n v).ves = s.ves := rfl
@[simp] theorem setCluster_sessions (n : Nat) (v : Cluster) : (s.setCluster n v).sessions = s.sessions := rfl
@[simp] theorem setCluster_sensors (n : Nat) (v : Cluster) : (s.setCluster n v).sensors = s.sensors := rfl
@[simp] theorem setCluster_tau (n : Nat) (v : Cluster) : (s.setCluster n v).tau = s.tau := rfl
@[simp] theorem setCluster_sheet (n : Nat) (v : Cluster) : (s.setCluster n v).sheet = s.sheet := rfl
@[simp] theorem setCluster_drams (n : Nat) (v : Cluster) : (s.setCluster n v).drams = s.drams := rfl
@[simp] theorem setCluster_ep (n : Nat) (v : Cluster) : (s.setCluster n v).ep = s.ep := rfl
@[simp] theorem setCluster_icu (n : Nat) (v : Cluster) : (s.setCluster n v).icu = s.icu := rfl
@[simp] theorem setCluster_eth (n : Nat) (v : Cluster) : (s.setCluster n v).eth = s.eth := rfl
@[simp] theorem setCluster_power (n : Nat) (v : Cluster) : (s.setCluster n v).power = s.power := rfl
@[simp] theorem setCluster_loader (n : Nat) (v : Cluster) : (s.setCluster n v).loader = s.loader := rfl
@[simp] theorem setCluster_sec (n : Nat) (v : Cluster) : (s.setCluster n v).sec = s.sec := rfl
@[simp] theorem setCluster_svc (n : Nat) (v : Cluster) : (s.setCluster n v).svc = s.svc := rfl
@[simp] theorem setCluster_keeps (n : Nat) (v : Cluster) : (s.setCluster n v).keeps = s.keeps := rfl
@[simp] theorem setCluster_i2cPtr (n : Nat) (v : Cluster) : (s.setCluster n v).i2cPtr = s.i2cPtr := rfl
@[simp] theorem setCluster_egress (n : Nat) (v : Cluster) : (s.setCluster n v).egress = s.egress := rfl
@[simp] theorem setCluster_freeCtr (n : Nat) (v : Cluster) : (s.setCluster n v).freeCtr = s.freeCtr := rfl
@[simp] theorem setCluster_pending (n : Nat) (v : Cluster) : (s.setCluster n v).pending = s.pending := rfl
@[simp] theorem setCluster_reg (n : Nat) (v : Cluster) (k' : Nat) : (s.setCluster n v).reg k' = s.reg k' := rfl
@[simp] theorem setCluster_effReg (n : Nat) (v : Cluster) (k' : Nat) : (s.setCluster n v).effReg k' = s.effReg k' := rfl

@[simp] theorem setEngine_regs (n : Nat) (v : Engine) : (s.setEngine n v).regs = s.regs := rfl
@[simp] theorem setEngine_eff (n : Nat) (v : Engine) : (s.setEngine n v).eff = s.eff := rfl
@[simp] theorem setEngine_mem (n : Nat) (v : Engine) : (s.setEngine n v).mem = s.mem := rfl
@[simp] theorem setEngine_upsets (n : Nat) (v : Engine) : (s.setEngine n v).upsets = s.upsets := rfl
@[simp] theorem setEngine_acc (n : Nat) (v : Engine) : (s.setEngine n v).acc = s.acc := rfl
@[simp] theorem setEngine_tsu (n : Nat) (v : Engine) : (s.setEngine n v).tsu = s.tsu := rfl
@[simp] theorem setEngine_ledger (n : Nat) (v : Engine) : (s.setEngine n v).ledger = s.ledger := rfl
@[simp] theorem setEngine_stalls (n : Nat) (v : Engine) : (s.setEngine n v).stalls = s.stalls := rfl
@[simp] theorem setEngine_clusters (n : Nat) (v : Engine) : (s.setEngine n v).clusters = s.clusters := rfl
@[simp] theorem setEngine_fabric (n : Nat) (v : Engine) : (s.setEngine n v).fabric = s.fabric := rfl
@[simp] theorem setEngine_pools (n : Nat) (v : Engine) : (s.setEngine n v).pools = s.pools := rfl
@[simp] theorem setEngine_streams (n : Nat) (v : Engine) : (s.setEngine n v).streams = s.streams := rfl
@[simp] theorem setEngine_intake (n : Nat) (v : Engine) : (s.setEngine n v).intake = s.intake := rfl
@[simp] theorem setEngine_vds (n : Nat) (v : Engine) : (s.setEngine n v).vds = s.vds := rfl
@[simp] theorem setEngine_pps (n : Nat) (v : Engine) : (s.setEngine n v).pps = s.pps := rfl
@[simp] theorem setEngine_ves (n : Nat) (v : Engine) : (s.setEngine n v).ves = s.ves := rfl
@[simp] theorem setEngine_sessions (n : Nat) (v : Engine) : (s.setEngine n v).sessions = s.sessions := rfl
@[simp] theorem setEngine_sensors (n : Nat) (v : Engine) : (s.setEngine n v).sensors = s.sensors := rfl
@[simp] theorem setEngine_tau (n : Nat) (v : Engine) : (s.setEngine n v).tau = s.tau := rfl
@[simp] theorem setEngine_sheet (n : Nat) (v : Engine) : (s.setEngine n v).sheet = s.sheet := rfl
@[simp] theorem setEngine_drams (n : Nat) (v : Engine) : (s.setEngine n v).drams = s.drams := rfl
@[simp] theorem setEngine_ep (n : Nat) (v : Engine) : (s.setEngine n v).ep = s.ep := rfl
@[simp] theorem setEngine_icu (n : Nat) (v : Engine) : (s.setEngine n v).icu = s.icu := rfl
@[simp] theorem setEngine_eth (n : Nat) (v : Engine) : (s.setEngine n v).eth = s.eth := rfl
@[simp] theorem setEngine_power (n : Nat) (v : Engine) : (s.setEngine n v).power = s.power := rfl
@[simp] theorem setEngine_loader (n : Nat) (v : Engine) : (s.setEngine n v).loader = s.loader := rfl
@[simp] theorem setEngine_sec (n : Nat) (v : Engine) : (s.setEngine n v).sec = s.sec := rfl
@[simp] theorem setEngine_svc (n : Nat) (v : Engine) : (s.setEngine n v).svc = s.svc := rfl
@[simp] theorem setEngine_keeps (n : Nat) (v : Engine) : (s.setEngine n v).keeps = s.keeps := rfl
@[simp] theorem setEngine_i2cPtr (n : Nat) (v : Engine) : (s.setEngine n v).i2cPtr = s.i2cPtr := rfl
@[simp] theorem setEngine_egress (n : Nat) (v : Engine) : (s.setEngine n v).egress = s.egress := rfl
@[simp] theorem setEngine_freeCtr (n : Nat) (v : Engine) : (s.setEngine n v).freeCtr = s.freeCtr := rfl
@[simp] theorem setEngine_pending (n : Nat) (v : Engine) : (s.setEngine n v).pending = s.pending := rfl
@[simp] theorem setEngine_reg (n : Nat) (v : Engine) (k' : Nat) : (s.setEngine n v).reg k' = s.reg k' := rfl
@[simp] theorem setEngine_effReg (n : Nat) (v : Engine) (k' : Nat) : (s.setEngine n v).effReg k' = s.effReg k' := rfl

@[simp] theorem setPool_regs (n : Nat) (v : Pool) : (s.setPool n v).regs = s.regs := rfl
@[simp] theorem setPool_eff (n : Nat) (v : Pool) : (s.setPool n v).eff = s.eff := rfl
@[simp] theorem setPool_mem (n : Nat) (v : Pool) : (s.setPool n v).mem = s.mem := rfl
@[simp] theorem setPool_upsets (n : Nat) (v : Pool) : (s.setPool n v).upsets = s.upsets := rfl
@[simp] theorem setPool_acc (n : Nat) (v : Pool) : (s.setPool n v).acc = s.acc := rfl
@[simp] theorem setPool_tsu (n : Nat) (v : Pool) : (s.setPool n v).tsu = s.tsu := rfl
@[simp] theorem setPool_ledger (n : Nat) (v : Pool) : (s.setPool n v).ledger = s.ledger := rfl
@[simp] theorem setPool_stalls (n : Nat) (v : Pool) : (s.setPool n v).stalls = s.stalls := rfl
@[simp] theorem setPool_clusters (n : Nat) (v : Pool) : (s.setPool n v).clusters = s.clusters := rfl
@[simp] theorem setPool_engines (n : Nat) (v : Pool) : (s.setPool n v).engines = s.engines := rfl
@[simp] theorem setPool_fabric (n : Nat) (v : Pool) : (s.setPool n v).fabric = s.fabric := rfl
@[simp] theorem setPool_streams (n : Nat) (v : Pool) : (s.setPool n v).streams = s.streams := rfl
@[simp] theorem setPool_intake (n : Nat) (v : Pool) : (s.setPool n v).intake = s.intake := rfl
@[simp] theorem setPool_vds (n : Nat) (v : Pool) : (s.setPool n v).vds = s.vds := rfl
@[simp] theorem setPool_pps (n : Nat) (v : Pool) : (s.setPool n v).pps = s.pps := rfl
@[simp] theorem setPool_ves (n : Nat) (v : Pool) : (s.setPool n v).ves = s.ves := rfl
@[simp] theorem setPool_sessions (n : Nat) (v : Pool) : (s.setPool n v).sessions = s.sessions := rfl
@[simp] theorem setPool_sensors (n : Nat) (v : Pool) : (s.setPool n v).sensors = s.sensors := rfl
@[simp] theorem setPool_tau (n : Nat) (v : Pool) : (s.setPool n v).tau = s.tau := rfl
@[simp] theorem setPool_sheet (n : Nat) (v : Pool) : (s.setPool n v).sheet = s.sheet := rfl
@[simp] theorem setPool_drams (n : Nat) (v : Pool) : (s.setPool n v).drams = s.drams := rfl
@[simp] theorem setPool_ep (n : Nat) (v : Pool) : (s.setPool n v).ep = s.ep := rfl
@[simp] theorem setPool_icu (n : Nat) (v : Pool) : (s.setPool n v).icu = s.icu := rfl
@[simp] theorem setPool_eth (n : Nat) (v : Pool) : (s.setPool n v).eth = s.eth := rfl
@[simp] theorem setPool_power (n : Nat) (v : Pool) : (s.setPool n v).power = s.power := rfl
@[simp] theorem setPool_loader (n : Nat) (v : Pool) : (s.setPool n v).loader = s.loader := rfl
@[simp] theorem setPool_sec (n : Nat) (v : Pool) : (s.setPool n v).sec = s.sec := rfl
@[simp] theorem setPool_svc (n : Nat) (v : Pool) : (s.setPool n v).svc = s.svc := rfl
@[simp] theorem setPool_keeps (n : Nat) (v : Pool) : (s.setPool n v).keeps = s.keeps := rfl
@[simp] theorem setPool_i2cPtr (n : Nat) (v : Pool) : (s.setPool n v).i2cPtr = s.i2cPtr := rfl
@[simp] theorem setPool_egress (n : Nat) (v : Pool) : (s.setPool n v).egress = s.egress := rfl
@[simp] theorem setPool_freeCtr (n : Nat) (v : Pool) : (s.setPool n v).freeCtr = s.freeCtr := rfl
@[simp] theorem setPool_pending (n : Nat) (v : Pool) : (s.setPool n v).pending = s.pending := rfl
@[simp] theorem setPool_reg (n : Nat) (v : Pool) (k' : Nat) : (s.setPool n v).reg k' = s.reg k' := rfl
@[simp] theorem setPool_effReg (n : Nat) (v : Pool) (k' : Nat) : (s.setPool n v).effReg k' = s.effReg k' := rfl

@[simp] theorem setStream_regs (n : Nat) (v : Stream) : (s.setStream n v).regs = s.regs := rfl
@[simp] theorem setStream_eff (n : Nat) (v : Stream) : (s.setStream n v).eff = s.eff := rfl
@[simp] theorem setStream_mem (n : Nat) (v : Stream) : (s.setStream n v).mem = s.mem := rfl
@[simp] theorem setStream_upsets (n : Nat) (v : Stream) : (s.setStream n v).upsets = s.upsets := rfl
@[simp] theorem setStream_acc (n : Nat) (v : Stream) : (s.setStream n v).acc = s.acc := rfl
@[simp] theorem setStream_tsu (n : Nat) (v : Stream) : (s.setStream n v).tsu = s.tsu := rfl
@[simp] theorem setStream_ledger (n : Nat) (v : Stream) : (s.setStream n v).ledger = s.ledger := rfl
@[simp] theorem setStream_stalls (n : Nat) (v : Stream) : (s.setStream n v).stalls = s.stalls := rfl
@[simp] theorem setStream_clusters (n : Nat) (v : Stream) : (s.setStream n v).clusters = s.clusters := rfl
@[simp] theorem setStream_engines (n : Nat) (v : Stream) : (s.setStream n v).engines = s.engines := rfl
@[simp] theorem setStream_fabric (n : Nat) (v : Stream) : (s.setStream n v).fabric = s.fabric := rfl
@[simp] theorem setStream_pools (n : Nat) (v : Stream) : (s.setStream n v).pools = s.pools := rfl
@[simp] theorem setStream_intake (n : Nat) (v : Stream) : (s.setStream n v).intake = s.intake := rfl
@[simp] theorem setStream_vds (n : Nat) (v : Stream) : (s.setStream n v).vds = s.vds := rfl
@[simp] theorem setStream_pps (n : Nat) (v : Stream) : (s.setStream n v).pps = s.pps := rfl
@[simp] theorem setStream_ves (n : Nat) (v : Stream) : (s.setStream n v).ves = s.ves := rfl
@[simp] theorem setStream_sessions (n : Nat) (v : Stream) : (s.setStream n v).sessions = s.sessions := rfl
@[simp] theorem setStream_sensors (n : Nat) (v : Stream) : (s.setStream n v).sensors = s.sensors := rfl
@[simp] theorem setStream_tau (n : Nat) (v : Stream) : (s.setStream n v).tau = s.tau := rfl
@[simp] theorem setStream_sheet (n : Nat) (v : Stream) : (s.setStream n v).sheet = s.sheet := rfl
@[simp] theorem setStream_drams (n : Nat) (v : Stream) : (s.setStream n v).drams = s.drams := rfl
@[simp] theorem setStream_ep (n : Nat) (v : Stream) : (s.setStream n v).ep = s.ep := rfl
@[simp] theorem setStream_icu (n : Nat) (v : Stream) : (s.setStream n v).icu = s.icu := rfl
@[simp] theorem setStream_eth (n : Nat) (v : Stream) : (s.setStream n v).eth = s.eth := rfl
@[simp] theorem setStream_power (n : Nat) (v : Stream) : (s.setStream n v).power = s.power := rfl
@[simp] theorem setStream_loader (n : Nat) (v : Stream) : (s.setStream n v).loader = s.loader := rfl
@[simp] theorem setStream_sec (n : Nat) (v : Stream) : (s.setStream n v).sec = s.sec := rfl
@[simp] theorem setStream_svc (n : Nat) (v : Stream) : (s.setStream n v).svc = s.svc := rfl
@[simp] theorem setStream_keeps (n : Nat) (v : Stream) : (s.setStream n v).keeps = s.keeps := rfl
@[simp] theorem setStream_i2cPtr (n : Nat) (v : Stream) : (s.setStream n v).i2cPtr = s.i2cPtr := rfl
@[simp] theorem setStream_egress (n : Nat) (v : Stream) : (s.setStream n v).egress = s.egress := rfl
@[simp] theorem setStream_freeCtr (n : Nat) (v : Stream) : (s.setStream n v).freeCtr = s.freeCtr := rfl
@[simp] theorem setStream_pending (n : Nat) (v : Stream) : (s.setStream n v).pending = s.pending := rfl
@[simp] theorem setStream_reg (n : Nat) (v : Stream) (k' : Nat) : (s.setStream n v).reg k' = s.reg k' := rfl
@[simp] theorem setStream_effReg (n : Nat) (v : Stream) (k' : Nat) : (s.setStream n v).effReg k' = s.effReg k' := rfl

@[simp] theorem setVd_regs (n : Nat) (v : Vd) : (s.setVd n v).regs = s.regs := rfl
@[simp] theorem setVd_eff (n : Nat) (v : Vd) : (s.setVd n v).eff = s.eff := rfl
@[simp] theorem setVd_mem (n : Nat) (v : Vd) : (s.setVd n v).mem = s.mem := rfl
@[simp] theorem setVd_upsets (n : Nat) (v : Vd) : (s.setVd n v).upsets = s.upsets := rfl
@[simp] theorem setVd_acc (n : Nat) (v : Vd) : (s.setVd n v).acc = s.acc := rfl
@[simp] theorem setVd_tsu (n : Nat) (v : Vd) : (s.setVd n v).tsu = s.tsu := rfl
@[simp] theorem setVd_ledger (n : Nat) (v : Vd) : (s.setVd n v).ledger = s.ledger := rfl
@[simp] theorem setVd_stalls (n : Nat) (v : Vd) : (s.setVd n v).stalls = s.stalls := rfl
@[simp] theorem setVd_clusters (n : Nat) (v : Vd) : (s.setVd n v).clusters = s.clusters := rfl
@[simp] theorem setVd_engines (n : Nat) (v : Vd) : (s.setVd n v).engines = s.engines := rfl
@[simp] theorem setVd_fabric (n : Nat) (v : Vd) : (s.setVd n v).fabric = s.fabric := rfl
@[simp] theorem setVd_pools (n : Nat) (v : Vd) : (s.setVd n v).pools = s.pools := rfl
@[simp] theorem setVd_streams (n : Nat) (v : Vd) : (s.setVd n v).streams = s.streams := rfl
@[simp] theorem setVd_intake (n : Nat) (v : Vd) : (s.setVd n v).intake = s.intake := rfl
@[simp] theorem setVd_pps (n : Nat) (v : Vd) : (s.setVd n v).pps = s.pps := rfl
@[simp] theorem setVd_ves (n : Nat) (v : Vd) : (s.setVd n v).ves = s.ves := rfl
@[simp] theorem setVd_sessions (n : Nat) (v : Vd) : (s.setVd n v).sessions = s.sessions := rfl
@[simp] theorem setVd_sensors (n : Nat) (v : Vd) : (s.setVd n v).sensors = s.sensors := rfl
@[simp] theorem setVd_tau (n : Nat) (v : Vd) : (s.setVd n v).tau = s.tau := rfl
@[simp] theorem setVd_sheet (n : Nat) (v : Vd) : (s.setVd n v).sheet = s.sheet := rfl
@[simp] theorem setVd_drams (n : Nat) (v : Vd) : (s.setVd n v).drams = s.drams := rfl
@[simp] theorem setVd_ep (n : Nat) (v : Vd) : (s.setVd n v).ep = s.ep := rfl
@[simp] theorem setVd_icu (n : Nat) (v : Vd) : (s.setVd n v).icu = s.icu := rfl
@[simp] theorem setVd_eth (n : Nat) (v : Vd) : (s.setVd n v).eth = s.eth := rfl
@[simp] theorem setVd_power (n : Nat) (v : Vd) : (s.setVd n v).power = s.power := rfl
@[simp] theorem setVd_loader (n : Nat) (v : Vd) : (s.setVd n v).loader = s.loader := rfl
@[simp] theorem setVd_sec (n : Nat) (v : Vd) : (s.setVd n v).sec = s.sec := rfl
@[simp] theorem setVd_svc (n : Nat) (v : Vd) : (s.setVd n v).svc = s.svc := rfl
@[simp] theorem setVd_keeps (n : Nat) (v : Vd) : (s.setVd n v).keeps = s.keeps := rfl
@[simp] theorem setVd_i2cPtr (n : Nat) (v : Vd) : (s.setVd n v).i2cPtr = s.i2cPtr := rfl
@[simp] theorem setVd_egress (n : Nat) (v : Vd) : (s.setVd n v).egress = s.egress := rfl
@[simp] theorem setVd_freeCtr (n : Nat) (v : Vd) : (s.setVd n v).freeCtr = s.freeCtr := rfl
@[simp] theorem setVd_pending (n : Nat) (v : Vd) : (s.setVd n v).pending = s.pending := rfl
@[simp] theorem setVd_reg (n : Nat) (v : Vd) (k' : Nat) : (s.setVd n v).reg k' = s.reg k' := rfl
@[simp] theorem setVd_effReg (n : Nat) (v : Vd) (k' : Nat) : (s.setVd n v).effReg k' = s.effReg k' := rfl

@[simp] theorem setPp_regs (n : Nat) (v : Pp) : (s.setPp n v).regs = s.regs := rfl
@[simp] theorem setPp_eff (n : Nat) (v : Pp) : (s.setPp n v).eff = s.eff := rfl
@[simp] theorem setPp_mem (n : Nat) (v : Pp) : (s.setPp n v).mem = s.mem := rfl
@[simp] theorem setPp_upsets (n : Nat) (v : Pp) : (s.setPp n v).upsets = s.upsets := rfl
@[simp] theorem setPp_acc (n : Nat) (v : Pp) : (s.setPp n v).acc = s.acc := rfl
@[simp] theorem setPp_tsu (n : Nat) (v : Pp) : (s.setPp n v).tsu = s.tsu := rfl
@[simp] theorem setPp_ledger (n : Nat) (v : Pp) : (s.setPp n v).ledger = s.ledger := rfl
@[simp] theorem setPp_stalls (n : Nat) (v : Pp) : (s.setPp n v).stalls = s.stalls := rfl
@[simp] theorem setPp_clusters (n : Nat) (v : Pp) : (s.setPp n v).clusters = s.clusters := rfl
@[simp] theorem setPp_engines (n : Nat) (v : Pp) : (s.setPp n v).engines = s.engines := rfl
@[simp] theorem setPp_fabric (n : Nat) (v : Pp) : (s.setPp n v).fabric = s.fabric := rfl
@[simp] theorem setPp_pools (n : Nat) (v : Pp) : (s.setPp n v).pools = s.pools := rfl
@[simp] theorem setPp_streams (n : Nat) (v : Pp) : (s.setPp n v).streams = s.streams := rfl
@[simp] theorem setPp_intake (n : Nat) (v : Pp) : (s.setPp n v).intake = s.intake := rfl
@[simp] theorem setPp_vds (n : Nat) (v : Pp) : (s.setPp n v).vds = s.vds := rfl
@[simp] theorem setPp_ves (n : Nat) (v : Pp) : (s.setPp n v).ves = s.ves := rfl
@[simp] theorem setPp_sessions (n : Nat) (v : Pp) : (s.setPp n v).sessions = s.sessions := rfl
@[simp] theorem setPp_sensors (n : Nat) (v : Pp) : (s.setPp n v).sensors = s.sensors := rfl
@[simp] theorem setPp_tau (n : Nat) (v : Pp) : (s.setPp n v).tau = s.tau := rfl
@[simp] theorem setPp_sheet (n : Nat) (v : Pp) : (s.setPp n v).sheet = s.sheet := rfl
@[simp] theorem setPp_drams (n : Nat) (v : Pp) : (s.setPp n v).drams = s.drams := rfl
@[simp] theorem setPp_ep (n : Nat) (v : Pp) : (s.setPp n v).ep = s.ep := rfl
@[simp] theorem setPp_icu (n : Nat) (v : Pp) : (s.setPp n v).icu = s.icu := rfl
@[simp] theorem setPp_eth (n : Nat) (v : Pp) : (s.setPp n v).eth = s.eth := rfl
@[simp] theorem setPp_power (n : Nat) (v : Pp) : (s.setPp n v).power = s.power := rfl
@[simp] theorem setPp_loader (n : Nat) (v : Pp) : (s.setPp n v).loader = s.loader := rfl
@[simp] theorem setPp_sec (n : Nat) (v : Pp) : (s.setPp n v).sec = s.sec := rfl
@[simp] theorem setPp_svc (n : Nat) (v : Pp) : (s.setPp n v).svc = s.svc := rfl
@[simp] theorem setPp_keeps (n : Nat) (v : Pp) : (s.setPp n v).keeps = s.keeps := rfl
@[simp] theorem setPp_i2cPtr (n : Nat) (v : Pp) : (s.setPp n v).i2cPtr = s.i2cPtr := rfl
@[simp] theorem setPp_egress (n : Nat) (v : Pp) : (s.setPp n v).egress = s.egress := rfl
@[simp] theorem setPp_freeCtr (n : Nat) (v : Pp) : (s.setPp n v).freeCtr = s.freeCtr := rfl
@[simp] theorem setPp_pending (n : Nat) (v : Pp) : (s.setPp n v).pending = s.pending := rfl
@[simp] theorem setPp_reg (n : Nat) (v : Pp) (k' : Nat) : (s.setPp n v).reg k' = s.reg k' := rfl
@[simp] theorem setPp_effReg (n : Nat) (v : Pp) (k' : Nat) : (s.setPp n v).effReg k' = s.effReg k' := rfl

@[simp] theorem setVe_regs (n : Nat) (v : Ve) : (s.setVe n v).regs = s.regs := rfl
@[simp] theorem setVe_eff (n : Nat) (v : Ve) : (s.setVe n v).eff = s.eff := rfl
@[simp] theorem setVe_mem (n : Nat) (v : Ve) : (s.setVe n v).mem = s.mem := rfl
@[simp] theorem setVe_upsets (n : Nat) (v : Ve) : (s.setVe n v).upsets = s.upsets := rfl
@[simp] theorem setVe_acc (n : Nat) (v : Ve) : (s.setVe n v).acc = s.acc := rfl
@[simp] theorem setVe_tsu (n : Nat) (v : Ve) : (s.setVe n v).tsu = s.tsu := rfl
@[simp] theorem setVe_ledger (n : Nat) (v : Ve) : (s.setVe n v).ledger = s.ledger := rfl
@[simp] theorem setVe_stalls (n : Nat) (v : Ve) : (s.setVe n v).stalls = s.stalls := rfl
@[simp] theorem setVe_clusters (n : Nat) (v : Ve) : (s.setVe n v).clusters = s.clusters := rfl
@[simp] theorem setVe_engines (n : Nat) (v : Ve) : (s.setVe n v).engines = s.engines := rfl
@[simp] theorem setVe_fabric (n : Nat) (v : Ve) : (s.setVe n v).fabric = s.fabric := rfl
@[simp] theorem setVe_pools (n : Nat) (v : Ve) : (s.setVe n v).pools = s.pools := rfl
@[simp] theorem setVe_streams (n : Nat) (v : Ve) : (s.setVe n v).streams = s.streams := rfl
@[simp] theorem setVe_intake (n : Nat) (v : Ve) : (s.setVe n v).intake = s.intake := rfl
@[simp] theorem setVe_vds (n : Nat) (v : Ve) : (s.setVe n v).vds = s.vds := rfl
@[simp] theorem setVe_pps (n : Nat) (v : Ve) : (s.setVe n v).pps = s.pps := rfl
@[simp] theorem setVe_sessions (n : Nat) (v : Ve) : (s.setVe n v).sessions = s.sessions := rfl
@[simp] theorem setVe_sensors (n : Nat) (v : Ve) : (s.setVe n v).sensors = s.sensors := rfl
@[simp] theorem setVe_tau (n : Nat) (v : Ve) : (s.setVe n v).tau = s.tau := rfl
@[simp] theorem setVe_sheet (n : Nat) (v : Ve) : (s.setVe n v).sheet = s.sheet := rfl
@[simp] theorem setVe_drams (n : Nat) (v : Ve) : (s.setVe n v).drams = s.drams := rfl
@[simp] theorem setVe_ep (n : Nat) (v : Ve) : (s.setVe n v).ep = s.ep := rfl
@[simp] theorem setVe_icu (n : Nat) (v : Ve) : (s.setVe n v).icu = s.icu := rfl
@[simp] theorem setVe_eth (n : Nat) (v : Ve) : (s.setVe n v).eth = s.eth := rfl
@[simp] theorem setVe_power (n : Nat) (v : Ve) : (s.setVe n v).power = s.power := rfl
@[simp] theorem setVe_loader (n : Nat) (v : Ve) : (s.setVe n v).loader = s.loader := rfl
@[simp] theorem setVe_sec (n : Nat) (v : Ve) : (s.setVe n v).sec = s.sec := rfl
@[simp] theorem setVe_svc (n : Nat) (v : Ve) : (s.setVe n v).svc = s.svc := rfl
@[simp] theorem setVe_keeps (n : Nat) (v : Ve) : (s.setVe n v).keeps = s.keeps := rfl
@[simp] theorem setVe_i2cPtr (n : Nat) (v : Ve) : (s.setVe n v).i2cPtr = s.i2cPtr := rfl
@[simp] theorem setVe_egress (n : Nat) (v : Ve) : (s.setVe n v).egress = s.egress := rfl
@[simp] theorem setVe_freeCtr (n : Nat) (v : Ve) : (s.setVe n v).freeCtr = s.freeCtr := rfl
@[simp] theorem setVe_pending (n : Nat) (v : Ve) : (s.setVe n v).pending = s.pending := rfl
@[simp] theorem setVe_reg (n : Nat) (v : Ve) (k' : Nat) : (s.setVe n v).reg k' = s.reg k' := rfl
@[simp] theorem setVe_effReg (n : Nat) (v : Ve) (k' : Nat) : (s.setVe n v).effReg k' = s.effReg k' := rfl

@[simp] theorem setSession_regs (n : Nat) (v : Session) : (s.setSession n v).regs = s.regs := rfl
@[simp] theorem setSession_eff (n : Nat) (v : Session) : (s.setSession n v).eff = s.eff := rfl
@[simp] theorem setSession_mem (n : Nat) (v : Session) : (s.setSession n v).mem = s.mem := rfl
@[simp] theorem setSession_upsets (n : Nat) (v : Session) : (s.setSession n v).upsets = s.upsets := rfl
@[simp] theorem setSession_acc (n : Nat) (v : Session) : (s.setSession n v).acc = s.acc := rfl
@[simp] theorem setSession_tsu (n : Nat) (v : Session) : (s.setSession n v).tsu = s.tsu := rfl
@[simp] theorem setSession_ledger (n : Nat) (v : Session) : (s.setSession n v).ledger = s.ledger := rfl
@[simp] theorem setSession_stalls (n : Nat) (v : Session) : (s.setSession n v).stalls = s.stalls := rfl
@[simp] theorem setSession_clusters (n : Nat) (v : Session) : (s.setSession n v).clusters = s.clusters := rfl
@[simp] theorem setSession_engines (n : Nat) (v : Session) : (s.setSession n v).engines = s.engines := rfl
@[simp] theorem setSession_fabric (n : Nat) (v : Session) : (s.setSession n v).fabric = s.fabric := rfl
@[simp] theorem setSession_pools (n : Nat) (v : Session) : (s.setSession n v).pools = s.pools := rfl
@[simp] theorem setSession_streams (n : Nat) (v : Session) : (s.setSession n v).streams = s.streams := rfl
@[simp] theorem setSession_intake (n : Nat) (v : Session) : (s.setSession n v).intake = s.intake := rfl
@[simp] theorem setSession_vds (n : Nat) (v : Session) : (s.setSession n v).vds = s.vds := rfl
@[simp] theorem setSession_pps (n : Nat) (v : Session) : (s.setSession n v).pps = s.pps := rfl
@[simp] theorem setSession_ves (n : Nat) (v : Session) : (s.setSession n v).ves = s.ves := rfl
@[simp] theorem setSession_sensors (n : Nat) (v : Session) : (s.setSession n v).sensors = s.sensors := rfl
@[simp] theorem setSession_tau (n : Nat) (v : Session) : (s.setSession n v).tau = s.tau := rfl
@[simp] theorem setSession_sheet (n : Nat) (v : Session) : (s.setSession n v).sheet = s.sheet := rfl
@[simp] theorem setSession_drams (n : Nat) (v : Session) : (s.setSession n v).drams = s.drams := rfl
@[simp] theorem setSession_ep (n : Nat) (v : Session) : (s.setSession n v).ep = s.ep := rfl
@[simp] theorem setSession_icu (n : Nat) (v : Session) : (s.setSession n v).icu = s.icu := rfl
@[simp] theorem setSession_eth (n : Nat) (v : Session) : (s.setSession n v).eth = s.eth := rfl
@[simp] theorem setSession_power (n : Nat) (v : Session) : (s.setSession n v).power = s.power := rfl
@[simp] theorem setSession_loader (n : Nat) (v : Session) : (s.setSession n v).loader = s.loader := rfl
@[simp] theorem setSession_sec (n : Nat) (v : Session) : (s.setSession n v).sec = s.sec := rfl
@[simp] theorem setSession_svc (n : Nat) (v : Session) : (s.setSession n v).svc = s.svc := rfl
@[simp] theorem setSession_keeps (n : Nat) (v : Session) : (s.setSession n v).keeps = s.keeps := rfl
@[simp] theorem setSession_i2cPtr (n : Nat) (v : Session) : (s.setSession n v).i2cPtr = s.i2cPtr := rfl
@[simp] theorem setSession_egress (n : Nat) (v : Session) : (s.setSession n v).egress = s.egress := rfl
@[simp] theorem setSession_freeCtr (n : Nat) (v : Session) : (s.setSession n v).freeCtr = s.freeCtr := rfl
@[simp] theorem setSession_pending (n : Nat) (v : Session) : (s.setSession n v).pending = s.pending := rfl
@[simp] theorem setSession_reg (n : Nat) (v : Session) (k' : Nat) : (s.setSession n v).reg k' = s.reg k' := rfl
@[simp] theorem setSession_effReg (n : Nat) (v : Session) (k' : Nat) : (s.setSession n v).effReg k' = s.effReg k' := rfl

@[simp] theorem setSensor_regs (n : Nat) (v : Sensor) : (s.setSensor n v).regs = s.regs := rfl
@[simp] theorem setSensor_eff (n : Nat) (v : Sensor) : (s.setSensor n v).eff = s.eff := rfl
@[simp] theorem setSensor_mem (n : Nat) (v : Sensor) : (s.setSensor n v).mem = s.mem := rfl
@[simp] theorem setSensor_upsets (n : Nat) (v : Sensor) : (s.setSensor n v).upsets = s.upsets := rfl
@[simp] theorem setSensor_acc (n : Nat) (v : Sensor) : (s.setSensor n v).acc = s.acc := rfl
@[simp] theorem setSensor_tsu (n : Nat) (v : Sensor) : (s.setSensor n v).tsu = s.tsu := rfl
@[simp] theorem setSensor_ledger (n : Nat) (v : Sensor) : (s.setSensor n v).ledger = s.ledger := rfl
@[simp] theorem setSensor_stalls (n : Nat) (v : Sensor) : (s.setSensor n v).stalls = s.stalls := rfl
@[simp] theorem setSensor_clusters (n : Nat) (v : Sensor) : (s.setSensor n v).clusters = s.clusters := rfl
@[simp] theorem setSensor_engines (n : Nat) (v : Sensor) : (s.setSensor n v).engines = s.engines := rfl
@[simp] theorem setSensor_fabric (n : Nat) (v : Sensor) : (s.setSensor n v).fabric = s.fabric := rfl
@[simp] theorem setSensor_pools (n : Nat) (v : Sensor) : (s.setSensor n v).pools = s.pools := rfl
@[simp] theorem setSensor_streams (n : Nat) (v : Sensor) : (s.setSensor n v).streams = s.streams := rfl
@[simp] theorem setSensor_intake (n : Nat) (v : Sensor) : (s.setSensor n v).intake = s.intake := rfl
@[simp] theorem setSensor_vds (n : Nat) (v : Sensor) : (s.setSensor n v).vds = s.vds := rfl
@[simp] theorem setSensor_pps (n : Nat) (v : Sensor) : (s.setSensor n v).pps = s.pps := rfl
@[simp] theorem setSensor_ves (n : Nat) (v : Sensor) : (s.setSensor n v).ves = s.ves := rfl
@[simp] theorem setSensor_sessions (n : Nat) (v : Sensor) : (s.setSensor n v).sessions = s.sessions := rfl
@[simp] theorem setSensor_tau (n : Nat) (v : Sensor) : (s.setSensor n v).tau = s.tau := rfl
@[simp] theorem setSensor_sheet (n : Nat) (v : Sensor) : (s.setSensor n v).sheet = s.sheet := rfl
@[simp] theorem setSensor_drams (n : Nat) (v : Sensor) : (s.setSensor n v).drams = s.drams := rfl
@[simp] theorem setSensor_ep (n : Nat) (v : Sensor) : (s.setSensor n v).ep = s.ep := rfl
@[simp] theorem setSensor_icu (n : Nat) (v : Sensor) : (s.setSensor n v).icu = s.icu := rfl
@[simp] theorem setSensor_eth (n : Nat) (v : Sensor) : (s.setSensor n v).eth = s.eth := rfl
@[simp] theorem setSensor_power (n : Nat) (v : Sensor) : (s.setSensor n v).power = s.power := rfl
@[simp] theorem setSensor_loader (n : Nat) (v : Sensor) : (s.setSensor n v).loader = s.loader := rfl
@[simp] theorem setSensor_sec (n : Nat) (v : Sensor) : (s.setSensor n v).sec = s.sec := rfl
@[simp] theorem setSensor_svc (n : Nat) (v : Sensor) : (s.setSensor n v).svc = s.svc := rfl
@[simp] theorem setSensor_keeps (n : Nat) (v : Sensor) : (s.setSensor n v).keeps = s.keeps := rfl
@[simp] theorem setSensor_i2cPtr (n : Nat) (v : Sensor) : (s.setSensor n v).i2cPtr = s.i2cPtr := rfl
@[simp] theorem setSensor_egress (n : Nat) (v : Sensor) : (s.setSensor n v).egress = s.egress := rfl
@[simp] theorem setSensor_freeCtr (n : Nat) (v : Sensor) : (s.setSensor n v).freeCtr = s.freeCtr := rfl
@[simp] theorem setSensor_pending (n : Nat) (v : Sensor) : (s.setSensor n v).pending = s.pending := rfl
@[simp] theorem setSensor_reg (n : Nat) (v : Sensor) (k' : Nat) : (s.setSensor n v).reg k' = s.reg k' := rfl
@[simp] theorem setSensor_effReg (n : Nat) (v : Sensor) (k' : Nat) : (s.setSensor n v).effReg k' = s.effReg k' := rfl

@[simp] theorem setDram_regs (n : Nat) (v : Dram) : (s.setDram n v).regs = s.regs := rfl
@[simp] theorem setDram_eff (n : Nat) (v : Dram) : (s.setDram n v).eff = s.eff := rfl
@[simp] theorem setDram_mem (n : Nat) (v : Dram) : (s.setDram n v).mem = s.mem := rfl
@[simp] theorem setDram_upsets (n : Nat) (v : Dram) : (s.setDram n v).upsets = s.upsets := rfl
@[simp] theorem setDram_acc (n : Nat) (v : Dram) : (s.setDram n v).acc = s.acc := rfl
@[simp] theorem setDram_tsu (n : Nat) (v : Dram) : (s.setDram n v).tsu = s.tsu := rfl
@[simp] theorem setDram_ledger (n : Nat) (v : Dram) : (s.setDram n v).ledger = s.ledger := rfl
@[simp] theorem setDram_stalls (n : Nat) (v : Dram) : (s.setDram n v).stalls = s.stalls := rfl
@[simp] theorem setDram_clusters (n : Nat) (v : Dram) : (s.setDram n v).clusters = s.clusters := rfl
@[simp] theorem setDram_engines (n : Nat) (v : Dram) : (s.setDram n v).engines = s.engines := rfl
@[simp] theorem setDram_fabric (n : Nat) (v : Dram) : (s.setDram n v).fabric = s.fabric := rfl
@[simp] theorem setDram_pools (n : Nat) (v : Dram) : (s.setDram n v).pools = s.pools := rfl
@[simp] theorem setDram_streams (n : Nat) (v : Dram) : (s.setDram n v).streams = s.streams := rfl
@[simp] theorem setDram_intake (n : Nat) (v : Dram) : (s.setDram n v).intake = s.intake := rfl
@[simp] theorem setDram_vds (n : Nat) (v : Dram) : (s.setDram n v).vds = s.vds := rfl
@[simp] theorem setDram_pps (n : Nat) (v : Dram) : (s.setDram n v).pps = s.pps := rfl
@[simp] theorem setDram_ves (n : Nat) (v : Dram) : (s.setDram n v).ves = s.ves := rfl
@[simp] theorem setDram_sessions (n : Nat) (v : Dram) : (s.setDram n v).sessions = s.sessions := rfl
@[simp] theorem setDram_sensors (n : Nat) (v : Dram) : (s.setDram n v).sensors = s.sensors := rfl
@[simp] theorem setDram_tau (n : Nat) (v : Dram) : (s.setDram n v).tau = s.tau := rfl
@[simp] theorem setDram_sheet (n : Nat) (v : Dram) : (s.setDram n v).sheet = s.sheet := rfl
@[simp] theorem setDram_ep (n : Nat) (v : Dram) : (s.setDram n v).ep = s.ep := rfl
@[simp] theorem setDram_icu (n : Nat) (v : Dram) : (s.setDram n v).icu = s.icu := rfl
@[simp] theorem setDram_eth (n : Nat) (v : Dram) : (s.setDram n v).eth = s.eth := rfl
@[simp] theorem setDram_power (n : Nat) (v : Dram) : (s.setDram n v).power = s.power := rfl
@[simp] theorem setDram_loader (n : Nat) (v : Dram) : (s.setDram n v).loader = s.loader := rfl
@[simp] theorem setDram_sec (n : Nat) (v : Dram) : (s.setDram n v).sec = s.sec := rfl
@[simp] theorem setDram_svc (n : Nat) (v : Dram) : (s.setDram n v).svc = s.svc := rfl
@[simp] theorem setDram_keeps (n : Nat) (v : Dram) : (s.setDram n v).keeps = s.keeps := rfl
@[simp] theorem setDram_i2cPtr (n : Nat) (v : Dram) : (s.setDram n v).i2cPtr = s.i2cPtr := rfl
@[simp] theorem setDram_egress (n : Nat) (v : Dram) : (s.setDram n v).egress = s.egress := rfl
@[simp] theorem setDram_freeCtr (n : Nat) (v : Dram) : (s.setDram n v).freeCtr = s.freeCtr := rfl
@[simp] theorem setDram_pending (n : Nat) (v : Dram) : (s.setDram n v).pending = s.pending := rfl
@[simp] theorem setDram_reg (n : Nat) (v : Dram) (k' : Nat) : (s.setDram n v).reg k' = s.reg k' := rfl
@[simp] theorem setDram_effReg (n : Nat) (v : Dram) (k' : Nat) : (s.setDram n v).effReg k' = s.effReg k' := rfl

@[simp] theorem send_regs (e : Egress) : (s.send e).regs = s.regs := rfl
@[simp] theorem send_eff (e : Egress) : (s.send e).eff = s.eff := rfl
@[simp] theorem send_mem (e : Egress) : (s.send e).mem = s.mem := rfl
@[simp] theorem send_upsets (e : Egress) : (s.send e).upsets = s.upsets := rfl
@[simp] theorem send_acc (e : Egress) : (s.send e).acc = s.acc := rfl
@[simp] theorem send_tsu (e : Egress) : (s.send e).tsu = s.tsu := rfl
@[simp] theorem send_ledger (e : Egress) : (s.send e).ledger = s.ledger := rfl
@[simp] theorem send_stalls (e : Egress) : (s.send e).stalls = s.stalls := rfl
@[simp] theorem send_clusters (e : Egress) : (s.send e).clusters = s.clusters := rfl
@[simp] theorem send_engines (e : Egress) : (s.send e).engines = s.engines := rfl
@[simp] theorem send_fabric (e : Egress) : (s.send e).fabric = s.fabric := rfl
@[simp] theorem send_pools (e : Egress) : (s.send e).pools = s.pools := rfl
@[simp] theorem send_streams (e : Egress) : (s.send e).streams = s.streams := rfl
@[simp] theorem send_intake (e : Egress) : (s.send e).intake = s.intake := rfl
@[simp] theorem send_vds (e : Egress) : (s.send e).vds = s.vds := rfl
@[simp] theorem send_pps (e : Egress) : (s.send e).pps = s.pps := rfl
@[simp] theorem send_ves (e : Egress) : (s.send e).ves = s.ves := rfl
@[simp] theorem send_sessions (e : Egress) : (s.send e).sessions = s.sessions := rfl
@[simp] theorem send_sensors (e : Egress) : (s.send e).sensors = s.sensors := rfl
@[simp] theorem send_tau (e : Egress) : (s.send e).tau = s.tau := rfl
@[simp] theorem send_sheet (e : Egress) : (s.send e).sheet = s.sheet := rfl
@[simp] theorem send_drams (e : Egress) : (s.send e).drams = s.drams := rfl
@[simp] theorem send_ep (e : Egress) : (s.send e).ep = s.ep := rfl
@[simp] theorem send_icu (e : Egress) : (s.send e).icu = s.icu := rfl
@[simp] theorem send_eth (e : Egress) : (s.send e).eth = s.eth := rfl
@[simp] theorem send_power (e : Egress) : (s.send e).power = s.power := rfl
@[simp] theorem send_loader (e : Egress) : (s.send e).loader = s.loader := rfl
@[simp] theorem send_sec (e : Egress) : (s.send e).sec = s.sec := rfl
@[simp] theorem send_svc (e : Egress) : (s.send e).svc = s.svc := rfl
@[simp] theorem send_keeps (e : Egress) : (s.send e).keeps = s.keeps := rfl
@[simp] theorem send_i2cPtr (e : Egress) : (s.send e).i2cPtr = s.i2cPtr := rfl
@[simp] theorem send_freeCtr (e : Egress) : (s.send e).freeCtr = s.freeCtr := rfl
@[simp] theorem send_pending (e : Egress) : (s.send e).pending = s.pending := rfl
@[simp] theorem send_reg (e : Egress) (k' : Nat) : (s.send e).reg k' = s.reg k' := rfl
@[simp] theorem send_effReg (e : Egress) (k' : Nat) : (s.send e).effReg k' = s.effReg k' := rfl

@[simp] theorem free_regs : (s.free.2).regs = s.regs := rfl
@[simp] theorem free_eff : (s.free.2).eff = s.eff := rfl
@[simp] theorem free_mem : (s.free.2).mem = s.mem := rfl
@[simp] theorem free_upsets : (s.free.2).upsets = s.upsets := rfl
@[simp] theorem free_acc : (s.free.2).acc = s.acc := rfl
@[simp] theorem free_tsu : (s.free.2).tsu = s.tsu := rfl
@[simp] theorem free_ledger : (s.free.2).ledger = s.ledger := rfl
@[simp] theorem free_stalls : (s.free.2).stalls = s.stalls := rfl
@[simp] theorem free_clusters : (s.free.2).clusters = s.clusters := rfl
@[simp] theorem free_engines : (s.free.2).engines = s.engines := rfl
@[simp] theorem free_fabric : (s.free.2).fabric = s.fabric := rfl
@[simp] theorem free_pools : (s.free.2).pools = s.pools := rfl
@[simp] theorem free_streams : (s.free.2).streams = s.streams := rfl
@[simp] theorem free_intake : (s.free.2).intake = s.intake := rfl
@[simp] theorem free_vds : (s.free.2).vds = s.vds := rfl
@[simp] theorem free_pps : (s.free.2).pps = s.pps := rfl
@[simp] theorem free_ves : (s.free.2).ves = s.ves := rfl
@[simp] theorem free_sessions : (s.free.2).sessions = s.sessions := rfl
@[simp] theorem free_sensors : (s.free.2).sensors = s.sensors := rfl
@[simp] theorem free_tau : (s.free.2).tau = s.tau := rfl
@[simp] theorem free_sheet : (s.free.2).sheet = s.sheet := rfl
@[simp] theorem free_drams : (s.free.2).drams = s.drams := rfl
@[simp] theorem free_ep : (s.free.2).ep = s.ep := rfl
@[simp] theorem free_icu : (s.free.2).icu = s.icu := rfl
@[simp] theorem free_eth : (s.free.2).eth = s.eth := rfl
@[simp] theorem free_power : (s.free.2).power = s.power := rfl
@[simp] theorem free_loader : (s.free.2).loader = s.loader := rfl
@[simp] theorem free_sec : (s.free.2).sec = s.sec := rfl
@[simp] theorem free_svc : (s.free.2).svc = s.svc := rfl
@[simp] theorem free_keeps : (s.free.2).keeps = s.keeps := rfl
@[simp] theorem free_i2cPtr : (s.free.2).i2cPtr = s.i2cPtr := rfl
@[simp] theorem free_egress : (s.free.2).egress = s.egress := rfl
@[simp] theorem free_pending : (s.free.2).pending = s.pending := rfl
@[simp] theorem free_reg (k' : Nat) : (s.free.2).reg k' = s.reg k' := rfl
@[simp] theorem free_effReg (k' : Nat) : (s.free.2).effReg k' = s.effReg k' := rfl

@[simp] theorem putByte_regs (k : Nat) (b : Byte) : (s.putByte k b).regs = s.regs := rfl
@[simp] theorem putByte_eff (k : Nat) (b : Byte) : (s.putByte k b).eff = s.eff := rfl
@[simp] theorem putByte_upsets (k : Nat) (b : Byte) : (s.putByte k b).upsets = s.upsets := rfl
@[simp] theorem putByte_acc (k : Nat) (b : Byte) : (s.putByte k b).acc = s.acc := rfl
@[simp] theorem putByte_tsu (k : Nat) (b : Byte) : (s.putByte k b).tsu = s.tsu := rfl
@[simp] theorem putByte_ledger (k : Nat) (b : Byte) : (s.putByte k b).ledger = s.ledger := rfl
@[simp] theorem putByte_stalls (k : Nat) (b : Byte) : (s.putByte k b).stalls = s.stalls := rfl
@[simp] theorem putByte_clusters (k : Nat) (b : Byte) : (s.putByte k b).clusters = s.clusters := rfl
@[simp] theorem putByte_engines (k : Nat) (b : Byte) : (s.putByte k b).engines = s.engines := rfl
@[simp] theorem putByte_fabric (k : Nat) (b : Byte) : (s.putByte k b).fabric = s.fabric := rfl
@[simp] theorem putByte_pools (k : Nat) (b : Byte) : (s.putByte k b).pools = s.pools := rfl
@[simp] theorem putByte_streams (k : Nat) (b : Byte) : (s.putByte k b).streams = s.streams := rfl
@[simp] theorem putByte_intake (k : Nat) (b : Byte) : (s.putByte k b).intake = s.intake := rfl
@[simp] theorem putByte_vds (k : Nat) (b : Byte) : (s.putByte k b).vds = s.vds := rfl
@[simp] theorem putByte_pps (k : Nat) (b : Byte) : (s.putByte k b).pps = s.pps := rfl
@[simp] theorem putByte_ves (k : Nat) (b : Byte) : (s.putByte k b).ves = s.ves := rfl
@[simp] theorem putByte_sessions (k : Nat) (b : Byte) : (s.putByte k b).sessions = s.sessions := rfl
@[simp] theorem putByte_sensors (k : Nat) (b : Byte) : (s.putByte k b).sensors = s.sensors := rfl
@[simp] theorem putByte_tau (k : Nat) (b : Byte) : (s.putByte k b).tau = s.tau := rfl
@[simp] theorem putByte_sheet (k : Nat) (b : Byte) : (s.putByte k b).sheet = s.sheet := rfl
@[simp] theorem putByte_drams (k : Nat) (b : Byte) : (s.putByte k b).drams = s.drams := rfl
@[simp] theorem putByte_ep (k : Nat) (b : Byte) : (s.putByte k b).ep = s.ep := rfl
@[simp] theorem putByte_icu (k : Nat) (b : Byte) : (s.putByte k b).icu = s.icu := rfl
@[simp] theorem putByte_eth (k : Nat) (b : Byte) : (s.putByte k b).eth = s.eth := rfl
@[simp] theorem putByte_power (k : Nat) (b : Byte) : (s.putByte k b).power = s.power := rfl
@[simp] theorem putByte_loader (k : Nat) (b : Byte) : (s.putByte k b).loader = s.loader := rfl
@[simp] theorem putByte_sec (k : Nat) (b : Byte) : (s.putByte k b).sec = s.sec := rfl
@[simp] theorem putByte_svc (k : Nat) (b : Byte) : (s.putByte k b).svc = s.svc := rfl
@[simp] theorem putByte_keeps (k : Nat) (b : Byte) : (s.putByte k b).keeps = s.keeps := rfl
@[simp] theorem putByte_i2cPtr (k : Nat) (b : Byte) : (s.putByte k b).i2cPtr = s.i2cPtr := rfl
@[simp] theorem putByte_egress (k : Nat) (b : Byte) : (s.putByte k b).egress = s.egress := rfl
@[simp] theorem putByte_freeCtr (k : Nat) (b : Byte) : (s.putByte k b).freeCtr = s.freeCtr := rfl
@[simp] theorem putByte_pending (k : Nat) (b : Byte) : (s.putByte k b).pending = s.pending := rfl
@[simp] theorem putByte_reg (k : Nat) (b : Byte) (k' : Nat) : (s.putByte k b).reg k' = s.reg k' := rfl
@[simp] theorem putByte_effReg (k : Nat) (b : Byte) (k' : Nat) : (s.putByte k b).effReg k' = s.effReg k' := rfl

@[simp] theorem pokes_regs (p : Ptr) (d : List Byte) : (s.pokes p d).regs = s.regs := rfl
@[simp] theorem pokes_eff (p : Ptr) (d : List Byte) : (s.pokes p d).eff = s.eff := rfl
@[simp] theorem pokes_upsets (p : Ptr) (d : List Byte) : (s.pokes p d).upsets = s.upsets := rfl
@[simp] theorem pokes_acc (p : Ptr) (d : List Byte) : (s.pokes p d).acc = s.acc := rfl
@[simp] theorem pokes_tsu (p : Ptr) (d : List Byte) : (s.pokes p d).tsu = s.tsu := rfl
@[simp] theorem pokes_ledger (p : Ptr) (d : List Byte) : (s.pokes p d).ledger = s.ledger := rfl
@[simp] theorem pokes_stalls (p : Ptr) (d : List Byte) : (s.pokes p d).stalls = s.stalls := rfl
@[simp] theorem pokes_clusters (p : Ptr) (d : List Byte) : (s.pokes p d).clusters = s.clusters := rfl
@[simp] theorem pokes_engines (p : Ptr) (d : List Byte) : (s.pokes p d).engines = s.engines := rfl
@[simp] theorem pokes_fabric (p : Ptr) (d : List Byte) : (s.pokes p d).fabric = s.fabric := rfl
@[simp] theorem pokes_pools (p : Ptr) (d : List Byte) : (s.pokes p d).pools = s.pools := rfl
@[simp] theorem pokes_streams (p : Ptr) (d : List Byte) : (s.pokes p d).streams = s.streams := rfl
@[simp] theorem pokes_intake (p : Ptr) (d : List Byte) : (s.pokes p d).intake = s.intake := rfl
@[simp] theorem pokes_vds (p : Ptr) (d : List Byte) : (s.pokes p d).vds = s.vds := rfl
@[simp] theorem pokes_pps (p : Ptr) (d : List Byte) : (s.pokes p d).pps = s.pps := rfl
@[simp] theorem pokes_ves (p : Ptr) (d : List Byte) : (s.pokes p d).ves = s.ves := rfl
@[simp] theorem pokes_sessions (p : Ptr) (d : List Byte) : (s.pokes p d).sessions = s.sessions := rfl
@[simp] theorem pokes_sensors (p : Ptr) (d : List Byte) : (s.pokes p d).sensors = s.sensors := rfl
@[simp] theorem pokes_tau (p : Ptr) (d : List Byte) : (s.pokes p d).tau = s.tau := rfl
@[simp] theorem pokes_sheet (p : Ptr) (d : List Byte) : (s.pokes p d).sheet = s.sheet := rfl
@[simp] theorem pokes_drams (p : Ptr) (d : List Byte) : (s.pokes p d).drams = s.drams := rfl
@[simp] theorem pokes_ep (p : Ptr) (d : List Byte) : (s.pokes p d).ep = s.ep := rfl
@[simp] theorem pokes_icu (p : Ptr) (d : List Byte) : (s.pokes p d).icu = s.icu := rfl
@[simp] theorem pokes_eth (p : Ptr) (d : List Byte) : (s.pokes p d).eth = s.eth := rfl
@[simp] theorem pokes_power (p : Ptr) (d : List Byte) : (s.pokes p d).power = s.power := rfl
@[simp] theorem pokes_loader (p : Ptr) (d : List Byte) : (s.pokes p d).loader = s.loader := rfl
@[simp] theorem pokes_sec (p : Ptr) (d : List Byte) : (s.pokes p d).sec = s.sec := rfl
@[simp] theorem pokes_svc (p : Ptr) (d : List Byte) : (s.pokes p d).svc = s.svc := rfl
@[simp] theorem pokes_keeps (p : Ptr) (d : List Byte) : (s.pokes p d).keeps = s.keeps := rfl
@[simp] theorem pokes_i2cPtr (p : Ptr) (d : List Byte) : (s.pokes p d).i2cPtr = s.i2cPtr := rfl
@[simp] theorem pokes_egress (p : Ptr) (d : List Byte) : (s.pokes p d).egress = s.egress := rfl
@[simp] theorem pokes_freeCtr (p : Ptr) (d : List Byte) : (s.pokes p d).freeCtr = s.freeCtr := rfl
@[simp] theorem pokes_pending (p : Ptr) (d : List Byte) : (s.pokes p d).pending = s.pending := rfl
@[simp] theorem pokes_reg (p : Ptr) (d : List Byte) (k' : Nat) : (s.pokes p d).reg k' = s.reg k' := rfl
@[simp] theorem pokes_effReg (p : Ptr) (d : List Byte) (k' : Nat) : (s.pokes p d).effReg k' = s.effReg k' := rfl

@[simp] theorem clearRange_regs (p : Ptr) (n : Nat) : (s.clearRange p n).regs = s.regs := rfl
@[simp] theorem clearRange_eff (p : Ptr) (n : Nat) : (s.clearRange p n).eff = s.eff := rfl
@[simp] theorem clearRange_acc (p : Ptr) (n : Nat) : (s.clearRange p n).acc = s.acc := rfl
@[simp] theorem clearRange_tsu (p : Ptr) (n : Nat) : (s.clearRange p n).tsu = s.tsu := rfl
@[simp] theorem clearRange_ledger (p : Ptr) (n : Nat) : (s.clearRange p n).ledger = s.ledger := rfl
@[simp] theorem clearRange_stalls (p : Ptr) (n : Nat) : (s.clearRange p n).stalls = s.stalls := rfl
@[simp] theorem clearRange_clusters (p : Ptr) (n : Nat) : (s.clearRange p n).clusters = s.clusters := rfl
@[simp] theorem clearRange_engines (p : Ptr) (n : Nat) : (s.clearRange p n).engines = s.engines := rfl
@[simp] theorem clearRange_fabric (p : Ptr) (n : Nat) : (s.clearRange p n).fabric = s.fabric := rfl
@[simp] theorem clearRange_pools (p : Ptr) (n : Nat) : (s.clearRange p n).pools = s.pools := rfl
@[simp] theorem clearRange_streams (p : Ptr) (n : Nat) : (s.clearRange p n).streams = s.streams := rfl
@[simp] theorem clearRange_intake (p : Ptr) (n : Nat) : (s.clearRange p n).intake = s.intake := rfl
@[simp] theorem clearRange_vds (p : Ptr) (n : Nat) : (s.clearRange p n).vds = s.vds := rfl
@[simp] theorem clearRange_pps (p : Ptr) (n : Nat) : (s.clearRange p n).pps = s.pps := rfl
@[simp] theorem clearRange_ves (p : Ptr) (n : Nat) : (s.clearRange p n).ves = s.ves := rfl
@[simp] theorem clearRange_sessions (p : Ptr) (n : Nat) : (s.clearRange p n).sessions = s.sessions := rfl
@[simp] theorem clearRange_sensors (p : Ptr) (n : Nat) : (s.clearRange p n).sensors = s.sensors := rfl
@[simp] theorem clearRange_tau (p : Ptr) (n : Nat) : (s.clearRange p n).tau = s.tau := rfl
@[simp] theorem clearRange_sheet (p : Ptr) (n : Nat) : (s.clearRange p n).sheet = s.sheet := rfl
@[simp] theorem clearRange_drams (p : Ptr) (n : Nat) : (s.clearRange p n).drams = s.drams := rfl
@[simp] theorem clearRange_ep (p : Ptr) (n : Nat) : (s.clearRange p n).ep = s.ep := rfl
@[simp] theorem clearRange_icu (p : Ptr) (n : Nat) : (s.clearRange p n).icu = s.icu := rfl
@[simp] theorem clearRange_eth (p : Ptr) (n : Nat) : (s.clearRange p n).eth = s.eth := rfl
@[simp] theorem clearRange_power (p : Ptr) (n : Nat) : (s.clearRange p n).power = s.power := rfl
@[simp] theorem clearRange_loader (p : Ptr) (n : Nat) : (s.clearRange p n).loader = s.loader := rfl
@[simp] theorem clearRange_sec (p : Ptr) (n : Nat) : (s.clearRange p n).sec = s.sec := rfl
@[simp] theorem clearRange_svc (p : Ptr) (n : Nat) : (s.clearRange p n).svc = s.svc := rfl
@[simp] theorem clearRange_keeps (p : Ptr) (n : Nat) : (s.clearRange p n).keeps = s.keeps := rfl
@[simp] theorem clearRange_i2cPtr (p : Ptr) (n : Nat) : (s.clearRange p n).i2cPtr = s.i2cPtr := rfl
@[simp] theorem clearRange_egress (p : Ptr) (n : Nat) : (s.clearRange p n).egress = s.egress := rfl
@[simp] theorem clearRange_freeCtr (p : Ptr) (n : Nat) : (s.clearRange p n).freeCtr = s.freeCtr := rfl
@[simp] theorem clearRange_pending (p : Ptr) (n : Nat) : (s.clearRange p n).pending = s.pending := rfl
@[simp] theorem clearRange_reg (p : Ptr) (n : Nat) (k' : Nat) : (s.clearRange p n).reg k' = s.reg k' := rfl
@[simp] theorem clearRange_effReg (p : Ptr) (n : Nat) (k' : Nat) : (s.clearRange p n).effReg k' = s.effReg k' := rfl

@[simp] theorem loseChannel_regs (c : Nat) : (s.loseChannel c).regs = s.regs := rfl
@[simp] theorem loseChannel_eff (c : Nat) : (s.loseChannel c).eff = s.eff := rfl
@[simp] theorem loseChannel_acc (c : Nat) : (s.loseChannel c).acc = s.acc := rfl
@[simp] theorem loseChannel_tsu (c : Nat) : (s.loseChannel c).tsu = s.tsu := rfl
@[simp] theorem loseChannel_ledger (c : Nat) : (s.loseChannel c).ledger = s.ledger := rfl
@[simp] theorem loseChannel_stalls (c : Nat) : (s.loseChannel c).stalls = s.stalls := rfl
@[simp] theorem loseChannel_clusters (c : Nat) : (s.loseChannel c).clusters = s.clusters := rfl
@[simp] theorem loseChannel_engines (c : Nat) : (s.loseChannel c).engines = s.engines := rfl
@[simp] theorem loseChannel_fabric (c : Nat) : (s.loseChannel c).fabric = s.fabric := rfl
@[simp] theorem loseChannel_pools (c : Nat) : (s.loseChannel c).pools = s.pools := rfl
@[simp] theorem loseChannel_streams (c : Nat) : (s.loseChannel c).streams = s.streams := rfl
@[simp] theorem loseChannel_intake (c : Nat) : (s.loseChannel c).intake = s.intake := rfl
@[simp] theorem loseChannel_vds (c : Nat) : (s.loseChannel c).vds = s.vds := rfl
@[simp] theorem loseChannel_pps (c : Nat) : (s.loseChannel c).pps = s.pps := rfl
@[simp] theorem loseChannel_ves (c : Nat) : (s.loseChannel c).ves = s.ves := rfl
@[simp] theorem loseChannel_sessions (c : Nat) : (s.loseChannel c).sessions = s.sessions := rfl
@[simp] theorem loseChannel_sensors (c : Nat) : (s.loseChannel c).sensors = s.sensors := rfl
@[simp] theorem loseChannel_tau (c : Nat) : (s.loseChannel c).tau = s.tau := rfl
@[simp] theorem loseChannel_sheet (c : Nat) : (s.loseChannel c).sheet = s.sheet := rfl
@[simp] theorem loseChannel_ep (c : Nat) : (s.loseChannel c).ep = s.ep := rfl
@[simp] theorem loseChannel_icu (c : Nat) : (s.loseChannel c).icu = s.icu := rfl
@[simp] theorem loseChannel_eth (c : Nat) : (s.loseChannel c).eth = s.eth := rfl
@[simp] theorem loseChannel_power (c : Nat) : (s.loseChannel c).power = s.power := rfl
@[simp] theorem loseChannel_loader (c : Nat) : (s.loseChannel c).loader = s.loader := rfl
@[simp] theorem loseChannel_sec (c : Nat) : (s.loseChannel c).sec = s.sec := rfl
@[simp] theorem loseChannel_svc (c : Nat) : (s.loseChannel c).svc = s.svc := rfl
@[simp] theorem loseChannel_keeps (c : Nat) : (s.loseChannel c).keeps = s.keeps := rfl
@[simp] theorem loseChannel_i2cPtr (c : Nat) : (s.loseChannel c).i2cPtr = s.i2cPtr := rfl
@[simp] theorem loseChannel_egress (c : Nat) : (s.loseChannel c).egress = s.egress := rfl
@[simp] theorem loseChannel_freeCtr (c : Nat) : (s.loseChannel c).freeCtr = s.freeCtr := rfl
@[simp] theorem loseChannel_pending (c : Nat) : (s.loseChannel c).pending = s.pending := rfl
@[simp] theorem loseChannel_reg (c : Nat) (k' : Nat) : (s.loseChannel c).reg k' = s.reg k' := rfl
@[simp] theorem loseChannel_effReg (c : Nat) (k' : Nat) : (s.loseChannel c).effReg k' = s.effReg k' := rfl

@[simp] theorem clearAcc_regs (c : Nat) : (s.clearAcc c).regs = s.regs := rfl
@[simp] theorem clearAcc_eff (c : Nat) : (s.clearAcc c).eff = s.eff := rfl
@[simp] theorem clearAcc_mem (c : Nat) : (s.clearAcc c).mem = s.mem := rfl
@[simp] theorem clearAcc_upsets (c : Nat) : (s.clearAcc c).upsets = s.upsets := rfl
@[simp] theorem clearAcc_tsu (c : Nat) : (s.clearAcc c).tsu = s.tsu := rfl
@[simp] theorem clearAcc_ledger (c : Nat) : (s.clearAcc c).ledger = s.ledger := rfl
@[simp] theorem clearAcc_stalls (c : Nat) : (s.clearAcc c).stalls = s.stalls := rfl
@[simp] theorem clearAcc_clusters (c : Nat) : (s.clearAcc c).clusters = s.clusters := rfl
@[simp] theorem clearAcc_engines (c : Nat) : (s.clearAcc c).engines = s.engines := rfl
@[simp] theorem clearAcc_fabric (c : Nat) : (s.clearAcc c).fabric = s.fabric := rfl
@[simp] theorem clearAcc_pools (c : Nat) : (s.clearAcc c).pools = s.pools := rfl
@[simp] theorem clearAcc_streams (c : Nat) : (s.clearAcc c).streams = s.streams := rfl
@[simp] theorem clearAcc_intake (c : Nat) : (s.clearAcc c).intake = s.intake := rfl
@[simp] theorem clearAcc_vds (c : Nat) : (s.clearAcc c).vds = s.vds := rfl
@[simp] theorem clearAcc_pps (c : Nat) : (s.clearAcc c).pps = s.pps := rfl
@[simp] theorem clearAcc_ves (c : Nat) : (s.clearAcc c).ves = s.ves := rfl
@[simp] theorem clearAcc_sessions (c : Nat) : (s.clearAcc c).sessions = s.sessions := rfl
@[simp] theorem clearAcc_sensors (c : Nat) : (s.clearAcc c).sensors = s.sensors := rfl
@[simp] theorem clearAcc_tau (c : Nat) : (s.clearAcc c).tau = s.tau := rfl
@[simp] theorem clearAcc_sheet (c : Nat) : (s.clearAcc c).sheet = s.sheet := rfl
@[simp] theorem clearAcc_drams (c : Nat) : (s.clearAcc c).drams = s.drams := rfl
@[simp] theorem clearAcc_ep (c : Nat) : (s.clearAcc c).ep = s.ep := rfl
@[simp] theorem clearAcc_icu (c : Nat) : (s.clearAcc c).icu = s.icu := rfl
@[simp] theorem clearAcc_eth (c : Nat) : (s.clearAcc c).eth = s.eth := rfl
@[simp] theorem clearAcc_power (c : Nat) : (s.clearAcc c).power = s.power := rfl
@[simp] theorem clearAcc_loader (c : Nat) : (s.clearAcc c).loader = s.loader := rfl
@[simp] theorem clearAcc_sec (c : Nat) : (s.clearAcc c).sec = s.sec := rfl
@[simp] theorem clearAcc_svc (c : Nat) : (s.clearAcc c).svc = s.svc := rfl
@[simp] theorem clearAcc_keeps (c : Nat) : (s.clearAcc c).keeps = s.keeps := rfl
@[simp] theorem clearAcc_i2cPtr (c : Nat) : (s.clearAcc c).i2cPtr = s.i2cPtr := rfl
@[simp] theorem clearAcc_egress (c : Nat) : (s.clearAcc c).egress = s.egress := rfl
@[simp] theorem clearAcc_freeCtr (c : Nat) : (s.clearAcc c).freeCtr = s.freeCtr := rfl
@[simp] theorem clearAcc_pending (c : Nat) : (s.clearAcc c).pending = s.pending := rfl
@[simp] theorem clearAcc_reg (c : Nat) (k' : Nat) : (s.clearAcc c).reg k' = s.reg k' := rfl
@[simp] theorem clearAcc_effReg (c : Nat) (k' : Nat) : (s.clearAcc c).effReg k' = s.effReg k' := rfl

@[simp] theorem edge_regs (n : Nat) : (s.edge n).regs = s.regs := rfl
@[simp] theorem edge_eff (n : Nat) : (s.edge n).eff = s.eff := rfl
@[simp] theorem edge_mem (n : Nat) : (s.edge n).mem = s.mem := rfl
@[simp] theorem edge_upsets (n : Nat) : (s.edge n).upsets = s.upsets := rfl
@[simp] theorem edge_acc (n : Nat) : (s.edge n).acc = s.acc := rfl
@[simp] theorem edge_tsu (n : Nat) : (s.edge n).tsu = s.tsu := rfl
@[simp] theorem edge_ledger (n : Nat) : (s.edge n).ledger = s.ledger := rfl
@[simp] theorem edge_stalls (n : Nat) : (s.edge n).stalls = s.stalls := rfl
@[simp] theorem edge_clusters (n : Nat) : (s.edge n).clusters = s.clusters := rfl
@[simp] theorem edge_engines (n : Nat) : (s.edge n).engines = s.engines := rfl
@[simp] theorem edge_fabric (n : Nat) : (s.edge n).fabric = s.fabric := rfl
@[simp] theorem edge_pools (n : Nat) : (s.edge n).pools = s.pools := rfl
@[simp] theorem edge_streams (n : Nat) : (s.edge n).streams = s.streams := rfl
@[simp] theorem edge_intake (n : Nat) : (s.edge n).intake = s.intake := rfl
@[simp] theorem edge_vds (n : Nat) : (s.edge n).vds = s.vds := rfl
@[simp] theorem edge_pps (n : Nat) : (s.edge n).pps = s.pps := rfl
@[simp] theorem edge_ves (n : Nat) : (s.edge n).ves = s.ves := rfl
@[simp] theorem edge_sessions (n : Nat) : (s.edge n).sessions = s.sessions := rfl
@[simp] theorem edge_sensors (n : Nat) : (s.edge n).sensors = s.sensors := rfl
@[simp] theorem edge_tau (n : Nat) : (s.edge n).tau = s.tau := rfl
@[simp] theorem edge_sheet (n : Nat) : (s.edge n).sheet = s.sheet := rfl
@[simp] theorem edge_drams (n : Nat) : (s.edge n).drams = s.drams := rfl
@[simp] theorem edge_ep (n : Nat) : (s.edge n).ep = s.ep := rfl
@[simp] theorem edge_eth (n : Nat) : (s.edge n).eth = s.eth := rfl
@[simp] theorem edge_power (n : Nat) : (s.edge n).power = s.power := rfl
@[simp] theorem edge_loader (n : Nat) : (s.edge n).loader = s.loader := rfl
@[simp] theorem edge_sec (n : Nat) : (s.edge n).sec = s.sec := rfl
@[simp] theorem edge_svc (n : Nat) : (s.edge n).svc = s.svc := rfl
@[simp] theorem edge_keeps (n : Nat) : (s.edge n).keeps = s.keeps := rfl
@[simp] theorem edge_i2cPtr (n : Nat) : (s.edge n).i2cPtr = s.i2cPtr := rfl
@[simp] theorem edge_egress (n : Nat) : (s.edge n).egress = s.egress := rfl
@[simp] theorem edge_freeCtr (n : Nat) : (s.edge n).freeCtr = s.freeCtr := rfl
@[simp] theorem edge_pending (n : Nat) : (s.edge n).pending = s.pending := rfl
@[simp] theorem edge_reg (n : Nat) (k' : Nat) : (s.edge n).reg k' = s.reg k' := rfl
@[simp] theorem edge_effReg (n : Nat) (k' : Nat) : (s.edge n).effReg k' = s.effReg k' := rfl

@[simp] theorem settle_eff : (settle s).eff = s.eff := rfl
@[simp] theorem settle_mem : (settle s).mem = s.mem := rfl
@[simp] theorem settle_upsets : (settle s).upsets = s.upsets := rfl
@[simp] theorem settle_acc : (settle s).acc = s.acc := rfl
@[simp] theorem settle_tsu : (settle s).tsu = s.tsu := rfl
@[simp] theorem settle_ledger : (settle s).ledger = s.ledger := rfl
@[simp] theorem settle_stalls : (settle s).stalls = s.stalls := rfl
@[simp] theorem settle_clusters : (settle s).clusters = s.clusters := rfl
@[simp] theorem settle_engines : (settle s).engines = s.engines := rfl
@[simp] theorem settle_fabric : (settle s).fabric = s.fabric := rfl
@[simp] theorem settle_pools : (settle s).pools = s.pools := rfl
@[simp] theorem settle_streams : (settle s).streams = s.streams := rfl
@[simp] theorem settle_intake : (settle s).intake = s.intake := rfl
@[simp] theorem settle_vds : (settle s).vds = s.vds := rfl
@[simp] theorem settle_pps : (settle s).pps = s.pps := rfl
@[simp] theorem settle_ves : (settle s).ves = s.ves := rfl
@[simp] theorem settle_sessions : (settle s).sessions = s.sessions := rfl
@[simp] theorem settle_sensors : (settle s).sensors = s.sensors := rfl
@[simp] theorem settle_tau : (settle s).tau = s.tau := rfl
@[simp] theorem settle_sheet : (settle s).sheet = s.sheet := rfl
@[simp] theorem settle_drams : (settle s).drams = s.drams := rfl
@[simp] theorem settle_eth : (settle s).eth = s.eth := rfl
@[simp] theorem settle_power : (settle s).power = s.power := rfl
@[simp] theorem settle_loader : (settle s).loader = s.loader := rfl
@[simp] theorem settle_sec : (settle s).sec = s.sec := rfl
@[simp] theorem settle_svc : (settle s).svc = s.svc := rfl
@[simp] theorem settle_keeps : (settle s).keeps = s.keeps := rfl
@[simp] theorem settle_i2cPtr : (settle s).i2cPtr = s.i2cPtr := rfl
@[simp] theorem settle_freeCtr : (settle s).freeCtr = s.freeCtr := rfl
@[simp] theorem settle_pending : (settle s).pending = s.pending := rfl
@[simp] theorem settle_effReg (k' : Nat) : (settle s).effReg k' = s.effReg k' := rfl

end Sys2Proof.Laws
end

