-- ==== Sys2Proof/Laws/Ops.lean ====
section
/-!
SUPPORT. The shared operations: what a register reads after an update of the register map, what a unit's record is after an
update of its table, which writes a page admits, and what `settle` may change.
-/
namespace Sys2Proof.Laws
open Sys2Proof.Machine

variable (s : State)

/-- A register map read after a set. -/
theorem mapGetD_put (t : Tbl Word) (k k' : Nat) (v : Word) :
    mapGetD (mapPut regDefault k v t) k' (regReset k') = if k' = k then v else mapGetD t k' (regReset k') := by
  split
  · rename_i h
    subst h
    have h := mapGet_put_same regDefault k' v t
    unfold mapGetD
    cases hg : mapGet (mapPut regDefault k' v t) k' with
    | none => rw [hg] at h; simpa [regDefault] using h
    | some w => rw [hg] at h; simpa using h
  · rename_i h
    unfold mapGetD
    rw [mapGet_put_other _ h]

theorem reg_setReg (k k' : Nat) (v : Word) : (s.setReg k v).reg k' = if k' = k then v else s.reg k' :=
  mapGetD_put s.regs k k' v

@[simp] theorem reg_setReg_same (k : Nat) (v : Word) : (s.setReg k v).reg k = v := by simp [reg_setReg]

theorem reg_setReg_other {k k' : Nat} (h : k' ≠ k) (v : Word) : (s.setReg k v).reg k' = s.reg k' := by
  simp [reg_setReg, h]

theorem reg_count_other {k k' : Nat} (h : k' ≠ k) (n : Nat) : (s.count k n).reg k' = s.reg k' :=
  reg_setReg_other s h _

theorem reg_tally_other {k k' : Nat} (h : k' ≠ k) : (s.tally k).reg k' = s.reg k' := reg_setReg_other s h _

/-- A tally counts one event and saturates (R6). -/
@[simp] theorem reg_tally_same (k : Nat) :
    (s.tally k).reg k = BitVec.ofNat 32 (min ((s.reg k).toNat + 1) 0xFFFFFFFF) := by
  simp [State.tally, State.count, State.regN]

theorem reg_event_other {p k : Nat} (h : k ≠ Reg.EVT_RAW p) (m : Word) : (s.event p m).reg k = s.reg k :=
  reg_setReg_other s h _

@[simp] theorem reg_event_same (p : Nat) (m : Word) :
    (s.event p m).reg (Reg.EVT_RAW p) = s.reg (Reg.EVT_RAW p) ||| m := by
  simp [State.event]

theorem reg_drop_other {p k : Nat} (h : k ≠ Reg.DROP_TALLY p) : (s.drop p).reg k = s.reg k := reg_tally_other s h

theorem reg_setField_other {k k' : Nat} (h : k' ≠ k) (hi lo v : Nat) : (s.setField k hi lo v).reg k' = s.reg k' :=
  reg_setReg_other s h _

@[simp] theorem reg_setField_same (k hi lo v : Nat) :
    (s.setField k hi lo v).reg k = mergeBits (s.reg k) (fieldMask hi lo) (BitVec.ofNat 32 (v * 2 ^ lo)) := by
  simp [State.setField]

@[simp] theorem stall_setStall_same (n : Nat) (v : Stall) : (s.setStall n v).stall n = v := mapGetD_tblSet_same _ _ _ _
@[simp] theorem cluster_setCluster_same (n : Nat) (v : Cluster) : (s.setCluster n v).cluster n = v :=
  mapGetD_tblSet_same _ _ _ _
@[simp] theorem engine_setEngine_same (n : Nat) (v : Engine) : (s.setEngine n v).engine n = v := mapGetD_tblSet_same _ _ _ _
@[simp] theorem pool_setPool_same (n : Nat) (v : Pool) : (s.setPool n v).pool n = v := mapGetD_tblSet_same _ _ _ _
@[simp] theorem stream_setStream_same (n : Nat) (v : Stream) : (s.setStream n v).stream n = v := mapGetD_tblSet_same _ _ _ _
@[simp] theorem vd_setVd_same (n : Nat) (v : Vd) : (s.setVd n v).vd n = v := mapGetD_tblSet_same _ _ _ _
@[simp] theorem pp_setPp_same (n : Nat) (v : Pp) : (s.setPp n v).pp n = v := mapGetD_tblSet_same _ _ _ _
@[simp] theorem ve_setVe_same (n : Nat) (v : Ve) : (s.setVe n v).ve n = v := mapGetD_tblSet_same _ _ _ _
@[simp] theorem session_setSession_same (n : Nat) (v : Session) : (s.setSession n v).session n = v :=
  mapGetD_tblSet_same _ _ _ _
@[simp] theorem sensor_setSensor_same (n : Nat) (v : Sensor) : (s.setSensor n v).sensor n = v := mapGetD_tblSet_same _ _ _ _
@[simp] theorem dram_setDram_same (n : Nat) (v : Dram) : (s.setDram n v).dram n = v := mapGetD_tblSet_same _ _ _ _

theorem stall_setStall_other {n n' : Nat} (h : n' ≠ n) (v : Stall) : (s.setStall n v).stall n' = s.stall n' :=
  mapGetD_tblSet_other _ h _ _
theorem cluster_setCluster_other {n n' : Nat} (h : n' ≠ n) (v : Cluster) : (s.setCluster n v).cluster n' = s.cluster n' :=
  mapGetD_tblSet_other _ h _ _
theorem engine_setEngine_other {n n' : Nat} (h : n' ≠ n) (v : Engine) : (s.setEngine n v).engine n' = s.engine n' :=
  mapGetD_tblSet_other _ h _ _
theorem pool_setPool_other {n n' : Nat} (h : n' ≠ n) (v : Pool) : (s.setPool n v).pool n' = s.pool n' :=
  mapGetD_tblSet_other _ h _ _
theorem stream_setStream_other {n n' : Nat} (h : n' ≠ n) (v : Stream) : (s.setStream n v).stream n' = s.stream n' :=
  mapGetD_tblSet_other _ h _ _
theorem session_setSession_other {n n' : Nat} (h : n' ≠ n) (v : Session) : (s.setSession n v).session n' = s.session n' :=
  mapGetD_tblSet_other _ h _ _
theorem dram_setDram_other {n n' : Nat} (h : n' ≠ n) (v : Dram) : (s.setDram n v).dram n' = s.dram n' :=
  mapGetD_tblSet_other _ h _ _

/-- A write that the page admits has its effect. -/
theorem gate_admits {m : Master} {p : Nat} (h : s.admits m p = true) (f : State → State) : s.gate m p f = f s := by
  unfold State.admits at h
  simp only [Bool.and_eq_true, Bool.or_eq_true, decide_eq_true_eq, beq_iff_eq, ne_eq] at h
  obtain ⟨⟨h1, h2⟩, h3⟩ := h
  unfold State.gate
  have hn : (if m = .host then s.hostBlocked p else none) = none := by
    split
    · rename_i hm
      rcases h1 with h1 | h1
      · exact absurd hm h1
      · simpa using h1
    · rfl
  rw [hn]
  cases hp : pageDesc p with
  | none => simp [hp] at h2
  | some d => simp [h3]

/-- A write by a master other than the page's owner is dropped and counted (R4, R410). -/
theorem gate_not_owner {m : Master} {p : Nat} (hm : m ≠ .host) (hp : (pageDesc p).isSome = true)
    (ho : s.owner p ≠ masterCode m) (f : State → State) : s.gate m p f = s.drop p := by
  unfold State.gate
  simp only [hm, if_false]
  cases hd : pageDesc p with
  | none => simp [hd] at hp
  | some d => simp [ho]

theorem mapGetD_bump_other {k k' : Nat} (h : k' ≠ k) (c : Bool) (t : Tbl Word) :
    mapGetD (bump c k t) k' (regReset k') = mapGetD t k' (regReset k') := by
  unfold bump
  split
  · rw [mapGetD_put, if_neg h]
  · rfl

/-- `settle` changes no registers but the ICU's two BYPASS tallies and the endpoint's PME_SENT. -/
theorem reg_settle_other {k : Nat} (h0 : k ≠ Reg.ICU_BYPASS 0) (h1 : k ≠ Reg.ICU_BYPASS 1)
    (h2 : k ≠ Reg.ENDPOINT_PME_SENT) : (settle s).reg k = s.reg k := by
  show mapGetD (settle s).regs k (regReset k) = _
  simp only [settle]
  rw [mapGetD_bump_other h0, mapGetD_bump_other h1, mapGetD_bump_other h2]
  rfl

@[simp] theorem settle_edges : (settle s).icu.edges = s.icu.edges := rfl
@[simp] theorem settle_pulse0 : (settle s).icu.pulse0 = s.icu.pulse0 := rfl
@[simp] theorem settle_host_active : (settle s).icu.host.active = s.icu.host.active := rfl
@[simp] theorem settle_host_running : (settle s).icu.host.running = s.icu.host.running := rfl
@[simp] theorem settle_host_idle : (settle s).icu.host.idle = s.icu.host.idle := rfl
@[simp] theorem settle_mgc_active : (settle s).icu.mgc.active = s.icu.mgc.active := rfl
@[simp] theorem settle_mgc_running : (settle s).icu.mgc.running = s.icu.mgc.running := rfl

theorem done_next (s : State) : done s = .next (settle s) := rfl

/-- Writing one byte: it reads back, and every other byte reads as before. -/
theorem byte_putByte (k k' : Nat) (b : Byte) : (s.putByte k b).byte k' = if k' = k then b else s.byte k' := by
  have he : (s.putByte k b).epoch = s.epoch := rfl
  unfold State.byte
  rw [he]
  by_cases hk : k' = k
  · subst hk
    have h := mapGet_put_same memDefault k' b s.mem
    simp only [State.putByte, if_true]
    cases hg : mapGet (mapPut memDefault k' b s.mem) k' with
    | none =>
      rw [hg] at h
      simp only [memDefault, Option.none_or] at h
      split at h
      · cases h
      · rename_i hd; simp_all
    | some w => rw [hg] at h; simpa using h
  · simp only [State.putByte, if_neg hk, mapGet_put_other _ hk]

/-- Bytes put at addresses keep the memory list's canonical form. -/
theorem pokeList_wf (f : Ptr → Option Nat) (p : Ptr) (d : List Byte) (m : Tbl Byte) (h : mapWf memDefault m = true) :
    mapWf memDefault (pokeList f p d m) = true := by
  induction d generalizing p m with
  | nil => exact h
  | cons b r ih =>
    simp only [pokeList]
    apply ih
    split
    · exact mapWf_put _ _ _ h
    · exact h

end Sys2Proof.Laws
end

