-- ==== Sys2Proof/Laws/Access.lean ====
section
/-!
SUPPORT. Reads and writes of stores: what they do at rest, and how a refused one answers.
-/
namespace Sys2Proof.Laws
open Sys2Proof.Machine

variable {s : State}

theorem foldl_id {α β : Type} (f : α → β → α) (h : ∀ a b, f a b = a) (l : List β) (a : α) : l.foldl f a = a := by
  induction l with
  | nil => rfl
  | cons x r ih => rw [List.foldl_cons, h, ih]

/-- Nothing is held at rest (R280, R301). -/
theorem holdRequests_atRest (h : s.AtRest) (p : Ptr) (n : Nat) : s.holdRequests p n = s := by
  unfold State.holdRequests
  split
  · exact foldl_id _ (fun a q => by split <;> simp [h.2.2]) _ _
  · have hc : s.storeClearing p.store = false := by
      unfold State.storeClearing
      split <;> simp [h.2.1]
    simp [hc]

/-- Without latent errors a read meets none (R279, R302). -/
theorem meetErrors_of_nil (h : s.upsets = []) (st : Store) (ks : List Nat) : s.meetErrors st ks = (s, 0) := by
  unfold State.meetErrors
  induction ks with
  | nil => rfl
  | cons k r ih => rw [List.foldl_cons]; simpa [h, mapGet] using ih

theorem meetsBad_of_nil (h : s.upsets = []) (p : Ptr) (n : Nat) : s.meetsBad p n = false := by
  simp [State.meetsBad, h, mapGet]

/-- A read at rest that nothing refuses answers the bytes and changes nothing. -/
theorem read_atRest (h : s.AtRest) {p : Ptr} {n : Nat} (hr : s.refusesAccess p n = none) : s.read p n = ⟨s, 0, s.peeks p n⟩ := by
  simp [State.read, hr, holdRequests_atRest h, meetErrors_of_nil h.1]

/-- A refused read counts what `refusesAccess` says, and answers no bytes (R275, R280, R294, R304). -/
theorem read_refused {p : Ptr} {n : Nat} {t : State} (hr : s.refusesAccess p n = some t) : s.read p n = ⟨t, 1, []⟩ := by
  simp [State.read, hr]

/-- The words of a record at rest. -/
theorem wordsAt_of_nil (h : s.upsets = []) {p : Ptr} {n : Nat} (hr : s.refusesAccess p (4 * n) = none) :
    s.wordsAt p n = some (s.words p n) := by
  simp [State.wordsAt, hr, meetsBad_of_nil h]

/-- A read of the action area at rest that nothing refuses changes nothing. -/
theorem actionRead_atRest (h : s.AtRest) {off n : Nat} (hr : s.refusesAccess (s.actionPtr off) (4 * n) = none) :
    s.actionRead off n = s := by
  simp [State.actionRead, read_atRest h hr]

/-- A write at rest that nothing refuses stores its bytes and changes nothing else. -/
theorem write_atRest (h : s.AtRest) {p : Ptr} {d : List Byte} (hd : d ≠ []) (hr : s.refusesAccess p d.length = none) :
    s.write p d = ⟨s.pokes p d, 0, []⟩ := by
  have e (f : Nat × Upset → Bool) : ({ s.pokes p d with upsets := (s.pokes p d).upsets.filter f } : State) = s.pokes p d := by
    rw [show (s.pokes p d).upsets.filter f = (s.pokes p d).upsets by simp [h.1]]
  simp only [State.write, hd, if_false, hr, holdRequests_atRest h, meetErrors_of_nil h.1, e]
  simp

/-- A refused write counts what `refusesAccess` says, and stores nothing. -/
theorem write_refused {p : Ptr} {d : List Byte} {t : State} (hd : d ≠ []) (hr : s.refusesAccess p d.length = some t) :
    s.write p d = ⟨t, 1, []⟩ := by
  simp [State.write, hd, hr]

end Sys2Proof.Laws
end

