-- ==== Sys2Proof/Laws/Memory.lean ====
section
/-!
SUPPORT. Every operation on the bytes of the stores keeps the memory list's canonical form: writing, clearing, losing a channel,
and the reads that meet a latent error and freeze a channel.
-/
namespace Sys2Proof.Laws
open Sys2Proof.Machine

theorem mapSorted_filter {α : Type} (f : Nat × α → Bool) {t : Tbl α} (h : mapSorted t = true) : mapSorted (t.filter f) = true := by
  induction t with
  | nil => rfl
  | cons p r ih =>
    obtain ⟨k, v⟩ := p
    have hk := mapSorted_cons.mp h
    rw [List.filter_cons]
    split
    · exact mapSorted_cons.mpr ⟨fun q hq => hk.1 q (List.mem_filter.mp hq).1, ih hk.2⟩
    · exact ih hk.2

/-- Leaving entries out keeps the canonical form. -/
theorem mapWf_filter {α : Type} [DecidableEq α] (d : Nat → Option α) (f : Nat × α → Bool) {t : Tbl α} (h : mapWf d t = true) :
    mapWf d (t.filter f) = true := by
  simp only [mapWf, Bool.and_eq_true, mapSparse, List.all_eq_true] at h ⊢
  exact ⟨mapSorted_filter f h.1, fun p hp => h.2 p (List.mem_filter.mp hp).1⟩

/-- What a fold keeps when each of its steps keeps it. -/
theorem foldl_keeps {β σ : Type} {P : σ → Prop} {f : σ → β → σ} (hf : ∀ a x, P a → P (f a x)) (l : List β) {a : σ} (h : P a) :
    P (l.foldl f a) := by
  induction l generalizing a with
  | nil => exact h
  | cons x r ih => exact ih (hf a x h)

variable {s : State}

theorem putByte_wf (k : Nat) (b : Byte) (h : Memory.wf s.mem) : Memory.wf (s.putByte k b).mem := mapWf_put _ _ _ h

theorem pokes_wf (p : Ptr) (d : List Byte) (h : Memory.wf s.mem) : Memory.wf (s.pokes p d).mem := pokeList_wf _ _ _ _ h

theorem clearRange_wf (p : Ptr) (n : Nat) (h : Memory.wf s.mem) : Memory.wf (s.clearRange p n).mem := mapWf_filter _ _ h

theorem loseChannel_wf (c : Nat) (h : Memory.wf s.mem) : Memory.wf (s.loseChannel c).mem := mapWf_filter _ _ h

theorem loadWords_mem (k : Nat) (d : List Byte) : (s.loadWords k d).mem = s.mem :=
  foldl_keeps (P := fun a : State => a.mem = s.mem) (f := fun (a : State) i => a.setReg (k + 4 * i) (bytesWord d (4 * i)))
    (fun _ _ ha => ha) (List.range (d.length / 4)) rfl

theorem captureBurst_mem (c : Nat) (syn burst : List Byte) : (s.captureBurst c syn burst).mem = s.mem :=
  (loadWords_mem _ _).trans (loadWords_mem _ _)

theorem abandonWork_mem (e : Nat) : (s.abandonWork e).mem = s.mem := by
  unfold State.abandonWork
  dsimp only
  split <;> rfl

theorem teardownJob_wf (st j : Nat) (h : Memory.wf s.mem) : Memory.wf (s.teardownJob st j).mem := by
  unfold State.teardownJob
  extract_lets runs s1 s2 s3
  have h1 : Memory.wf s1.mem := by
    refine foldl_keeps (P := fun a : State => Memory.wf a.mem) (fun a c ha => ?_) _ h
    dsimp only
    split
    · exact foldl_keeps (P := fun b : State => Memory.wf b.mem) (fun b e hb => by rw [abandonWork_mem]; exact hb) _ ha
    · exact ha
  have h2 : Memory.wf s2.mem :=
    foldl_keeps (P := fun a : State => Memory.wf a.mem) (fun a r ha => clearRange_wf _ _ ha) _ h1
  split
  · exact h2
  · exact h2

theorem teardownStall_wf (st : Nat) (h : Memory.wf s.mem) : Memory.wf (s.teardownStall st).mem := by
  have h1 := foldl_keeps (P := fun a : State => Memory.wf a.mem) (f := fun a j => a.teardownJob st j)
    (fun _ j ha => teardownJob_wf st j ha) (List.range 32) h
  generalize hl : List.range 32 = l at h1
  unfold State.teardownStall
  rw [hl]
  exact h1

theorem jobFault_wf (st cause : Nat) (h : Memory.wf s.mem) : Memory.wf (s.jobFault st cause).mem := by
  unfold State.jobFault
  split
  · exact h
  · rename_i x _
    dsimp only
    split <;> exact teardownJob_wf st x.job h

theorem freeze_wf (c cause : Nat) (o : Option Nat) (h : Memory.wf s.mem) : Memory.wf (s.freeze c cause o).mem := by
  unfold State.freeze
  split
  · exact h
  · dsimp only
    generalize List.range 8 = l
    refine foldl_keeps (P := fun a : State => Memory.wf a.mem) ?_ _ ?_
    · intro a st ha
      split
      · rw [setReg_mem]
        exact teardownStall_wf st ha
      · exact ha
    · rw [setDram_mem]
      refine foldl_keeps (P := fun a : State => Memory.wf a.mem) ?_ _ ?_
      · intro a q ha
        exact ha
      rw [event_mem, tally_mem]
      split
      · exact loseChannel_wf c h
      · rw [captureBurst_mem]
        exact loseChannel_wf c h

theorem storeTally_mem (st : Store) (off : Nat) : (s.storeTally st off).mem = s.mem := by
  unfold State.storeTally
  split <;> rfl

theorem storeError_mem (st : Store) (k : Nat) (ue : Bool) : (s.storeError st k ue).mem = s.mem := by
  unfold State.storeError
  split
  · rfl
  · dsimp only
    split <;> rfl

theorem dramCe_mem (k : Nat) : (s.dramCe k).mem = s.mem := rfl

theorem meetErrors_wf (st : Store) (ks : List Nat) (h : Memory.wf s.mem) : Memory.wf (s.meetErrors st ks).1.mem := by
  refine foldl_keeps (P := fun a : State × Nat => Memory.wf a.1.mem) (fun a k ha => ?_) ks (a := (s, 0)) h
  split
  · exact ha
  · split
    · split
      · exact freeze_wf (k / 2 ^ 34) 1 (some (k % 2 ^ 34)) ha
      · show Memory.wf (a.1.dramCe k).mem
        rw [dramCe_mem]; exact ha
    · show Memory.wf (a.1.storeError st k _).mem
      rw [storeError_mem]; exact ha

theorem refusesAccess_mem {p : Ptr} {n : Nat} {t : State} (h : s.refusesAccess p n = some t) : t.mem = s.mem := by
  unfold State.refusesAccess at h
  repeat' first
    | (cases h; done)
    | (cases h; first | rfl | exact storeTally_mem _ _ | (unfold State.countDown; split <;> rfl))
    | split at h

/-- Holding the requests of an access counts them, and no more (R280, R301). -/
theorem holdRequests_mem (p : Ptr) (n : Nat) : (s.holdRequests p n).mem = s.mem := by
  unfold State.holdRequests
  split
  · refine foldl_keeps (P := fun a : State => a.mem = s.mem) (fun a q ha => ?_) _ rfl
    split
    · split
      · exact ha
      · exact ha
    · exact ha
  · split
    · refine foldl_keeps (P := fun a : State => a.mem = s.mem) (fun a q ha => ?_) _ rfl
      rw [storeTally_mem]; exact ha
    · rfl

/-- A read keeps the canonical form, whatever errors it meets. -/
theorem read_wf (p : Ptr) (n : Nat) (h : Memory.wf s.mem) : Memory.wf (s.read p n).st.mem := by
  unfold State.read
  split
  · rename_i t ht
    show Memory.wf t.mem
    rw [refusesAccess_mem ht]
    exact h
  · exact meetErrors_wf _ _ (by rw [holdRequests_mem]; exact h)

/-- A write keeps the canonical form, whatever errors it meets. -/
theorem write_wf (p : Ptr) (d : List Byte) (h : Memory.wf s.mem) : Memory.wf (s.write p d).st.mem := by
  unfold State.write
  split
  · exact h
  · split
    · rename_i t ht
      show Memory.wf t.mem
      rw [refusesAccess_mem ht]
      exact h
    · dsimp only
      split
      · exact meetErrors_wf _ _ (by rw [holdRequests_mem]; exact h)
      · exact pokes_wf _ _ (meetErrors_wf _ _ (by rw [holdRequests_mem]; exact h))

/-- The memory after reset has the canonical form. -/
theorem reset_wf : Memory.wf State.reset.mem := rfl

end Sys2Proof.Laws
end

