-- ==== Sys2Proof/Laws/Outcomes.lean ====
section
/-!
SUPPORT. What a command can answer: a settled state, or the refusal of a debug page's layout. No command faults.
-/
namespace Sys2Proof.Laws
open Sys2Proof.Machine

/-- A meaning that always answers a settled state. -/
def Settles (f : State → Out) : Prop := ∀ s, ∃ u, f s = done u

/-- What holds of every meaning that an optional one can be. -/
theorem ite_some_all {P : (State → Out) → Prop} {c : Prop} [Decidable c] {x : State → Out} {y : Option (State → Out)}
    (hx : P x) (hy : ∀ f, y = some f → P f) : ∀ f, (if c then some x else y) = some f → P f := by
  intro f h
  split at h
  · cases h; exact hx
  · exact hy f h

theorem none_all {P : (State → Out) → Prop} : ∀ f, (none : Option (State → Out)) = some f → P f := by
  intro f h; cases h

theorem secCommand_settles (m : Master) (v : Word) : Settles (secCommand m v) := by
  intro s
  unfold secCommand
  dsimp only
  split <;> exact ⟨_, rfl⟩

theorem headerWrite_settles (m : Master) (page : BitVec 12) (o : Nat) (v hw : Word) :
    ∀ f, headerWrite m page o v hw = some f → Settles f := by
  unfold headerWrite
  repeat' first
    | exact none_all
    | refine ite_some_all (fun s => ⟨_, rfl⟩) ?_

theorem chipWrite_settles (m : Master) (p o : Nat) (v : Word) : ∀ f, chipWrite m p o v = some f → Settles f := by
  unfold chipWrite
  repeat' first
    | exact none_all
    | refine ite_some_all (secCommand_settles m v) ?_
    | refine ite_some_all (fun s => ⟨_, rfl⟩) ?_

theorem mediaWrite_settles (m : Master) (p o : Nat) (v : Word) : ∀ f, mediaWrite m p o v = some f → Settles f := by
  unfold mediaWrite
  repeat' first
    | exact none_all
    | refine ite_some_all (fun s => ⟨_, rfl⟩) ?_

theorem uncoreWrite_settles (m : Master) (p o : Nat) (v : Word) : ∀ f, uncoreWrite m p o v = some f → Settles f := by
  unfold uncoreWrite
  repeat' first
    | exact none_all
    | refine ite_some_all (fun s => ⟨_, rfl⟩) ?_

/-- A register write without a collision answers a settled state. -/
theorem regWrite_settles (m : Master) (page : BitVec 12) (o : Nat) (v hw : Word) (s : State) :
    ∃ u, s.regWrite m page o v hw = done u := by
  unfold State.regWrite
  split
  · rename_i f h
    unfold ownWrite at h
    dsimp only at h
    split at h
    · exact headerWrite_settles m page o v hw f h s
    · split at h
      · exact chipWrite_settles m _ o v f h s
      · split at h
        · exact mediaWrite_settles m _ o v f h s
        · exact uncoreWrite_settles m _ o v f h s
  · exact ⟨_, rfl⟩

/-- Every command answers a settled state, but for an owner's write into the layout of a debug page (R415). -/
theorem exec_settles (c : Instr) (s : State) : (∃ u, exec c s = done u) ∨ exec c s = .refused .debugLayout := by
  cases c
  case registerWrite m page off v col =>
    show (∃ u, execRegisterWrite m page off v col s = done u) ∨ execRegisterWrite m page off v col s = _
    unfold execRegisterWrite
    dsimp only
    split
    · exact .inr rfl
    · split
      · exact .inl (regWrite_settles _ _ _ _ _ _)
      · exact .inl (regWrite_settles _ _ _ _ _ _)
  all_goals exact .inl ⟨_, rfl⟩

end Sys2Proof.Laws
end

