-- ==== Sys2Proof/WellFormed.lean ====
section
/-!
DEFINITION. The commands that the outside can send: what an operand's type does not already say of it. A command outside
this still has a meaning (`exec` is total); the statements about all commands do not need it.
-/
namespace Sys2Proof

/-- A header names at most the pictures that its decoded picture buffer holds (R189). -/
def wfHeader (h : AuHeader) : Bool := decide (h.refs.length ≤ h.dpb.toNat)

/-- A transfer moves bytes, and one side at least is a store of the device (R42). -/
def wfTransfer (x : Transfer) : Bool :=
  decide (0 < x.len) && (x.src.isSome || x.dst.isSome) &&
  x.regWrites.all (fun w => decide (w.2.1.toNat % 4 = 0))

/-- A lane has one sweep for each subchannel and rank (R300). -/
def wfLanes (lanes : List LaneSweep) : Bool := decide (lanes.map (fun x => (x.lane, x.sub, x.rank))).Nodup

/-- The lanes of a run whose sweeps ran. -/
def wfTrainEnd : TrainEnd → Bool
  | .swept lanes => wfLanes lanes
  | .timedOut _ _ _ _ => true

/-- A fabric request moves 1 to 256 bytes, and a write carries as many (R9). -/
def wfFabReq (r : FabReq) : Bool :=
  decide (1 ≤ r.bytes) && decide (r.bytes ≤ 256) &&
  (match r.write with
   | some d => decide (d.length = r.bytes)
   | none => true)

/-- A soft error of DRAM names symbols, one of an on-chip word none (R279, R302). -/
def wfSoft (e : SoftError) : Bool :=
  match e.kind with
  | .symbols _ => decide (e.place.store = .dram)
  | _ => decide (e.place.store ≠ .dram)

/-- A scratchpad write comes from one of the write ports and carries a row of the bank (R276). -/
def wfSpadReq (r : SpadReq) : Bool :=
  match r.write with
  | some d => decide (r.port.val < 16) && decide (d.length = 128)
  | none => true

/-- A write stays within its burst of 64 bytes (R296). -/
def wfDramReq (r : DramReq) : Bool :=
  decide (r.offset.toNat % 64 = 0) &&
  (match r.write with
   | some (o, d) => decide (1 ≤ d.length) && decide (o.toNat + d.length ≤ 64)
   | none => true)

/-- The DRAM regulators of a stall stand before a channel each, the others before none (R46). -/
def wfChannel : Regulator → Option (Fin 8) → Bool
  | .stallDram _, c => c.isSome
  | .stallFabric _, c => c.isNone
  | .media, _ => true
  | .hostDma, _ => true
  | .tau, _ => true
  | .mgc, _ => true

/-- A field of one bit is written with one bit, the two sizes with three (R310). -/
def wfConfig : CfgField → BitVec 4 → Bool
  | .completionTimeout, _ => true
  | .maxPayload, v => decide (v.toNat ≤ 7)
  | .maxReadRequest, v => decide (v.toNat ≤ 7)
  | .bar _ _ _, _ => true
  | _, v => decide (v.toNat ≤ 1)

/-- Each requester of the buffer pool manager holds at most one request (R285). -/
def wfPending (q : Fin 32) (others : List BpmReq) : Bool := decide (q :: others.map BpmReq.q).Nodup

/-- The command is well formed. -/
def Instr.wf : Instr → Bool
  | .tickEvent _ => true
  | .boundarySequence _ ageing => decide (ageing.length = 32)
  | .switchReq _ _ => true
  | .halt _ _ => true
  | .programSlotStart _ => true
  | .programSlotEnd _ => true
  | .loadEntryStart _ => true
  | .loadEntryEnd _ => true
  | .stallMaintEntry _ => true
  | .mtTestDone _ _ _ => true
  | .decodeEntry _ => true
  | .decodeFrame _ h => wfHeader h
  | .decodeFrameDone _ _ => true
  | .decodeBudgetExpiry _ => true
  | .preprocEntry _ => true
  | .ppSlot _ => true
  | .ppSlotDone _ => true
  | .ppBudgetExpiry _ => true
  | .encodeEntry _ => true
  | .encodePicture _ => true
  | .encodePictureDone _ _ _ _ => true
  | .encAbandon _ _ _ => true
  | .assocEntry _ _ => true
  | .assocCut => true
  | .cutoff _ => true
  | .indexReadDone ix => decide (ix.length = 256)
  | .intakeDmaEntry _ => true
  | .intakeReadDone data => decide (data.map Prod.fst).Nodup
  | .demultiplexerEntry _ data parse lists =>
    decide (data.map Prod.fst).Nodup && decide (parse.map Prod.fst).Nodup && decide (lists.map Prod.fst).Nodup
  | .sheetEntry _ _ => true
  | .evidenceDelivery _ => true
  | .csiCutoff _ => true
  | .stagingDmaEntry _ x => wfTransfer x
  | .stagingDmaDone _ => true
  | .dcMaintEntry _ => true
  | .dcMaintEnd _ lanes => wfLanes lanes
  | .recentreLate _ => true
  | .nop _ pc => decide (pc.toNat % 64 = 0)
  | .matmul _ pc => decide (pc.toNat % 64 = 0)
  | .expand _ pc => decide (pc.toNat % 64 = 0)
  | .s2d _ pc => decide (pc.toNat % 64 = 0)
  | .pool _ pc => decide (pc.toNat % 64 = 0)
  | .ldlen _ pc => decide (pc.toNat % 64 = 0)
  | .move _ pc => decide (pc.toNat % 64 = 0)
  | .cvt _ pc _ => decide (pc.toNat % 64 = 0)
  | .ew _ pc _ => decide (pc.toNat % 64 = 0)
  | .red _ pc _ => decide (pc.toNat % 64 = 0)
  | .softmax _ pc _ => decide (pc.toNat % 64 = 0)
  | .qscale _ pc _ => decide (pc.toNat % 64 = 0)
  | .quant _ pc _ => decide (pc.toNat % 64 = 0)
  | .wht _ pc _ => decide (pc.toNat % 64 = 0)
  | .select _ pc _ => decide (pc.toNat % 64 = 0)
  | .kpred _ pc _ => decide (pc.toNat % 64 = 0)
  | .cbload _ pc _ => decide (pc.toNat % 64 = 0)
  | .passIssue _ _ => true
  | .blockDrain _ _ _ => true
  | .clampWindowStart _ => true
  | .thermalSample temps _ => decide (temps.length = 16)
  | .fabricGrant _ new => decide (new.map FabReq.initiator).Nodup && new.all wfFabReq
  | .regulatorAdmit r chan _ _ _ => wfChannel r chan
  | .scratchpadGrant _ _ new => decide (new.map SpadReq.port).Nodup && new.all wfSpadReq
  | .dramBatch _ _ new _ soft => new.all wfDramReq && soft.all wfSoft
  | .refab _ _ _ => true
  | .alertN _ => true
  | .bpmAlloc q _ _ others => wfPending q others
  | .bpmAddOwner q _ _ others => wfPending q others
  | .bpmRelease q _ _ others => wfPending q others
  | .bpmCheck q _ others => wfPending q others
  | .csiFs _ _ _ _ => true
  | .csiLongPacket _ _ _ _ _ _ => true
  | .csiFe _ _ _ _ => true
  | .csiLinkChange _ _ => true
  | .ethFrameRx _ _ => true
  | .forwardTx _ _ _ => true
  | .ethLinkChange _ _ _ => true
  | .ptpEventTx _ _ _ _ _ => true
  | .txStampRead _ _ => true
  | .flowSel _ _ => true
  | .flowCommit _ _ => true
  | .newsrcPop _ => true
  | .load _ _ => true
  | .discard _ _ => true
  | .loadPhaseEnd => true
  | .bar2Read _ n _ => decide (1 ≤ n.toNat) && decide (n.toNat ≤ 4096)
  | .bar2Write _ data _ => decide (1 ≤ data.length) && decide (data.length ≤ 4096)
  | .bar0Bad _ => true
  | .registerWrite _ _ offset _ _ => decide (offset.toNat % 4 = 0)
  | .ownerWrite _ _ _ => true
  | .lockWrite _ _ _ => true
  | .evtRawClear _ _ _ _ => true
  | .evtSet _ _ _ => true
  | .tallyClr _ _ _ same => same.all (fun o => decide (o.toNat % 4 = 0))
  | .interruptDisable _ => true
  | .d3hotEntry => true
  | .d0Return => true
  | .inboundUr _ => true
  | .hostCompletion _ _ _ => true
  | .completionTimeout _ _ => true
  | .linkDown => true
  | .containRelease _ _ => true
  | .readLimit _ _ => true
  | .l1Entry _ => true
  | .l1Exit _ _ => true
  | .flr => true
  | .hotReset => true
  | .perstAssert => true
  | .perstDeassert => true
  | .powerOnReset _ => true
  | .supplyOutOfRange => true
  | .pllLock => true
  | .claim _ _ => true
  | .complete _ _ _ => true
  | .hostIdle _ _ => true
  | .holdoffExpiry _ _ => true
  | .edgeLatch _ => true
  | .timeNsRead _ => true
  | .setNs _ _ => true
  | .phaseNs _ _ => true
  | .offsetWrite _ _ _ => true
  | .gmChange _ _ _ => true
  | .domainCfg _ _ _ => true
  | .domainStateWrite _ _ _ => true
  | .sel _ _ => true
  | .handoverEnd => true
  | .pwrReq _ _ _ => true
  | .domainTransitionDone _ => true
  | .storeClearDone _ => true
  | .deepIdleEntry _ => true
  | .deepIdleWake => true
  | .pwrLimit _ _ => true
  | .fwData _ _ => true
  | .fwGo _ _ => true
  | .firmwareVerifyDone => true
  | .train _ _ => true
  | .trainingDone _ r => wfTrainEnd r
  | .channelRelease _ _ _ => true
  | .dcCfg _ _ _ => true
  | .mapSetWrite _ _ _ => true
  | .rstStall _ _ => true
  | .rstUnit _ _ => true
  | .firmwareUpdate _ _ => true
  | .updateReady => true
  | .record _ _ => true
  | .advance _ _ => true
  | .raiseSvnMin _ _ => true
  | .fuseBurnDone _ => true
  | .keyProg _ _ => true
  | .quoteReq _ _ => true
  | .quoteDone => true
  | .quoteData _ => true
  | .tamper _ => true
  | .wipeDone => true
  | .scrubDue bank _ => decide (bank < 982)
  | .scrubWriteback bank _ => decide (bank < 982)
  | .mtReq _ _ => true
  | .mtCancel _ _ => true
  | .svcUnit _ _ => true
  | .engineService _ _ _ => true
  | .i2cReadMaxTemp => true
  | .i2cReadTemps => true
  | .i2cReadPower => true
  | .i2cReadBootState => true
  | .i2cReadStatus => true
  | .i2cSetPointer _ => true
  | .i2cReadRegister => true
  | .sessCommit _ _ => true
  | .tauFlush _ _ => true
  | .nextLocal _ _ => true
  | .jobReadmit _ _ _ => true
  | .rateCapWrite _ _ _ => true
  | .ringCfg _ _ => true
  | .intakeConfigWrite _ offset _ => decide (offset.toNat % 4 = 0)
  | .proxyGen _ _ => true
  | .proxyGeometryWrite _ _ _ => true
  | .maintEntry _ => true
  | .i2cBad b => !([0x01, 0x02, 0x03, 0x04, 0x05, 0x10, 0x11].contains b.toNat)
  | .configurationWrite f v => wfConfig f v
  | .dlActive rate width => decide (1 ≤ rate.toNat) && decide (rate.toNat ≤ 5) && [1, 2, 4, 8].contains width.toNat
  | .recordCheckDone => true
  | .functionReady => true

end Sys2Proof
end

