-- ==== Sys2Proof/Tests/Slice0.lean ====
section
/-!
SUPPORT. Tests: commands that the well-formedness check refuses, results computed by hand from the spec's rules and worked
examples, and for each statement a state and operands that meet the hypotheses of its clauses.
-/
namespace Sys2Proof.Tests
open Sys2Proof Sys2Proof.Machine

/-- The state that a command answers. -/
def after (c : Instr) (s : State) : State :=
  match exec c s with
  | .next t => t
  | _ => s

/-- The host may access the device. -/
def up : State := { ep := { memorySpace := true, busMaster := true } }

/-- No store has an error, no word is being cleared and no channel is under maintenance. -/
def calm (s : State) : Bool := s.upsets.isEmpty && s.power.clearing.isEmpty && s.drams.isEmpty

theorem calm_atRest (s : State) (h : calm s = true) : s.AtRest := by
  simp only [calm, Bool.and_eq_true, List.isEmpty_iff] at h
  exact ⟨h.1.1, h.1.2, fun c => by simp [State.dram, h.2, mapGetD, mapGet]⟩

/-- Registers take values. -/
def withRegs (l : List (Nat × Word)) (s : State) : State := l.foldl (fun a e => a.setReg e.1 e.2) s

/-- Words are written from an address on. -/
def putWords (p : Ptr) (ws : List Word) (s : State) : State := s.pokes p (wordBytes ws)

/-- A ledger entry as R29 lays it out, with START 0 and no alternate. -/
def entryWords (unit action operand job model : Nat) : List Word :=
  [BitVec.ofNat 32 (unit * 2 ^ 18 + action * 2 ^ 26), 40, BitVec.ofNat 32 operand, BitVec.ofNat 32 (job + model * 32)]

/-- Bank A is active and ticks, with these entries as its variant 0 (R28). -/
def ticks (es : List (List Word)) (s : State) : State :=
  putWords (ptrAdd (bankPtr false) 0x200) es.flatten (putWords (ptrAdd (bankPtr false) 0x014) [BitVec.ofNat 32 es.length]
    (withRegs [(Reg.LEDGER_ACTIVE, 2), (Reg.LEDGER_BANK_STATE, 3)]
      { s with ledger := { s.ledger with ticking := true }, power := { s.power with state := [(24, 2)] } }))

theorem witness_StepRunsFrontCommand : { up with pending := [.hotReset, .pllLock] }.pending = .hotReset :: [.pllLock] := rfl

theorem witness_EmptyQueueLetsATclkEdgePass : up.pending = [] ∧ up.tsu.running = false ∧
    (let s : State := { up with tsu := { running := true } }
     s.pending = [] ∧ s.tsu.running = true ∧ s.ledger.firstNs = 0 ∧ s.periodNs = 0 ∧ s.ledger.ticking = false ∧ s.tsu.residual = 0) := by
  decide

theorem witness_OutputsFollowSourcesAfterEveryStep : ∃ t, step { up with pending := [.hotReset] } = .next t := ⟨_, rfl⟩

theorem witness_RegisterWriteByTheOwner :
    up.admits .host 0x505 = true ∧ regDesc 0x505 0x100 = some (rwReg 0x100 .rwl 0 [(9, 0)] (some 0)) ∧
    up.regLocked 0x505 (rwReg 0x100 .rwl 0 [(9, 0)] (some 0)) = false ∧ (ownWrite .host 0x505 0x100 7 0).isNone = true ∧
    up.admits .mgc 0xFFF = true ∧ up.admits .host 0xFFF = false := by decide

theorem witness_WritesOfOtherMastersAreDropped :
    (pageDesc 0x505).isSome = true ∧ up.owner 0x505 ≠ masterCode .mgc ∧ (pageDesc 0x010).isSome = true ∧
    up.owner 0x010 ≠ masterCode .ledger := by decide

theorem witness_OwnerRegister :
    (pageDesc 0x505).isSome = true ∧ up.hostBlocked 0x505 = none ∧ up.locked 0x505 31 = false ∧ up.owner 0x505 = masterCode .host ∧
    bits (2 : Word) 1 0 ≠ 3 ∧ bits (3 : Word) 1 0 = 3 ∧ (withRegs [(Reg.LOCK 0x505, 0x80000000)] up).locked 0x505 31 = true ∧
    (withRegs [(Reg.OWNER 0x505, 2)] up).owner 0x505 = 2 ∧ up.owner 0x505 ≠ masterCode .mgc := by decide

theorem witness_LockBitsAreSetOnly : up.admits .host 0xE0 = false ∧ up.admits .host 0x000 = true ∧ bits (3 : Word) 1 0 = 3 := by decide

theorem witness_EventBitsSetAndCleared : up.admits .host 0x400 = true ∧ (pageDesc 0x400).map PageDesc.domain = some none ∧
    (withRegs [(Reg.EVT_RAW 0x400, 1), (Reg.EVT_EN 0x400, 3)] up).pageLine 0x400 = true := by decide

theorem witness_TalliesSaturateAndClear : up.admits .host 0x011 = true ∧ bit 1 0 = true ∧ bit 0 0 = false ∧
    isTally Reg.LEDGER_SWITCH_MISSED = true ∧ keyPage Reg.LEDGER_SWITCH_MISSED = 0x011 ∧ Reg.LEDGER_SWITCH_MISSED ∉ riseTallies ∧
    isTally 0xE08 = true ∧ (regDesc 0x011 0xE08).isSome = true ∧ up.keyAt 0x011 0xE08 ∉ riseTallies := by decide

/-- Source 0 is pending and enabled at the host page, source 13 at both. -/
def pulsing : State := withRegs [(rkey 8 0x100, 0x2001), (rkey 9 0x100, 0x2000)] { up with icu := { up.icu with pulse0 := true } }

theorem witness_ClaimTakesTheLowestSource :
    pulsing.winner 0 false = some 0 ∧ pulsing.owner 8 = masterCode .host ∧ pulsing.hostReadBlocked = none ∧
    (pulsing.target 0).active = none ∧ pulsing.owner 8 ≠ masterCode .mgc ∧
    (withRegs [(rkey 8 0x11C, 0x00010000)] (up.edge 0)).winner 0 false = some 240 ∧
    up.winner 1 (up.target 1).idle = none ∧ up.owner 9 = masterCode .mgc ∧ (up.target 1).active = none := by decide

theorem witness_CompleteEndsTheActiveSource :
    up.admits .host 8 = true ∧ up.admits .mgc 9 = true ∧ (up.target 0).active ≠ some (bits (5 : Word) 7 0) ∧
    ({ up with icu := { up.icu with host := { active := some 240 } } }.target 0).active = some (bits (0xFF0 : Word) 7 0) := by decide

theorem witness_HoldOffIdleAndEdges : up.admits .host 0x008 = true := by decide

theorem witness_LocalTimeReadStepAndPhase :
    up.hostReadBlocked = none ∧ up.admits .mgc 0x500 = true ∧ up.bankActive = false ∧ up.admits .mgc 0x010 = true ∧
    (let s := withRegs [(Reg.TICK_PERIOD_US, 33333)] up
     s.ledger.firstNs = 0 ∧ s.periodNs ≠ 0) ∧
    (let s := withRegs [(Reg.LEDGER_ACTIVE, 2)] up
     s.admits .mgc 0x500 = true ∧ s.admits .mgc 0x010 = true ∧ s.bankActive = true ∧ s.haltStage ≠ 2) ∧
    (withRegs [(Reg.LEDGER_ACTIVE, 0x22)] up).haltStage = 2 := by decide

theorem witness_OffsetWritesDriveTheRate :
    up.admits .mgc (pageDomain 1) = true ∧ up.followed ≠ 1 ∧
    (withRegs [(Reg.TIME_FOLLOW, 0)] up).followed = 0 ∧ bit (up.reg (Reg.DOMAIN_CFG 0)) 1 = false ∧
    (let s := withRegs [(Reg.TIME_FOLLOW, 0), (Reg.DOMAIN_CFG 0, 2)] up
     s.followed = 0 ∧ bit (s.reg (Reg.DOMAIN_CFG 0)) 1 = true) := by decide

/-- Both domains are LOCKED, and domain 0 is followed. -/
def locked2 : State := withRegs [(Reg.TIME_FOLLOW, 0), (Reg.DOMAIN_STATE 0, 3), (Reg.DOMAIN_STATE 1, 3)] up

theorem witness_FollowedDomainChanges :
    locked2.admits .mgc (pageDomain 0) = true ∧ locked2.followed = 0 ∧ bits (2 : Word) 2 0 ≠ 3 ∧
    bits (locked2.reg (Reg.DOMAIN_STATE (1 - 0))) 2 0 = 3 ∧ bits (up.reg (Reg.DOMAIN_STATE (1 - 0))) 2 0 ≠ 3 ∧
    (let s := withRegs [(Reg.TIME_SEL, 1)] up
     bits (3 : Word) 2 0 = 3 ∧ bits (s.reg (Reg.DOMAIN_STATE 1)) 2 0 ≠ 3 ∧ bits (s.reg Reg.TIME_SEL) 1 0 = 1 ∧ s.followed ≠ 1) ∧
    locked2.admits .mgc 0x500 = true ∧ bits (1 : Word) 1 0 < 2 ∧ locked2.followed ≠ bits (1 : Word) 1 0 ∧
    bits (locked2.reg (Reg.DOMAIN_STATE (bits (1 : Word) 1 0))) 2 0 = 3 ∧ 2 ≤ bits (2 : Word) 1 0 ∧ locked2.followed < 2 ∧
    ({ up with tsu := { residual := -1 } } : State).tsu.residual ≠ 0 ∧ up.tsu.residual = 0 := by decide

theorem witness_GrandmastersBoundsAndTransmitStamps :
    up.admits .mgc (pageDomain 0) = true ∧
    (0 : Word) ++ up.reg (Reg.DOMAIN_GM_ID_LO 0) = up.tsu.gmA ∧ (1 : Word) ++ up.reg (Reg.DOMAIN_GM_ID_LO 0) ≠ up.tsu.gmA ∧
    bits (locked2.reg (Reg.DOMAIN_STATE 0)) 2 0 = 3 ∧ bits (up.reg (Reg.DOMAIN_STATE 0)) 2 0 ≠ 3 ∧
    (withRegs [(Reg.LOCK (pageDomain 0), 1)] up).locked (pageDomain 0) 0 = true ∧ up.locked (pageDomain 0) 0 = false ∧
    (withRegs [(Reg.LEDGER_BANK_STATE, 2)] up).bankGuardOk false 500 = false ∧
    (∀ b, up.bankGuardOk b 1023 = true) ∧ up.owner (pageDomain 0) = masterCode .mgc := by decide

/-- Local time runs, a tick period of 33,333 µs is set, and the next tick is due. -/
def due : State := withRegs [(Reg.TICK_PERIOD_US, 33333)] { up with tsu := { running := true, ns := 5, nextTick := 5 } }

theorem witness_TickEventsBeginTicks :
    due.ledger.firstNs = 0 ∧ due.tsu.running = true ∧ due.periodNs ≠ 0 ∧ (due.tsu.ns - due.tsu.nextTick).toNat < 2 ^ 31 ∧
    due.ledger.ticking = false ∧ due.sec.updLatched = false ∧ up.ledger.firstNs = 0 ∧ up.periodNs = 0 ∧
    (ticks [] due).ledger.armed = false ∧ (ticks [] due).ledger.ticking = true ∧ (ticks [] due).periodNs ≠ 0 := by decide

theorem witness_BoundarySequenceClearsTheTick :
    up.bankActive = false ∧ (ticks [] up).bankActive = true ∧ (ticks [] up).ledger.ticking = true ∧
    (ticks [] up).ledger.armed = false := by decide

/-- Bank B is WEIGHED with a period of 33,333 µs. -/
def weighed (s : State) : State :=
  putWords (ptrAdd (bankPtr true) 0x004) [33333] (s.setField Reg.LEDGER_BANK_STATE 7 4 2)

theorem witness_SwitchRequestsAndHalts :
    up.admits .host 0x011 = true ∧ bit 0 1 = false ∧ bit 3 1 = true ∧ bit 3 0 = true ∧ up.bankState true ≠ 2 ∧
    (let s := weighed (ticks [] up)
     s.bankState true = 2 ∧ s.bankActive = true ∧ s.haltStage ≠ 2 ∧
     (s.reg Reg.LEDGER_SWITCH_TICK - s.reg Reg.TICK_SEQ).toNat = 0 ∧
     ((withRegs [(Reg.LEDGER_SWITCH_TICK, 0x80000001)] s).reg Reg.LEDGER_SWITCH_TICK - s.reg Reg.TICK_SEQ).toNat = 2 ^ 31 + 1 ∧
     ((withRegs [(Reg.LEDGER_SWITCH_TICK, 1)] s).reg Reg.LEDGER_SWITCH_TICK - s.reg Reg.TICK_SEQ).toNat = 1) ∧
    (let s := weighed up
     s.bankState true = 2 ∧ s.bankActive = false ∧ s.firstBoundary (bits (s.bankWord true 0x004) 17 0 * 1000) 0 = none ∧
     s.firstBoundary (bits (s.bankWord true 0x004) 17 0 * 1000) 1 = some 33333000) ∧
    (let s := weighed (withRegs [(Reg.LEDGER_ACTIVE, 0x22), (Reg.TICK_PERIOD_US, 40000)] up)
     s.haltStage = 2 ∧ bits (s.bankWord true 0x004) 17 0 * 1000 ≠ s.periodNs) ∧
    ((ticks [entryWords 0x1F 1 0 0 0] up).entry 0).isSome = true ∧ (ticks [entryWords 0x1F 1 0 0 0] up).haltStage ≠ 1 := by decide

/-- Stall 0 works on cluster 0, with model 7 resident; entry 0 runs its job 3. -/
def program : State :=
  withRegs [(Reg.STALL_STATE 0, 1), (Reg.STALL_CLUSTERS 0, 1), (Reg.STALL_RESIDENT 0, 0x80000007)]
    (ticks [entryWords 0 1 0 3 7, [0x04000000, 0x80080028, 64, 2 + 7 * 32], [0x84000000, 40, 128, 4 + 7 * 32]] up)

theorem witness_ProgramSlots :
    (program.entryFor 0 0 7 1).map (fun e => (e.unit, e.job, e.model, e.altOnly)) = some (0, 3, 7, false) ∧
    bits (program.reg (Reg.STALL_STATE 0)) 1 0 = 1 ∧ (program.stall 0).slot = none ∧
    (program.entryFor 0 0 7 1).map program.blocked = some false ∧
    ((program.entryFor 0 0 7 1).bind (({ program with ledger := { program.ledger with preload := [(0, [1])] } }).jobHeader 0)) =
      some [1] ∧
    (let s := withRegs [(Reg.STALL_JOB_FAULTED 0, 8)] program
     (s.entryFor 0 0 7 1).map s.blocked = some true ∧ (s.entryFor 0 0 7 1).map s.altEntry = some none) ∧
    (let s := withRegs [(Reg.STALL_JOB_FAULTED 0, 4)] program
     (s.entryFor 1 0 7 1).map s.blocked = some true ∧
     (((s.entryFor 1 0 7 1).bind s.altEntry).map (fun x => (x.1, x.2.unit, x.2.job))) = some (2, 0, 4) ∧
     ((((s.entryFor 1 0 7 1).bind s.altEntry).bind
       (fun x => ({ s with ledger := { s.ledger with preload := [(2, [1])] } }).jobHeader x.1 x.2))) = some [1]) ∧
    ({ program with stalls := [(0, { slot := some ⟨0, 3, 7⟩ })] }.stall 0).slot.isSome = true ∧
    (∀ c ∈ program.stallClusters 0, ∀ e ∈ clusterEngines c, (program.engine e).work = []) := by decide

/-- The action area lies at the common store's first byte, and holds these words at these offsets. -/
def acts (l : List (Nat × List Word)) (s : State) : State :=
  l.foldl (fun a e => putWords { store := .common, addr := e.1 } e.2 a)
    { s with loader := { s.loader with bundleA := { s.loader.bundleA with regions := [[0x102, 0, 0, 0x100000, 0]] } } }

/-- A ledger entry of a length in grains. -/
def longEntry (unit action operand len : Nat) : List Word :=
  [BitVec.ofNat 32 (unit * 2 ^ 18 + action * 2 ^ 26), BitVec.ofNat 32 len, BitVec.ofNat 32 operand, 0]

theorem witness_LoadEntriesAndReadmission :
    ((ticks [entryWords 0 7 0 0 7] up).entryFor 0 0 7 7).map (fun e => (e.unit, e.model)) = some (0, 7) ∧
    (let s := withRegs [(Reg.STALL_STATE 0, 1), (Reg.STALL_CLUSTERS 0, 1)] { ticks [] up with
        stalls := [(0, { loading := some (7, 0), faultNow := 1, faultTicks := [(0, 16)] })]
        loader := { bundleA := { models := [(1, 7, 1, 64, 128)], regions := [[0x01000001, 0, 0, 0x1000, 0]] } } }
     bits (s.reg (Reg.STALL_STATE 0)) 1 0 = 1 ∧ (s.stall 0).loading = some (7, 0) ∧ s.modelOf 0 7 = some (1, 7, 1, 64, 128) ∧
     (s.active.recs.find? (fun r => r.kind == 1 && r.section_ == 1)).isSome = true ∧ s.admits .host (pageStall 0) = true ∧
     mapGetD (s.stall 0).faultTicks 0 0 ≤ 16 ∧ bits (s.reg (Reg.STALL_STATE 0)) 1 0 ≠ 2) := by decide

theorem witness_JobFaultsAndFrozenChannels :
    (let s := withRegs [(Reg.STALL_STATE 7, 1), (Reg.STALL_PITCH 7, 0x80)] { up with stalls := [(7, { slot := some ⟨0, 31, 7⟩ })] }
     (s.stall 7).slot = some ⟨0, 31, 7⟩ ∧ s.chanState 7 ≠ 2 ∧ (bits (s.reg (Reg.STALL_PITCH 7)) 7 0).testBit 7 = true ∧
     bits (s.reg (Reg.STALL_STATE 7)) 1 0 ≠ 0 ∧ (bits (s.reg (Reg.STALL_PITCH 0)) 7 0).testBit 7 = false) := by decide

/-- A transfer of 8 bytes from host memory into the video store. -/
def transfer : Transfer :=
  { src := none, hostAddr := 0x1000, dst := some { store := .video, addr := 64 }, len := 8, regWrites := [], stall := 0, streams := [3] }

theorem witness_StagingTransfers :
    (let s := ticks [entryWords 0x22 2 0 0 0] up
     (s.entryFor 0 0x22 0x22 2).isSome = true ∧ s.ledger.staging = none ∧ transfer.src = none ∧
     (let g : Staging := { src := none, dst := some { store := .video, addr := 64 }, hostAddr := 0x1000, len := 8, stall := 0, streams := [3] }
      let t := { s with ledger := { s.ledger with staging := some g } }
      t.ledger.staging = some g ∧ t.mayIssue = true ∧ t.ledger.stagingWait = [] ∧
      t.flat { store := .video, addr := 64 } = some (2 ^ 38 + 0x10000000 + 64) ∧
      t.refusesAccess { store := .video, addr := 64 } 8 = none ∧ calm t = true ∧
      { t with ep := { t.ep with busMaster := false } }.mayIssue = false)) := by decide

/-- A pending request of test 3 for cluster 0's scratchpad. -/
def request : MtEntry := { test := 3, target := 0, result := 0, failAddr := none }

/-- A pending request of test 4 for decoder 0. -/
def request4 : MtEntry := { test := 4, target := 0x10, result := 0, failAddr := none }

theorem witness_TestRequests :
    up.admits .host 0x00A = true ∧ request.result = 0 ∧ request.test = bits (0x0003 : Word) 2 0 ∧
    request.target = bits (0x0003 : Word) 15 8 ∧ (∀ x ∈ List.replicate 16 request, x.result < 2) ∧
    (List.replicate 15 request ++ [{ request with result := 2 }]).findIdx? (fun x : MtEntry => decide (2 ≤ x.result)) = some 15 ∧
    (let s := acts [(0x1000, [1]), (0x1010, [3])] (ticks [longEntry 0 8 0x1000 3126, longEntry 0 8 0x1000 3125] up)
     let t := { s with svc := { s.svc with queue := [request] }, power := { s.power with state := [(0, 2), (24, 2)] } }
     (t.entryFor 0 0 7 8).map (fun e => (e.operand, e.length)) = some (0x1000, 3126) ∧ t.actionWords 0x1000 4 = some [1, 0, 0, 0] ∧
     t.actionWords (0x1000 + 16) 1 = some [3] ∧ t.targetOn request = true ∧ testBound 3 0 ≤ 3126 * 1536 - 8 ∧
     3125 * 1536 - 8 < testBound 3 0) ∧
    (let s := acts [(0x1000, [1]), (0x1010, [0x1004])] (ticks [longEntry 0x10 8 0x1000 1172, longEntry 0x10 8 0x1000 1171] up)
     let t := { s with svc := { s.svc with queue := [request4] }, power := { s.power with state := [(8, 2), (24, 2)] } }
     (t.entryFor 0 0x10 0x1D 8).map (fun e => (e.operand, e.length)) = some (0x1000, 1172) ∧
     t.actionWords (0x1000 + 16) 1 = some [0x1004] ∧ t.targetOn request4 = true ∧ testBound 4 0x10 ≤ 1172 * 1536 - 8 ∧
     1171 * 1536 - 8 < testBound 4 0x10) ∧
    ({ up with svc := { queue := [{ request with result := 1 }] } } : State).svc.queue[0]? = some { request with result := 1 } := by
  decide

theorem witness_ScrubAndServiceRequests :
    (scrubBank 0).map (fun g => (g.count, g.bytes)) = some (2048, 128) ∧
    ({ up with power := { state := [(0, 2)] } } : State).scrubRuns 0 = true ∧ (scrubBank 981).isSome = true ∧
    up.scrubRuns 981 = true ∧ (scrubBank 982).isNone = true ∧ up.scrubRuns 0 = false ∧ up.admits .host 0x00A = true ∧
    bit 0x80000010 31 = true ∧ bits (0x80000010 : Word) 7 0 = 0x10 ∧ bits (0x8000001D : Word) 7 0 = 0x1D ∧
    up.admits .mgc (pageMx 63) = true ∧ up.locked (pageMx 63) 0 = false ∧
    (withRegs [(Reg.LOCK (pageMx 63), 1)] up).locked (pageMx 63) 0 = true := by decide

/-- Stream 0 is enabled with a ring of 4 units, stream 255 with the flow-table path. -/
def streamsOn (s : State) : State :=
  { s with eff := [(Reg.INTAKE_CTX_CTL 0, 1), (Reg.INTAKE_RING_SIZE 0, 8), (Reg.INTAKE_CTX_CTL 255, 9)] }

theorem witness_IntakeOfRings :
    (let s := streamsOn (acts [(0x1000, [1]), (0x1040, [0x800, 0, 1, 0])] (ticks [entryWords 0x1F 9 0x1000 0 0, entryWords 0x1F 2 0x1000 0 0] up))
     (s.entryFor 0 0x1F 0x1F 9).isSome = true ∧ s.mayIssue = true ∧ s.ringStream 0 = true ∧ s.ringStream 255 = false ∧
     s.frozenLink = false ∧ s.ringUnits 0 = 4 ∧
     (s.entryFor 1 0x1F 0x1F 2).map Entry.operand = some 0x1000 ∧ s.planHeader 0x1000 = some (0, 0) ∧
     (s.planRecAt 0x1000 0).map PlanRec.guar = some 0x800 ∧ s.intake.want = []) := by decide

theorem witness_DemultiplexerEntries :
    (let s := streamsOn (acts [(0x1000, [1]), (0x1040, [0x800, 0, 1, 0])] (ticks [entryWords 0x21 2 0x1000 0 0] up))
     (s.entryFor 0 0x21 0x21 2).map Entry.operand = some 0x1000 ∧ s.streamOn 255 = true ∧ s.container 255 = 4 ∧
     (s.stream 255).flagged = false ∧ s.passMode 255 ≠ 2 ∧ s.intake.active = false ∧ s.ringStream 0 = true ∧
     (s.planRecAt 0x1000 0).isSome = true) ∧
    recordBad 0 ([0, 0, 0, 0x10] ++ List.replicate 28 0) = true := by decide

/-- An access unit of one extent. -/
def unit1 : Au := { extents := [(0, 64, true)], time := 90000, damaged := false, clipId := 0, clipStart := false, frameNo := 5 }

/-- A header within the limits: 64 x 64, 8 bits, an IDR. -/
def header : AuHeader :=
  { rap := true, recovery := false, rasl := false, params := true, width := 64, height := 64, depth10 := false, mono := false, dpb := 1
    unsupported := false, headerIntact := true, cropX := 0, cropY := 0, cropW := 64, cropH := 64
    recoveryDone := false, names := [], refs := [], drops := [] }

/-- Pool 1 lies in the common store and has two buffers. -/
def pool1 : Pool := { valid := true, store := .common, base := 0x80000, bufSize := 64, count := 2 }

/-- Decoder 0 walks a list with one record of stream 0, which has an access unit. -/
def decoding : State :=
  { acts [(0x1000, [1]), (0x1010, [0x100, 5000]), (0x2040, [0x800, 0, 0x01010001, 0x00400040])] (ticks [entryWords 0x10 3 0x1000 0 0] up) with
    vds := [(0, { walk := some ⟨0, 0x1000, 1, 0, 0⟩ })], streams := [(0, { aus := [unit1] })], intake := { plan := 0x2000 }
    pools := [(1, pool1)] }

theorem witness_DecodersTakeAccessUnits :
    (decoding.entryFor 0 0x10 0x17 3).bind (decoding.startWalk 0) = some ⟨0, 0x1000, 1, 0, 0⟩ ∧
    (decoding.vd 0).walk = some ⟨0, 0x1000, 1, 0, 0⟩ ∧ (decoding.vd 0).frame = none ∧
    decoding.nextDecode ⟨0, 0x1000, 1, 0, 0⟩ 65 = some (⟨0, 0x1000, 1, 0, 0⟩, 0, 5000) ∧ (decoding.stream 0).aus = [unit1] ∧
    (decoding.planRec 0).map PlanRec.pool = some 1 ∧ (decoding.planRec 0).map (fun p => exceeds p (decoding.codec 0) header) = some false ∧
    (decoding.planRec 0).map (fun p => exceeds p (decoding.codec 0) { header with width := 65 }) = some true ∧ calm decoding = true ∧
    decoding.ctxState 0 ≠ 2 ∧ decoding.ctxState 0 ≠ 3 ∧ (decoding.pool 1).valid = true ∧ (decoding.pool 1).lost = false ∧
    (decoding.pool 1).bpMask.getLsbD 0 = false ∧ (decoding.pool 1).lowest = some 0 := by decide

/-- The samples of a picture buffer. -/
def samples : List Byte := List.replicate 64 9

/-- Decoder 0 decodes into buffer 0 of pool 1. -/
def framed : State :=
  { ticks [] up with
    vds := [(0, { frame := some ⟨255, unit1, header, some { store := .common, addr := 0x80000 }, 5000⟩ })]
    pools := [(1, { pool1 with owners := [(0, [1])] })] }

theorem witness_FramesEndWithAnOutcome :
    (framed.vd 7).frame = none ∧ (framed.vd 0).frame = some ⟨255, unit1, header, some { store := .common, addr := 0x80000 }, 5000⟩ ∧
    framed.poolOf { store := .common, addr := 0x80000 } = some 1 ∧ calm framed = true ∧ (framed.pool 1).lost = false ∧
    (∀ r ∈ unit1.ranges, framed.refusesAccess r.1 r.2 = none) ∧ header.mono = false ∧ picEnd header samples ≤ (framed.pool 1).bufSize ∧
    framed.refusesAccess { store := .common, addr := 0x80000 } samples.length = none ∧
    (let w := framed.pokes { store := .common, addr := 0x80000 } samples
     (w.dropNames 0 255 []).2 = true ∧ ((w.dropNames 0 255 []).1.bpmAdd 0 { store := .common, addr := 0x80000 } 2).2 = true) := by
  decide

/-- Pre-processing unit 0 walks a list with one record of stream 0. -/
def prepping : State :=
  { acts [(0x1000, [1]), (0x1010, [0x100, 5000, 0x2000, 7]), (0x201C, [0x4000, 0x3000])] (ticks [entryWords 0x1A 4 0x1000 0 0] up) with
    pps := [(0, { walk := some ⟨0, 0x1000, 1, 0, 0⟩ })] }

/-- A slot at unit 3 that substitutes, and one with samples. -/
def slotWork (source reason : Nat) : PpWork :=
  { stream := 0, desc := 0x2000, slot := 7, keepIx := 0, budget := 5000, pic := none, source := source, reason := reason, sat := false
    proxy := false }

/-- A picture record of stream 0. -/
def picture (kind : Nat) : PicRec :=
  { stream := 0, clipId := 0, frameNo := 0, time := 0, buf := none, cropX := 0, cropY := 0, cropW := 64, cropH := 64, depth10 := false
    mono := false, outcome := 0, concealed := false, refConcealed := false, kind := kind, dataType := 0, width := 64, height := 64 }

theorem witness_PreprocessingSlots :
    (prepping.entryFor 0 0x1A 0x1D 4).bind (prepping.startWalk 0) = some ⟨0, 0x1000, 1, 0, 0⟩ ∧
    (prepping.pp 0).walk = some ⟨0, 0x1000, 1, 0, 0⟩ ∧ (prepping.pp 0).work = none ∧
    prepping.nextSlot ⟨0, 0x1000, 1, 0, 0⟩ 129 = some (⟨0, 0x1000, 1, 0, 0⟩, ⟨0, 1, 5000, 0x2000, 7, 0⟩) ∧ (prepping.stream 0).aus = [] ∧
    (prepping.ppDesc 0x2000).map PpDesc.keepEn = some false ∧ prepping.picOrdinal ⟨0, 0x1000, 1, 0, 0⟩ 0 = 0 ∧
    (prepping.stream 0).pics[0]? = none ∧ calm prepping = true ∧
    (∀ k ∈ [0, 1, 3, 4, 5], ({ prepping with streams := [(0, { pics := [picture k] })] } : State).stream 0 = { pics := [picture k] }) ∧
    (prepping.releasePic 0 none).2 = true ∧ (prepping.releasePic 0 (some { picture 0 with buf := some { store := .dram, addr := 64 } })).2 = false ∧
    ({ up with pps := [(3, { work := some (slotWork 0 0) })] } : State).pp 3 = { work := some (slotWork 0 0) } ∧
    ({ up with pps := [(3, { work := some (slotWork 2 1) })] } : State).pp 3 = { work := some (slotWork 2 1) } := by decide

/-- A clip of stream 0 with QI 30, JQ 50, DQ_STEP 1, WIN 1, N 8 and a ring of 2^16 bytes. -/
def clip : List Word := [1, 0x0001321E, 100000, 0x801, 0, 0, 0, 0, 16]

/-- The evidence plan admits session 0 with clips up to 64 x 64. -/
def evidence : State :=
  { acts [(0x1000, [5, 1]), (0x1040, [0x00400040, 0x411])] (ticks [entryWords 0x1F 2 0x1000 0 0] up) with
    eff := [(Reg.INTAKE_CTX_CTL 0, 1)], pools := [(1, pool1)] }

theorem witness_EncoderSessions :
    up.admits .host 0x204 = true ∧ bits (up.reg Reg.EVIDENCE_SESS_SEL) 3 0 = 0 ∧ bit (wordAt clip 0) 0 = true ∧
    evidence.sessReason 0 clip = 0 ∧ evidence.sessReason 15 clip = 1 ∧ evidence.sessReason 0 [1 + 256 * 9] = 2 ∧
    evidence.sessReason 0 (clip.set 1 0x00013234) = 4 ∧ cfgBad (clip.set 1 0x00013234) = true ∧
    (let s := { up with sessions := [(15, { commit := some [0] })] }
     (s.session 15).commit = some [0] ∧ (s.session 15).running = false ∧ bit (wordAt [0] 0) 0 = false) := by decide

/-- Encoder 0 walks a list with one record of session 0, which has a picture; its staging area lies in DRAM. -/
def coding : State :=
  withRegs [(Reg.MAP_SET_CFG 0, 0x1001), (Reg.DC_CFG 0, 0x11), (Reg.DC_STATE 0, 1)]
    { acts [(0x2000, [1]), (0x2010, [0x100, 5000]), (0x1000, [5, 1]), (0x1040, [0x00400040, 0x411])]
        (ticks [entryWords 0x1F 2 0x1000 0 0, entryWords 0x18 5 0x2000 0 0] up) with
      power := { state := [(24, 2), (25, 2)] }
      ves := [(0, { walk := some ⟨0, 0x2000, 1, 0, 0⟩ })], pools := [(1, pool1)]
      sessions := [(0, { running := true, cfg := clip, sources := [picture 0] })] }

theorem witness_EncodedPictures :
    (coding.entryFor 1 0x18 0x19 5).bind (coding.startWalk 1) = some ⟨1, 0x2000, 1, 0, 0⟩ ∧
    (coding.ve 0).walk = some ⟨0, 0x2000, 1, 0, 0⟩ ∧ (coding.ve 0).work = none ∧
    coding.nextPicture ⟨0, 0x2000, 1, 0, 0⟩ 17 = some (⟨0, 0x2000, 1, 0, 0⟩, 0, 5000) ∧ (coding.session 0).sources = [picture 0] ∧
    calm coding = true ∧ (coding.sessPlan 0).map (fun p => codedTooBig p false 64 64) = some false ∧
    (coding.sessPlan 0).map (fun p => codedTooBig p false 66 64) = some true ∧ (coding.sessPlan 0).map SessPlan.refPool = some 1 ∧ (coding.session 0).width = 0 ∧ cfgKind clip < 2 ∧
    (coding.sessPlan 0).map coding.sessUp = some true ∧ clipRows (cfgKind clip) 64 * 64 < (coding.session 0).allowance ∧
    (coding.pool 1).valid = true ∧ (coding.pool 1).bpMask.getLsbD 2 = false ∧ (coding.pool 1).lowest = some 0 ∧
    (({ up with ves := [(1, { work := some { session := 15, pic := picture 0, recon := none, skip := true, flags := 0, qp := 30, budget := 5000 } })] } : State).ve 1).work.isSome = true := by decide

theorem witness_EvidenceAndSheetDeliveries :
    (evidence.entryFor 0 0x1F 0x1F 2).map Entry.operand = some 0x1000 ∧ evidence.actionWords 0x1000 2 = some [5, 1] ∧
    calm evidence = true ∧ evidence.refusesAccess (evidence.actionPtr 0x1040) 32 = none ∧ (up.entryFor 0 0x1F 0x1F 2).isNone = true ∧
    (up.entryFor 0 0x1F 0x1F 10).isNone = true ∧
    evidence.mayIssue = true ∧ (∀ n < 16, (evidence.session n).running = false ∧ (evidence.session n).staged = []) ∧
    { evidence with ep := { evidence.ep with busMaster := false } }.mayIssue = false ∧
    (let s := acts [(0x1000, [3, 0x100000, 0x90000, 16, 0x100])] (ticks [entryWords 0x1F 10 0x1000 0 0] up)
     (s.entryFor 0 0x1F 0x1F 10).map Entry.operand = some 0x1000 ∧
     s.sheetPlan 0x1000 = some ⟨0x100000, { store := .common, addr := 0x90000 }, 16, 0x100⟩ ∧ s.mayIssue = true ∧
     calm s = true ∧ s.sheet.held.length ≤ 16) := by decide

theorem witness_AssociationEntries :
    (let s := acts [(0x1000, [4, 0, 1])] (ticks [entryWords 0x1E 6 0x1000 0 0] up)
     (s.entryFor 0 0x1E 0x1E 6).map Entry.operand = some 0x1000 ∧ (s.tauPlan 0x1000).map (fun p => p.streams.length) = some 1 ∧
     s.tau.busy = false ∧ s.admits .mgc 0x220 = true ∧ s.locked 0x220 0 = false ∧
     { s with tau := { busy := true } }.tau.busy = true) ∧
    (withRegs [(Reg.LOCK 0x220, 1)] up).locked 0x220 0 = true := by decide

theorem witness_AssignmentOfDetections :
    (let a : BoxCodes := ⟨0, 0, 65535, 65535⟩
     a.l < a.r ∧ a.t < a.b ∧ a.r < 65536 ∧ a.b < 65536) ∧
    (let a : BoxCodes := ⟨0, 0, 5, 5⟩
     let b : BoxCodes := ⟨5, 0, 9, 9⟩
     a.r ≤ b.l ∧ b.l < b.r) := by decide

theorem witness_ConfigurationAndPowerStates :
    up.ep.perst = false ∧ up.ep.flr = false ∧ up.hostRise = false ∧ up.ep.inta = false ∧ up.ep.d3hot = false ∧ up.contained = false ∧
    (withRegs [(Reg.ENDPOINT_CONTAIN, 1)] up).contained = true ∧ ({ up with ep := { up.ep with flr := true } } : State).ep.flr = true := by
  decide

theorem witness_LinkStates :
    up.ep.perst = false ∧ bit ((withRegs [(Reg.ENDPOINT_LINK, 0x185)] up).reg Reg.ENDPOINT_LINK) 8 = true ∧
    ((ticks [entryWords 0x1F 9 0x1000 0 0] up).entry 0).map Entry.unit = some 0x1F := by decide

theorem witness_ContainmentAndItsEnd :
    (let s : State := withRegs [(Reg.ENDPOINT_CONTAIN, 1), (Reg.ENDPOINT_LINK, 0x185)] { up with ep := { up.ep with reads := [.hostRead 0x1000 64] } }
     0 < s.ep.reads.length ∧ s.frozenLink = true ∧ s.admits .host 0x400 = true ∧ bit (s.reg Reg.ENDPOINT_LINK) 8 = true) ∧
    64 ≤ cplTimeoutUs up.ep.cplTimeout ∧ cplTimeoutUs up.ep.cplTimeout < 70000000 ∧ up.ep.ecrcCheck = false ∧
    up.frozenLink = false ∧ (withRegs [(Reg.ENDPOINT_CONTAIN, 6)] up).frozenLink = false ∧ bits (32 : Word) 9 0 = 32 ∧
    bits (768 : Word) 9 0 = 768 ∧ bits (0xFC1F : Word) 9 0 < 32 ∧ 768 < bits (769 : Word) 9 0 := by decide

/-- Channel 0 is trained, and set 0 maps 16 GiB of it from device address 0 on. -/
def trained : State := withRegs [(Reg.MAP_SET_CFG 0, 0x1001), (Reg.DC_CFG 0, 0x11), (Reg.DC_STATE 0, 1)] { up with power := { state := [(25, 2)] } }

theorem witness_BarAccesses :
    trained.hostReadBlocked = none ∧ trained.hostBlocked 0 = none ∧ calm trained = true ∧
    cutsAt 256 (trained.apAddr 0xFF) 4 = [(0xFF, 1), (0x100, 3)] ∧
    (∀ p ∈ cutsAt 256 (trained.apAddr 0xFF) 4, trained.refusesAccess { store := .dram, addr := p.1 } p.2 = none) ∧
    (∃ p ∈ cutsAt 256 (up.apAddr 0xFF) 4, 0 < p.2 ∧ up.refusesAccess { store := .dram, addr := p.1 } p.2 ≠ none) ∧
    trained.protected_ (trained.apAddr 0xFF) 4 = false ∧ trained.secProtected (trained.apAddr 0xFF) 4 = false ∧
    (let l : Load := { phase := 1, bank := false, base := 0x102, len := 64 }
     { trained with loader := { load := some l } }.protected_ 0xFF 4 = true ∧
     { trained with loader := { load := some l } }.protected_ 0xFE 4 = false) := by decide

theorem witness_PowerDomainsFollowRequests :
    up.admits .host 0x004 = true ∧ up.domTarget 28 = 0 ∧ up.power.tripped = false ∧
    (let s : State := { up with power := { state := [(24, 2)], moving := [(0, 2), (28, 1)], queued := [(0, 0)], clearing := [24] } }
     mapGet s.power.moving 0 = some 2 ∧ mapGet s.power.moving 24 = none ∧ mapGet s.power.queued 0 = some 0 ∧ s.domState 0 = 0 ∧
     mapGet s.power.moving 28 = some 1 ∧ s.power.clearing.contains 24 = true) ∧
    (ticks [] up).powerHeld 24 = true ∧ up.powerHeld 28 = false ∧ (ticks [] up).keptOff 1 = true ∧ up.keptOff 28 = false := by decide

theorem witness_ThermalSamplesClampAlarmAndTrip :
    up.power.alarm = false ∧ up.power.tripped = false ∧ (∃ n < 16, up.threshold Reg.THERMAL_T_TRIP 15 0 ≤ (reading [0x690] n).toInt) ∧
    (∀ n < 16, (reading [0x68F] n).toInt < up.threshold Reg.THERMAL_T_TRIP 15 0) ∧ up.admits .mgc 0x005 = true ∧
    up.locked 0x005 1 = false ∧ bits (65000 : Word) 16 0 ≤ 65000 ∧ 65000 < bits (65001 : Word) 16 0 ∧
    (withRegs [(Reg.LOCK 0x005, 2)] up).locked 0x005 1 = true ∧ ({ withRegs [(Reg.ICU_ENABLE7 1, 0x10000)] (up.edge 0) with power := { deepIdle := true } } : State).wakeEdge = true ∧ up.wakeEdge = false ∧
    (withRegs [(Reg.BOOT_DEEP_IDLE, 1)] { up with ep := { l2 := true } }).deepIdleOk = true ∧ up.deepIdleOk = false := by decide

theorem witness_ResetClassesReach :
    up.ep.perst = false ∧ (let s : State := { up with ep := { perst := true } }
      s.ep.perst = true ∧ s.ep.supplyHold = false) ∧
    ({ up with ep := { perst := true, supplyHold := true } } : State).ep.supplyHold = true ∧ up.admits .host 0x003 = true ∧
    up.resetNow = true ∧ (ticks [] up).resetNow = false ∧ bit 0x80000010 31 = true ∧ unitResettable (bits (0x80000010 : Word) 7 0) = true := by
  decide

theorem witness_FirmwareWindowAndVerification :
    (let s := withRegs [(Reg.BOOT_STATE, 1), (Reg.BOOT_FW_ADDR, 1572860), (Reg.BOOT_FW_LEN, 64)] up
     s.admits .host 0x003 = true ∧ s.bootCode = 1 ∧ s.regN Reg.BOOT_FW_ADDR + 4 ≤ 1572864 ∧ s.regN Reg.BOOT_FW_LEN ≠ 0) ∧
    1572864 < (withRegs [(Reg.BOOT_FW_ADDR, 1572864)] up).regN Reg.BOOT_FW_ADDR + 4 ∧
    (withRegs [(Reg.BOOT_STATE, 3)] up).bootCode = 3 ∧ (withRegs [(Reg.BOOT_STATE, 3)] up).regN Reg.BOOT_FW_LEN = 0 ∧
    up.bootCode ≠ 1 ∧ up.bootCode ≠ 3 ∧ up.bootCode ≠ 2 ∧ (withRegs [(Reg.BOOT_STATE, 2)] up).bootCode = 2 := by decide

theorem witness_FirmwareWindowAndVerification_refused :
    (withRegs [(Reg.BOOT_STATE, 2)] up).verifyImage [] 0 ≠ 0 := by decide

/-- The sweeps of a channel of one rank: taps 32 to 63 pass at every lane, and codes 32 to 63. -/
def sweeps : List LaneSweep :=
  [false, true].flatMap (fun sub => (List.finRange 5).map (fun l => ⟨l, sub, false, 0xFFFFFFFF00000000, 0xFFFFFFFF00000000, 0xFFFFFFFF00000000⟩))

theorem witness_ChannelsAreConfiguredTrainedAndReleased :
    up.admits .host (pageDc 7) = true ∧ up.locked (pageDc 7) 0 = false ∧ up.chanState 7 = 0 ∧ bit 0x11 0 = true ∧ dcRowOk 0x11 = true ∧
    dcRowOk 0x17 = false ∧ up.admits .host 0x310 = true ∧ up.locked 0x310 0 = false ∧ up.bankState false = 0 ∧ up.bankState true = 0 ∧
    up.admits .host 0x003 = true ∧
    (let s := withRegs [(Reg.BOOT_STATE, 4), (Reg.DC_CFG 7, 0x11), (Reg.DC_STATE 6, 3), (Reg.DC_STATE 5, 2)] up
     s.trainable 7 = true ∧ s.trainable 6 = false ∧ bit 0xC0 7 = true ∧ s.domOn 28 = false ∧ s.chanState 6 = 3 ∧ s.chanState 5 = 2) ∧
    (sweeps.map laneIx).Nodup := by decide

set_option maxRecDepth 20000 in
theorem witness_ChannelsAreConfiguredTrainedAndReleased_sweeps :
    sweepFails 0x11 sweeps = none ∧ sweepFails 0x11 [] = some (5, 0, false, false) ∧ channelLanes 0x11 ≠ [] := by decide

/-- A read and a write of subchannel 0 of channel 0. -/
def burstRead : DramReq := { offset := 0x40, write := none, initiator := 3 }
/-- The write. -/
def burstWrite : DramReq := { offset := 0x80, write := some (60, [1, 2, 3, 4]), initiator := 4 }

theorem witness_ChannelsServeBatchesAndMaintenance :
    trained.upsets = [] ∧ trained.chanServes 0 = true ∧ trained.chanState 0 = 1 ∧ (trained.dram 0).closed = false ∧
    takeBatch [burstWrite, burstRead] 0 = ([burstRead, burstWrite], []) ∧
    (takeBatch [burstWrite, burstRead] 0).1.filter (fun x => x.write.isSome) = [burstWrite] ∧ trained.chanServes 7 = false ∧
    ({ trained with drams := [(0, { closed := true })] } : State).dram 0 = { closed := true } ∧
    (let s : State := { trained with upsets := [(64, .symbols [(3, 1)])] }
     s.chanServes 0 = true ∧ (mapGet s.upsets (0 * 2 ^ 34 + 64)).any upsetBad = false) ∧
    (mapGet ({ trained with upsets := [(0, Upset.symbols ((List.range 9).map (fun i => (Fin.ofNat 80 i, 1))))] } : State).upsets
      (0 * 2 ^ 34 + 0)).any upsetBad = true ∧
    ((ticks [entryWords 0x28 8 0x1000 0 0] trained).entryFor 0 0x28 0x2F 8).map Entry.unit = some 0x28 ∧
    { ticks [entryWords 0x28 8 0x1000 0 0] trained with power := { state := [(24, 2), (25, 2)] } }.chanServes (0x28 - 0x28) = true ∧ trained.sweepErrors 0 = [] := by decide

theorem witness_DramAddressesDoNotShareABurst :
    trained.dramPlace 0 = some (0, 0) ∧ trained.dramPlace (2 ^ 34 - 1) = some (0, 2 ^ 34 - 1) ∧ trained.dramPlace (2 ^ 34) = none ∧
    trained.setValid 0 = true ∧ (trained.mapSet 0).base * 2 ^ 30 ≤ 0 ∧
    2 ^ 34 - 1 < (trained.mapSet 0).base * 2 ^ 30 + (trained.mapSet 0).p * (trained.mapSet 0).size * 2 ^ 30 := by decide

theorem witness_StoresReadBackWhatIsWritten :
    (let p : Ptr := { store := .dram, addr := 0xFE }
     trained.refusesAccess p 4 = none ∧ (trained.meetErrors p.store (trained.partialUnits p 4)).2 ≠ 2 ∧ Memory.wf trained.mem) ∧
    (let p : Ptr := { store := .video, addr := 0x7FFFFC }
     up.refusesAccess p 4 = none ∧ (up.meetErrors p.store (up.partialUnits p 4)).2 ≠ 2) := by decide

theorem witness_PoolsLendAndTakeBackBuffers :
    (let p : Pool := { pool1 with owners := [(0, [1])] }
     let s : State := { up with pools := [(1, p)] }
     mayAlloc 0 1 = true ∧ p.valid = true ∧ p.bpMask.getLsbD (bpmClass 0) = false ∧ (∀ i < 1, (mapGet p.owners i).isSome = true) ∧
     mapGet p.owners 1 = none ∧ (match s.bpmFind { store := .common, addr := 0x80000 } with | .ok x => some x | .error _ => none) = some (1, 0) ∧
     mayAdd 0 2 = true ∧ mayRelease 0 1 = true ∧ mayAdd 0 5 = false ∧ mayRelease 8 1 = false ∧
     (match s.bpmFind { store := .common, addr := 0x80001 } with | .ok _ => 0 | .error e => e) = 2 ∧
     (match s.bpmFind { store := .common, addr := 0x80040 } with | .ok _ => 0 | .error e => e) = 3 ∧
     (match s.bpmFind { store := .common, addr := 0x80080 } with | .ok _ => 0 | .error e => e) = 1) ∧
    (let p : Pool := { pool1 with owners := [(0, [1, 1, 2, 2]), (1, [1])] }
     (∀ i < p.count, (mapGet p.owners i).isSome = true) ∧ mapGet p.owners 0 = some [1, 1, 2, 2]) := by decide

/-- Sensor input 15 takes data type 0x2A of port 1, virtual channel 2, in pictures of 4 x 2; a frame is open on it. -/
def sensing : State :=
  let ctl : Word := BitVec.ofNat 32 (1 + 2 * 1 + 8 * 2 + 32 * 0x2A)
  withRegs [(Reg.CSI_PHY_CFG 1, 4), (Reg.CTL (pageCsi 1), 1)]
    { ticks [entryWords 0x20 9 0 0 0] up with
      eff := [(Reg.ALIGN_IN_CTL 15, ctl), (Reg.ALIGN_IN_SIZE 15, 0x00020004), (Reg.ALIGN_IN_GROUP 15, 8)]
      power := { state := [(22, 2), (24, 2)] }
      sensors := [(15, { openFrame := some { buf := { store := .common, addr := 0x80000 }, stamp := 9, frameNo := 7, lines := 0, bad := false
                                             ctl := ctl, size := 0x00020004 } })] }

theorem witness_SensorFramesStartFillAndEnd :
    sensing.csiOn 1 = true ∧ inPort (sensing.inCtl 15) = 1 ∧ inVc (sensing.inCtl 15) = 2 ∧ bit (sensing.inCtl 15) 0 = true ∧
    csiTypes.contains 0x2A = true ∧ csiTypes.contains 0x12 = false ∧ sensing.inputMatches 15 1 2 0x2A = true ∧
    (∀ n < 16, sensing.inputMatches n 1 3 0x2A = false) ∧ sensing.openInputs 1 2 = [15] ∧ sensing.upsets = [] ∧
    (List.range 16).filter (fun x => bit (sensing.inCtl x) 0 && inPort (sensing.inCtl x) == 1 && inVc (sensing.inCtl x) == 2) = [15] ∧
    ({ sensing with sensors := [] } : State).openInputs 1 2 = [] ∧ sensing.csiOn 0 = false ∧ (up.entryFor 0 0x20 0x20 9).isNone = true ∧ (sensing.sensor 15).openFrame.isSome = true ∧
    (∀ n < 16, sensing.inputMatches n 1 2 0x2A = decide (n = 15)) ∧ 4 * 4 = bits (0x00020004 : Word) 15 0 * csiPacket4 0x2A ∧
    (sensing.openInputs 1 2).contains 15 = true ∧ (sensing.openInputs 1 3).contains 15 = false ∧
    (sensing.entryFor 0 0x20 0x20 9).isSome = true ∧ sensing.validInputs = [15] ∧ 8 ≤ sensing.inGroup 15 ∧ sensing.domOn 22 = true := by
  decide

theorem witness_ConfigurationWritesWithRules :
    up.admits .host 0x221 = true ∧ bits (0x1005 : Word) 3 0 = 5 ∧ bits (0x1005 : Word) 12 8 = 16 ∧ bits (0x180A : Word) 3 0 = 10 ∧
    bits (0x180A : Word) 12 8 = 24 ∧ bits (0x0F05 : Word) 12 8 < 16 ∧ up.admits .host 0x200 = true ∧ (regDesc 0x200 0x114).isSome = true ∧
    (regDesc 0x200 0x120).isSome = true ∧ up.ctxEnabled 0 = false ∧ (streamsOn up).ctxEnabled 0 = true ∧ up.admits .host 0x21D = true ∧
    up.proxyFits 0 0 = true ∧ up.proxyFits 65535 1048575 = false ∧ (capRegs .media).isSome = true ∧ up.admits .host 0x012 = true ∧
    (ticks [] up).bankActive = true ∧ (ticks [] up).regN Reg.SHARED_MEDIA_RATE_BUNDLE < bits (0xFFFF : Word) 15 0 := by decide

/-- A frame of 64 bytes for port 0's own address. -/
def frame (payload : EthPayload) : EthFrame :=
  { len := 64, fcsOk := true, tags := 0, dest := 0, payload := payload, ingress := 0, ingressFrac := 0 }

/-- Both Ethernet ports work, and flow entry 255 of stream 255 takes UDP port 5004 at port 0. -/
def wired : State :=
  withRegs [(Reg.CTL (pageEp 0), 1), (Reg.CTL (pageEp 1), 1)]
    (streamsOn { up with power := { state := [(23, 2)] }
                         eth := { fwd0 := [{ len := 64, event := true, correct := true, ingress := 0, ingressFrac := 0 }]
                                  newSources := [(5004, 1)] } })

theorem witness_FramesAtTheEthernetPorts :
    wired.portOn 0 = true ∧ wired.portOn 1 = true ∧ wired.fwdQueue 0 ≠ [] ∧ wired.accepts 0 0 = true ∧ wired.accepts 0 1 = false ∧
    wired.forwards 0 1 = false ∧ (withRegs [(Reg.SYSTEM_FWD_CTL, 1)] wired).forwards 0 1 = true ∧
    isPtp (.ptp true 0 0 false) = true ∧ (frame .pause).payload = .pause ∧ up.admits .host 0x201 = true ∧ bit 1 0 = true ∧
    up.owner 0x201 = masterCode .host ∧ up.owner 0x201 ≠ masterCode .mgc ∧ wired.eth.newSources = (5004, 1) :: [] := by decide

theorem witness_LoadsPassTheirPhases :
    up.admits .host 0x002 = true ∧ bit 0x10 4 = true ∧ bit 0x10 0 = false ∧ bit 3 0 = true ∧ bit 3 1 = true ∧ bit 3 4 = false ∧
    up.bankState false = 0 ∧ (ticks [] up).bankState false = 3 ∧ (withRegs [(Reg.LEDGER_BANK_STATE, 0x10)] up).bankState true = 1 ∧
    up.loader.load = none ∧ (withRegs [(Reg.LOADER_STAGE_LEN, 64)] trained).stageInDram
      (withRegs [(Reg.LOADER_STAGE_LEN, 64)] trained).loadStage 64 = true := by decide

theorem witness_ArbitersAndRegulators :
    (let r : FabReq := { initiator := 0, ptr := { store := .video, addr := 0 }, bytes := 64, write := none }
     let q : FabReq := { initiator := 26, ptr := { store := .secure, addr := 0 }, bytes := 64, write := none }
     rrPick 26 [q, r] = some r ∧ rrPick 25 [q, r] = some q ∧ fabProtected q = false ∧ fabProtected r = false ∧
     fabProtected { q with initiator := 0 } = true ∧ calm up = true ∧ up.fabPort r.ptr = some 20 ∧ up.outsidePitch r = none ∧ up.refusesAccess r.ptr 64 = none ∧ r.ptr.store ≠ .dram) ∧
    (let x : SpadReq := { port := 18, group := 2, head := false, row := 2047, write := none }
     spadPick (fun r => r.write.isNone) [x] [{ x with port := 3, group := 1, head := true }] = some { x with port := 3, group := 1, head := true } ∧
     spadPick (fun r => r.write.isSome) [x] [] = none) ∧
    ({ up with power := { state := [(7, 2)] } } : State).domOn 7 = true ∧ calm { up with power := { state := [(7, 2)] } } = true ∧
    ({ up with stalls := [(7, { slot := some ⟨0, 31, 7⟩ })] } : State).stall 7 = { slot := some ⟨0, 31, 7⟩ } ∧
    (bits (up.reg (Reg.STALL_PITCH 7)) 7 0).testBit 7 = false ∧
    (bits ((withRegs [(Reg.STALL_PITCH 7, 0x80)] up).reg (Reg.STALL_PITCH 7)) 7 0).testBit 7 = true := by decide


/-- What the instruction at `pc` of cluster c runs with. -/
def issueAt (s : State) (c : Fin 8) (pc : Nat) : Issue :=
  match s.nextInstr c pc with
  | some (st, sl) => { st := st, job := sl.job, c := c, ws := s.words { store := .spad c, addr := pc } 16 }
  | none => { st := 0, job := 0, c := c, ws := [] }

/-- Conditions that can be decided give those of `Runs` for the first instruction of a program part. -/
theorem runs_of (s : State) (c : Fin 8) (pc op : Nat)
    (h : (s.nextInstr c pc).isSome = true ∧ s.refusesAccess { store := .spad c, addr := pc } 64 = none ∧ calm s = true ∧
      bits ((issueAt s c pc).w 0) 7 0 = op ∧ instrBad (issueAt s c pc).ws = false ∧ s.predicate (issueAt s c pc) = true ∧
      s.held (issueAt s c pc) = false) :
    s.Runs c pc op (issueAt s c pc) := by
  obtain ⟨h1, h2, h3, h4, h5, h6⟩ := h
  refine ⟨?_, h5, h6.1, h6.2⟩
  obtain ⟨x, hx⟩ := Option.isSome_iff_exists.mp h1
  obtain ⟨st, sl⟩ := x
  have e : issueAt s c pc = { st := st, job := sl.job, c := c, ws := s.words { store := .spad c, addr := pc } 16 } := by
    simp [issueAt, hx]
  exact ⟨sl, by simp [hx, e], by simp [e], by simp [e], by simp [e], h2, calm_atRest s h3, h4⟩

/-- Stall 0 holds cluster 0 and runs job 3 of model 7, whose one instruction on the cluster has these words (place and value) and
zero elsewhere. -/
def running (ws : List (Nat × Word)) : State :=
  putWords { store := .spad 0, addr := 0 } ((List.range 16).map (fun i => ((ws.find? (fun w => w.1 == i)).map Prod.snd).getD 0))
    (withRegs [(Reg.STALL_CLUSTERS 0, 1)]
      { ticks [] up with
        power := { state := [(0, 2), (24, 2)] }
        stalls := [(0, { slot := some ⟨0, 3, 7⟩ })], clusters := [(0, { count := 1 })] })

/-- One row of one FP32 column of X at 0x1000, Y at 0x1800 and D at 0x2000. -/
def vector (op : Word) (w : List (Nat × Word)) : State :=
  running (w ++ [(0, op), (1, 0xD0D00), (2, 1), (3, 1), (4, 0x1000), (6, 0x1800), (8, 0x2000)])

/-- MATMUL of one INT8 element with one, in engine 0. -/
def matmul : State :=
  running [(0, 1), (1, 0x00220001), (2, 1), (4, 1), (5, 1), (6, 1), (7, 0x1000), (9, 0x1800), (11, 0x2000)]

/-- An instruction of cluster 0 with one output pixel. -/
def window (op w1 : Word) : State :=
  running [(0, op), (1, w1), (2, 0x00010001), (3, 1), (5, 0x00010000), (6, 0x1000), (8, 0x2000)]

/-- A pass of one INT8 column and lane. -/
def onePass : PassWork :=
  { w0 := 0x02000001, w1 := 0x22, aBase := [{ store := .spad 0, addr := 0x1000 }], aStride := 1
    bBase := [{ store := .spad 0, addr := 0x1800 }], bStride := 1, rows := 1, cols := [1], k0 := 0, kel := 1, zpA := 0, zpB := 0 }

theorem witness_SequencerRefusesSkipsAndStarts :
    (running []).Runs 0 0 0x00 (issueAt (running []) 0 0) ∧
    (running [(0, 5), (1, 15), (2, 0x1000)]).Runs 0 0 0x05 (issueAt (running [(0, 5), (1, 15), (2, 0x1000)]) 0 0) ∧
    (running [(0, 5), (1, 15), (2, 0x1000)]).CanRead [(descPtr 0 0x1000, 4)] ∧
    (running [(0, 6), (1, 64), (2, 0x1000), (4, 0x2000)]).Runs 0 0 0x06
      (issueAt (running [(0, 6), (1, 64), (2, 0x1000), (4, 0x2000)]) 0 0) ∧
    (let s := running [(0, 6), (1, 64), (2, 0x1000), (4, 0x2000)]
     s.inPoolRegion (movePtr 0 0x1000 0) = false ∧ s.moveOutside 0 (s.relocate s.unitOdd (movePtr 0 0x1000 0)) 64 = false ∧
     s.CanRead [(movePtr 0 0x1000 0, 64)] ∧ s.CanWrite [(movePtr 0 0x2000 0, 64)]) ∧
    up.nextInstr 0 0 = none ∧ instrBad (issueAt (running [(1, 1)]) 0 0).ws = true ∧
    (running [(0, 0x1000)]).predicate (issueAt (running [(0, 0x1000)]) 0 0) = false ∧
    instrBad (issueAt (running [(0, 0x1000)]) 0 0).ws = false ∧
    (let s := { matmul with engines := [(0, { work := [.pass onePass] })] }
     s.predicate (issueAt s 0 0) = true ∧ s.held (issueAt s 0 0) = true) ∧
    ∀ e ∈ clusterEngines 0, ((running []).engine e).work = [] := by
  refine ⟨runs_of _ _ _ _ (by decide), runs_of _ _ _ _ (by decide), ?_, runs_of _ _ _ _ (by decide), ?_, ?_⟩
  · unfold State.CanRead; decide
  · unfold State.CanRead State.CanWrite; decide
  · decide

/-- The instructions of the vector engine, one element each. -/
def vectors : List (Nat × State) :=
  [(0x40, vector 0x40 []), (0x41, vector 0x41 []), (0x42, vector 0x42 [(6, 0)]), (0x43, vector 0x43 [(6, 0)]),
   (0x44, running [(0, 0x44), (1, 0x10D00), (2, 1), (3, 1), (4, 0x1000), (8, 0x2000), (12, 0x400)]), (0x45, vector 0x45 [(12, 1)]),
   (0x46, vector 0x46 [(3, 16), (6, 0), (12, 0x400)])]

theorem vectors_run : ∀ p ∈ vectors, p.2.Runs 0 0 p.1 (issueAt p.2 0 0) := by
  intro p hp
  apply runs_of
  revert p
  decide

theorem vectors_ranges : ∀ p ∈ vectors,
    (∀ r ∈ ((issueAt p.2 0 0).vxRanges p.1 1 1).flatMap Prod.fst, p.2.refusesAccess (p.2.relocate p.2.unitOdd r.1) r.2 = none) ∧
    (∀ r ∈ ((issueAt p.2 0 0).vxRanges p.1 1 1).flatMap Prod.snd, p.2.refusesAccess (p.2.relocate p.2.unitOdd r.1) r.2 = none ∧
      (p.2.relocate p.2.unitOdd r.1).store ≠ .common) ∧ p.2.effective (issueAt p.2 0 0) 2 = 1 := by decide

/-- EXPAND, S2D and POOL with a single output. -/
def windows : List (Nat × State) :=
  [(0x02, window 0x02 0x02111111), (0x03, running [(0, 3), (1, 0x02000001), (2, 0x00010001), (3, 1), (6, 0x1000), (8, 0x2000)]),
   (0x04, window 0x04 0x02001111)]

theorem windows_run : ∀ p ∈ windows, p.2.Runs 0 0 p.1 (issueAt p.2 0 0) := by
  intro p hp
  apply runs_of
  revert p
  decide

theorem windows_ranges : ∀ p ∈ windows,
    ((issueAt p.2 0 0).patchRanges p.1).length = 1 ∧
    (∀ q ∈ (issueAt p.2 0 0).patchRanges p.1, ∀ r ∈ windowReads (issueAt p.2 0 0) 1 q.1,
      p.2.refusesAccess (p.2.relocate p.2.unitOdd r.1) r.2 = none) ∧
    (∀ r ∈ ((issueAt p.2 0 0).patchRanges p.1).map Prod.snd, p.2.refusesAccess (p.2.relocate p.2.unitOdd r.1) r.2 = none) := by decide

theorem witness_VectorAndPatchInstructionsWriteTheirResults :
    (∀ p ∈ vectors, p.2.Runs 0 0 p.1 (issueAt p.2 0 0)) ∧ (∀ p ∈ windows, p.2.Runs 0 0 p.1 (issueAt p.2 0 0)) :=
  ⟨vectors_run, windows_run⟩

/-- A drain of one column. -/
def oneDrain : DrainWork :=
  { accBase := 0, facets := 1, rows := 1, parts := [({ store := .spad 0, addr := 0x2000 }, 1, { store := .spad 0, addr := 0x2400 })]
    biasEn := true, fp := false, empty := false }

/-- Engine 0 has work of the job. -/
def working (w : List EngWork) : State := { running [] with engines := [(0, { work := w })] }

theorem matmul_runs : matmul.Runs 0 0 0x01 (issueAt matmul 0 0) ∧ matmul.maskEngines 0 1 = [0] ∧
    (∀ e ∈ clusterEngines 0, (matmul.engine e).work = []) ∧
    ((mmOf (issueAt matmul 0 0) 2 2).plan (issueAt matmul 0 0) 1 0 1 1 1).work.length = 2 :=
  ⟨runs_of _ _ _ _ (by decide), by decide⟩

theorem matrix_work :
    (working [.pass onePass]).engineStall 0 = some (0, ⟨0, 3, 7⟩) ∧
    nextPass [] ((working [.pass onePass]).engine 0).work = some (onePass, []) ∧ calm (working [.pass onePass]) = true ∧
    wordRefused onePass.w0 onePass.w1 2 2 = false ∧ bit onePass.w0 25 = true ∧ bit onePass.w0 26 = false ∧
    ((working [.pass onePass]).passGroup 0 onePass []).length = 1 ∧
    (∀ i ∈ (working [.pass onePass]).passGroup 0 onePass [], wordRefused i.p.w0 i.p.w1 ((working [.pass onePass]).passClasses i.e i.p).1
      ((working [.pass onePass]).passClasses i.e i.p).2 = false ∧ (working [.pass onePass]).passUe i none = none) ∧
    (let q := { onePass with w0 := onePass.w0 ||| 0x04000000 }
     bit q.w0 26 = true ∧ bit ((working [.pass q]).reg (Reg.MX_MAP 1)) 16 = false ∧
     ({ running [] with engines := [(1, { work := [.pass q] })] } : State).engineStall 1 = some (0, ⟨0, 3, 7⟩)) ∧ (Engine.bad {}) = [] ∧
    (∀ r ∈ onePass.aReads 2 ++ onePass.bReads 2, (working [.pass onePass]).refusesAccess
      ((working [.pass onePass]).relocate (working [.pass onePass]).unitOdd r.1) r.2 = none) ∧
    ((working [.drain oneDrain]).engine 0).work = [.drain oneDrain] ∧
    (∀ r ∈ [(({ store := .spad 0, addr := 0x2000 } : Ptr), 4), ({ store := .spad 0, addr := 0x2400 }, 4)],
      (working [.drain oneDrain]).refusesAccess ((working [.drain oneDrain]).relocate (working [.drain oneDrain]).unitOdd r.1) r.2
        = none) := by decide

/-- SELECT, KPRED and CBLOAD. -/
def others : List (Nat × State) :=
  [(0x47, vector 0x47 [(14, 1), (1, 0xD00), (6, 0)]),
   (0x48, running [(0, 0x48), (2, 1), (4, 0x1000), (5, 0x120), (6, 0x1800)]), (0x49, running [(0, 0x49), (1, 0x02000001), (4, 0x1000)])]

theorem others_run : ∀ p ∈ others, p.2.Runs 0 0 p.1 (issueAt p.2 0 0) := by
  intro p hp
  apply runs_of
  revert p
  decide

theorem others_ranges : ∀ p ∈ others,
    (∀ r ∈ [(descPtr 0 0x1000, 0x120), (descPtr 0 0x1800, 32), (descPtr 0 0x1000, 4), (descPtr 0 0, 16), (descPtr 0 0x2000, 4)],
      p.2.refusesAccess (p.2.relocate p.2.unitOdd r.1) r.2 = none ∧ (p.2.relocate p.2.unitOdd r.1).store ≠ .common) := by decide

theorem witness_MatrixWorkAndTheOtherInstructions :
    matmul.Runs 0 0 0x01 (issueAt matmul 0 0) ∧ nextPass [] ((working [.pass onePass]).engine 0).work = some (onePass, []) ∧
    ((working [.drain oneDrain]).engine 0).work = [.drain oneDrain] ∧ ∀ p ∈ others, p.2.Runs 0 0 p.1 (issueAt p.2 0 0) :=
  ⟨matmul_runs.1, by decide, by decide, others_run⟩

/-- The last phase of a load into bank B, with nothing lost. -/
theorem loads_last_phase :
    let l : Load := { phase := 5, bank := true, base := 0x100, len := 64 }
    let s : State := { up with loader := { up.loader with load := some l } }
    s.loader.load = some l ∧ 5 ≤ l.phase ∧ (firstFail (s.lostFails (stageSrc (s.bundle l.bank) l.base) l.frozen.toNat)).isNone = true := by
  decide

/-- The last flow entry takes a packet from any source for the last stream. -/
theorem flow_match :
    let s := withRegs [(Reg.FLOW_FLOW_CTL 255, 0x60FF13), (Reg.FLOW_FLOW_DPORT 255, 5004)] wired
    let r : RtpPacket := { version2 := true, payloadType := 96, seq := 1, timestamp := 0, marker := true, ssrc := 0, modeOk := true
                           payload := [], units := [] }
    s.flowMatch 255 0 false 0 5004 r = true ∧ (∀ b < 2, s.flowMatch b 0 false 0 5004 r = false) ∧
    bits (s.reg (Reg.FLOW_FLOW_CTL 255)) 15 8 = 255 ∧ s.streamOn 255 = true ∧ s.container 255 = 4 ∧ (s.stream 255).rtpIsLate r = false := by
  decide

/-- The management core's firmware runs, and a staging region lies in trained DRAM. -/
def secured : State :=
  withRegs [(Reg.BOOT_STATE, 4), (Reg.SECURITY_STAGE_LEN, 64)] { trained with sec := { runSvn := 2 } }

theorem witness_SecurityCommandsAreJudgedAndEnd :
    (∀ p ∈ [(secured, 4), (up, 1)], (p.1.setReg (Reg.OWNER 0x006) 0).admits .host 0x006 = true ∨ p.1.admits .mgc 0x006 = true) ∧
    secured.bootCode = 4 ∧ up.bootCode ≠ 4 ∧ secured.sec.cmd = none ∧
    secured.stageInDram secured.secStage (secured.regN Reg.SECURITY_STAGE_LEN) = true ∧
    up.stageInDram up.secStage (up.regN Reg.SECURITY_STAGE_LEN) = false ∧
    secured.refusesAccess { store := .dram, addr := secured.secStage } 64 = none ∧ secured.svnMin < 1 ∧ ¬ secured.sec.runSvn < 1 ∧
    secured.sec.runSvn < 3 ∧ (0 : Nat) ≤ secured.svnMin ∧ secured.lcFused = 0 ∧ secured.ownerSlotReady = false ∧
    ({ secured with sec := { secured.sec with fuses := { secured.sec.fuses with lc := 1 } } } : State).lcFused = 1 ∧
    ({ secured with sec := { secured.sec with cmd := some .update } } : State).sec.cmd = some .update ∧ calm secured = true ∧
    secured.keyHash 2 = 0 ∧ secured.keyProgrammed 2 = false ∧ secured.sec.fuses.keyRevoked.getLsbD 2 = false ∧
    bits ((withRegs [(Reg.FUSE_KEY_SEL, 2)] secured).reg Reg.FUSE_KEY_SEL) 1 0 = 2 ∧ bits (secured.reg Reg.FUSE_KEY_SEL) 1 0 < 2 ∧
    bit 1 0 = true := by decide

theorem witness_QuotesWipesAndTheI2cTarget :
    (secured.admits .host 0x006 = true ∨ secured.admits .mgc 0x006 = true) ∧ secured.sec.quoteHead = [] ∧
    secured.sec.wiping = false ∧ secured.sec.tampered = false ∧ secured.sec.pendingLc = false ∧ secured.sec.identity = false ∧
    secured.hostReadBlocked = none ∧ (secured.owner 0x006 = 0 ∨ secured.owner 0x006 = 1) ∧ masterCode .host ≠ masterCode .mgc ∧
    (0x06 : Byte) ∉ i2cCommands ∧ i2cHidden 0x006 = true ∧ i2cHidden 0x001 = false := by decide

/-! ## Results computed by hand from the spec -/

/-- R345's worked example: INC at -118,400 ppb, the nominal 4 ns, and the share of a handover in one TCLK. -/
theorem test_handover_rate :
    incOf (-118400) = 0x3FFE0F64F ∧ incOf 0 = 0x400000000 ∧ roundTowardZero (100000 * 2 ^ 34) 1000000000 = 1717987 := by decide

/-- R294 and R295's worked example: where device address 0x10_0050_1A40 lies. -/
theorem test_address_decode :
    ({ base := 64, size := 4, mask := 0x0F, off := 8 } : MapSet).place 0x1000501A40 = (2, 0x200140640) ∧
    dramLoc 0x11 0x200140640 = { sub := 1, group := 1, bank := 1, rank := 0, row := 0x8005, col := 0 } := by decide

set_option maxRecDepth 8192 in
/-- R361's worked example: the levels of four readings, and a fall after 64 samples below. -/
theorem test_clamp_levels :
    [1376, 1432, 1460, 1436, 1408].map (fun t => up.clampX t 0) = [0, 1, 2, 1, 1] ∧
    (let s := { withRegs [(Reg.THERMAL_CLAMP, 0x20)] up with clusters := [(2, { clampBelow := 63 })] }
     (s.clampSample 2 1).clampLevel 2 = 1 ∧ (s.clampSample 3 1).clampLevel 2 = 2) ∧
    (({ withRegs [(Reg.THERMAL_CLAMP, 0x20)] up with clusters := [(2, { clampBelow := 62 })] } : State).clampSample 2 1).clampLevel 2 = 2 := by
  decide

/-- R129's worked example: the group sum of four FP16 products. -/
theorem test_group_sum :
    groupAccumulate (fracBits 8 + fracBits 8)
      ([(0x6400, 0x6400), (0x6400, 0xE400), (0x4200, 0x0008), (0x3C00, 0x0001), (0, 0)].map (fun p => mulNum (numOf 8 p.1) (numOf 8 p.2)))
      0 true = 0x35800000 := by decide

/-- R136's worked example: the first stochastic rounding in lane 3, beside the other modes. -/
theorem test_stochastic_rounding :
    lfsrSeed 1 3 = 0xDAA66D2A ∧ lfsr16 0xDAA66D2A = 0x6D2AB418 ∧
    [0, 1, 2].map (fun m => (convert (num32 0x3F806000) 9 m false 0xB418).code) = [0x3F80, 0x3F80, 0x3F81] := by decide

/-- The worked example of R157 and R159: a block scaled directly, rotated, and the scale of the rotated block. -/
theorem test_rotated_block :
    blockScale 2 0x447E0000 = (0x41000000, 0) ∧ blockScale 2 0 = (0, 1) ∧
    (whtBlock 4 ([0x447E0000, 0x40400000, 0x40800000] ++ List.replicate 13 0)).take 4 = [0x437FC000, 0x437E4000, 0x437DC000, 0x437C4000] ∧
    blockScale 2 0x437FC000 = (0x4000E1C4, 0) := by decide

/-- The quotients of that example as INT8: 127, and a tie that goes to the even 0 as an underflow. -/
theorem test_quantised_codes :
    convert (num32 (fdiv 0x447E0000 0x41000000)) 2 0 false 0 = ⟨0x7F, 0⟩ ∧ convert (num32 (fdiv 0x40800000 0x41000000)) 2 0 false 0 = ⟨0, 3⟩ ∧
    [0x437FC000, 0x437E4000, 0x437DC000, 0x437C4000].map (fun v => (convert (num32 (fdiv v 0x4000E1C4)) 2 0 false 0).code)
      = [0x7F, 0x7E, 0x7E, 0x7D] := by decide

/-- The worked example of R235 to R238: the costs, the assignment and the ID of a birth. -/
theorem test_association :
    pairCost ⟨10200, 20400, 12200, 24400⟩ ⟨10000, 20000, 12000, 24000⟩ = 20927 ∧
    pairCost ⟨29000, 20000, 31000, 24000⟩ ⟨30000, 20000, 32000, 24000⟩ = 43690 ∧
    pairCost ⟨30500, 20000, 32500, 24000⟩ ⟨30000, 20000, 32000, 24000⟩ = 26214 ∧
    pairCost ⟨10200, 20400, 12200, 24400⟩ ⟨50000, 10000, 51000, 12000⟩ = 65535 ∧
    assign (sortPairs [(20927, 0, 0), (43690, 1, 1), (26214, 1, 2)]) [] = [(0, 0, 20927), (2, 1, 26214)] ∧
    BitVec.ofNat 32 (5 * 2 ^ 22 + (localNumber 0x1A2B).1) = (0x01401A2B : Word) ∧ localNumber 0x3FFFFE = (0x3FFFFE, 0) := by decide

/-- R266's worked example: seventeen rows of slice bits against an allowance of 300,000. -/
theorem test_rate_control :
    rateControl 17 300000 2 0 0 30 ([30000, 25000, 20000, 15000, 12000, 9000, 7000] ++ List.replicate 10 7000) = (42, true, false) := by
  decide

/-- R209 and R212's worked example: the first sample's position, and the times of a sample and of its filler. -/
theorem test_letterbox :
    scalePos 1920 640 0 false true = 65536 ∧
    (let d := parsePpDesc [0, 0, 0x04380780, 0x01680280, 0x01800280, 0x000C0000, 0x20000, 0, 0, 0, 0, 7680] [] []
     d.sampleTime = 519456 ∧ d.fillTime = 11584 ∧ d.size = 737280) := by decide

/-- The worked example of R284 to R288: the address of buffer 700, and a release by the wrong owner. -/
theorem test_buffer_owners :
    let p : Pool := { valid := true, base := 0, bufSize := 3657728, count := 768, owners := [(700, [1, 3])] }
    (p.buf 700).addr = 2560409600 ∧ mayRelease 14 4 = false ∧ mayAdd 0 2 = true ∧ mayAlloc 0 1 = true ∧ p.free = 767 := by decide

/-- R408's worked example: the identification of MX45's page. -/
theorem test_page_identification : up.readReg 0x156 0 = 0x01012D01 ∧ up.readReg 0x000 0x100 = 0x00106410 := by decide

/-- The facets of R111's worked example: 24 columns of four banks at base 488 fit, at 489 they do not. -/
theorem test_control_word_limits :
    wordRefused (24 + 488 * 4096 + 2 * 2 ^ 23) 0x22 2 2 = false ∧ wordRefused (24 + 489 * 4096 + 2 * 2 ^ 23) 0x22 2 2 = true := by decide

/-- Four corners of FP32 arithmetic (R122 to R124): a halfway sum goes to even, a subnormal is flushed, the largest number doubles
to infinity, and infinity less infinity is the canonical NaN. -/
theorem test_fp32_corners :
    fadd 0x4B800000 0x3F800000 = 0x4B800000 ∧ fmul 0x00000001 0x3F800000 = 0 ∧ fadd 0x7F7FFFFF 0x7F7FFFFF = 0x7F800000 ∧
    fadd 0x7F800000 0xFF800000 = 0x7FC00000 := by decide

/-- LDLEN takes the word at its descriptor into the register it names (R107). -/
theorem test_ldlen :
    (after (.ldlen 0 0) (putWords { store := .spad 0, addr := 0x1000 } [70] (running [(0, 5), (1, 15), (2, 0x1000)]))).len 0 3 15 = 70 := by
  decide

/-- A reserved bit stops the job and counts (R44, R99). -/
theorem test_refused_instruction :
    let t := after (.nop 0 0) (running [(1, 1)])
    (t.stall 0).slot = none ∧ t.reg (Reg.CLUSTER_INSTR_REFUSED 0) = 1 ∧ t.reg (Reg.STALL_JOB_FAULT 0) = 1 ∧
    t.reg (Reg.STALL_FAULT_INFO 0) = 0x103 := by decide

/-- MOVE copies bytes (R112). -/
theorem test_move :
    ((after (.move 0 0) (putWords { store := .spad 0, addr := 0x1000 } [0x11223344]
      (running [(0, 6), (1, 3), (2, 0x1000), (4, 0x2001)]))).peeks { store := .spad 0, addr := 0x2000 } 5) = [0, 0x44, 0x33, 0x22, 0] := by
  decide

set_option maxRecDepth 8192 in
/-- An INT8 product, -3 times 5, in the accumulator and then in the drained block (R73, R86, R106). -/
theorem test_matmul_by_hand :
    let s0 := (matmul.pokes { store := .spad 0, addr := 0x1000 } [0xFD]).pokes { store := .spad 0, addr := 0x1800 } [5]
    let t := after (.passIssue 0 ⟨1, 0, [], 0, 0, [], [], none⟩) (after (.matmul 0 0) s0)
    t.accVal 0 0 0 = some 0xFFFFFFF1 ∧ (after (.blockDrain 0 [] none) t).word { store := .spad 0, addr := 0x2000 } = 0xFFFFFFF1 := by decide

/-- POOL of one UINT8 pixel and EXPAND of one write that pixel (R116, R118). -/
theorem test_windows_by_hand :
    (((after (.pool 0 0) ((window 0x04 0x03001111).pokes { store := .spad 0, addr := 0x1000 } [0xC8])).peek { store := .spad 0, addr := 0x2000 }) = 0xC8) ∧
    (((after (.expand 0 0) ((window 0x02 0x02111111).pokes { store := .spad 0, addr := 0x1000 } [0xC8])).peek { store := .spad 0, addr := 0x2000 }) = 0xC8) := by
  decide

/-- CVT of 2.5 with scale and offset 0 in words 10 and 11 gives 0; with scale 2 and offset 1 it gives 6 (R148). -/
theorem test_cvt_by_hand :
    let x := fun (w : List (Nat × Word)) => (after (.cvt 0 0 none) (putWords { store := .spad 0, addr := 0x1000 } [0x40200000] (vector 0x40 w))).word
      { store := .spad 0, addr := 0x2000 }
    x [] = 0 ∧ x [(10, 0x40000000), (11, 0x3F800000)] = 0x40C00000 := by decide

/-- W1C, OWNER and LOCK of a page (R3, R410). -/
theorem test_page_registers :
    (after (.evtRawClear .host 0x012 5 0) (withRegs [(Reg.EVT_RAW 0x012, 7)] up)).reg (Reg.EVT_RAW 0x012) = 2 ∧
    (after (.evtRawClear .host 0x010 5 0) (withRegs [(Reg.EVT_RAW 0x010, 7)] up)).reg (Reg.EVT_RAW 0x010) = 7 := by decide

/-! ## What the well-formedness check refuses -/

/-- A header of 16 by 16 pixels. -/
def smallHeader : AuHeader :=
  { rap := true, recovery := false, rasl := false, params := true, width := 16, height := 16, depth10 := false, mono := false, dpb := 1
    unsupported := false, headerIntact := true, cropX := 0, cropY := 0, cropW := 16, cropH := 16
    recoveryDone := true, names := [4], refs := [0, 2], drops := [] }

/-- A transfer within the device. -/
def move1 : Transfer :=
  { src := some { store := .common, addr := 0 }, hostAddr := 0, dst := some { store := .dram, addr := 0 }, len := 1, regWrites := [], stall := 0, streams := [] }

/-- A lane's sweeps. -/
def lane0 : LaneSweep := { lane := 0, sub := false, rank := false, read := 0xFFFF0, write := 0xFFFF0, vref := 1 }

theorem smoke_header : (Instr.decodeFrame 0 smallHeader).wf = false ∧ (Instr.decodeFrame 0 { smallHeader with dpb := 2 }).wf = true := by decide

theorem smoke_transfer :
    (Instr.stagingDmaEntry 0 move1).wf = true ∧ (Instr.stagingDmaEntry 0 { move1 with len := 0 }).wf = false ∧
    (Instr.stagingDmaEntry 0 { move1 with src := none, dst := none }).wf = false ∧
    (Instr.stagingDmaEntry 0 { move1 with regWrites := [(0x100, 0x102, 0)] }).wf = false := by decide

theorem smoke_lanes :
    (Instr.dcMaintEnd 0 [lane0, lane0]).wf = false ∧ (Instr.dcMaintEnd 0 [lane0, { lane0 with lane := 4 }]).wf = true ∧
    (Instr.trainingDone 0 (.swept [lane0, lane0])).wf = false ∧ (Instr.trainingDone 0 (.timedOut 0 0 false false)).wf = true := by decide

theorem smoke_requests :
    let f : FabReq := { initiator := 0, ptr := { store := .common, addr := 0 }, bytes := 2, write := some [1, 2] }
    (Instr.fabricGrant 0 [f]).wf = true ∧ (Instr.fabricGrant 0 [f, f]).wf = false ∧ (Instr.fabricGrant 0 [{ f with bytes := 3 }]).wf = false ∧
    (Instr.fabricGrant 0 [{ f with bytes := 0, write := none }]).wf = false ∧
    (Instr.fabricGrant 0 [{ f with bytes := 257, write := none }]).wf = false := by decide

/-- A scratchpad write of zeros from a port. -/
def rowWrite (port : Fin 19) : SpadReq :=
  { port := port, group := 2, head := false, row := 0, write := some (List.replicate 128 0) }

theorem smoke_rows : wfSpadReq (rowWrite 15) = true ∧ wfSpadReq (rowWrite 16) = false ∧ wfSpadReq { rowWrite 0 with write := some [0] } = false := by
  simp [wfSpadReq, rowWrite]

theorem smoke_bursts :
    let x : SpadReq := { port := 15, group := 2, head := false, row := 0, write := none }
    let d : DramReq := { offset := 64, write := some (63, [1]), initiator := 0 }
    (Instr.scratchpadGrant 0 0 [x]).wf = true ∧ (Instr.scratchpadGrant 0 0 [x, x]).wf = false ∧
    (Instr.dramBatch 0 false [d] 0 []).wf = true ∧ (Instr.dramBatch 0 false [d] 0 [⟨{ store := .dram, addr := 0 }, .correctable⟩]).wf = false ∧ (Instr.dramBatch 0 false [{ d with offset := 65 }] 0 []).wf = false ∧
    (Instr.dramBatch 0 false [{ d with write := some (63, [1, 2]) }] 0 []).wf = false := by decide

theorem smoke_lists :
    (Instr.boundarySequence 0 []).wf = false ∧ (Instr.indexReadDone []).wf = false ∧ (Instr.thermalSample [0] 0).wf = false := by decide

theorem smoke_streams :
    (Instr.intakeReadDone [(1, []), (1, [])]).wf = false ∧ (Instr.demultiplexerEntry 0 [] [(1, []), (1, [])] []).wf = false := by decide

theorem smoke_addresses :
    (Instr.nop 0 64).wf = true ∧ (Instr.nop 0 65).wf = false ∧ (Instr.cvt 0 32 none).wf = false ∧
    (Instr.registerWrite .host 0 0x102 0 none).wf = false ∧ (Instr.tallyClr .host 0 1 [0x201]).wf = false ∧
    (Instr.intakeConfigWrite .host 0x102 0).wf = false := by decide

theorem smoke_operands :
    (Instr.regulatorAdmit (.stallDram 0) none 64 0 none).wf = false ∧ (Instr.regulatorAdmit (.stallFabric 0) (some 0) 64 0 none).wf = false ∧
    (Instr.bar2Read 0 0 0).wf = false ∧ (Instr.bar2Write 0 [] 0).wf = false ∧ (Instr.configurationWrite .pmeEn 2).wf = false ∧
    (Instr.configurationWrite .completionTimeout 6).wf = true ∧ (Instr.configurationWrite .maxPayload 5).wf = true ∧
    (Instr.configurationWrite .maxReadRequest 8).wf = false ∧ (Instr.bpmCheck 3 { store := .dram, addr := 0 } [⟨3, .check { store := .dram, addr := 0 }, 1⟩]).wf = false ∧ (Instr.scrubDue 982 []).wf = false ∧ (Instr.i2cBad 0x10).wf = false ∧
    (Instr.dlActive 0 8).wf = false ∧ (Instr.dlActive 5 3).wf = false := by decide
end Sys2Proof.Tests
end

section
/-!
SUPPORT. Register writes and the common header of a page (O6 to O11): what a command that only sets registers leaves alone, what
the register tables hold at the offsets of tallies, that every write with a meaning of its own passes its page's gate, and what
TALLY_CLR leaves.
-/
namespace Sys2Proof.Laws
open Sys2Proof.Machine

/-! ## Commands that change registers only -/

/-- Nothing but the registers `ks` differs, and what `settle` may change. -/
def OnlyRegs (ks : List Nat) (s t : State) : Prop := SameRegs ks s t ∧ SameBytes s t ∧ SameRest s t

theorem onlyRegs_refl (ks : List Nat) (s : State) : OnlyRegs ks s s := ⟨fun _ _ _ => rfl, fun _ => rfl, rfl⟩

theorem onlyRegs_setReg {ks : List Nat} {s t : State} {k : Nat} (h : OnlyRegs ks s t) (hk : k ∈ ks) (v : Word) :
    OnlyRegs ks s (t.setReg k v) := by
  obtain ⟨hregs, hbytes, hrest⟩ := h
  refine ⟨fun k' hk' hr => ?_, hbytes, hrest⟩
  rw [reg_setReg_other t (ne_of_mem_of_not_mem hk hk').symm]
  exact hregs k' hk' hr

theorem reg_settle {k : Nat} (h : k ∉ riseTallies) (s : State) : (settle s).reg k = s.reg k := by
  simp only [riseTallies, List.mem_cons, List.not_mem_nil, or_false, not_or] at h
  obtain ⟨h0, h1, h2⟩ := h
  exact reg_settle_other s h0 h1 h2

theorem sameRegs_settle {ks : List Nat} {s t : State} (h : SameRegs ks s t) : SameRegs ks s (settle t) :=
  fun k hk hr => (reg_settle hr t).trans (h k hk hr)

theorem onlyRegs_settle {ks : List Nat} {s t : State} (h : OnlyRegs ks s t) : OnlyRegs ks s (settle t) := by
  obtain ⟨hregs, hbytes, hrest⟩ := h
  exact ⟨sameRegs_settle hregs, hbytes, hrest⟩

/-- The outcome of a command that leaves one register set. -/
theorem done_setReg {k : Nat} (hk : k ∉ riseTallies) (v : Word) (s : State) :
    ∃ t, done (s.setReg k v) = .next t ∧ t.reg k = v ∧ OnlyRegs [k] s t :=
  ⟨_, rfl, by simp [reg_settle hk], onlyRegs_settle (onlyRegs_setReg (onlyRegs_refl _ s) List.mem_cons_self v)⟩

/-! ## Keys -/

theorem keyOff_bkey {b p o : Nat} (ho : o < 4096) : keyOff (bkey b p o) = o := by unfold keyOff bkey; omega

theorem keyPage_bkey {b p o : Nat} (hp : p < 4096) (ho : o < 4096) : keyPage (bkey b p o) = p := by
  unfold keyPage bkey; omega

theorem keyOff_rkey {p o : Nat} (ho : o < 4096) : keyOff (rkey p o) = o := by unfold keyOff rkey; omega

/-- The tallies that `settle` may count lie at two offsets. -/
theorem not_mem_riseTallies {k : Nat} (h8 : keyOff k ≠ 0xE08) (h20 : keyOff k ≠ 0xE20) : k ∉ riseTallies := by
  intro h
  simp only [riseTallies, List.mem_cons, List.not_mem_nil, or_false] at h
  rcases h with rfl | rfl | rfl
  · exact h8 rfl
  · exact h8 rfl
  · exact h20 rfl

/-- No register of the common header counts rises of the outputs. -/
theorem header_not_mem_riseTallies {p o : Nat} (ho : o < 0x100) : rkey p o ∉ riseTallies := by
  have hk : keyOff (rkey p o) = o := keyOff_rkey (by omega)
  exact not_mem_riseTallies (by omega) (by omega)

theorem evtRaw_not_mem_riseTallies (p : Nat) : Reg.EVT_RAW p ∉ riseTallies := header_not_mem_riseTallies (by decide)
theorem owner_not_mem_riseTallies (p : Nat) : Reg.OWNER p ∉ riseTallies := header_not_mem_riseTallies (by decide)
theorem lock_not_mem_riseTallies (p : Nat) : Reg.LOCK p ∉ riseTallies := header_not_mem_riseTallies (by decide)
theorem dropTally_not_mem_riseTallies (p : Nat) : Reg.DROP_TALLY p ∉ riseTallies := header_not_mem_riseTallies (by decide)

theorem header_ne {p o o' : Nat} (h : o ≠ o') : rkey p o ≠ rkey p o' := by unfold rkey; omega

theorem owner_ne_dropTally (p : Nat) : Reg.OWNER p ≠ Reg.DROP_TALLY p := header_ne (by decide)
theorem dropTally_ne_lock (p : Nat) : Reg.DROP_TALLY p ≠ Reg.LOCK p := header_ne (by decide)

/-- A dropped write counts in DROP_TALLY and does no more (R4). -/
theorem done_drop (p : Nat) (s : State) :
    ∃ t, done (s.drop p) = .next t ∧
      t.reg (Reg.DROP_TALLY p) = BitVec.ofNat 32 (min ((s.reg (Reg.DROP_TALLY p)).toNat + 1) 0xFFFFFFFF) ∧
      OnlyRegs [Reg.DROP_TALLY p] s t :=
  done_setReg (dropTally_not_mem_riseTallies p) _ s

/-! ## The register tables at the offsets of tallies -/

/-- The registers of a table from 0xE00 on are read-only and reset to 0. -/
def countersPlain (rs : List RegDesc) : Bool := rs.all (fun r => decide (r.off < 0xE00) || (r.access == .ro && r.reset == 0))

/-- What holds of every value that a conditional option can be; each branch may use its condition. -/
theorem ite_some_imp {α : Type} {P : α → Prop} {c : Prop} [Decidable c] {x : α} {y : Option α}
    (hx : c → P x) (hy : ∀ a, y = some a → P a) : ∀ a, (if c then some x else y) = some a → P a := by
  intro a h
  split at h
  · rename_i hc; cases h; exact hx hc
  · exact hy a h

theorem none_imp {α : Type} {P : α → Prop} : ∀ a, (none : Option α) = some a → P a := by intro a h; cases h

theorem chipPage_countersPlain (p : Nat) : ∀ d, chipPage p = some d → countersPlain d.regs = true := by
  unfold chipPage
  iterate 14 refine ite_some_imp (fun _ => rfl) ?_
  exact none_imp

theorem clusterPage_countersPlain (p : Nat) : ∀ d, clusterPage p = some d → countersPlain d.regs = true := by
  unfold clusterPage
  iterate 6 refine ite_some_imp (fun _ => rfl) ?_
  exact none_imp

theorem mediaPage_countersPlain_code_ne (p : Nat) :
    ∀ d, mediaPage p = some d → countersPlain d.regs = true ∧ d.code ≠ 0x0101 := by
  unfold mediaPage
  iterate 12 refine ite_some_imp (fun _ => ⟨rfl, by simp⟩) ?_
  exact none_imp

theorem uncorePage_countersPlain_code_ne (p : Nat) :
    ∀ d, uncorePage p = some d → countersPlain d.regs = true ∧ d.code ≠ 0x0101 := by
  unfold uncorePage
  iterate 12 refine ite_some_imp (fun _ => ⟨rfl, by simp⟩) ?_
  exact none_imp

theorem pageDesc_countersPlain {p : Nat} {d : PageDesc} (h : pageDesc p = some d) : countersPlain d.regs = true := by
  unfold pageDesc at h
  split at h
  · exact chipPage_countersPlain p d h
  · split at h
    · exact clusterPage_countersPlain _ d h
    · split at h
      · exact (mediaPage_countersPlain_code_ne _ d h).1
      · split at h
        · exact (uncorePage_countersPlain_code_ne p d h).1
        · cases h

/-- The engine pages lie below the media pages (R407). -/
theorem code_ne_engine {p : Nat} {d : PageDesc} (hp : 0x200 ≤ p) (h : pageDesc p = some d) : d.code ≠ 0x0101 := by
  unfold pageDesc at h
  rw [if_neg (by omega), if_neg (by omega)] at h
  split at h
  · exact (mediaPage_countersPlain_code_ne _ d h).2
  · rw [if_pos (by omega)] at h
    exact (uncorePage_countersPlain_code_ne p d h).2

theorem find_countersPlain {rs : List RegDesc} (h : countersPlain rs = true) {o : Nat} (ho : 0xE00 ≤ o) {r : RegDesc}
    (hr : rs.find? (fun x => x.off == o) = some r) : r.access = .ro ∧ r.reset = 0 := by
  have hoff : r.off = o := by simpa using List.find?_some hr
  have hc := List.all_eq_true.mp h r (List.mem_of_find?_eq_some hr)
  simp only [Bool.or_eq_true, Bool.and_eq_true, decide_eq_true_eq, beq_iff_eq] at hc
  exact hc.resolve_left (by omega)

/-- A register at an offset of tallies is read-only. -/
theorem regDesc_counter_ro {p o : Nat} {d : RegDesc} (ho : 0xE00 ≤ o) (h : regDesc p o = some d) : d.access = .ro := by
  unfold regDesc at h
  split at h
  · cases h
  · rename_i x hx
    rw [if_neg (by omega)] at h
    exact (find_countersPlain (pageDesc_countersPlain hx) ho h).1

/-- Every tally resets to 0 (R6). -/
theorem regReset_tally {k : Nat} (h : isTally k = true) : regReset k = 0 := by
  simp only [isTally, Bool.or_eq_true, Bool.and_eq_true, decide_eq_true_eq, beq_iff_eq] at h
  unfold regReset
  cases hd : pageDesc (keyPage k) with
  | none => rfl
  | some d =>
    have h0 : ¬ keyOff k = 0x000 := by omega
    have h1 : ¬ keyOff k = 0x01C := by omega
    have h2 : ¬ keyOff k = 0x100 := by omega
    simp only [h0, h1, h2, and_false, if_false]
    rcases h with ⟨hlo, _⟩ | hdrop
    · rw [if_neg (by omega)]
      split
      · rename_i r hr
        exact (find_countersPlain (pageDesc_countersPlain hd) hlo hr).2
      · rfl
    · rw [hdrop]
      rfl

/-! ## The gate of a page -/

/-- The command is a write through the gate of page `p`: for another master than the owner it is dropped (R410). -/
def GatedBy (m : Master) (p : Nat) (c : State → Out) : Prop := ∃ f : State → State, ∀ s, c s = done (s.gate m p f)

/-- A gated write of the MGC or the ledger to an implemented page that it does not own is dropped and counted. -/
theorem gatedBy_not_owner {m : Master} {p : Nat} {c : State → Out} (h : GatedBy m p c) (hm : m ≠ .host)
    (hp : (pageDesc p).isSome = true) {s : State} (ho : s.owner p ≠ masterCode m) :
    c s = done (s.drop p) := by
  obtain ⟨f, hf⟩ := h
  rw [hf, gate_not_owner s hm hp ho]

/-- A branch for one page. -/
theorem gatedBy_page {m : Master} {p q : Nat} {e : Prop} [Decidable e] {c : State → Out} {y : Option (State → Out)}
    (hc : GatedBy m q c) (hy : ∀ a, y = some a → GatedBy m p a) :
    ∀ a, (if p = q ∧ e then some c else y) = some a → GatedBy m p a :=
  ite_some_imp (fun h => h.1 ▸ hc) hy

theorem gatedBy_of_eq {m : Master} {p q : Nat} {c : State → Out} (hq : q = p) (hc : GatedBy m q c) : GatedBy m p c := hq ▸ hc

theorem secCommand_gatedBy (m : Master) (v : Word) : GatedBy m 0x006 (secCommand m v) := by
  unfold secCommand
  dsimp only
  split <;> exact ⟨_, fun _ => rfl⟩

theorem evtRawClear_gatedBy (m : Master) (page : BitVec 12) (v : Word) :
    GatedBy m page.toNat (execEvtRawClear m page v 0) :=
  ⟨fun t => t.setReg (Reg.EVT_RAW page.toNat) (t.reg (Reg.EVT_RAW page.toNat) &&& ~~~(v &&& ~~~0)),
    fun s => by simp [execEvtRawClear]⟩

theorem evtSet_gatedBy (m : Master) (page : BitVec 12) (v : Word) : GatedBy m page.toNat (execEvtSet m page v) :=
  ⟨_, fun _ => rfl⟩

theorem lockWrite_gatedBy (m : Master) (page : BitVec 12) (v : Word) : GatedBy m page.toNat (execLockWrite m page v) :=
  ⟨_, fun _ => rfl⟩

theorem tallyClr_gatedBy (m : Master) (page : BitVec 12) (v : Word) : GatedBy m page.toNat (execTallyClr m page v []) :=
  ⟨_, fun _ => rfl⟩

theorem headerWrite_gatedBy (m : Master) (page : BitVec 12) {o : Nat} (ho : o ≠ 0x01C) (v : Word) :
    ∀ c, headerWrite m page o v 0 = some c → GatedBy m page.toNat c := by
  unfold headerWrite
  refine ite_some_imp (fun _ => evtRawClear_gatedBy m page v) ?_
  refine ite_some_imp (fun _ => evtSet_gatedBy m page v) ?_
  refine ite_some_imp (fun h => absurd h ho) ?_
  refine ite_some_imp (fun _ => lockWrite_gatedBy m page v) ?_
  refine ite_some_imp (fun _ => tallyClr_gatedBy m page v) ?_
  exact none_imp

/-- The number that a stall's page gives names that page again; so for engines, channels and domains. -/
theorem pageStall_of_page {p : Nat} (h : 0x018 ≤ p ∧ p ≤ 0x01F) : pageStall (Fin.ofNat 8 (p - 0x018)).val = p := by
  simp only [pageStall, Fin.ofNat]; omega

theorem pageMx_of_page {p : Nat} (h : 0x100 ≤ p ∧ p < 0x180) (h' : 1 ≤ p % 16 ∧ p % 16 ≤ 8) :
    pageMx (Fin.ofNat 64 ((p - 0x100) / 16 * 8 + (p % 16 - 1))).val = p := by
  simp only [pageMx, Fin.ofNat]; omega

theorem pageDc_of_page {p : Nat} (h : 0x300 ≤ p ∧ p ≤ 0x307) : pageDc (Fin.ofNat 8 (p - 0x300)).val = p := by
  simp only [pageDc, Fin.ofNat]; omega

theorem pageDomain_of_page {p : Nat} (h : p = 0x501 ∨ p = 0x502) : pageDomain (Fin.ofNat 2 (p - 0x501)).val = p := by
  simp only [pageDomain, Fin.ofNat]; omega

theorem chipWrite_gatedBy (m : Master) (p o : Nat) (v : Word) : ∀ c, chipWrite m p o v = some c → GatedBy m p c := by
  unfold chipWrite
  iterate 9 refine gatedBy_page ⟨_, fun _ => rfl⟩ ?_
  refine gatedBy_page (secCommand_gatedBy m v) ?_
  iterate 14 refine gatedBy_page ⟨_, fun _ => rfl⟩ ?_
  iterate 3 refine ite_some_imp (fun ⟨hlo, hhi, _⟩ => gatedBy_of_eq (pageStall_of_page ⟨hlo, hhi⟩) ⟨_, fun _ => rfl⟩) ?_
  refine ite_some_imp (fun ⟨hlo, hhi, hfirst, hlast, _⟩ =>
    gatedBy_of_eq (pageMx_of_page ⟨hlo, hhi⟩ ⟨hfirst, hlast⟩) ⟨_, fun _ => rfl⟩) ?_
  exact none_imp

theorem mediaWrite_gatedBy (m : Master) (p o : Nat) (v : Word) : ∀ c, mediaWrite m p o v = some c → GatedBy m p c := by
  unfold mediaWrite
  iterate 10 refine gatedBy_page ⟨_, fun _ => rfl⟩ ?_
  exact none_imp

theorem uncoreWrite_gatedBy (m : Master) (p o : Nat) (v : Word) : ∀ c, uncoreWrite m p o v = some c → GatedBy m p c := by
  unfold uncoreWrite
  iterate 2 refine ite_some_imp (fun ⟨hlo, hhi, _⟩ => gatedBy_of_eq (pageDc_of_page ⟨hlo, hhi⟩) ⟨_, fun _ => rfl⟩) ?_
  iterate 6 refine gatedBy_page ⟨_, fun _ => rfl⟩ ?_
  iterate 4 refine ite_some_imp (fun h => gatedBy_of_eq (pageDomain_of_page h.1) ⟨_, fun _ => rfl⟩) ?_
  exact none_imp

/-- A register's own meaning, OWNER's apart, passes the gate of the register's page. -/
theorem ownWrite_gatedBy (m : Master) (page : BitVec 12) {o : Nat} (ho : o ≠ 0x01C) (v : Word) :
    ∀ c, ownWrite m page o v 0 = some c → GatedBy m page.toNat c := by
  unfold ownWrite
  dsimp only
  split
  · exact headerWrite_gatedBy m page ho v
  · split
    · exact chipWrite_gatedBy m _ o v
    · split
      · exact mediaWrite_gatedBy m _ o v
      · exact uncoreWrite_gatedBy m _ o v

theorem regWrite_gatedBy (m : Master) (page : BitVec 12) {o : Nat} (ho : o ≠ 0x01C) (v : Word) :
    GatedBy m page.toNat (fun s => s.regWrite m page o v 0) := by
  unfold State.regWrite
  split
  · rename_i c hc
    exact ownWrite_gatedBy m page ho v c hc
  · exact ⟨_, fun _ => rfl⟩

/-! ## Register writes -/

/-- A master that does not own the page is not admitted to it. -/
theorem admits_not_owner {s : State} {m : Master} {p : Nat} (ho : s.owner p ≠ masterCode m) : s.admits m p = false := by
  simp [State.admits, ho]

theorem execRegisterWrite_regWrite {s : State} {m : Master} {page off : BitVec 12}
    (h : ¬ (0xF00 ≤ page.toNat ∧ 0x100 ≤ off.toNat ∧ off.toNat < 0xE00 ∧ s.admits m page.toNat = true)) (v : Word) :
    execRegisterWrite m page off v none s = s.regWrite m page off.toNat v 0 := by
  unfold execRegisterWrite
  dsimp only
  rw [if_neg h]

theorem execRegisterWrite_debug {s : State} {m : Master} {page off : BitVec 12}
    (h : 0xF00 ≤ page.toNat ∧ 0x100 ≤ off.toNat ∧ off.toNat < 0xE00 ∧ s.admits m page.toNat = true) (v : Word)
    (col : Option Collision) : execRegisterWrite m page off v col s = .refused .debugLayout := by
  unfold execRegisterWrite
  dsimp only
  rw [if_pos h]

theorem execRegisterWrite_next {s : State} {m : Master} {page off : BitVec 12}
    (h : ¬ (0xF00 ≤ page.toNat ∧ 0x100 ≤ off.toNat ∧ off.toNat < 0xE00 ∧ s.admits m page.toNat = true)) (v : Word)
    (col : Option Collision) : ∃ t, execRegisterWrite m page off v col s = .next t := by
  unfold execRegisterWrite
  dsimp only
  rw [if_neg h]
  cases col with
  | none => exact (regWrite_settles m page off.toNat v 0 s).imp' settle fun _ hu => hu
  | some c => exact (regWrite_settles m page off.toNat _ _ _).imp' settle fun _ hu => hu

/-- A write of a register that has no meaning of its own writes its fields (R3, R4). -/
theorem plainWrite_rw {s : State} {p o : Nat} {d : RegDesc} (hd : regDesc p o = some d)
    (ha : d.access = .rw ∨ d.access = .rwl) (hl : s.regLocked p d = false) (v : Word) :
    s.plainWrite p o v =
      s.setReg (s.keyAt p o) (mergeBits (s.reg (s.keyAt p o)) (if o = 0x014 then eventMask p else fieldsMask d.fields) v) := by
  have hna : ¬ (d.access ≠ .rw ∧ d.access ≠ .rwl) := fun h => ha.elim h.1 h.2
  simp only [State.plainWrite, hd, if_neg hna, hl, Bool.false_eq_true, if_false]

/-- No register that a master writes counts rises of the outputs. -/
theorem keyAt_not_mem_riseTallies {s : State} {p o : Nat} {d : RegDesc} (ho : o < 4096) (hd : regDesc p o = some d)
    (ha : d.access = .rw ∨ d.access = .rwl) : s.keyAt p o ∉ riseTallies := by
  have hlow : o < 0xE00 := by
    by_contra hge
    rw [regDesc_counter_ro (Nat.le_of_not_lt hge) hd] at ha
    simp at ha
  have hk : keyOff (s.keyAt p o) = o := keyOff_bkey ho
  exact not_mem_riseTallies (by omega) (by omega)

/-- The write of a register that has no meaning of its own sets that register only. -/
theorem execRegisterWrite_plain {s : State} {m : Master} {page off : BitVec 12} {v : Word} {d : RegDesc}
    (hadm : s.admits m page.toNat = true) (hd : regDesc page.toNat off.toNat = some d) (ha : d.access = .rw ∨ d.access = .rwl)
    (hl : s.regLocked page.toNat d = false) (hown : ownWrite m page off.toNat v 0 = none)
    (hlay : off.toNat < 0x100 ∨ 0xE00 ≤ off.toNat ∨ page.toNat < 0xF00) :
    execRegisterWrite m page off v none s =
      done (s.setReg (s.keyAt page.toNat off.toNat) (mergeBits (s.reg (s.keyAt page.toNat off.toNat))
        (if off.toNat = 0x014 then eventMask page.toNat else fieldsMask d.fields) v)) := by
  rw [execRegisterWrite_regWrite (by omega), State.regWrite, hown]
  dsimp only
  rw [gate_admits s hadm, plainWrite_rw hd ha hl]

/-- Settles O6: no meaning of the register's own, so the page's gate lets the generic write through. -/
theorem registerWriteByTheOwner : Obligations.RegisterWriteByTheOwner := by
  refine ⟨fun m page off v d s hadm hd ha hl hown hlay => ?_, fun m page off v col s => ⟨fun h => ?_, fun h => ?_⟩⟩
  · obtain ⟨t, ht, hreg, hregs, hbytes, hrest⟩ :=
      done_setReg (keyAt_not_mem_riseTallies off.isLt hd ha) (mergeBits (s.reg (s.keyAt page.toNat off.toNat))
        (if off.toNat = 0x014 then eventMask page.toNat else fieldsMask d.fields) v) s
    exact ⟨t, (execRegisterWrite_plain hadm hd ha hl hown hlay).trans ht, hreg, hregs, hbytes, hrest⟩
  · exact execRegisterWrite_debug h v col
  · exact execRegisterWrite_next h v col

/-- Each of the writes of a page passes the page's gate. -/
theorem pageWrites_dropped {m : Master} {page off : BitVec 12} (v : Word) {s : State} (hm : m ≠ .host)
    (hp : (pageDesc page.toNat).isSome = true) (ho : s.owner page.toNat ≠ masterCode m) (hoff : off.toNat ≠ 0x01C) :
    ∀ c ∈ [Instr.registerWrite m page off v none, .lockWrite m page v, .evtRawClear m page v 0, .evtSet m page v,
            .tallyClr m page v []], exec c s = done (s.drop page.toNat) := by
  simp only [List.forall_mem_cons, List.not_mem_nil, false_imp_iff, implies_true, and_true]
  refine ⟨?_, gatedBy_not_owner (lockWrite_gatedBy m page v) hm hp ho, gatedBy_not_owner (evtRawClear_gatedBy m page v) hm hp ho,
    gatedBy_not_owner (evtSet_gatedBy m page v) hm hp ho, gatedBy_not_owner (tallyClr_gatedBy m page v) hm hp ho⟩
  exact (execRegisterWrite_regWrite (by simp [admits_not_owner ho]) v).trans
    (gatedBy_not_owner (regWrite_gatedBy m page hoff v) hm hp ho)

/-- Settles O7: every write of the page passes the page's gate, which drops and counts it. -/
theorem writesOfOtherMastersAreDropped : Obligations.WritesOfOtherMastersAreDropped := by
  intro m page off v s hm hp ho hoff c hc
  obtain ⟨t, ht, htally, honly⟩ := done_drop page.toNat s
  exact ⟨t, (pageWrites_dropped v hm hp ho hoff c hc).trans ht, htally, honly⟩

/-! ## OWNER and LOCK -/

/-- A write of OWNER that the endpoint lets through, by what refuses it (R7, R411). -/
theorem execOwnerWrite_reached {s : State} {m : Master} {page : BitVec 12} (hb : m = .host → s.hostBlocked page.toNat = none)
    (hp : (pageDesc page.toNat).isSome = true) (v : Word) :
    execOwnerWrite m page v s = done
      (if (s.owner page.toNat ≠ masterCode m ∧ (m ≠ .mgc ∨ s.owner page.toNat ≠ 2)) ∨ s.locked page.toNat 31 = true ∨
          bits v 1 0 = 3 then s.drop page.toNat
       else s.setReg (Reg.OWNER page.toNat) (v &&& 3)) := by
  obtain ⟨d, hd⟩ := Option.isSome_iff_exists.mp hp
  have hn : (if m = .host then s.hostBlocked page.toNat else none) = none := by
    split
    · next hm => exact hb hm
    · rfl
  simp only [execOwnerWrite, hn, hd]

/-- A refused write of OWNER leaves it and counts. -/
theorem ownerWrite_refused {s : State} {m : Master} {page : BitVec 12} (hb : m = .host → s.hostBlocked page.toNat = none)
    (hp : (pageDesc page.toNat).isSome = true) {v : Word}
    (hr : bits v 1 0 = 3 ∨ s.locked page.toNat 31 = true ∨
      (s.owner page.toNat ≠ masterCode m ∧ (m ≠ .mgc ∨ s.owner page.toNat ≠ 2))) :
    ∃ t, exec (.ownerWrite m page v) s = .next t ∧ t.reg (Reg.OWNER page.toNat) = s.reg (Reg.OWNER page.toNat) ∧
      t.reg (Reg.DROP_TALLY page.toNat) = BitVec.ofNat 32 (min ((s.reg (Reg.DROP_TALLY page.toNat)).toNat + 1) 0xFFFFFFFF) ∧
      OnlyRegs [Reg.DROP_TALLY page.toNat] s t := by
  obtain ⟨t, ht, htally, honly⟩ := done_drop page.toNat s
  refine ⟨t, (execOwnerWrite_reached hb hp v).trans ?_, ?_, htally, honly⟩
  · rw [if_pos (by tauto), ht]
  · exact honly.1 _ (by simpa using owner_ne_dropTally _) (owner_not_mem_riseTallies _)

/-- A write of OWNER that nothing refuses sets it. -/
theorem ownerWrite_taken {s : State} {m : Master} {page : BitVec 12} (hb : m = .host → s.hostBlocked page.toNat = none)
    (hp : (pageDesc page.toNat).isSome = true) {v : Word} (hv : bits v 1 0 ≠ 3) (hl : s.locked page.toNat 31 = false)
    (ho : s.owner page.toNat = masterCode m ∨ (m = .mgc ∧ s.owner page.toNat = 2)) :
    ∃ t, exec (.ownerWrite m page v) s = .next t ∧ t.reg (Reg.OWNER page.toNat) = v &&& 3 ∧
      OnlyRegs [Reg.OWNER page.toNat] s t := by
  obtain ⟨t, ht, hreg, honly⟩ := done_setReg (owner_not_mem_riseTallies page.toNat) (v &&& 3) s
  refine ⟨t, (execOwnerWrite_reached hb hp v).trans ?_, hreg, honly⟩
  rw [if_neg (by rw [hl]; tauto), ht]

theorem bits_and_three (v : Word) : bits (v &&& 3) 1 0 = bits v 1 0 := by
  have h : (v &&& 3).toNat = v.toNat % 4 := Nat.and_two_pow_sub_one_eq_mod v.toNat 2
  simp only [bits, h]
  omega

/-- Settles O8: the three grounds of a refusal, and the write when none of them stands. -/
theorem ownerRegister : Obligations.OwnerRegister := by
  intro m page v s hp hb
  refine ⟨fun hv hl ho => ?_, fun hr => ?_⟩
  · obtain ⟨t, ht, hreg, honly⟩ := ownerWrite_taken hb hp hv hl ho
    exact ⟨t, ht, by rw [State.owner, hreg, bits_and_three], honly⟩
  · obtain ⟨t, ht, howner, htally, honly⟩ := ownerWrite_refused hb hp hr
    exact ⟨t, ht, by rw [State.owner, howner, State.owner], htally, honly⟩

theorem admits_hostBlocked {s : State} {m : Master} {p : Nat} (h : s.admits m p = true) : m = .host → s.hostBlocked p = none := by
  intro hm
  simp_all [State.admits]

theorem admits_page {s : State} {m : Master} {p : Nat} (h : s.admits m p = true) : (pageDesc p).isSome = true := by
  simp only [State.admits, Bool.and_eq_true] at h
  exact h.1.2

/-- LOCK as an admitted write leaves it, and the count of a write that would clear a set bit (R7). -/
theorem lockWrite_admitted {s : State} {m : Master} {page : BitVec 12} (h : s.admits m page.toNat = true) (v : Word) :
    exec (.lockWrite m page v) s = done
      ((if s.reg (Reg.LOCK page.toNat) &&& ~~~v = 0 then s else s.drop page.toNat).setReg (Reg.LOCK page.toNat)
        (s.reg (Reg.LOCK page.toNat) ||| v)) := by
  show execLockWrite m page v s = _
  rw [execLockWrite, gate_admits s h]

/-- Settles O9: bits are added to LOCK, and 3 is one of the refused values of OWNER. -/
theorem lockBitsAreSetOnly : Obligations.LockBitsAreSetOnly := by
  intro m page v s h
  refine ⟨?_, fun hv => ownerWrite_refused (admits_hostBlocked h) (admits_page h) (.inl hv)⟩
  have hdrop : (if s.reg (Reg.LOCK page.toNat) &&& ~~~v = 0 then s else s.drop page.toNat).reg (Reg.DROP_TALLY page.toNat) =
      (if s.reg (Reg.LOCK page.toNat) &&& ~~~v = 0 then s.reg (Reg.DROP_TALLY page.toNat)
       else BitVec.ofNat 32 (min ((s.reg (Reg.DROP_TALLY page.toNat)).toNat + 1) 0xFFFFFFFF)) := by
    split
    · rfl
    · exact reg_tally_same s _
  have honly : OnlyRegs [Reg.LOCK page.toNat, Reg.DROP_TALLY page.toNat] s
      (if s.reg (Reg.LOCK page.toNat) &&& ~~~v = 0 then s else s.drop page.toNat) := by
    split
    · exact onlyRegs_refl _ s
    · exact onlyRegs_setReg (onlyRegs_refl _ s) (by simp) _
  refine ⟨_, lockWrite_admitted h v, ?_, ?_, onlyRegs_settle (onlyRegs_setReg honly List.mem_cons_self _)⟩
  · rw [reg_settle (lock_not_mem_riseTallies _), reg_setReg_same]
  · rw [reg_settle (dropTally_not_mem_riseTallies _), reg_setReg_other _ (dropTally_ne_lock _), hdrop]

/-! ## Events -/

theorem event_frozenLink (s : State) (p : Nat) (w : Word) : (s.event p w).frozenLink = s.frozenLink := by
  have h : Reg.ENDPOINT_CONTAIN ≠ Reg.EVT_RAW p := by simp only [Reg.ENDPOINT_CONTAIN, Reg.EVT_RAW, rkey]; omega
  simp only [State.frozenLink, reg_event_other s h]

/-- The endpoint lets a host write through to the pages (R316, R322, R324, R390). -/
theorem hostBlocked_isNone (s : State) (q : Nat) :
    (s.hostBlocked q).isNone = decide (s.ep.perst = false ∧ ¬ (s.ep.memorySpace = false ∨ s.ep.d3hot = true) ∧
      ¬ (s.frozenLink = true ∧ q ≠ 0x400) ∧ ¬ (s.sec.lcBoot = 2 ∧ 0xF00 ≤ q)) := by
  unfold State.hostBlocked
  split_ifs <;> simp_all

/-- An event of a page changes nothing of who may write a page. -/
theorem event_admits (s : State) (p : Nat) (w : Word) (m : Master) (q : Nat) : (s.event p w).admits m q = s.admits m q := by
  have ho : (s.event p w).owner q = s.owner q := by
    have h : Reg.OWNER q ≠ Reg.EVT_RAW p := by simp only [Reg.OWNER, Reg.EVT_RAW, rkey]; omega
    simp only [State.owner, reg_event_other s h]
  simp only [State.admits, ho, hostBlocked_isNone, event_ep, event_sec, event_frozenLink]

/-- Clearing the bits of `v` after hardware has set those of `h`, which the clear leaves. -/
theorem or_and_not_and_not (r v h : Word) : (r ||| h) &&& ~~~(v &&& ~~~h) = (r &&& ~~~v) ||| h := by
  ext i hi
  simp only [BitVec.getElem_and, BitVec.getElem_or, BitVec.getElem_not]
  cases r[i] <;> cases v[i] <;> cases h[i] <;> rfl

/-- An admitted clear of EVT_RAW: hardware's bits stand (R5). -/
theorem evtRawClear_admitted {s : State} {m : Master} {page : BitVec 12} (h : s.admits m page.toNat = true) (v hw : Word) :
    ∃ u : State, exec (.evtRawClear m page v hw) s = done u ∧
      u.reg (Reg.EVT_RAW page.toNat) = (s.reg (Reg.EVT_RAW page.toNat) &&& ~~~v) ||| (hw &&& eventMask page.toNat) ∧
      OnlyRegs [Reg.EVT_RAW page.toNat] s u := by
  show ∃ u, execEvtRawClear m page v hw s = done u ∧ _
  simp only [execEvtRawClear]
  generalize hw &&& eventMask page.toNat = w
  split
  · next hz =>
    subst hz
    rw [gate_admits s h]
    have hz : s.reg (Reg.EVT_RAW page.toNat) ||| 0 = s.reg (Reg.EVT_RAW page.toNat) := BitVec.or_zero
    exact ⟨_, rfl, by rw [reg_setReg_same, ← or_and_not_and_not, hz],
      onlyRegs_setReg (onlyRegs_refl _ s) List.mem_cons_self _⟩
  · rw [gate_admits _ ((event_admits s _ _ _ _).trans h)]
    refine ⟨_, rfl, ?_, onlyRegs_setReg (onlyRegs_setReg (onlyRegs_refl _ s) List.mem_cons_self _) List.mem_cons_self _⟩
    rw [reg_setReg_same, reg_event_same, or_and_not_and_not]

theorem evtSet_admitted {s : State} {m : Master} {page : BitVec 12} (h : s.admits m page.toNat = true) (v : Word) :
    exec (.evtSet m page v) s =
      done (s.setReg (Reg.EVT_RAW page.toNat) (s.reg (Reg.EVT_RAW page.toNat) ||| (v &&& eventMask page.toNat))) := by
  show execEvtSet m page v s = _
  rw [execEvtSet, gate_admits s h, State.event]

theorem and_ne_zero_iff (a b : Word) : a &&& b ≠ 0 ↔ ∃ n < 32, bit a n = true ∧ bit b n = true := by
  constructor
  · intro h
    by_contra hno
    refine h (BitVec.eq_of_getLsbD_eq fun n hn => ?_)
    by_contra hbit
    exact hno ⟨n, hn, by simpa [bit, BitVec.testBit_toNat] using hbit⟩
  · rintro ⟨n, -, ha, hb⟩ h
    have hbit : (a &&& b).getLsbD n = true := by simpa [bit, BitVec.testBit_toNat] using ⟨ha, hb⟩
    simp [h] at hbit

/-- The line of a page whose block runs: an enabled event stands (R5). -/
theorem pageLine_iff {s : State} {p : Nat} {d : PageDesc} (hd : pageDesc p = some d)
    (hx : ∀ x, d.domain = some x → s.domOn x = true ∧ s.power.clearing.contains x = false) :
    s.pageLine p = true ↔ ∃ n < 32, bit (s.reg (Reg.EVT_RAW p)) n = true ∧ bit (s.reg (Reg.EVT_EN p)) n = true := by
  rw [← and_ne_zero_iff]
  simp only [State.pageLine, hd]
  cases hdom : d.domain with
  | none => simp only [Bool.and_true, decide_eq_true_eq]
  | some x =>
    obtain ⟨hon, hclear⟩ := hx x hdom
    simp only [hon, hclear, Bool.not_false, Bool.and_true, decide_eq_true_eq]

/-- Settles O10: the clear leaves what hardware sets, the set adds the page's events, and the line is an enabled event. -/
theorem eventBitsSetAndCleared : Obligations.EventBitsSetAndCleared := by
  intro m page v hw s h
  refine ⟨?_, ?_, fun p d hd hx => pageLine_iff hd hx⟩
  · obtain ⟨u, hu, hraw, honly⟩ := evtRawClear_admitted h v hw
    exact ⟨_, hu, (reg_settle (evtRaw_not_mem_riseTallies _) u).trans hraw, onlyRegs_settle honly⟩
  · obtain ⟨t, ht, hraw, honly⟩ := done_setReg (evtRaw_not_mem_riseTallies page.toNat)
      (s.reg (Reg.EVT_RAW page.toNat) ||| (v &&& eventMask page.toNat)) s
    exact ⟨t, (evtSet_admitted h v).trans ht, hraw, honly⟩

/-! ## Tallies -/

/-- One more, stopping at the largest word. -/
theorem ofNat_min_succ (w : Word) :
    BitVec.ofNat 32 (min (w.toNat + 1) 0xFFFFFFFF) = if w = 0xFFFFFFFF then 0xFFFFFFFF else w + 1 := by
  split
  · next h => subst h; rfl
  · next h =>
    have hlt : w.toNat < 0xFFFFFFFF := by bv_omega
    rw [min_eq_left (by omega), BitVec.ofNat_add, BitVec.ofNat_toNat, BitVec.setWidth_eq]
    rfl

theorem mapGet_filter_key {α : Type} (f : Nat → Bool) (k : Nat) (t : Tbl α) :
    mapGet (t.filter (fun e => !f e.1)) k = if f k = true then none else mapGet t k := by
  induction t with
  | nil => simp [mapGet]
  | cons e r ih =>
    obtain ⟨k', v⟩ := e
    by_cases hk : k = k'
    · subst hk
      by_cases hf : f k = true <;> simp_all [mapGet]
    · by_cases hf : f k' = true <;> simp_all [mapGet]

/-- Some entries of a register map left out: their registers read their reset values. -/
theorem reg_filter_key {s t : State} {f : Nat → Bool} (h : t.regs = s.regs.filter (fun e => !f e.1)) (k : Nat) :
    t.reg k = if f k = true then regReset k else s.reg k := by
  rw [State.reg, h, mapGetD, mapGet_filter_key]
  split <;> rfl

/-- The key is a tally of page `p`. -/
def tallyOf (p k : Nat) : Bool := isTally k && keyPage k == p

/-- Besides its tallies, TALLY_CLR changes only the clamp bits that an engine page shows (R96). -/
theorem clearTallies_regs (s : State) (p : Nat) :
    (s.clearTallies p).regs = s.regs.filter (fun e => !tallyOf p e.1) ∨
    (p < 0x200 ∧ ∃ (t : State) (n : Nat) (v : Word), t.regs = s.regs.filter (fun e => !tallyOf p e.1) ∧
      s.clearTallies p = t.setReg (Reg.MX_CLAMP n) v) := by
  unfold State.clearTallies
  dsimp only
  split
  · exact .inl rfl
  · split
    · next d hd =>
      split
      · next hc => exact .inr ⟨Nat.lt_of_not_le fun hp => code_ne_engine hp hd hc, _, _, _, rfl, rfl⟩
      · exact .inl rfl
    · exact .inl rfl

theorem isTally_ne_clamp {k : Nat} (h : isTally k = true) (n : Nat) : k ≠ Reg.MX_CLAMP n := by
  rintro rfl
  have ho : keyOff (Reg.MX_CLAMP n) = 0x10C := keyOff_rkey (by decide)
  simp [isTally, ho] at h

/-- After TALLY_CLR the tallies of the page read 0 (R6). -/
theorem reg_clearTallies_tally (s : State) {p k : Nat} (h : isTally k = true) (hp : keyPage k = p) :
    (s.clearTallies p).reg k = 0 := by
  have hm : tallyOf p k = true := by simp [tallyOf, h, hp]
  rcases clearTallies_regs s p with hr | ⟨-, t, n, v, hr, ht⟩
  · rw [reg_filter_key hr, if_pos hm, regReset_tally h]
  · rw [ht, reg_setReg_other t (isTally_ne_clamp h n), reg_filter_key hr, if_pos hm, regReset_tally h]

theorem isTally_rkey_low {p o : Nat} (ho : o < 0xE00) (hd : o ≠ 0x024) : isTally (rkey p o) = false := by
  have hk : keyOff (rkey p o) = o := keyOff_rkey (by omega)
  simp only [isTally, hk, Bool.or_eq_false_iff, Bool.and_eq_false_iff, decide_eq_false_iff_not, beq_eq_false_iff_ne]
  omega

/-- Below the media pages no selection register multiplies a register. -/
theorem bankOf_low {p : Nat} (hp : p < 0x200) (s : State) (o : Nat) : s.bankOf p o = 0 := by
  unfold State.bankOf
  iterate 9 rw [if_neg (by omega)]

/-- Where an access goes depends on selection registers only, and none is a tally. -/
theorem keyAt_congr {s t : State} {p : Nat} (h : 0x200 ≤ p → ∀ k, isTally k = false → t.reg k = s.reg k) (o : Nat) :
    t.keyAt p o = s.keyAt p o := by
  have hbank : t.bankOf p o = s.bankOf p o := by
    rcases Nat.lt_or_ge p 0x200 with hp | hp
    · rw [bankOf_low hp, bankOf_low hp]
    · have hsel (k : Nat) (hk : isTally k = false) : t.reg k = s.reg k := h hp k hk
      have hlane : t.reg (Reg.DC_LANE_SEL (p - 0x300)) = s.reg (Reg.DC_LANE_SEL (p - 0x300)) :=
        hsel _ (isTally_rkey_low (by decide) (by decide))
      have hmc : t.reg (Reg.EP_MC_SEL (p - 0x503)) = s.reg (Reg.EP_MC_SEL (p - 0x503)) :=
        hsel _ (isTally_rkey_low (by decide) (by decide))
      unfold State.bankOf
      rw [hsel Reg.INTAKE_STREAM_SEL rfl, hsel Reg.FLOW_FLOW_SEL rfl, hsel Reg.EVIDENCE_SESS_SEL rfl,
        hsel Reg.ALIGN_IN_SEL rfl, hsel Reg.ALIGN_GRP_SEL rfl, hsel Reg.PROXY_STREAM_SEL rfl, hsel Reg.BPM_POOL_SEL rfl,
        hsel Reg.MAP_SET_SEL rfl, hlane, hmc]
  rw [State.keyAt, State.keyAt, hbank]

/-- Tallies counted for the offsets `l` of a page, as TALLY_CLR counts the events of its cycle (R6). -/
def countAll (p : Nat) (l : List (BitVec 12)) (s : State) : State :=
  l.foldl (fun (a : State) o =>
    if isTally o.toNat = true ∧ (regDesc p o.toNat).isSome = true then a.tally (a.keyAt p o.toNat) else a) s

theorem countAll_cons_tally {p : Nat} {o : BitVec 12} (h : isTally o.toNat = true ∧ (regDesc p o.toNat).isSome = true)
    (r : List (BitVec 12)) (s : State) : countAll p (o :: r) s = countAll p r (s.tally (s.keyAt p o.toNat)) := by
  simp only [countAll, List.foldl_cons, if_pos h]

theorem countAll_cons_other {p : Nat} {o : BitVec 12} (h : ¬ (isTally o.toNat = true ∧ (regDesc p o.toNat).isSome = true))
    (r : List (BitVec 12)) (s : State) : countAll p (o :: r) s = countAll p r s := by
  simp only [countAll, List.foldl_cons, if_neg h]

theorem keyOff_keyAt (s : State) (p : Nat) (o : BitVec 12) : keyOff (s.keyAt p o.toNat) = o.toNat := keyOff_bkey o.isLt

theorem keyPage_keyAt (s : State) (page o : BitVec 12) : keyPage (s.keyAt page.toNat o.toNat) = page.toNat :=
  keyPage_bkey page.isLt o.isLt

theorem isTally_keyAt (s : State) (p : Nat) (o : BitVec 12) : isTally (s.keyAt p o.toNat) = isTally o.toNat := by
  have ho : keyOff o.toNat = o.toNat := Nat.mod_eq_of_lt o.isLt
  simp only [isTally, keyOff_keyAt, ho]

theorem keyAt_ne (s : State) (p : Nat) {o o' : BitVec 12} (h : o ≠ o') : s.keyAt p o.toNat ≠ s.keyAt p o'.toNat := by
  intro he
  have hoff := congrArg keyOff he
  rw [keyOff_keyAt, keyOff_keyAt] at hoff
  exact h (BitVec.eq_of_toNat_eq hoff)

/-- Counting a tally moves no register of the page. -/
theorem keyAt_tally (s : State) {k : Nat} (hk : isTally k = true) (p o : Nat) : (s.tally k).keyAt p o = s.keyAt p o := by
  refine keyAt_congr (fun _ k' hk' => reg_tally_other s ?_) o
  rintro rfl
  rw [hk] at hk'
  cases hk'

/-- TALLY_CLR moves no register of its page. -/
theorem keyAt_clearTallies (s : State) (p o : Nat) : (s.clearTallies p).keyAt p o = s.keyAt p o := by
  refine keyAt_congr (fun hp k hk => ?_) o
  have hm : tallyOf p k = false := by simp [tallyOf, hk]
  rcases clearTallies_regs s p with hr | ⟨hlow, -⟩
  · rw [reg_filter_key hr, hm, if_neg Bool.false_ne_true]
  · omega

/-- A register that no counted offset reaches reads as before. -/
theorem reg_countAll_other {p k : Nat} {l : List (BitVec 12)} {s : State}
    (h : ∀ o ∈ l, (regDesc p o.toNat).isSome = true → k ≠ s.keyAt p o.toNat) : (countAll p l s).reg k = s.reg k := by
  induction l generalizing s with
  | nil => rfl
  | cons x r ih =>
    by_cases hx : isTally x.toNat = true ∧ (regDesc p x.toNat).isSome = true
    · have hk : isTally (s.keyAt p x.toNat) = true := (isTally_keyAt s p x).trans hx.1
      rw [countAll_cons_tally hx, ih, reg_tally_other s (h x List.mem_cons_self hx.2)]
      intro o ho
      rw [keyAt_tally s hk]
      exact h o (List.mem_cons_of_mem x ho)
    · rw [countAll_cons_other hx]
      exact ih fun o ho => h o (List.mem_cons_of_mem x ho)

/-- A tally counted once among different offsets counts one event. -/
theorem reg_countAll_mem {p : Nat} {l : List (BitVec 12)} (hl : l.Nodup) {o : BitVec 12} (ho : o ∈ l)
    (hc : isTally o.toNat = true ∧ (regDesc p o.toNat).isSome = true) {s : State} (h0 : s.reg (s.keyAt p o.toNat) = 0) :
    (countAll p l s).reg (s.keyAt p o.toNat) = 1 := by
  induction l generalizing s with
  | nil => cases ho
  | cons x r ih =>
    obtain ⟨hxr, hr⟩ := List.nodup_cons.mp hl
    rcases List.mem_cons.mp ho with rfl | ho
    · have hk : isTally (s.keyAt p o.toNat) = true := (isTally_keyAt s p o).trans hc.1
      rw [countAll_cons_tally hc, reg_countAll_other, reg_tally_same, h0]
      · rfl
      · intro o' ho' _
        rw [keyAt_tally s hk]
        exact keyAt_ne s p (ne_of_mem_of_not_mem ho' hxr).symm
    · by_cases hx : isTally x.toNat = true ∧ (regDesc p x.toNat).isSome = true
      · have hk : isTally (s.keyAt p x.toNat) = true := (isTally_keyAt s p x).trans hx.1
        have hne : s.keyAt p o.toNat ≠ s.keyAt p x.toNat := keyAt_ne s p (ne_of_mem_of_not_mem ho hxr)
        rw [countAll_cons_tally hx, ← keyAt_tally s hk p o.toNat]
        exact ih hr ho (by rw [keyAt_tally s hk, reg_tally_other s hne, h0])
      · rw [countAll_cons_other hx]
        exact ih hr ho h0

theorem sameBytes_of_mem_drams {s t : State} (hm : t.mem = s.mem) (hd : t.drams = s.drams) : SameBytes s t := by
  intro k
  simp only [State.byte, State.epoch, hm, hd]

theorem clearTallies_mem_drams (s : State) (p : Nat) :
    (s.clearTallies p).mem = s.mem ∧ (s.clearTallies p).drams = s.drams := by
  unfold State.clearTallies
  dsimp only
  split
  · exact ⟨rfl, rfl⟩
  · split
    · split <;> exact ⟨rfl, rfl⟩
    · exact ⟨rfl, rfl⟩

theorem countAll_mem_drams (p : Nat) (l : List (BitVec 12)) (s : State) :
    (countAll p l s).mem = s.mem ∧ (countAll p l s).drams = s.drams := by
  refine foldl_keeps (P := fun a : State => a.mem = s.mem ∧ a.drams = s.drams) (fun a o ha => ?_) l ⟨rfl, rfl⟩
  split <;> exact ha

/-- An admitted write of TALLY_CLR: the clear, then the events of the same cycle (R6). -/
theorem tallyClr_admitted {s : State} {m : Master} {page : BitVec 12} (h : s.admits m page.toNat = true) (v : Word)
    (same : List (BitVec 12)) :
    exec (.tallyClr m page v same) s =
      done (countAll page.toNat same (if bit v 0 = true then s.clearTallies page.toNat else s)) := by
  show execTallyClr m page v same s = _
  rw [execTallyClr, gate_admits s h]
  rfl

/-- Settles O11: the cleared tallies read 0, and each counted one, reached by no other offset, counts from there. -/
theorem talliesSaturateAndClear : Obligations.TalliesSaturateAndClear := by
  refine ⟨fun s k => (reg_tally_same s k).trans (ofNat_min_succ _), fun m page v same s h hv hnd => ?_,
    fun m page v s h hv => ?_⟩
  · have hexec := tallyClr_admitted h v same
    rw [if_pos hv] at hexec
    obtain ⟨hmem, hdrams⟩ := countAll_mem_drams page.toNat same (s.clearTallies page.toNat)
    obtain ⟨hmem', hdrams'⟩ := clearTallies_mem_drams s page.toNat
    refine ⟨_, hexec, sameBytes_of_mem_drams (hmem.trans hmem') (hdrams.trans hdrams'), fun k hk hp hr hs => ?_,
      fun o ho ht hd hr => ?_⟩
    · rw [reg_settle hr, reg_countAll_other, reg_clearTallies_tally s hk hp]
      intro o ho hd
      rw [keyAt_clearTallies]
      exact hs o ho hd
    · rw [reg_settle hr, ← keyAt_clearTallies]
      refine reg_countAll_mem hnd ho ⟨ht, hd⟩ (reg_clearTallies_tally s ?_ ?_)
      · rw [isTally_keyAt, ht]
      · exact keyPage_keyAt _ page o
  · have hexec := tallyClr_admitted h v []
    rw [hv] at hexec
    exact ⟨_, hexec, sameRegs_settle fun _ _ _ => rfl⟩

end Sys2Proof.Laws
end

section
/-!
SUPPORT. Accesses to the stores (R274 to R280, R294): what an access depends on, which bytes a write leaves, and what an access leaves
alone, whatever errors it meets.
-/
namespace Sys2Proof.Laws
open Sys2Proof.Machine

/-! ## Keys and outputs -/

theorem keyPage_rkey {p o : Nat} (hp : p < 4096) (ho : o < 4096) : keyPage (rkey p o) = p := by
  unfold keyPage rkey; omega

/-- The tallies that `settle` may count lie on the pages of the interrupt controller and the endpoint. -/
theorem not_mem_riseTallies_of_page {k : Nat} (h8 : keyPage k ≠ 0x008) (h9 : keyPage k ≠ 0x009) (h400 : keyPage k ≠ 0x400) :
    k ∉ riseTallies := by
  intro h
  simp only [riseTallies, List.mem_cons, List.not_mem_nil, or_false] at h
  rcases h with rfl | rfl | rfl
  · exact h8 rfl
  · exact h9 rfl
  · exact h400 rfl

theorem isTally_of_off {k : Nat} (hlo : 0xE00 ≤ keyOff k) (hhi : keyOff k ≤ 0xEFF) : isTally k = true := by
  simp [isTally, hlo, hhi]

theorem isTally_rkey {p o : Nat} (hlo : 0xE00 ≤ o) (hhi : o ≤ 0xEFF) : isTally (rkey p o) = true := by
  have hk : keyOff (rkey p o) = o := keyOff_rkey (by omega)
  exact isTally_of_off (by omega) (by omega)

theorem isTally_bkey_low {b p o : Nat} (ho : o < 0xE00) (hd : o ≠ 0x024) : isTally (bkey b p o) = false := by
  have hk : keyOff (bkey b p o) = o := keyOff_bkey (by omega)
  simp only [isTally, hk, Bool.or_eq_false_iff, Bool.and_eq_false_iff, decide_eq_false_iff_not, beq_eq_false_iff_ne]
  omega

/-! ## What an access depends on -/

/-- Nothing that an access to a store depends on differs: bytes and latent errors, channels, power, security, and every register
that is no tally. -/
structure SameAccess (s t : State) : Prop where
  mem : t.mem = s.mem
  drams : t.drams = s.drams
  upsets : t.upsets = s.upsets
  power : t.power = s.power
  sec : t.sec = s.sec
  reg : ∀ k, isTally k = false → t.reg k = s.reg k

namespace SameAccess

variable {s t u : State}

theorem refl (s : State) : SameAccess s s := ⟨rfl, rfl, rfl, rfl, rfl, fun _ _ => rfl⟩

theorem tally (h : SameAccess s t) {k : Nat} (hk : isTally k = true) : SameAccess s (t.tally k) where
  mem := h.mem
  drams := h.drams
  upsets := h.upsets
  power := h.power
  sec := h.sec
  reg k' hk' := by
    rw [reg_tally_other t (by rintro rfl; rw [hk] at hk'; cases hk')]
    exact h.reg k' hk'

theorem storeTally (h : SameAccess s t) (st : Store) {o : Nat} (hlo : 0xE00 ≤ o) (hhi : o ≤ 0xEFF) :
    SameAccess s (t.storeTally st o) := by
  unfold State.storeTally
  split
  · exact h.tally (isTally_rkey hlo hhi)
  · exact h

theorem sameBytes (h : SameAccess s t) : SameBytes s t := sameBytes_of_mem_drams h.mem h.drams

theorem atRest (h : SameAccess s t) (hs : s.AtRest) : t.AtRest := by
  obtain ⟨hup, hclear, hopen⟩ := hs
  exact ⟨h.upsets.trans hup, by rw [h.power, hclear], fun c => by simpa only [State.dram, h.drams] using hopen c⟩

theorem domOn (h : SameAccess s t) (d : Nat) : t.domOn d = s.domOn d := by
  simp only [State.domOn, State.domState, h.power]

theorem storeClearing (h : SameAccess s t) (st : Store) : t.storeClearing st = s.storeClearing st := by
  simp only [State.storeClearing, h.power]

theorem mapSet (h : SameAccess s t) : t.mapSet = s.mapSet := by
  funext i
  have hbase : t.reg (Reg.MAP_SET_BASE i) = s.reg (Reg.MAP_SET_BASE i) := h.reg _ (isTally_bkey_low (by decide) (by decide))
  have hcfg : t.reg (Reg.MAP_SET_CFG i) = s.reg (Reg.MAP_SET_CFG i) := h.reg _ (isTally_bkey_low (by decide) (by decide))
  simp only [State.mapSet, hbase, hcfg]

theorem setBad (h : SameAccess s t) (m : MapSet) : t.setBad m = s.setBad m := by
  have hdc (c : Nat) : t.reg (Reg.DC_CFG c) = s.reg (Reg.DC_CFG c) := h.reg _ (isTally_rkey_low (by decide) (by decide))
  simp only [State.setBad, hdc]

theorem dramPlace (h : SameAccess s t) (a : Nat) : t.dramPlace a = s.dramPlace a := by
  have hvalid : t.setValid = s.setValid := by
    funext i
    simp only [State.setValid, State.setIgnored, h.mapSet, h.setBad]
  unfold State.dramPlace
  rw [hvalid, h.mapSet]

theorem flat (h : SameAccess s t) (p : Ptr) : t.flat p = s.flat p := by
  simp only [State.flat, h.dramPlace]

theorem peeks (h : SameAccess s t) (p : Ptr) (n : Nat) : t.peeks p n = s.peeks p n := by
  have hb : t.byte = s.byte := funext h.sameBytes
  simp only [State.peeks, State.peek, h.flat, hb]

theorem touched (h : SameAccess s t) (p : Ptr) (n : Nat) : t.touched p n = s.touched p n := by
  simp only [State.touched, h.dramPlace]

theorem chanServes (h : SameAccess s t) (c : Nat) : t.chanServes c = s.chanServes c := by
  have hstate : t.reg (Reg.DC_STATE c) = s.reg (Reg.DC_STATE c) := h.reg _ (isTally_rkey_low (by decide) (by decide))
  simp only [State.chanServes, State.chanState, hstate, h.domOn]

/-- The same accesses are refused. -/
theorem refusesAccess_isNone (h : SameAccess s t) (p : Ptr) (n : Nat) :
    (t.refusesAccess p n).isNone = (s.refusesAccess p n).isNone := by
  unfold State.refusesAccess
  simp only [h.touched, h.chanServes, h.sec, h.domOn]
  split
  · split
    · rfl
    · split <;> rfl
  · split_ifs <;> rfl
  · split
    · rfl
    · split
      · split <;> rfl
      · split <;> rfl
      · rfl

theorem refusesAccess_eq_none (h : SameAccess s t) {p : Ptr} {n : Nat} (hs : s.refusesAccess p n = none) :
    t.refusesAccess p n = none := by
  have hn := h.refusesAccess_isNone p n
  rwa [hs, Option.isNone_none, Option.isNone_iff_eq_none] at hn

theorem byte_pokes (h : SameAccess s t) (p : Ptr) (d : List Byte) (k : Nat) : (t.pokes p d).byte k = (s.pokes p d).byte k := by
  have hmem : (t.pokes p d).mem = (s.pokes p d).mem := by simp only [State.pokes, h.mem, funext h.flat]
  exact sameBytes_of_mem_drams (s := s.pokes p d) (t := t.pokes p d) hmem h.drams k

end SameAccess

theorem holdRequests_sameAccess (s : State) (p : Ptr) (n : Nat) : SameAccess s (s.holdRequests p n) := by
  unfold State.holdRequests
  split
  · refine foldl_keeps (P := SameAccess s) (fun a q ha => ?_) _ (SameAccess.refl s)
    split
    · split
      · exact ha.tally (isTally_rkey (by decide) (by decide))
      · exact ha
    · exact ha
  · split
    · exact foldl_keeps (P := SameAccess s) (fun a q ha => ha.storeTally _ (by decide) (by decide)) _ (SameAccess.refl s)
    · exact SameAccess.refl s

/-- A refused access counts and no more. -/
theorem refusesAccess_frame {s t : State} {p : Ptr} {n : Nat} (h : s.refusesAccess p n = some t) :
    { t with regs := s.regs, sec := s.sec } = s := by
  have hstore (st : Store) (o : Nat) : { s.storeTally st o with regs := s.regs, sec := s.sec } = s := by
    unfold State.storeTally
    split <;> rfl
  unfold State.refusesAccess at h
  split at h
  · split at h
    · cases h; rfl
    · split at h
      · cases h
      · cases h
        unfold State.countDown
        split <;> rfl
  · split_ifs at h <;> cases h <;> rfl
  · split at h
    · cases h; exact hstore _ _
    · split at h
      · split at h <;> cases h
        exact hstore _ _
      · split at h <;> cases h
        exact hstore _ _
      · cases h

/-! ## The bytes after a write -/

section Bytes
variable (s : State)

theorem pokes_cons (p : Ptr) (b : Byte) (d : List Byte) :
    s.pokes p (b :: d) = (match s.flat p with
      | some k => s.putByte k b
      | none => s).pokes (ptrAdd p 1) d := by
  cases hf : s.flat p with
  | none => simp only [State.pokes, pokeList, hf]
  | some k =>
    have hflat : (s.putByte k b).flat = s.flat := rfl
    simp only [State.pokes, pokeList, hf, hflat]
    rfl

theorem ptrAdd_zero (p : Ptr) : ptrAdd p 0 = p := rfl

theorem ptrAdd_ptrAdd (p : Ptr) (i j : Nat) : ptrAdd (ptrAdd p i) j = ptrAdd p (i + j) := by simp [ptrAdd, Nat.add_assoc]

/-- A byte at which no address of the write stands reads as before. -/
theorem byte_pokes_outside (p : Ptr) (d : List Byte) {k : Nat} (h : ∀ i < d.length, s.flat (ptrAdd p i) ≠ some k) :
    (s.pokes p d).byte k = s.byte k := by
  induction d generalizing s p with
  | nil => rfl
  | cons b r ih =>
    rw [pokes_cons]
    have htail : ∀ i < r.length, s.flat (ptrAdd (ptrAdd p 1) i) ≠ some k := fun i hi => by
      rw [ptrAdd_ptrAdd, Nat.add_comm]
      exact h (i + 1) (Nat.succ_lt_succ hi)
    cases hf : s.flat p with
    | none => exact ih s _ htail
    | some k' =>
      have hk : k ≠ k' := by
        rintro rfl
        exact h 0 (Nat.succ_pos _) hf
      exact (ih (s.putByte k' b) _ htail).trans (by rw [byte_putByte, if_neg hk])

/-- The byte of the last address of the write that stands at it. -/
theorem byte_pokes_inside (p : Ptr) (d : List Byte) {k i : Nat} (hi : i < d.length) (hk : s.flat (ptrAdd p i) = some k)
    (hlast : ∀ j, i < j → j < d.length → s.flat (ptrAdd p j) ≠ some k) : (s.pokes p d).byte k = d.getD i 0 := by
  induction d generalizing s p i with
  | nil => exact absurd hi (Nat.not_lt_zero i)
  | cons b r ih =>
    rw [pokes_cons]
    have hshift (j : Nat) : ptrAdd (ptrAdd p 1) j = ptrAdd p (j + 1) := by rw [ptrAdd_ptrAdd, Nat.add_comm]
    cases i with
    | zero =>
      rw [ptrAdd_zero] at hk
      simp only [hk]
      refine (byte_pokes_outside (s.putByte k b) _ r fun j hj => ?_).trans ?_
      · rw [hshift]
        exact hlast (j + 1) (Nat.succ_pos j) (Nat.succ_lt_succ hj)
      · rw [byte_putByte, if_pos rfl, List.getD_cons_zero]
    | succ i =>
      rw [List.getD_cons_succ]
      have htail : ∀ j, i < j → j < r.length → s.flat (ptrAdd (ptrAdd p 1) j) ≠ some k := fun j hij hj => by
        rw [hshift]
        exact hlast (j + 1) (Nat.succ_lt_succ hij) (Nat.succ_lt_succ hj)
      have hi' : i < r.length := Nat.lt_of_succ_lt_succ hi
      rw [← hshift] at hk
      split
      · exact ih (s.putByte _ b) _ hi' hk htail
      · exact ih s _ hi' hk htail

theorem flat_onChip {p : Ptr} (hp : p.store ≠ .dram) :
    s.flat p = if p.addr < storeSize p.store then some (storeBase p.store + p.addr) else none := by
  unfold State.flat
  split
  · next h => exact absurd h hp
  · rfl

/-- The flat numbers of a range of an on-chip store. -/
theorem flat_ptrAdd_onChip {p : Ptr} {n : Nat} (hp : p.store ≠ .dram) (hfit : p.addr + n ≤ storeSize p.store) {i : Nat} (hi : i < n) :
    s.flat (ptrAdd p i) = some (storeBase p.store + p.addr + i) := by
  have hlt : p.addr + i < storeSize p.store := by omega
  rw [flat_onChip s (p := ptrAdd p i) hp]
  simp only [ptrAdd, hlt, if_true, Nat.add_assoc]

/-- The bytes written to a range of an on-chip store. -/
theorem byte_pokes_onChip {p : Ptr} {d : List Byte} (hp : p.store ≠ .dram) (hfit : p.addr + d.length ≤ storeSize p.store) {i : Nat}
    (hi : i < d.length) : (s.pokes p d).byte (storeBase p.store + p.addr + i) = d.getD i 0 := by
  refine byte_pokes_inside s p d hi (flat_ptrAdd_onChip s hp hfit hi) fun j hij hj => ?_
  rw [flat_ptrAdd_onChip s hp hfit hj, Ne, Option.some_inj]
  omega

theorem peeks_pokes_onChip {p : Ptr} {d : List Byte} (hp : p.store ≠ .dram) (hfit : p.addr + d.length ≤ storeSize p.store) :
    (s.pokes p d).peeks p d.length = d := by
  refine List.ext_getElem (by simp [State.peeks]) fun i hi hi' => ?_
  have hflat : (s.pokes p d).flat (ptrAdd p i) = some (storeBase p.store + p.addr + i) := flat_ptrAdd_onChip _ hp hfit hi'
  simp only [State.peeks, List.getElem_map, List.getElem_range, State.peek, hflat]
  rw [byte_pokes_onChip s hp hfit hi', List.getD_eq_getElem _ _ hi']

/-- An access to an on-chip store that nothing refuses stays within it. -/
theorem fits_of_refusesAccess {p : Ptr} {n : Nat} (hp : p.store ≠ .dram) (h : s.refusesAccess p n = none) :
    p.addr + n ≤ storeSize p.store := by
  unfold State.refusesAccess at h
  split at h
  · next hd => exact absurd hd hp
  · next hsec =>
    rw [hsec]
    split_ifs at h
    omega
  · split at h
    · cases h
    · omega

/-- Without latent errors a write stores its bytes unless it is refused. -/
theorem byte_write_of_nil (hs : s.upsets = []) (p : Ptr) (d : List Byte) (k : Nat) :
    (s.write p d).st.byte k = if (s.refusesAccess p d.length).isNone then (s.pokes p d).byte k else s.byte k := by
  unfold State.write
  split
  · next hd =>
    subst hd
    exact (ite_self (s.byte k)).symm
  · split
    · next t ht =>
      have hframe := refusesAccess_frame ht
      rw [ht]
      exact sameBytes_of_mem_drams (congrArg State.mem hframe) (congrArg State.drams hframe) k
    · next hn =>
      have hheld := holdRequests_sameAccess s p d.length
      simp only [hn, meetErrors_of_nil (hheld.upsets.trans hs), Option.isNone_none, if_true, OfNat.zero_ne_ofNat, if_false]
      exact hheld.byte_pokes p d k

end Bytes

/-- Without latent errors a unit's write leaves the same bytes in states that an access does not tell apart. -/
theorem SameAccess.byte_unitWrite {s t : State} (h : SameAccess s t) (hs : s.upsets = []) (p : Ptr) (d : List Byte) (k : Nat) :
    (t.unitWrite p d).byte k = (s.unitWrite p d).byte k := by
  unfold State.unitWrite
  split
  · exact h.sameBytes k
  · rw [byte_write_of_nil s hs, byte_write_of_nil t (h.upsets.trans hs), h.refusesAccess_isNone, h.byte_pokes, h.sameBytes k]

/-! ## What an access leaves alone -/

/-- Nothing differs that no access to a store changes, even one that freezes a channel (R45, R304). -/
def AccessFrame (s t : State) : Prop :=
  { t with
    regs := s.regs, mem := s.mem, upsets := s.upsets, acc := s.acc, stalls := s.stalls, clusters := s.clusters
    engines := s.engines, pools := s.pools, drams := s.drams, loader := s.loader, sec := s.sec, egress := s.egress } = s

section Frame
variable {s a : State}

theorem accessFrame_refl (s : State) : AccessFrame s s := rfl

theorem accessFrame_setReg (h : AccessFrame s a) (k : Nat) (v : Word) : AccessFrame s (a.setReg k v) := h

theorem accessFrame_dramCe (h : AccessFrame s a) (k : Nat) : AccessFrame s (a.dramCe k) := h

theorem accessFrame_abandonWork (h : AccessFrame s a) (e : Nat) : AccessFrame s (a.abandonWork e) := by
  unfold State.abandonWork
  dsimp only
  split <;> exact h

theorem accessFrame_teardownJob (h : AccessFrame s a) (st j : Nat) : AccessFrame s (a.teardownJob st j) := by
  unfold State.teardownJob
  extract_lets runs s1 s2 s3
  have h1 : AccessFrame s s1 := by
    refine foldl_keeps (P := AccessFrame s) (fun b c hb => ?_) _ h
    dsimp only
    split
    · exact foldl_keeps (P := AccessFrame s) (fun b e hb => accessFrame_abandonWork hb e) _ hb
    · exact hb
  have h2 : AccessFrame s s2 := 
    foldl_keeps (P := AccessFrame s) (f := fun (b : State) (r : Region) => b.clearRange r.ptr r.size) (fun _ _ hb => hb) _ h1
  split <;> exact h2

theorem accessFrame_teardownStall (h : AccessFrame s a) (st : Nat) : AccessFrame s (a.teardownStall st) := by
  have hjobs := foldl_keeps (P := AccessFrame s) (f := fun b j => b.teardownJob st j)
    (fun _ j hb => accessFrame_teardownJob hb st j) (List.range 32) h
  generalize hl : List.range 32 = l at hjobs
  unfold State.teardownStall
  rw [hl]
  exact hjobs

theorem accessFrame_loadWords (h : AccessFrame s a) (k : Nat) (d : List Byte) : AccessFrame s (a.loadWords k d) :=
  foldl_keeps (P := AccessFrame s) (f := fun (b : State) i => b.setReg (k + 4 * i) (bytesWord d (4 * i))) (fun _ _ hb => hb) _ h

theorem accessFrame_captureBurst (h : AccessFrame s a) (c : Nat) (syn burst : List Byte) :
    AccessFrame s (a.captureBurst c syn burst) :=
  accessFrame_loadWords (accessFrame_loadWords h _ syn) _ burst

theorem accessFrame_freeze (h : AccessFrame s a) (c cause : Nat) (o : Option Nat) : AccessFrame s (a.freeze c cause o) := by
  unfold State.freeze
  split
  · exact h
  · extract_lets off l k s1 s2 s3 s4 d s5 s6
    have h3 : AccessFrame s s3 := by
      cases o with
      | none => exact h
      | some x => exact accessFrame_captureBurst (a := (s2.setReg _ _).setReg _ _) h c _ _
    have h5 : AccessFrame s s5 :=
      foldl_keeps (P := AccessFrame s) (f := fun (b : State) (q : DramReq) => b.send (.dramResponse q.initiator.val [] true false))
        (fun _ _ hb => hb) _ (a := s4) h3
    have h6 : AccessFrame s s6 := by
      refine foldl_keeps (P := AccessFrame s) (fun b st hb => ?_) _ h5
      split
      · exact accessFrame_setReg (accessFrame_teardownStall hb st) _ _
      · exact hb
    exact h6

theorem accessFrame_storeTally (h : AccessFrame s a) (st : Store) (o : Nat) : AccessFrame s (a.storeTally st o) := by
  unfold State.storeTally
  split <;> exact h

theorem accessFrame_storeError (h : AccessFrame s a) (st : Store) (k : Nat) (ue : Bool) : AccessFrame s (a.storeError st k ue) := by
  unfold State.storeError
  split
  · exact h
  · dsimp only
    split <;> exact h

theorem accessFrame_meetErrors (h : AccessFrame s a) (st : Store) (ks : List Nat) : AccessFrame s (a.meetErrors st ks).1 := by
  refine foldl_keeps (P := fun b : State × Nat => AccessFrame s b.1) (fun b k hb => ?_) ks (a := (a, 0)) h
  split
  · exact hb
  · split
    · split
      · exact accessFrame_freeze hb (k / 2 ^ 34) 1 (some (k % 2 ^ 34))
      · exact accessFrame_dramCe hb k
    · exact accessFrame_storeError hb _ _ _

theorem accessFrame_holdRequests (h : AccessFrame s a) (p : Ptr) (n : Nat) : AccessFrame s (a.holdRequests p n) := by
  unfold State.holdRequests
  split
  · refine foldl_keeps (P := AccessFrame s) (fun b q hb => ?_) _ h
    split
    · split <;> exact hb
    · exact hb
  · split
    · exact foldl_keeps (P := AccessFrame s) (fun b q hb => accessFrame_storeTally hb _ _) _ h
    · exact h

theorem accessFrame_refusesAccess {t : State} {p : Ptr} {n : Nat} (h : s.refusesAccess p n = some t) : AccessFrame s t := by
  have hframe := refusesAccess_frame h
  have ht : t = { s with regs := t.regs, sec := t.sec } :=
    congrArg (fun u : State => { u with regs := t.regs, sec := t.sec }) hframe
  rw [ht]
  exact accessFrame_refl s

theorem accessFrame_held (s : State) (p : Ptr) (n : Nat) (st : Store) (ks : List Nat) :
    AccessFrame s ((s.holdRequests p n).meetErrors st ks).1 :=
  accessFrame_meetErrors (accessFrame_holdRequests (accessFrame_refl s) p n) st ks

theorem accessFrame_read (s : State) (p : Ptr) (n : Nat) : AccessFrame s (s.read p n).st := by
  unfold State.read
  split
  · next ht => exact accessFrame_refusesAccess ht
  · exact accessFrame_held s p n _ _

theorem accessFrame_write (s : State) (p : Ptr) (d : List Byte) : AccessFrame s (s.write p d).st := by
  unfold State.write
  split
  · exact accessFrame_refl s
  · split
    · next ht => exact accessFrame_refusesAccess ht
    · dsimp only
      split <;> exact accessFrame_held s p d.length _ _

theorem accessFrame_unitWrite (s : State) (p : Ptr) (d : List Byte) : AccessFrame s (s.unitWrite p d) := by
  unfold State.unitWrite
  split
  · exact accessFrame_refl s
  · exact accessFrame_write s p d

theorem AccessFrame.fabric (h : AccessFrame s a) : a.fabric = s.fabric := by
  have h' := congrArg State.fabric h
  exact h'

theorem AccessFrame.sensors (h : AccessFrame s a) : a.sensors = s.sensors := by
  have h' := congrArg State.sensors h
  exact h'

end Frame

end Sys2Proof.Laws
end

section
/-!
SUPPORT. The fabric's arbiters, the scratchpad banks and the regulators (O55): what a round-robin pick and a bank's pick choose, what
a granted request does, and what a bucket holds after a request.
-/
namespace Sys2Proof.Laws
open Sys2Proof.Machine

/-! ## The round robin (R10) -/

/-- A search over rising numbers finds its value at the first number that has one. -/
theorem exists_first_of_findSome_range {α : Type} {f : Nat → Option α} {n : Nat} {b : α}
    (h : (List.range n).findSome? f = some b) : ∃ d < n, f d = some b ∧ ∀ e < d, f e = none := by
  induction n with
  | zero => cases h
  | succ n ih =>
    rw [List.range_succ, List.findSome?_append] at h
    cases hn : (List.range n).findSome? f with
    | some c =>
      rw [hn] at h
      obtain ⟨d, hd, hfd, hfirst⟩ := ih (hn.trans h)
      exact ⟨d, Nat.lt_succ_of_lt hd, hfd, hfirst⟩
    | none =>
      have hnone : ∀ e < n, f e = none := by simpa using hn
      exact ⟨n, Nat.lt_succ_self n, by simpa [hn] using h, hnone⟩

/-- The request taken is the nearest in port order after the port granted last. -/
theorem rrPick_nearest {last : Nat} {ws : List FabReq} {r : FabReq} (h : rrPick last ws = some r) :
    r ∈ ws ∧ ∀ x ∈ ws, (r.initiator.val + 27 - (last + 1) % 27) % 27 ≤ (x.initiator.val + 27 - (last + 1) % 27) % 27 := by
  obtain ⟨d, hd, hfind, hfirst⟩ := exists_first_of_findSome_range h
  have hr : r.initiator.val = (last + 1 + d) % 27 := by simpa using List.find?_some hfind
  refine ⟨List.mem_of_find?_eq_some hfind, fun x hx => ?_⟩
  by_contra hlt
  have hnone := hfirst ((x.initiator.val + 27 - (last + 1) % 27) % 27) (by omega)
  rw [List.find?_eq_none] at hnone
  have hne := hnone x hx
  have hx27 := x.initiator.isLt
  simp only [decide_eq_true_eq] at hne
  omega

/-! ## The pieces of a request (R9, R277) -/

/-- The parts of a range that lie in the first m of the blocks of 256 bytes that it meets make up the range to there. -/
theorem sum_blocks (a n m : Nat) :
    ((List.range m).map (fun i => min (a / 256 * 256 + 256 * i + 256) (a + n) - max (a / 256 * 256 + 256 * i) a)).sum =
      min (a / 256 * 256 + 256 * m) (a + n) - a := by
  induction m with
  | zero => simp; omega
  | succ m ih =>
    rw [List.range_succ, List.map_append, List.sum_append, ih]
    simp only [List.map_cons, List.map_nil, List.sum_cons, List.sum_nil]
    omega

theorem fabPieces_sum (r : FabReq) : ((fabPieces r).map FabReq.bytes).sum = r.bytes := by
  simp only [fabPieces, requestsOf, List.map_map, Function.comp_def, sum_blocks]
  omega

/-- No piece crosses a block of 256 bytes. -/
theorem fabPieces_fit {r x : FabReq} (h : x ∈ fabPieces r) : x.ptr.addr % 256 + x.bytes ≤ 256 := by
  simp only [fabPieces, requestsOf, List.map_map, List.mem_map, List.mem_range, Function.comp_apply] at h
  obtain ⟨i, -, rfl⟩ := h
  simp only [ptrAdd]
  omega

/-- A request within a block is its own piece. -/
theorem fabPieces_single {r : FabReq} (hpos : 0 < r.bytes) (hfit : r.ptr.addr % 256 + r.bytes ≤ 256)
    (hwrite : ∀ d, r.write = some d → d.length = r.bytes) : fabPieces r = [r] := by
  have hcount : (r.ptr.addr % 256 + r.bytes + 255) / 256 = 1 := by omega
  have hlo : max (r.ptr.addr / 256 * 256) r.ptr.addr = r.ptr.addr := max_eq_right (by omega)
  have hhi : min (r.ptr.addr / 256 * 256 + 256) (r.ptr.addr + r.bytes) = r.ptr.addr + r.bytes :=
    min_eq_right (by omega)
  have hdata : r.write.map (fun d => d.take r.bytes) = r.write := by
    cases hw : r.write with
    | none => rfl
    | some d => simp [← hwrite d hw]
  simp only [fabPieces, requestsOf, hcount, List.range_one, List.map_cons, List.map_nil, Nat.mul_zero, Nat.add_zero, hlo, hhi,
    Nat.sub_self, List.drop_zero, Nat.add_sub_cancel_left, hdata, ptrAdd_zero]

/-! ## Arrivals -/

theorem SameAccess.settle {s t : State} (h : SameAccess s t) : SameAccess s (settle t) where
  mem := h.mem
  drams := h.drams
  upsets := h.upsets
  power := h.power
  sec := h.sec
  reg k hk := by
    have hrise : k ∉ riseTallies := by
      intro hr
      simp only [riseTallies, List.mem_cons, List.not_mem_nil, or_false] at hr
      rcases hr with rfl | rfl | rfl <;> cases hk
    exact (reg_settle hrise t).trans (h.reg k hk)

theorem settle_peeks (s : State) (p : Ptr) (n : Nat) : (settle s).peeks p n = s.peeks p n := (SameAccess.refl s).settle.peeks p n

theorem send_peeks (s : State) (e : Egress) (p : Ptr) (n : Nat) : (s.send e).peeks p n = s.peeks p n :=
  SameAccess.peeks (s := s) ⟨rfl, rfl, rfl, rfl, rfl, fun _ _ => rfl⟩ p n

/-- What is sent goes out before what the outputs bring with them. -/
theorem egress_settle_send (s : State) (e : Egress) : ∃ z, (settle (s.send e)).egress = s.egress ++ e :: z :=
  ⟨_, List.append_assoc _ _ _⟩

theorem storeTally_fabric (s : State) (st : Store) (o : Nat) : (s.storeTally st o).fabric = s.fabric := by
  unfold State.storeTally
  split <;> rfl

theorem fabArrive_waiting {s : State} {r : FabReq} {p : Nat} (h : s.fabPort r.ptr = some p) :
    (s.fabArrive r).fabric.waiting = s.fabric.waiting ++ [(p, r)] := by
  simp only [State.fabArrive, h]
  split
  · rw [storeTally_fabric]
  · rfl

/-- An arrival counts and joins a port's queue; it changes nothing that an access depends on, and no arbiter's turn. -/
theorem fabArrive_keeps {s a : State} (h : SameAccess s a ∧ a.fabric.last = s.fabric.last) (r : FabReq) :
    SameAccess s (a.fabArrive r) ∧ (a.fabArrive r).fabric.last = s.fabric.last := by
  obtain ⟨hacc, hlast⟩ := h
  unfold State.fabArrive
  split
  · have hmiss := hacc.tally (k := Reg.MAP_MAP_MISS) (by decide)
    exact ⟨⟨hmiss.mem, hmiss.drams, hmiss.upsets, hmiss.power, hmiss.sec, hmiss.reg⟩, hlast⟩
  · next t _ =>
    have hq : SameAccess s { a with fabric := { a.fabric with waiting := a.fabric.waiting ++ [(t, r)] } } :=
      ⟨hacc.mem, hacc.drams, hacc.upsets, hacc.power, hacc.sec, hacc.reg⟩
    dsimp only
    split
    · exact ⟨hq.storeTally _ (by decide) (by decide), by rw [storeTally_fabric]; exact hlast⟩
    · exact ⟨hq, hlast⟩

theorem fabArrivals_keeps (s : State) (new : List FabReq) :
    SameAccess s (s.fabArrivals new) ∧ (s.fabArrivals new).fabric.last = s.fabric.last :=
  foldl_keeps (P := fun a : State => SameAccess s a ∧ a.fabric.last = s.fabric.last) (fun _ r ha => fabArrive_keeps ha r) _
    ⟨SameAccess.refl s, rfl⟩

/-! ## A port's grant (R10, R274, R275) -/

/-- The requests that wait at port t and whose store is not being cleared (R280). -/
def fabReady (s : State) (new : List FabReq) (t : Nat) : List FabReq :=
  ((s.fabArrivals new).fabric.waiting.filter (fun x => x.1 == t && !s.storeClearing x.2.ptr.store)).map Prod.snd

/-- Port t has granted a request: it leaves the queue, and its initiator has had the turn. -/
def fabGranted (s : State) (t : Nat) (r : FabReq) : State :=
  { s with fabric := { s.fabric with
      last := mapIns t r.initiator.val s.fabric.last
      waiting := s.fabric.waiting.erase (t, r) } }

section Grant
variable {s : State} {target : Fin 27} {new : List FabReq} {r : FabReq}

theorem exec_fabricGrant_none (h : rrPick (mapGetD s.fabric.last target.val 26) (fabReady s new target.val) = none) :
    exec (.fabricGrant target new) s = done (s.fabArrivals new) := by
  obtain ⟨hacc, hlast⟩ := fabArrivals_keeps s new
  show execFabricGrant target new s = _
  simp only [fabReady] at h
  simp only [execFabricGrant, hlast, hacc.storeClearing, h]

theorem exec_fabricGrant_some (h : rrPick (mapGetD s.fabric.last target.val 26) (fabReady s new target.val) = some r) :
    exec (.fabricGrant target new) s = done ((fabGranted (s.fabArrivals new) target.val r).fabServe r) := by
  obtain ⟨hacc, hlast⟩ := fabArrivals_keeps s new
  show execFabricGrant target new s = _
  simp only [fabReady] at h
  simp only [execFabricGrant, fabGranted, hlast, hacc.storeClearing, h]

theorem fabGranted_sameAccess {a : State} (h : SameAccess s a) (t : Nat) (r : FabReq) : SameAccess s (fabGranted a t r) :=
  ⟨h.mem, h.drams, h.upsets, h.power, h.sec, h.reg⟩

/-- Only a DRAM request can lie outside a stall's pitch (R46). -/
theorem outsidePitch_onChip (hstore : r.ptr.store ≠ .dram) : s.outsidePitch r = none := by
  simp [State.outsidePitch, hstore]

theorem fabServe_protected (hstore : r.ptr.store ≠ .dram) (hp : fabProtected r = true) :
    s.fabServe r = s.send (.fabricResponse r.initiator.val [] true false) := by
  simp only [State.fabServe, outsidePitch_onChip hstore, hp, if_true]

theorem fabServe_read (hrest : s.AtRest) (hstore : r.ptr.store ≠ .dram) (hp : fabProtected r = false) (hw : r.write = none)
    (hr : s.refusesAccess r.ptr r.bytes = none) :
    s.fabServe r = s.send (.fabricResponse r.initiator.val (s.peeks r.ptr r.bytes) false false) := by
  simp only [State.fabServe, outsidePitch_onChip hstore, hp, Bool.false_eq_true, if_false, hstore, hw, read_atRest hrest hr]
  rfl

/-- A write at rest that nothing refuses stores its bytes, an empty one too. -/
theorem write_served (hrest : s.AtRest) {p : Ptr} {d : List Byte} (hr : s.refusesAccess p d.length = none) :
    s.write p d = ⟨s.pokes p d, 0, []⟩ := by
  by_cases hd : d = []
  · subst hd
    rfl
  · exact write_atRest hrest hd hr

theorem fabServe_write (hrest : s.AtRest) (hstore : r.ptr.store ≠ .dram) (hp : fabProtected r = false) {d : List Byte}
    (hw : r.write = some d) (hr : s.refusesAccess r.ptr d.length = none) :
    s.fabServe r = (s.pokes r.ptr d).send (.fabricResponse r.initiator.val [] false false) := by
  simp only [State.fabServe, outsidePitch_onChip hstore, hp, Bool.false_eq_true, if_false, hstore, hw, write_served hrest hr]
  rfl

/-- A request to an on-chip store leaves the fabric as the grant has left it. -/
theorem fabServe_fabric (hstore : r.ptr.store ≠ .dram) : (s.fabServe r).fabric = s.fabric := by
  simp only [State.fabServe, outsidePitch_onChip hstore, hstore, if_false]
  split
  · rfl
  · split
    · exact (accessFrame_read s r.ptr r.bytes).fabric
    · next d _ => exact (accessFrame_write s r.ptr d).fabric

end Grant

/-- What a port without a request that may go does: the new ones join the queue. -/
theorem fabricGrant_idle {s : State} {target : Fin 27} {new : List FabReq}
    (h : rrPick (mapGetD s.fabric.last target.val 26) (fabReady s new target.val) = none) :
    ∃ t, exec (.fabricGrant target new) s = .next t ∧ t.fabric.waiting = (s.fabArrivals new).fabric.waiting ∧ SameBytes s t :=
  ⟨_, exec_fabricGrant_none h, rfl, (fabArrivals_keeps s new).1.settle.sameBytes⟩

/-- A granted request to an on-chip store: refused where the store is protected, else answered with its bytes or stored. -/
theorem fabricGrant_served {s : State} {target : Fin 27} {new : List FabReq} {r : FabReq}
    (h : rrPick (mapGetD s.fabric.last target.val 26) (fabReady s new target.val) = some r) (hrest : s.AtRest)
    (hstore : r.ptr.store ≠ .dram) :
    ∃ t, exec (.fabricGrant target new) s = .next t ∧
      t.fabric.waiting = (s.fabArrivals new).fabric.waiting.erase (target.val, r) ∧
      mapGet t.fabric.last target.val = some r.initiator.val ∧
      (fabProtected r = true → (∃ z, t.egress = (s.fabArrivals new).egress ++
        Egress.fabricResponse r.initiator.val [] true false :: z) ∧ SameBytes s t) ∧
      (fabProtected r = false → r.write = none → s.refusesAccess r.ptr r.bytes = none →
        (∃ z, t.egress = (s.fabArrivals new).egress ++
          Egress.fabricResponse r.initiator.val (s.peeks r.ptr r.bytes) false false :: z) ∧ SameBytes s t) ∧
      (∀ d, fabProtected r = false → r.write = some d → s.refusesAccess r.ptr d.length = none →
        t.peeks r.ptr d.length = d ∧
        (∃ z, t.egress = (s.fabArrivals new).egress ++ Egress.fabricResponse r.initiator.val [] false false :: z) ∧
        ∀ k, (∀ i < d.length, s.flat (ptrAdd r.ptr i) ≠ some k) → t.byte k = s.byte k) := by
  have hacc : SameAccess s (fabGranted (s.fabArrivals new) target.val r) :=
    fabGranted_sameAccess (fabArrivals_keeps s new).1 target.val r
  refine ⟨_, exec_fabricGrant_some h, congrArg Fabric.waiting (fabServe_fabric hstore), ?_, fun hp => ?_, fun hp hw hr => ?_,
    fun d hp hw hr => ?_⟩
  · exact (congrArg (fun f : Fabric => mapGet f.last target.val) (fabServe_fabric hstore)).trans (mapGet_ins_same _ _ _)
  · rw [fabServe_protected hstore hp]
    exact ⟨egress_settle_send _ _, hacc.sameBytes⟩
  · rw [fabServe_read (hacc.atRest hrest) hstore hp hw (hacc.refusesAccess_eq_none hr), hacc.peeks]
    exact ⟨egress_settle_send _ _, hacc.sameBytes⟩
  · rw [fabServe_write (hacc.atRest hrest) hstore hp hw (hacc.refusesAccess_eq_none hr)]
    refine ⟨?_, egress_settle_send _ _, fun k hk => ?_⟩
    · rw [settle_peeks, send_peeks]
      exact peeks_pokes_onChip _ hstore (fits_of_refusesAccess s hstore hr)
    · refine (byte_pokes_outside _ r.ptr d fun i hi => ?_).trans (hacc.sameBytes k)
      rw [hacc.flat]
      exact hk i hi

/-! ## A scratchpad bank's pick (R276) -/

/-- Requests in port order. -/
def PortSorted (rs : List SpadReq) : Prop := rs.Pairwise (fun x y => x.port.val ≤ y.port.val)

theorem mem_portInsert {r x : SpadReq} {rs : List SpadReq} : x ∈ portInsert r rs ↔ x = r ∨ x ∈ rs := by
  induction rs with
  | nil => simp [portInsert]
  | cons y ys ih =>
    rw [portInsert]
    split
    · simp
    · simp [ih, or_left_comm]

theorem portInsert_sorted {r : SpadReq} {rs : List SpadReq} (h : PortSorted rs) : PortSorted (portInsert r rs) := by
  induction rs with
  | nil => exact List.pairwise_singleton _ r
  | cons y ys ih =>
    obtain ⟨hy, hys⟩ := List.pairwise_cons.mp h
    rw [portInsert]
    split
    · next hlt =>
      refine List.pairwise_cons.mpr ⟨fun x hx => ?_, h⟩
      rcases List.mem_cons.mp hx with rfl | hx
      · exact hlt.le
      · exact hlt.le.trans (hy x hx)
    · next hge =>
      refine List.pairwise_cons.mpr ⟨fun x hx => ?_, ih hys⟩
      rcases mem_portInsert.mp hx with rfl | hx
      · exact Nat.le_of_not_lt hge
      · exact hy x hx

theorem portSort_sorted (rs : List SpadReq) : PortSorted (portSort rs) :=
  foldl_keeps (P := PortSorted) (fun _ _ h => portInsert_sorted h) rs List.Pairwise.nil

theorem mem_portSort {x : SpadReq} {rs : List SpadReq} : x ∈ portSort rs ↔ x ∈ rs := by
  have hfold (l a : List SpadReq) : x ∈ l.foldl (fun a r => portInsert r a) a ↔ x ∈ l ∨ x ∈ a := by
    induction l generalizing a with
    | nil => simp
    | cons y ys ih => rw [List.foldl_cons, ih, mem_portInsert, List.mem_cons]; tauto
  exact (hfold rs []).trans (or_iff_left List.not_mem_nil)

/-- The first request in port order that meets a condition is of the lowest port. -/
theorem port_le_of_find {rs : List SpadReq} (hs : PortSorted rs) {p : SpadReq → Bool} {r x : SpadReq} (h : rs.find? p = some r)
    (hx : x ∈ rs) (hp : p x = true) : r.port.val ≤ x.port.val := by
  induction rs with
  | nil => cases hx
  | cons y ys ih =>
    obtain ⟨hy, hys⟩ := List.pairwise_cons.mp hs
    rw [List.find?_cons] at h
    split at h
    · cases h
      rcases List.mem_cons.mp hx with rfl | hx
      · exact le_rfl
      · exact hy x hx
    · next hny =>
      rcases List.mem_cons.mp hx with rfl | hx
      · rw [hp] at hny; cases hny
      · exact ih hys h hx

/-- A head request of the lowest group, and in it of the lowest port, before the oldest of the others. -/
theorem spadPick_some {side : SpadReq → Bool} {old new : List SpadReq} {r : SpadReq} (h : spadPick side old new = some r) :
    r ∈ old ++ new ∧ side r = true ∧ ∀ x ∈ new, x.head = true → side x = true →
      r.head = true ∧ r ∈ new ∧ r.group.val ≤ x.group.val ∧ (r.group = x.group → r.port.val ≤ x.port.val) := by
  unfold spadPick at h
  extract_lets heads at h
  have hmem {x : SpadReq} : x ∈ heads ↔ x ∈ new ∧ x.head = true ∧ side x = true := by
    simp only [heads, List.mem_filter, mem_portSort, Bool.and_eq_true]
  have hsorted : PortSorted heads := (portSort_sorted new).sublist List.filter_sublist
  have hpicked (hr : r ∈ heads) (hbest : ∀ x ∈ heads, r.group.val ≤ x.group.val ∧ (r.group = x.group → r.port.val ≤ x.port.val)) :
      r ∈ old ++ new ∧ side r = true ∧ ∀ x ∈ new, x.head = true → side x = true →
        r.head = true ∧ r ∈ new ∧ r.group.val ≤ x.group.val ∧ (r.group = x.group → r.port.val ≤ x.port.val) := by
    obtain ⟨hnew, hhead, hside⟩ := hmem.mp hr
    exact ⟨List.mem_append_right _ hnew, hside, fun x hx hxh hxs => ⟨hhead, hnew, hbest x (hmem.mpr ⟨hx, hxh, hxs⟩)⟩⟩
  have hgroup {g : Nat} (hf : heads.find? (fun x => x.group.val = g) = some r) :
      r.group.val = g ∧ ∀ x ∈ heads, r.group = x.group → r.port.val ≤ x.port.val := by
    have hg : r.group.val = g := by simpa using List.find?_some hf
    exact ⟨hg, fun x hx he => port_le_of_find hsorted hf hx (by simp [← he, hg])⟩
  split at h
  · next r0 h0 =>
    cases h
    obtain ⟨hg, hport⟩ := hgroup h0
    exact hpicked (List.mem_of_find?_eq_some h0) fun x hx => ⟨by omega, hport x hx⟩
  · next h0 =>
    have hno0 : ∀ x ∈ heads, x.group.val ≠ 0 := by simpa using h0
    split at h
    · next r1 h1 =>
      cases h
      obtain ⟨hg, hport⟩ := hgroup h1
      exact hpicked (List.mem_of_find?_eq_some h1) fun x hx => ⟨by have := hno0 x hx; omega, hport x hx⟩
    · next h1 =>
      have hno1 : ∀ x ∈ heads, x.group.val ≠ 1 := by simpa using h1
      have htwo : ∀ x ∈ heads, x.group.val = 2 := fun x hx => by
        have := hno0 x hx
        have := hno1 x hx
        omega
      cases hheads : heads with
      | cons r2 rest =>
        rw [hheads] at h
        cases h
        have hr : r ∈ heads := hheads ▸ List.mem_cons_self
        refine hpicked hr fun x hx => ⟨by rw [htwo r hr, htwo x hx], fun _ => ?_⟩
        rw [hheads] at hsorted hx
        rcases List.mem_cons.mp hx with rfl | hx
        · exact le_rfl
        · exact (List.pairwise_cons.mp hsorted).1 x hx
      | nil =>
        rw [hheads] at h
        have hside : side r = true := List.find?_some h
        refine ⟨?_, hside, fun x hx hxh hxs => ?_⟩
        · have hr := List.mem_of_find?_eq_some h
          rw [List.mem_append, mem_portSort] at hr
          exact List.mem_append.mpr hr
        · have hx' := hmem.mpr ⟨hx, hxh, hxs⟩
          rw [hheads] at hx'
          cases hx'

/-! ## A scratchpad bank's grant (R276) -/

theorem storeClearing_atRest {s : State} (h : s.AtRest) (st : Store) : s.storeClearing st = false := by
  obtain ⟨-, hclear, -⟩ := h
  unfold State.storeClearing
  split <;> simp [hclear]

/-- A word of a bank lies within its scratchpad, which answers while its domain is on. -/
theorem spadPtr_fits (c : Fin 8) (bank : Fin 32) (row : BitVec 11) {n : Nat} (hn : n ≤ 128) :
    (spadPtr c bank row).addr + n ≤ storeSize (spadPtr c bank row).store := by
  have hrow := row.isLt
  have hbank := bank.isLt
  simp only [spadPtr, storeSize]
  omega

theorem refusesAccess_spadPtr {s : State} {c : Fin 8} (hdom : s.domOn c.val = true) (bank : Fin 32) (row : BitVec 11) {n : Nat}
    (hn : n ≤ 128) : s.refusesAccess (spadPtr c bank row) n = none := by
  have hfit := spadPtr_fits c bank row hn
  simp only [spadPtr] at hfit
  simp [State.refusesAccess, spadPtr, Nat.not_lt.mpr hfit, hdom]

/-- What the granted read of a bank answers: the 128 bytes of its row. -/
def spadAnswers (s : State) (c : Fin 8) (bank : Fin 32) (rd : Option SpadReq) : List Egress :=
  rd.toList.map (fun r => Egress.spadResponse r.port.val (s.peeks (spadPtr c bank r.row) 128) false)

section Scratchpad
variable {s : State} {c : Fin 8} {bank : Fin 32} {new old : List SpadReq} {rd : Option SpadReq}

/-- A grant at rest: the read is answered, and then the write, if there is one, is done on the bank as it was. -/
theorem exec_scratchpadGrant (hdom : s.domOn c.val = true) (hrest : s.AtRest)
    (hold : old = (s.fabric.spadWaiting.filter (fun x => x.1 == c.val * 32 + bank.val)).map Prod.snd)
    (hrd : rd = spadPick (fun r => r.write.isNone) old new) {wr : Option SpadReq} (hwr : wr = spadPick (fun r => r.write.isSome) old new) :
    ∃ u : State, SameAccess s u ∧ u.regs = s.regs ∧ u.egress = s.egress ++ spadAnswers s c bank rd ∧
      (wr = none → exec (.scratchpadGrant c bank new) s = done u) ∧
      ∀ w d, wr = some w → w.write = some d →
        exec (.scratchpadGrant c bank new) s = done (u.pokes (spadPtr c bank w.row) (d.take 128)) := by
  have hclear : s.storeClearing (.spad c) = false := storeClearing_atRest hrest _
  have hexec : exec (.scratchpadGrant c bank new) s = execScratchpadGrant c bank new s := rfl
  unfold execScratchpadGrant at hexec
  extract_lets key old' rest busy rd' wr' all_ left left2 f s0 s1 at hexec
  have hrd' : rd' = rd := by rw [hrd, hold]; exact if_neg (ne_true_of_eq_false hclear)
  have hwr' : wr' = wr := by rw [hwr, hold]; exact if_neg (ne_true_of_eq_false hclear)
  have hacc : SameAccess s s0 := ⟨rfl, rfl, rfl, rfl, rfl, fun _ _ => rfl⟩
  have hs1 : SameAccess s s1 ∧ s1.regs = s.regs ∧ s1.egress = s.egress ++ spadAnswers s c bank rd := by
    simp only [s1, hrd']
    cases rd with
    | none => exact ⟨hacc, rfl, (List.append_nil _).symm⟩
    | some r =>
      have hread : s0.read (spadPtr c bank r.row) 128 = ⟨s0, 0, s.peeks (spadPtr c bank r.row) 128⟩ := by
        rw [read_atRest (s := s0) hrest (refusesAccess_spadPtr (s := s0) hdom bank r.row le_rfl), hacc.peeks]
      simp only [hread]
      exact ⟨⟨rfl, rfl, rfl, rfl, rfl, fun _ _ => rfl⟩, rfl, rfl⟩
  obtain ⟨hacc1, hregs1, hegress1⟩ := hs1
  refine ⟨s1, hacc1, hregs1, hegress1, fun hnone => ?_, fun w d hsome hd => ?_⟩
  · rw [hexec, hwr', hnone]
  · obtain ⟨port, group, head, row, write⟩ := w
    simp only at hd
    have hwrite : s1.write (spadPtr c bank row) (d.take 128) = ⟨s1.pokes (spadPtr c bank row) (d.take 128), 0, []⟩ :=
      write_served (hacc1.atRest hrest)
        (refusesAccess_spadPtr ((hacc1.domOn c.val).trans hdom) bank row (List.length_take_le 128 d))
    rw [hexec, hwr', hsome, hd]
    exact congrArg (fun x : Resp => done x.st) hwrite

/-- A bank at rest answers the read with the bytes as they were, stores the write, and does no more. -/
theorem scratchpadGrant_served (hdom : s.domOn c.val = true) (hrest : s.AtRest)
    (hold : old = (s.fabric.spadWaiting.filter (fun x => x.1 == c.val * 32 + bank.val)).map Prod.snd)
    (hrd : rd = spadPick (fun r => r.write.isNone) old new) {wr : Option SpadReq} (hwr : wr = spadPick (fun r => r.write.isSome) old new) :
    ∃ t, exec (.scratchpadGrant c bank new) s = .next t ∧
      (∃ z, t.egress = s.egress ++ spadAnswers s c bank rd ++ z) ∧
      (wr = none → SameBytes s t) ∧
      (∀ w d, wr = some w → w.write = some d →
        (∀ i < d.length, i < 128 → t.byte (storeBase (.spad c) + w.row.toNat * 4096 + bank.val * 128 + i) = d.getD i 0) ∧
        ∀ k, (k < storeBase (.spad c) + w.row.toNat * 4096 + bank.val * 128 ∨
          storeBase (.spad c) + w.row.toNat * 4096 + bank.val * 128 + 128 ≤ k) → t.byte k = s.byte k) ∧
      SameRegs [] s t := by
  obtain ⟨u, hacc, hregs, hegress, hnone, hsome⟩ := exec_scratchpadGrant hdom hrest hold hrd hwr
  have hsame : SameRegs [] s u := fun k _ _ => by simp only [State.reg, hregs]
  have hsent (v : State) (hv : v.egress = u.egress) : ∃ z, (settle v).egress = s.egress ++ spadAnswers s c bank rd ++ z :=
    ⟨v.settleSends, by rw [← hegress, ← hv]; rfl⟩
  cases hw : wr with
  | none => exact ⟨_, hnone hw, hsent u rfl, fun _ => hacc.sameBytes, by simp, sameRegs_settle hsame⟩
  | some w =>
    obtain ⟨d, hd⟩ : ∃ d, w.write = some d := by
      obtain ⟨-, hside, -⟩ := spadPick_some (hwr ▸ hw)
      exact Option.isSome_iff_exists.mp hside
    have hfit := spadPtr_fits c bank w.row (List.length_take_le 128 d)
    have hstore : (spadPtr c bank w.row).store ≠ .dram := by simp [spadPtr]
    refine ⟨_, hsome w d hw hd, hsent _ rfl, by simp, fun w' d' hw' hd' => ?_, sameRegs_settle hsame⟩
    obtain rfl : w = w' := Option.some_inj.mp hw'
    obtain rfl : d = d' := Option.some_inj.mp (hd.symm.trans hd')
    refine ⟨fun i hi hi128 => ?_, fun k hk => ?_⟩
    · have hi' : i < (d.take 128).length := by rw [List.length_take]; omega
      have hbyte := byte_pokes_onChip u hstore hfit hi'
      rw [List.getD_eq_getElem _ _ hi', List.getElem_take] at hbyte
      rw [List.getD_eq_getElem _ _ hi, ← hbyte]
      simp only [spadPtr, ← Nat.add_assoc]
      rfl
    · refine (byte_pokes_outside u _ _ fun i hi => ?_).trans (hacc.sameBytes k)
      rw [flat_ptrAdd_onChip u hstore hfit hi, Ne, Option.some_inj]
      have hi128 : i < 128 := hi.trans_le (List.length_take_le 128 d)
      simp only [spadPtr]
      omega

end Scratchpad

end Sys2Proof.Laws
end

section
/-!
SUPPORT. The regulators (R46, R47): the bytes that are charged, what a bucket holds after a request, and the fault of a stall whose
request leaves its pitch; and the settling of O55.
-/
namespace Sys2Proof.Laws
open Sys2Proof.Machine

/-! ## The bytes charged (R46) -/

/-- A write within a burst that leaves a part of it is charged as two bursts. -/
theorem admitBytes_partial (c : Fin 8) {at_ : BitVec 6} {n : Nat} (hfit : at_.toNat + n ≤ 64) (hpos : 0 < n) (hlt : n < 64) :
    admitBytes (some c) (some at_) n = 128 := by
  have hat : at_.toNat % 64 = at_.toNat := Nat.mod_eq_of_lt at_.isLt
  have hcount : (at_.toNat + n + 63) / 64 = 1 := by omega
  simp only [admitBytes, chargedBytes, hat, hcount, List.range_one, List.map_cons, List.map_nil, List.sum_singleton]
  rw [if_pos ⟨trivial, by omega⟩, if_neg (by omega)]

/-- A write of whole bursts is charged its bytes. -/
theorem admitBytes_whole (c : Fin 8) {at_ : BitVec 6} {n : Nat} (hat : at_ = 0) (hn : n % 64 = 0) :
    admitBytes (some c) (some at_) n = n := by
  subst hat
  obtain ⟨m, rfl⟩ : ∃ m, n = 64 * m := ⟨n / 64, by omega⟩
  have hcount : (64 * m + 63) / 64 = m := by omega
  have hburst : (List.range m).map (fun i => if min (64 * i + 64) (64 * m) - max (64 * i) 0 = 64 then 64 else 128) =
      (List.range m).map (fun _ => 64) := by
    refine List.map_congr_left fun i hi => if_pos ?_
    have him := List.mem_range.mp hi
    omega
  have hzero : (0 : BitVec 6).toNat % 64 = 0 := rfl
  simp only [admitBytes, chargedBytes, hzero, Nat.zero_add, hcount, hburst]
  rw [List.map_const', List.length_range, List.sum_replicate, smul_eq_mul]
  split <;> omega

/-! ## Buckets -/

/-- The rates, depths and pitches of a regulator are no tallies. -/
theorem regulator_congr {s t : State} (heff : t.eff = s.eff) (hreg : ∀ k, isTally k = false → t.reg k = s.reg k) (r : Regulator)
    (chan : Option (Fin 8)) : t.regulator r chan = s.regulator r chan := by
  have hk {p o : Nat} (ho : o < 0xE00) (hd : o ≠ 0x024) : t.reg (rkey p o) = s.reg (rkey p o) := hreg _ (isTally_rkey_low ho hd)
  cases r with
  | stallDram st =>
    simp only [State.regulator, State.regN, State.effReg, heff, Reg.STALL_DRAM_RATE_BUNDLE, Reg.STALL_DRAM_DEPTH, Reg.STALL_PITCH,
      hk (by decide : 0x110 < 0xE00) (by decide), hk (by decide : 0x118 < 0xE00) (by decide),
      hk (by decide : 0x104 < 0xE00) (by decide)]
  | stallFabric st =>
    simp only [State.regulator, State.regN, State.effReg, heff, Reg.STALL_FAB_RATE_BUNDLE, Reg.STALL_FAB_DEPTH,
      hk (by decide : 0x11C < 0xE00) (by decide), hk (by decide : 0x124 < 0xE00) (by decide)]
  | media => simp only [State.regulator, State.regN, State.effReg, heff, hreg Reg.SHARED_MEDIA_RATE_BUNDLE rfl,
      hreg Reg.SHARED_MEDIA_DEPTH rfl]
  | hostDma => simp only [State.regulator, State.regN, State.effReg, heff, hreg Reg.SHARED_HDMA_RATE_BUNDLE rfl,
      hreg Reg.SHARED_HDMA_DEPTH rfl]
  | tau => simp only [State.regulator, State.regN, State.effReg, heff, hreg Reg.SHARED_TAU_RATE_BUNDLE rfl,
      hreg Reg.SHARED_TAU_DEPTH rfl]
  | mgc => rfl

section Buckets
variable {s : State} {r : Regulator} {chan : Option (Fin 8)}

theorem settle_regulator (r : Regulator) (chan : Option (Fin 8)) : (settle s).regulator r chan = s.regulator r chan :=
  regulator_congr (s := s) (t := settle s) rfl (SameAccess.refl s).settle.reg r chan

theorem settle_bucket (r : Regulator) (chan : Option (Fin 8)) : (settle s).bucket r chan = s.bucket r chan := by
  have hfabric : (settle s).fabric = s.fabric := rfl
  simp only [State.bucket, settle_regulator, hfabric]

theorem setBucket_regulator (n : Nat) (r' : Regulator) (chan' : Option (Fin 8)) :
    (s.setBucket r chan n).regulator r' chan' = s.regulator r' chan' := rfl

/-- A bucket holds what it is set to, up to its depth. -/
theorem bucket_setBucket_same (n : Nat) :
    (s.setBucket r chan n).bucket r chan = min n (bucketCap (s.regulator r chan).2.1 (s.regulator r chan).2.2) := by
  simp only [State.bucket, setBucket_regulator]
  exact congrArg (fun x => min x _) (mapGetD_tblSet_same _ _ _ _)

theorem bucket_setBucket_other {r' : Regulator} {chan' : Option (Fin 8)} (h : bucketKey r' chan' ≠ bucketKey r chan) (n : Nat) :
    (s.setBucket r chan n).bucket r' chan' = s.bucket r' chan' := by
  simp only [State.bucket, setBucket_regulator]
  simp only [State.setBucket, tblSet, mapGetD, mapGet_put_other _ h]

/-- The request stays within the pitch of its stall, if it has one (R46). -/
def WithinPitch (s : State) (r : Regulator) (chan : Option (Fin 8)) : Prop :=
  ∀ st c, r = .stallDram st → chan = some c → (bits (s.reg (Reg.STALL_PITCH st.val)) 7 0).testBit c.val = true

/-- A request within the pitch takes its tokens where they suffice. -/
theorem exec_regulatorAdmit_within (h : WithinPitch s r chan) (bytes el : Nat) (wr : Option (BitVec 6)) :
    exec (.regulatorAdmit r chan bytes el wr) s =
      done (s.setBucket r chan
        (if admitBytes chan wr bytes * 16 * (s.regulator r chan).2.2 ≤ s.refilled r chan el
          then s.refilled r chan el - admitBytes chan wr bytes * 16 * (s.regulator r chan).2.2 else s.refilled r chan el)) := by
  show execRegulatorAdmit r chan bytes el s wr = _
  unfold execRegulatorAdmit
  cases r with
  | stallDram st =>
    cases chan with
    | none => rfl
    | some c => simp only [h st c rfl rfl, Bool.not_true]
  | stallFabric _ => rfl
  | media => rfl
  | hostDma => rfl
  | tau => rfl
  | mgc => rfl

end Buckets

/-! ## A job's fault (R43, R44) -/

section Fault
variable {s : State}

/-- Pages below the clusters' pages (R407). -/
def BelowClusters (k : Nat) : Prop := k < 0x100 * 4096

theorem abandonWork_reg {k : Nat} (hk : BelowClusters k) (e : Nat) : (s.abandonWork e).reg k = s.reg k := by
  unfold BelowClusters at hk
  have htally : k ≠ Reg.MX_PASS_ABANDONED e := by unfold Reg.MX_PASS_ABANDONED rkey; omega
  have hevent : k ≠ Reg.EVT_RAW (pageMx e) := by unfold Reg.EVT_RAW rkey pageMx; omega
  unfold State.abandonWork
  dsimp only
  split
  · exact (reg_event_other _ hevent _).trans (reg_tally_other s htally)
  · rfl

/-- Below the clusters' pages a tear-down changes JOB_FAULTED only. -/
theorem teardownJob_reg {st k : Nat} (hk : BelowClusters k) (hne : k ≠ Reg.STALL_JOB_FAULTED st) (j : Nat) :
    (s.teardownJob st j).reg k = s.reg k := by
  unfold State.teardownJob
  extract_lets runs s1 s2 s3
  have h1 : s1.reg k = s.reg k := by
    refine foldl_keeps (P := fun a : State => a.reg k = s.reg k) (fun a c ha => ?_) _ rfl
    dsimp only
    split
    · exact foldl_keeps (P := fun b : State => b.reg k = s.reg k) (fun b e hb => (abandonWork_reg hk e).trans hb) _ ha
    · exact ha
  have h2 : s2.reg k = s.reg k :=
    foldl_keeps (P := fun a : State => a.reg k = s.reg k) (f := fun (a : State) (r : Region) => a.clearRange r.ptr r.size)
      (fun _ _ ha => ha) _ h1
  have h3 : s3.reg k = s.reg k := (reg_setReg_other s2 hne _).trans h2
  split
  · rw [setStall_reg]
    exact h3
  · exact h3

/-- The tear-down of the running job ends its slot. -/
theorem teardownJob_slot {st : Nat} {x : Slot} (h : (s.stall st).slot = some x) : ((s.teardownJob st x.job).stall st).slot = none := by
  unfold State.teardownJob
  extract_lets runs s1 s2 s3
  have hruns : runs = true := by simp only [runs, h, decide_true]
  rw [if_pos hruns, stall_setStall_same]

/-- A fault of the running job ends its slot, shows in FAULT_INFO and counts. -/
theorem jobFault_running {st cause : Nat} {x : Slot} (hst : st < 8) (hcause : cause ≠ 7) (h : (s.stall st).slot = some x) :
    ((s.jobFault st cause).stall st).slot = none ∧
    (s.jobFault st cause).reg (Reg.STALL_FAULT_INFO st) =
      BitVec.ofNat 32 (x.job + 256 * cause + 65536 * (s.tick.toNat % 65536)) ∧
    (s.jobFault st cause).reg (Reg.STALL_JOB_FAULT st) = s.counted (Reg.STALL_JOB_FAULT st) := by
  have hinfo : Reg.STALL_FAULT_INFO st ≠ Reg.STALL_JOB_FAULT st := header_ne (by decide)
  have hfaulted : Reg.STALL_JOB_FAULT st ≠ Reg.STALL_JOB_FAULTED st := header_ne (by decide)
  have hbelow : BelowClusters (Reg.STALL_JOB_FAULT st) := by unfold BelowClusters Reg.STALL_JOB_FAULT rkey; omega
  unfold State.jobFault
  simp only [h, if_neg hcause]
  refine ⟨?_, ?_, ?_⟩
  · show ((State.setStall _ st _).stall st).slot = none
    rw [stall_setStall_same]
    exact teardownJob_slot h
  · rw [reg_tally_other _ hinfo, reg_setReg_same]
  · rw [reg_tally_same, reg_setReg_other _ hinfo.symm]
    show BitVec.ofNat 32 (min (((s.teardownJob st x.job).reg _).toNat + 1) _) = _
    rw [teardownJob_reg hbelow hfaulted]
    rfl

/-- A stall's request outside its pitch faults the job with cause 6 (R46). -/
theorem exec_regulatorAdmit_outside {st c : Fin 8} (h : (bits (s.reg (Reg.STALL_PITCH st.val)) 7 0).testBit c.val = false)
    (bytes el : Nat) (wr : Option (BitVec 6)) :
    exec (.regulatorAdmit (.stallDram st) (some c) bytes el wr) s = done (s.jobFault st.val 6) := by
  show execRegulatorAdmit (.stallDram st) (some c) bytes el s wr = _
  unfold execRegulatorAdmit
  simp only [h, Bool.not_false]

end Fault

/-- Settles O55: the picks are the nearest, the lowest and the oldest; a granted request is served whole; a bucket fills and is drawn. -/
theorem arbitersAndRegulators : Obligations.ArbitersAndRegulators := by
  refine ⟨fun last ws r => rrPick_nearest, fun r => ⟨fabPieces_sum r, fun x => fabPieces_fit⟩, fun s r p hp hpos hfit hwrite => ?_,
    ?_, fun side old new r => spadPick_some, fun c bank new s old rd wr hdom hrest hold hrd hwr => ?_, ?_, ?_, ?_⟩
  · show (([r].flatMap fabPieces).foldl (fun (a : State) r => a.fabArrive r) s).fabric.waiting = _
    rw [List.flatMap_singleton, fabPieces_single hpos hfit hwrite]
    exact fabArrive_waiting hp
  · rintro target new s s0 all_ win rfl rfl rfl
    exact ⟨fabricGrant_idle, fun r hwin _ hrest hstore => fabricGrant_served hwin hrest hstore⟩
  · obtain ⟨t, ht, ⟨z, hz⟩, hnone, hsome, hregs⟩ := scratchpadGrant_served hdom hrest hold hrd hwr
    exact ⟨t, ht, ⟨z, hz⟩, hnone, hsome, hregs⟩
  · intro r chan wr bytes el s rate depth p have_ hreg hhave hpitch
    have hrefill : s.refilled r chan el = have_ := by simp only [State.refilled, ← hreg, hhave]
    have hcap : have_ ≤ bucketCap depth p := hhave ▸ min_le_right _ _
    have hexec := exec_regulatorAdmit_within (s := s) hpitch bytes el wr
    rw [hrefill, ← hreg] at hexec
    refine ⟨_, hexec, ?_, fun r' c' hne => ?_, sameRegs_settle fun _ _ _ => rfl, fun _ => rfl⟩
    · rw [settle_bucket, bucket_setBucket_same, ← hreg]
      refine min_eq_left (le_trans ?_ hcap)
      split
      · exact Nat.sub_le _ _
      · exact le_rfl
    · rw [settle_bucket, bucket_setBucket_other hne]
  · intro st c wr bytes el s x hx hout
    obtain ⟨hslot, hinfo, hcount⟩ := jobFault_running (cause := 6) st.isLt (by decide) hx
    refine ⟨_, exec_regulatorAdmit_outside hout bytes el wr, hslot, ?_, ?_⟩
    · rw [reg_settle, hinfo, Nat.mul_comm 256 6]
      exact not_mem_riseTallies (by simp [Reg.STALL_FAULT_INFO, keyOff_rkey]) (by simp [Reg.STALL_FAULT_INFO, keyOff_rkey])
    · rw [reg_settle, hcount]
      exact not_mem_riseTallies (by simp [Reg.STALL_JOB_FAULT, keyOff_rkey]) (by simp [Reg.STALL_JOB_FAULT, keyOff_rkey])
  · exact fun chan c at_ n => ⟨by cases chan <;> rfl, rfl, admitBytes_partial c, admitBytes_whole c⟩

end Sys2Proof.Laws
end

section
/-!
SUPPORT. What the sensor inputs, the buffer pools and the streams change of the state: a relation between states that names the
registers and the sensor inputs that may differ, and what the buffer pool manager and the passing on of a picture record change.
-/
namespace Sys2Proof.Laws
open Sys2Proof.Machine

/-! ## Folds over distinct indices -/

section Folds
variable {σ ι β : Type} {P : σ → Prop} {f : σ → ι → σ} {g : σ → β} {n : ι}

/-- What the steps at other indices leave, a fold without index n leaves. -/
theorem foldl_unseen (hP : ∀ a x, P a → P (f a x)) (hother : ∀ a x, x ≠ n → P a → g (f a x) = g a) {l : List ι} (hn : n ∉ l) {s : σ}
    (hs : P s) : g (l.foldl f s) = g s := by
  induction l generalizing s with
  | nil => rfl
  | cons x r ih =>
    rw [List.mem_cons, not_or] at hn
    obtain ⟨hnx, hnr⟩ := hn
    exact (ih hnr (hP s x hs)).trans (hother s x (Ne.symm hnx) hs)

/-- What only the step at index n changes, a fold over distinct indices changes as that step does. -/
theorem foldl_at (hP : ∀ a x, P a → P (f a x)) (hother : ∀ a x, x ≠ n → P a → g (f a x) = g a) {l : List ι} (hl : l.Nodup)
    (hn : n ∈ l) {s : σ} (hs : P s) : ∃ a, P a ∧ g a = g s ∧ g (l.foldl f s) = g (f a n) := by
  induction l generalizing s with
  | nil => cases hn
  | cons x r ih =>
    obtain ⟨hxr, hr⟩ := List.nodup_cons.mp hl
    rcases List.mem_cons.mp hn with rfl | hn
    · exact ⟨s, hs, rfl, foldl_unseen hP hother hxr (hP s n hs)⟩
    · obtain ⟨a, ha, hga, hfold⟩ := ih hr hn (hP s x hs)
      exact ⟨a, ha, hga.trans (hother s x (ne_of_mem_of_not_mem hn hxr).symm hs), hfold⟩

end Folds

/-! ## Registers and sensor inputs that may differ -/

/-- Of registers only those of `K`, of sensor inputs only those of `N`, and besides only pools, streams, sessions and the count of
free values differ. -/
structure Changes (K N : Nat → Prop) (s t : State) : Prop where
  rest : { t with
    regs := s.regs, pools := s.pools, sensors := s.sensors, streams := s.streams, sessions := s.sessions
    freeCtr := s.freeCtr } = s
  reg : ∀ k, ¬ K k → t.reg k = s.reg k
  sensor : ∀ n, ¬ N n → t.sensor n = s.sensor n

/-- No sensor input. -/
def noInput (_ : Nat) : Prop := False

namespace Changes

variable {K N : Nat → Prop} {s a t : State}

theorem refl (s : State) : Changes K N s s := ⟨rfl, fun _ _ => rfl, fun _ _ => rfl⟩

theorem trans (h : Changes K N s a) (h' : Changes K N a t) : Changes K N s t where
  rest := by
    have hrest := congrArg (fun x : State => { x with
      regs := s.regs, pools := s.pools, sensors := s.sensors, streams := s.streams, sessions := s.sessions
      freeCtr := s.freeCtr }) h'.rest
    exact hrest.trans h.rest
  reg k hk := (h'.reg k hk).trans (h.reg k hk)
  sensor n hn := (h'.sensor n hn).trans (h.sensor n hn)

theorem mono {K' N' : Nat → Prop} (h : Changes K N s t) (hK : ∀ k, K k → K' k) (hN : ∀ n, N n → N' n) : Changes K' N' s t :=
  ⟨h.rest, fun k hk => h.reg k (mt (hK k) hk), fun n hn => h.sensor n (mt (hN n) hn)⟩

/-- Without sensor inputs among the changes. -/
theorem of_noInput {K' : Nat → Prop} (h : Changes K noInput s t) (hK : ∀ k, K k → K' k) : Changes K' N s t :=
  h.mono hK fun _ hn => hn.elim

theorem setReg (h : Changes K N s a) {k : Nat} (hk : K k) (v : Word) : Changes K N s (a.setReg k v) where
  rest := h.rest
  reg k' hk' := (reg_setReg_other a (by rintro rfl; exact hk' hk) v).trans (h.reg k' hk')
  sensor := h.sensor

theorem tally (h : Changes K N s a) {k : Nat} (hk : K k) : Changes K N s (a.tally k) := h.setReg hk _

theorem event (h : Changes K N s a) {p : Nat} (hk : K (Reg.EVT_RAW p)) (w : Word) : Changes K N s (a.event p w) := h.setReg hk _

theorem setPool (h : Changes K N s a) (n : Nat) (v : Pool) : Changes K N s (a.setPool n v) := ⟨h.rest, h.reg, h.sensor⟩

theorem setStream (h : Changes K N s a) (n : Nat) (v : Stream) : Changes K N s (a.setStream n v) := ⟨h.rest, h.reg, h.sensor⟩

theorem setSession (h : Changes K N s a) (n : Nat) (v : Session) : Changes K N s (a.setSession n v) := ⟨h.rest, h.reg, h.sensor⟩

theorem free (h : Changes K N s a) : Changes K N s a.free.2 := ⟨h.rest, h.reg, h.sensor⟩

theorem sensor_setSensor_other {n m : Nat} (h : m ≠ n) (v : Sensor) : (s.setSensor n v).sensor m = s.sensor m :=
  mapGetD_tblSet_other _ h _ _

theorem setSensor (h : Changes K N s a) {n : Nat} (hn : N n) (v : Sensor) : Changes K N s (a.setSensor n v) where
  rest := h.rest
  reg := h.reg
  sensor m hm := (sensor_setSensor_other (by rintro rfl; exact hm hn) v).trans (h.sensor m hm)

theorem eff (h : Changes K N s t) : t.eff = s.eff := by
  have h' := congrArg State.eff h.rest
  exact h'

theorem tsu (h : Changes K N s t) : t.tsu = s.tsu := by
  have h' := congrArg State.tsu h.rest
  exact h'

theorem sameBytes (h : Changes K N s t) : SameBytes s t := by
  have hmem := congrArg State.mem h.rest
  have hdrams := congrArg State.drams h.rest
  exact sameBytes_of_mem_drams hmem hdrams

theorem effReg (h : Changes K N s t) (k : Nat) : t.effReg k = s.effReg k := by simp only [State.effReg, h.eff]

theorem inCtl (h : Changes K N s t) (n : Nat) : t.inCtl n = s.inCtl n := h.effReg _

theorem validInputs (h : Changes K N s t) : t.validInputs = s.validInputs := by simp only [State.validInputs, h.inCtl]

theorem inGroup (h : Changes K N s t) (n : Nat) : t.inGroup n = s.inGroup n := by simp only [State.inGroup, h.effReg]

end Changes

/-! ## The buffer pool manager (R284 to R289) -/

/-- The registers of the buffer pool manager. -/
def bpmKey (k : Nat) : Prop := keyPage k = 0x318

/-- The manager changes its own registers and no sensor input. -/
abbrev BpmChanges : State → State → Prop := Changes bpmKey noInput

section Bpm
variable {s a : State}

theorem bpmKey_rkey {o : Nat} (ho : o < 4096) : bpmKey (rkey 0x318 o) := keyPage_rkey (by decide) ho

theorem bpmKey_evtRaw : bpmKey (Reg.EVT_RAW 0x318) := bpmKey_rkey (by decide)

theorem bpmKey_allocEmpty (n : Nat) : bpmKey (Reg.BPM_P_ALLOC_EMPTY n) := keyPage_bkey (by decide) (by decide)

theorem bpmChanges_setPoolBit (h : BpmChanges s a) {lo n : Nat} (hlo : lo = Reg.BPM_WARN_MAP_LO ∨ lo = Reg.BPM_BP_MAP_LO)
    (hn : n < 64) (v : Bool) : BpmChanges s (a.setPoolBit lo n v) := by
  refine h.setReg ?_ _
  rcases hlo with rfl | rfl
  · show (0x318 * 4096 + 0x124 + 4 * (n / 32)) / 4096 % 4096 = 0x318
    omega
  · show (0x318 * 4096 + 0x12C + 4 * (n / 32)) / 4096 % 4096 = 0x318
    omega

theorem bpmChanges_putPool (h : BpmChanges s a) {n : Nat} (hn : n < 64) (p : Pool) (old : Nat) :
    BpmChanges s (a.putPool n p old) := by
  unfold State.putPool
  extract_lets s1 s2 s3
  have h1 : BpmChanges s s1 := h.setPool n _
  have h2 : BpmChanges s s2 := by
    simp only [s2]
    split
    · exact ((bpmChanges_setPoolBit h1 (.inl rfl) hn true).tally (bpmKey_rkey (by decide))).event bpmKey_evtRaw 1
    · split
      · exact bpmChanges_setPoolBit h1 (.inl rfl) hn false
      · exact h1
  have h3 : BpmChanges s s3 := by
    simp only [s3]
    split
    · exact h2.event bpmKey_evtRaw 2
    · exact h2
  exact bpmChanges_setPoolBit h3 (.inr rfl) hn _

theorem bpmRefuse_changes (s : State) (reason q : Nat) (alloc : Bool) (addr : Nat) :
    BpmChanges s (s.bpmRefuse reason q alloc addr) := by
  unfold State.bpmRefuse
  extract_lets s1 s2 s3
  have h1 : BpmChanges s s1 := by
    refine (Changes.refl s).tally ?_
    split <;> exact bpmKey_rkey (by decide)
  have h3 : BpmChanges s s3 :=
    ((h1.setReg (bpmKey_rkey (by decide)) _).setReg (bpmKey_rkey (by decide)) _).setReg (bpmKey_rkey (by decide)) _
  split
  · exact h3
  · exact h3.event bpmKey_evtRaw 4

theorem bpmAlloc_changes (s : State) (q : Nat) {n : Nat} (hn : n < 64) (o : Nat) : BpmChanges s (s.bpmAlloc q n o).1 := by
  unfold State.bpmAlloc
  split
  · exact bpmRefuse_changes s 5 q true n
  · dsimp only
    split
    · exact bpmRefuse_changes s 1 q true n
    · split
      · exact ((Changes.refl s).tally (bpmKey_rkey (by decide))).tally (bpmKey_allocEmpty n)
      · split
        · exact ((Changes.refl s).tally (bpmKey_rkey (by decide))).tally (bpmKey_allocEmpty n)
        · exact (bpmChanges_putPool (Changes.refl s) hn _ _).tally (bpmKey_rkey (by decide))

/-- Which buffer is lent depends on the pools only. -/
theorem bpmAlloc_congr {t : State} (h : t.pools = s.pools) (q n o : Nat) : (t.bpmAlloc q n o).2 = (s.bpmAlloc q n o).2 := by
  have hpool : t.pool n = s.pool n := by simp only [State.pool, h]
  unfold State.bpmAlloc
  rw [hpool]
  split
  · rfl
  · dsimp only
    split
    · rfl
    · split
      · rfl
      · split <;> rfl

theorem bpmFind_pool_lt {p : Ptr} {n b : Nat} (h : s.bpmFind p = .ok (n, b)) : n < 64 := by
  unfold State.bpmFind at h
  split at h
  · cases h
  · next m hm =>
    have hlt : m < 64 := List.mem_range.mp (List.mem_of_find?_eq_some hm)
    dsimp only at h
    split at h
    · cases h
    · split at h
      · cases h
      · cases h
        exact hlt

theorem bpmRelease_changes (s : State) (q : Nat) (p : Ptr) (o : Nat) : BpmChanges s (s.bpmRelease q p o).1 := by
  unfold State.bpmRelease
  split
  · exact bpmRefuse_changes s 5 q false p.addr
  · split
    · next reason _ => exact bpmRefuse_changes s reason q false p.addr
    · next n b hfind =>
      dsimp only
      split
      · exact bpmRefuse_changes s 4 q false p.addr
      · split
        · exact bpmChanges_putPool (Changes.refl s) (bpmFind_pool_lt hfind) _ _
        · exact (Changes.refl s).setPool _ _

theorem bpmAdd_changes (s : State) (q : Nat) (p : Ptr) (o : Nat) : BpmChanges s (s.bpmAdd q p o).1 := by
  unfold State.bpmAdd
  split
  · exact bpmRefuse_changes s 5 q false p.addr
  · split
    · next reason _ => exact bpmRefuse_changes s reason q false p.addr
    · dsimp only
      split
      · exact bpmRefuse_changes s 6 q false p.addr
      · exact (Changes.refl s).setPool _ _

end Bpm

/-! ## Passing on a picture record (R197, R205, R260) -/

/-- The registers of the buffer pool manager and of the intake. -/
def passKey (k : Nat) : Prop := bpmKey k ∨ keyPage k = 0x200

theorem feedSession_changes (s : State) (p : PicRec) (n : Nat) : Changes passKey noInput s (s.feedSession p n) := by
  unfold State.feedSession
  dsimp only
  split
  · exact Changes.refl s
  · split
    · exact Changes.refl s
    · split
      · exact (Changes.refl s).setSession _ _
      · next b _ =>
        have hadd : Changes passKey noInput s (s.bpmAdd 8 b 4).1 := (bpmAdd_changes s 8 b 4).of_noInput fun _ => .inl
        split
        · exact (Changes.refl s).setSession _ _
        · split
          · exact (Changes.refl s).setSession _ _
          · split
            · exact hadd.setSession _ _
            · exact hadd.setSession _ _

theorem passOn_changes (s : State) (x : Nat) (p : PicRec) : Changes passKey noInput s (s.passOn x p) := by
  unfold State.passOn
  extract_lets st t u
  have hu : Changes passKey noInput s u := by
    have ht : Changes passKey noInput s t := (Changes.refl s).setStream _ _
    simp only [u]
    split
    · exact ht.tally (.inr (keyPage_bkey (by decide) (by decide)))
    · exact ht
  exact foldl_keeps (P := Changes passKey noInput s) (fun a n ha => ha.trans (feedSession_changes a p n)) _ hu

end Sys2Proof.Laws
end

section
/-!
SUPPORT. The commands of a CSI-2 port (R216 to R219, R228): what a frame start, a long packet, a frame end, a header that cannot be
corrected and a change of the link do to the inputs, the counters and the bytes.
-/
namespace Sys2Proof.Laws
open Sys2Proof.Machine

section Csi
variable {s u : State} {p vc n : Nat}

/-! ## The header (R216, R218) -/

/-- The header of a packet has been read: a corrected one is counted. -/
def HeaderRead (p : Nat) (s u : State) : Prop := u = s ∨ u = s.tally (Reg.CSI_ECC_CORR p)

theorem csiHeader_usable {ecc : Ecc} (h : ecc ≠ .uncorrectable) (s : State) (p vc : Nat) :
    ∃ u, s.csiHeader p vc ecc = (u, true) ∧ HeaderRead p s u := by
  cases ecc with
  | good => exact ⟨s, rfl, .inl rfl⟩
  | corrected => exact ⟨_, rfl, .inr rfl⟩
  | uncorrectable => exact absurd rfl h

namespace HeaderRead

theorem sensors (h : HeaderRead p s u) : u.sensors = s.sensors := by rcases h with rfl | rfl <;> rfl

theorem pools (h : HeaderRead p s u) : u.pools = s.pools := by rcases h with rfl | rfl <;> rfl

theorem eff (h : HeaderRead p s u) : u.eff = s.eff := by rcases h with rfl | rfl <;> rfl

theorem tsu (h : HeaderRead p s u) : u.tsu = s.tsu := by rcases h with rfl | rfl <;> rfl

theorem access (h : HeaderRead p s u) : SameAccess s u := by
  rcases h with rfl | rfl
  · exact SameAccess.refl u
  · exact (SameAccess.refl s).tally (isTally_rkey (by decide) (by decide))

theorem reg (h : HeaderRead p s u) {k : Nat} (hk : k ≠ Reg.CSI_ECC_CORR p) : u.reg k = s.reg k := by
  rcases h with rfl | rfl
  · rfl
  · exact reg_tally_other s hk

theorem counted (h : HeaderRead p s u) {k : Nat} (hk : k ≠ Reg.CSI_ECC_CORR p) : u.counted k = s.counted k := by
  simp only [State.counted, h.reg hk]

theorem sensor (h : HeaderRead p s u) (n : Nat) : u.sensor n = s.sensor n := by simp only [State.sensor, h.sensors]

theorem inCtl (h : HeaderRead p s u) (n : Nat) : u.inCtl n = s.inCtl n := by simp only [State.inCtl, State.effReg, h.eff]

end HeaderRead

/-- Which inputs have a frame open on a port and virtual channel depends on the inputs only. -/
theorem openInputs_congr (h : u.sensors = s.sensors) (p vc : Nat) : u.openInputs p vc = s.openInputs p vc := by
  simp only [State.openInputs, State.sensor, h]

theorem openInputs_nodup (s : State) (p vc : Nat) : (s.openInputs p vc).Nodup := List.Nodup.filter _ List.nodup_range

theorem openFrame_isSome_of_openInputs (h : n ∈ s.openInputs p vc) : ∃ f, (s.sensor n).openFrame = some f := by
  have hany := (List.mem_filter.mp h).2
  cases hf : (s.sensor n).openFrame with
  | none => simp [hf] at hany
  | some f => exact ⟨f, rfl⟩

/-! ## Keys of a port -/

theorem csiReg_not_rise (hp : p < 4) {o : Nat} (ho : o < 4096) : rkey (0x218 + p) o ∉ riseTallies := by
  have hpage : keyPage (rkey (0x218 + p) o) = 0x218 + p := keyPage_rkey (by omega) ho
  exact not_mem_riseTallies_of_page (by omega) (by omega) (by omega)

theorem csiReg_not_bpm (hp : p < 4) {o : Nat} (ho : o < 4096) : ¬ bpmKey (rkey (0x218 + p) o) := by
  have hpage : keyPage (rkey (0x218 + p) o) = 0x218 + p := keyPage_rkey (by omega) ho
  unfold bpmKey
  omega

/-- The registers that a frame start or end at port p may change. -/
def csiKey (p k : Nat) : Prop :=
  bpmKey k ∨ k = Reg.CSI_FRAME_CUT p ∨ k = Reg.CSI_FRAME_BAD p ∨ k = Reg.CSI_CSI_POOL_EMPTY p ∨ k = Reg.EVT_RAW (pageCsi p)

/-! ## A frame that ends badly (R218) -/

/-- The registers that a bad frame at port p changes. -/
def badKey (p k : Nat) : Prop := bpmKey k ∨ k = Reg.CSI_FRAME_BAD p ∨ k = Reg.EVT_RAW (pageCsi p)

theorem badFrame_changes (s : State) (p n : Nat) (f : CsiFrame) : Changes (badKey p) (· = n) s (s.badFrame p n f) := by
  unfold State.badFrame
  extract_lets x s1
  have h0 : Changes (badKey p) (· = n) s s := Changes.refl s
  have h1 : Changes (badKey p) (· = n) s s1 := ((h0.tally (.inr (.inl rfl))).event (.inr (.inr rfl)) 2).setSensor rfl _
  exact h1.trans ((bpmRelease_changes s1 14 f.buf 3).of_noInput fun _ => .inl)

theorem badFrame_sensor (s : State) (p n : Nat) (f : CsiFrame) :
    (s.badFrame p n f).sensor n = { s.sensor n with openFrame := none } := by
  unfold State.badFrame
  extract_lets x s1
  exact ((bpmRelease_changes s1 14 f.buf 3).sensor n id).trans (sensor_setSensor_same _ n _)

theorem badFrame_counts (hp : p < 4) (s : State) (n : Nat) (f : CsiFrame) :
    (s.badFrame p n f).reg (Reg.CSI_FRAME_BAD p) = s.counted (Reg.CSI_FRAME_BAD p) := by
  unfold State.badFrame
  extract_lets x s1
  have h1 : s1.reg (Reg.CSI_FRAME_BAD p) = s.counted (Reg.CSI_FRAME_BAD p) :=
    (reg_event_other (s.tally (Reg.CSI_FRAME_BAD p)) (header_ne (by decide)) 2).trans (reg_tally_same s _)
  exact ((bpmRelease_changes s1 14 f.buf 3).reg _ (csiReg_not_bpm hp (by decide))).trans h1

/-- The open frame of an input, if there is one, is cut (R219). -/
def cutFrame (p : Nat) (s : State) (n : Nat) : State :=
  match (s.sensor n).openFrame with
  | some f => (s.tally (Reg.CSI_FRAME_CUT p)).badFrame p n f
  | none => s

theorem cutFrame_changes (s : State) (p n : Nat) : Changes (csiKey p) (· = n) s (cutFrame p s n) := by
  unfold cutFrame
  split
  · next f _ =>
    have h0 : Changes (csiKey p) (· = n) s s := Changes.refl s
    refine (h0.tally (.inr (.inl rfl))).trans ((badFrame_changes _ p n f).mono ?_ fun _ => id)
    rintro k (hk | hk | hk)
    · exact .inl hk
    · exact .inr (.inr (.inl hk))
    · exact .inr (.inr (.inr (.inr hk)))
  · exact Changes.refl s

theorem cutFrame_sensor (s : State) (p n : Nat) : (cutFrame p s n).sensor n = { s.sensor n with openFrame := none } := by
  unfold cutFrame
  split
  · exact badFrame_sensor _ p n _
  · next h => rw [← h]

theorem cutFrame_counts (hp : p < 4) {f : CsiFrame} (h : (s.sensor n).openFrame = some f) :
    (cutFrame p s n).reg (Reg.CSI_FRAME_CUT p) = s.counted (Reg.CSI_FRAME_CUT p) ∧
    (cutFrame p s n).reg (Reg.CSI_FRAME_BAD p) = s.counted (Reg.CSI_FRAME_BAD p) := by
  have hne : Reg.CSI_FRAME_CUT p ≠ Reg.CSI_FRAME_BAD p := header_ne (by decide)
  have hcut : ¬ badKey p (Reg.CSI_FRAME_CUT p) := by
    rintro (hk | hk | hk)
    · exact csiReg_not_bpm hp (by decide) hk
    · exact hne hk
    · exact (header_ne (by decide) : Reg.CSI_FRAME_CUT p ≠ Reg.EVT_RAW (pageCsi p)) hk
  simp only [cutFrame, h]
  constructor
  · exact ((badFrame_changes _ p n f).reg _ hcut).trans (reg_tally_same s _)
  · rw [badFrame_counts hp]
    simp only [State.counted, reg_tally_other s hne.symm]

/-! ## A frame start (R218, R219) -/

/-- The frame that an input starts in a buffer: the settings in effect, and the stamp of local time less STAMP_ADJ. -/
def newFrame (s : State) (p n : Nat) (no : BitVec 16) (b : Ptr) : CsiFrame :=
  { buf := b, stamp := s.tsu.ns - BitVec.ofNat 32 (bits (s.reg (Reg.CSI_STAMP_ADJ p)) 15 0), frameNo := no
    lines := 0, bad := false, ctl := s.inCtl n, size := s.effReg (Reg.ALIGN_IN_SIZE n) }

/-- An input without an open frame starts one, if its pool gives a buffer. -/
def openFrameAt (s : State) (p n : Nat) (no : BitVec 16) : State :=
  let a := s.bpmAlloc 14 (inPool (s.inCtl n)) 3
  match a.2 with
  | none => a.1.tally (Reg.CSI_CSI_POOL_EMPTY p)
  | some b => a.1.setSensor n { a.1.sensor n with openFrame := some { newFrame a.1 p n no b with ctl := s.inCtl n } }

theorem startFrameAt_eq (s : State) (p n : Nat) (no : BitVec 16) : s.startFrameAt p n no = openFrameAt (cutFrame p s n) p n no := rfl

theorem inPool_lt (c : Word) : inPool c < 64 := Nat.mod_lt _ (by decide)

theorem stampAdj_not_csiKey (hp : p < 4) : ¬ csiKey p (Reg.CSI_STAMP_ADJ p) := by
  rintro (hk | hk | hk | hk | hk)
  · exact csiReg_not_bpm hp (by decide) hk
  · exact (header_ne (by decide) : Reg.CSI_STAMP_ADJ p ≠ Reg.CSI_FRAME_CUT p) hk
  · exact (header_ne (by decide) : Reg.CSI_STAMP_ADJ p ≠ Reg.CSI_FRAME_BAD p) hk
  · exact (header_ne (by decide) : Reg.CSI_STAMP_ADJ p ≠ Reg.CSI_CSI_POOL_EMPTY p) hk
  · exact (header_ne (by decide) : Reg.CSI_STAMP_ADJ p ≠ Reg.EVT_RAW (pageCsi p)) hk

theorem newFrame_congr {N : Nat → Prop} {K : Nat → Prop} (h : Changes K N s u) (hadj : ¬ K (Reg.CSI_STAMP_ADJ p)) (no : BitVec 16)
    (b : Ptr) : newFrame u p n no b = newFrame s p n no b := by
  simp only [newFrame, h.tsu, h.reg _ hadj, h.inCtl, h.effReg]

theorem alloc_changes (s : State) (n : Nat) : BpmChanges s (s.bpmAlloc 14 (inPool (s.inCtl n)) 3).1 :=
  bpmAlloc_changes s 14 (inPool_lt _) 3

/-- The registers that an allocation for port p may change. -/
def allocKey (p k : Nat) : Prop := bpmKey k ∨ k = Reg.CSI_CSI_POOL_EMPTY p

theorem openFrameAt_changes (s : State) (p n : Nat) (no : BitVec 16) : Changes (allocKey p) (· = n) s (openFrameAt s p n no) := by
  have ha : Changes (allocKey p) (· = n) s (s.bpmAlloc 14 (inPool (s.inCtl n)) 3).1 := (alloc_changes s n).of_noInput fun _ => .inl
  unfold openFrameAt
  dsimp only
  split
  · exact ha.tally (.inr rfl)
  · exact ha.setSensor rfl _

theorem openFrameAt_sensor (hp : p < 4) (h : (s.sensor n).openFrame = none) (no : BitVec 16) :
    (openFrameAt s p n no).sensor n =
      { s.sensor n with openFrame := (s.bpmAlloc 14 (inPool (s.inCtl n)) 3).2.map (newFrame s p n no) } := by
  have ha := alloc_changes s n
  unfold openFrameAt
  dsimp only
  split
  · next hnone =>
    rw [hnone, Option.map_none, ← h]
    exact ha.sensor n id
  · next b hsome =>
    rw [hsome, sensor_setSensor_same, ha.sensor n id, newFrame_congr ha (csiReg_not_bpm hp (by decide))]
    rfl

theorem openFrameAt_poolEmpty (hp : p < 4) (s : State) (n : Nat) (no : BitVec 16) :
    (openFrameAt s p n no).reg (Reg.CSI_CSI_POOL_EMPTY p) =
      if (s.bpmAlloc 14 (inPool (s.inCtl n)) 3).2.isNone then s.counted (Reg.CSI_CSI_POOL_EMPTY p)
      else s.reg (Reg.CSI_CSI_POOL_EMPTY p) := by
  have ha := (alloc_changes s n).reg (Reg.CSI_CSI_POOL_EMPTY p) (csiReg_not_bpm hp (by decide))
  unfold openFrameAt
  dsimp only
  split
  · next hnone => rw [hnone, Option.isNone_none, if_pos rfl, reg_tally_same, ha, State.counted]
  · next b hsome => rw [hsome, Option.isNone_some, if_neg Bool.false_ne_true, setSensor_reg, ha]

theorem startFrameAt_changes (s : State) (p n : Nat) (no : BitVec 16) : Changes (csiKey p) (· = n) s (s.startFrameAt p n no) := by
  rw [startFrameAt_eq]
  refine (cutFrame_changes s p n).trans ((openFrameAt_changes _ p n no).mono ?_ fun _ => id)
  rintro k (hk | hk)
  · exact .inl hk
  · exact .inr (.inr (.inr (.inl hk)))

/-- After a frame start an input has a new frame or none, and its candidates. -/
theorem startFrameAt_sensor (hp : p < 4) (s : State) (n : Nat) (no : BitVec 16) :
    ∃ b : Option Ptr, (s.startFrameAt p n no).sensor n = { s.sensor n with openFrame := b.map (newFrame s p n no) } := by
  have hcut := cutFrame_sensor s p n
  have hnew : newFrame (cutFrame p s n) p n no = newFrame s p n no :=
    funext fun b => newFrame_congr (cutFrame_changes s p n) (stampAdj_not_csiKey hp) no b
  rw [startFrameAt_eq, openFrameAt_sensor hp (by rw [hcut]), hnew, hcut]
  exact ⟨_, rfl⟩

/-- The valid inputs of a port and virtual channel. -/
def csiInputs (s : State) (p vc : Nat) : List Nat :=
  (List.range 16).filter (fun n => bit (s.inCtl n) 0 && inPort (s.inCtl n) == p && inVc (s.inCtl n) == vc)

/-- The inputs whose frame is cut without a new one. -/
def cutInputs (s : State) (p vc : Nat) : List Nat := (s.openInputs p vc).filter (fun n => !(csiInputs s p vc).contains n)

/-- A frame start with a usable header: open frames of other inputs are cut, and every input concerned starts one. -/
def csiStart (s : State) (p vc : Nat) (no : BitVec 16) : State :=
  (csiInputs s p vc).foldl (fun a n => a.startFrameAt p n no) ((cutInputs s p vc).foldl (cutFrame p) s)

theorem mem_csiInputs : n ∈ csiInputs s p vc ↔ n < 16 ∧ bit (s.inCtl n) 0 = true ∧ inPort (s.inCtl n) = p ∧ inVc (s.inCtl n) = vc := by
  simp only [csiInputs, List.mem_filter, List.mem_range, Bool.and_eq_true, beq_iff_eq, and_assoc]

theorem csiInputs_nodup (s : State) (p vc : Nat) : (csiInputs s p vc).Nodup := List.Nodup.filter _ List.nodup_range

theorem mem_cutInputs : n ∈ cutInputs s p vc ↔ n ∈ s.openInputs p vc ∧ n ∉ csiInputs s p vc := by
  simp only [cutInputs, List.mem_filter, Bool.not_eq_true', List.contains_eq_mem, decide_eq_false_iff_not]

theorem cutInputs_nodup (s : State) (p vc : Nat) : (cutInputs s p vc).Nodup := (openInputs_nodup s p vc).filter _

/-- Any number of frame starts and cuts at port p. -/
abbrev CsiChanges (p : Nat) : State → State → Prop := Changes (csiKey p) (fun _ => True)

theorem cuts_changes (s : State) (p vc : Nat) : CsiChanges p s ((cutInputs s p vc).foldl (cutFrame p) s) :=
  foldl_keeps (P := CsiChanges p s) (fun a n ha => ha.trans ((cutFrame_changes a p n).mono (fun _ => id) fun _ _ => trivial)) _
    (Changes.refl s)

theorem starts_keep (no : BitVec 16) (a : State) (n : Nat) (h : CsiChanges p s a) : CsiChanges p s (a.startFrameAt p n no) :=
  h.trans ((startFrameAt_changes a p n no).mono (fun _ => id) fun _ _ => trivial)

theorem csiStart_changes (s : State) (p vc : Nat) (no : BitVec 16) : CsiChanges p s (csiStart s p vc no) :=
  foldl_keeps (P := CsiChanges p s) (starts_keep no) _ (cuts_changes s p vc)

theorem cuts_sensor (s : State) (p vc n : Nat) :
    ((cutInputs s p vc).foldl (cutFrame p) s).sensor n =
      if n ∈ cutInputs s p vc then { s.sensor n with openFrame := none } else s.sensor n := by
  have hother (a : State) (m : Nat) (hm : m ≠ n) (_ : True) : (cutFrame p a m).sensor n = a.sensor n :=
    (cutFrame_changes a p m).sensor n hm.symm
  split
  · next hn =>
    obtain ⟨a, -, ha, hfold⟩ := foldl_at (P := fun _ : State => True) (g := fun a : State => a.sensor n) (s := s)
      (fun _ _ => id) hother (cutInputs_nodup s p vc) hn trivial
    rw [hfold, cutFrame_sensor, ha]
  · next hn => exact foldl_unseen (P := fun _ : State => True) (g := fun a : State => a.sensor n) (fun _ _ => id) hother hn trivial

theorem startFrameAt_sensor_other (no : BitVec 16) (a : State) {m : Nat} (hm : m ≠ n) :
    (a.startFrameAt p m no).sensor n = a.sensor n :=
  (startFrameAt_changes a p m no).sensor n hm.symm

/-- An input that the frame start concerns has a new frame or none. -/
theorem csiStart_sensor_mem (hp : p < 4) (hn : n ∈ csiInputs s p vc) (no : BitVec 16) :
    ∃ b : Option Ptr, (csiStart s p vc no).sensor n = { s.sensor n with openFrame := b.map (newFrame s p n no) } := by
  obtain ⟨a, hacc, ha, hfold⟩ := foldl_at (g := fun a : State => a.sensor n) (starts_keep no)
    (fun a m hm _ => startFrameAt_sensor_other no a hm) (csiInputs_nodup s p vc) hn (cuts_changes s p vc)
  obtain ⟨b, hb⟩ := startFrameAt_sensor hp a n no
  have hnotcut : n ∉ cutInputs s p vc := fun h => (mem_cutInputs.mp h).2 hn
  have hnew : newFrame a p n no = newFrame s p n no := funext fun b => newFrame_congr hacc (stampAdj_not_csiKey hp) no b
  refine ⟨b, hfold.trans ?_⟩
  rw [hb, ha, cuts_sensor, if_neg hnotcut, hnew]

/-- An input that it does not concern keeps its frame, unless that is open on the port and virtual channel. -/
theorem csiStart_sensor_not_mem (hn : n ∉ csiInputs s p vc) (no : BitVec 16) :
    (csiStart s p vc no).sensor n =
      if n ∈ s.openInputs p vc then { s.sensor n with openFrame := none } else s.sensor n := by
  have hfold : (csiStart s p vc no).sensor n = ((cutInputs s p vc).foldl (cutFrame p) s).sensor n :=
    foldl_unseen (g := fun a : State => a.sensor n) (starts_keep no) (fun a m hm _ => startFrameAt_sensor_other no a hm) hn
      (cuts_changes s p vc)
  simp only [hfold, cuts_sensor, mem_cutInputs, hn, not_false_eq_true, and_true]

/-- With one input concerned and no other open, a frame start is that input's. -/
theorem csiStart_single {no : BitVec 16} (hins : csiInputs s p vc = [n]) (hopen : ∀ m ∈ s.openInputs p vc, m = n) :
    csiStart s p vc no = s.startFrameAt p n no := by
  have hcut : cutInputs s p vc = [] := by
    refine List.eq_nil_iff_forall_not_mem.mpr fun m hm => ?_
    obtain ⟨hmo, hmi⟩ := mem_cutInputs.mp hm
    rw [hins, List.mem_singleton] at hmi
    exact hmi (hopen m hmo)
  simp only [csiStart, hcut, hins, List.foldl_nil, List.foldl_cons]

theorem exec_csiFs {port vc : Fin 4} {no : BitVec 16} {ecc : Ecc} {s : State} (hon : s.csiOn port.val = true)
    (hecc : ecc ≠ .uncorrectable) :
    ∃ u, HeaderRead port.val s u ∧ exec (.csiFs port vc no ecc) s = done (csiStart u port.val vc.val no) := by
  obtain ⟨u, hu, hread⟩ := csiHeader_usable hecc s port.val vc.val
  refine ⟨u, hread, ?_⟩
  show execCsiFs port vc no ecc s = _
  simp only [execCsiFs, hon, hu, if_true]
  rfl

/-! ## A header that cannot be corrected (R218) -/

/-- The frames open on a port and virtual channel are spoiled, and HDR_UE counts. -/
def spoilOpen (s : State) (p vc : Nat) : State :=
  (s.openInputs p vc).foldl (fun a n => a.spoilFrame n) (s.tally (Reg.CSI_HDR_UE p))

/-- A packet whose header cannot be corrected does this and no more. -/
theorem exec_csi_uncorrectable {port vc : Fin 4} {no : BitVec 16} {dt : BitVec 6} {crc : Bool} {d : List Byte} {s : State} {c : Instr}
    (hc : c ∈ [Instr.csiFs port vc no .uncorrectable, .csiLongPacket port vc dt .uncorrectable crc d, .csiFe port vc no .uncorrectable])
    (hon : s.csiOn port.val = true) : exec c s = done (spoilOpen s port.val vc.val) := by
  simp only [List.mem_cons, List.not_mem_nil, or_false] at hc
  rcases hc with rfl | rfl | rfl
  · show execCsiFs port vc no .uncorrectable s = _
    simp only [execCsiFs, hon, if_true, State.csiHeader, Bool.false_eq_true, if_false]
    rfl
  · show execCsiLongPacket port vc dt .uncorrectable crc d s = _
    simp only [execCsiLongPacket, hon, if_true, State.csiHeader]
    rfl
  · show execCsiFe port vc no .uncorrectable s = _
    simp only [execCsiFe, hon, if_true, State.csiHeader, Bool.false_eq_true, if_false]
    rfl

/-- A port that does not receive changes nothing. -/
theorem exec_csi_off {port vc : Fin 4} {no : BitVec 16} {dt : BitVec 6} {ecc : Ecc} {crc : Bool} {d : List Byte} {s : State} {c : Instr}
    (hc : c ∈ [Instr.csiFs port vc no ecc, .csiLongPacket port vc dt ecc crc d, .csiFe port vc no ecc])
    (hoff : s.csiOn port.val = false) : exec c s = done s := by
  simp only [List.mem_cons, List.not_mem_nil, or_false] at hc
  rcases hc with rfl | rfl | rfl
  · show execCsiFs port vc no ecc s = _
    simp only [execCsiFs, hoff, Bool.false_eq_true, if_false]
  · show execCsiLongPacket port vc dt ecc crc d s = _
    simp only [execCsiLongPacket, hoff, Bool.false_eq_true, if_false]
  · show execCsiFe port vc no ecc s = _
    simp only [execCsiFe, hoff, Bool.false_eq_true, if_false]

theorem spoilFrame_sensor_other (a : State) {m : Nat} (hm : m ≠ n) : (a.spoilFrame m).sensor n = a.sensor n :=
  Changes.sensor_setSensor_other hm.symm _

theorem spoilOpen_openFrame (s : State) (p vc n : Nat) :
    ((spoilOpen s p vc).sensor n).openFrame = if n ∈ s.openInputs p vc
      then (s.sensor n).openFrame.map (fun f => { f with bad := true }) else (s.sensor n).openFrame := by
  split
  · next hn =>
    obtain ⟨a, -, ha, hfold⟩ := foldl_at (P := fun _ : State => True) (g := fun a : State => a.sensor n)
      (s := s.tally (Reg.CSI_HDR_UE p)) (fun _ _ => id) (fun a _ hm _ => spoilFrame_sensor_other a hm) (openInputs_nodup s p vc) hn trivial
    rw [spoilOpen, hfold, State.spoilFrame, sensor_setSensor_same, ha]
    rfl
  · next hn =>
    have hfold := foldl_unseen (P := fun _ : State => True) (g := fun a : State => a.sensor n) (s := s.tally (Reg.CSI_HDR_UE p))
      (fun _ _ => id) (fun a _ hm _ => spoilFrame_sensor_other a hm) hn trivial
    rw [spoilOpen, hfold]
    rfl

theorem spoilOpen_keeps (s : State) (p vc : Nat) :
    (∀ k, (spoilOpen s p vc).reg k = (s.tally (Reg.CSI_HDR_UE p)).reg k) ∧ SameBytes s (spoilOpen s p vc) := by
  have hfold := foldl_keeps
    (P := fun a : State => a.regs = (s.tally (Reg.CSI_HDR_UE p)).regs ∧ a.mem = s.mem ∧ a.drams = s.drams)
    (f := fun (a : State) n => a.spoilFrame n) (fun _ _ ha => ha) (s.openInputs p vc) (a := s.tally (Reg.CSI_HDR_UE p)) ⟨rfl, rfl, rfl⟩
  obtain ⟨hregs, hmem, hdrams⟩ := hfold
  exact ⟨fun k => congrArg (fun t => mapGetD t k (regReset k)) hregs, sameBytes_of_mem_drams hmem hdrams⟩

/-! ## A long packet (R216 to R218) -/

/-- The line fits its frame: its length, and a line of the picture's height. -/
def lineFits (f : CsiFrame) (dt : Nat) (d : List Byte) : Bool :=
  decide (4 * d.length = bits f.size 15 0 * csiPacket4 dt) && decide (f.lines < bits f.size 31 16)

/-- A frame after one more line. -/
def frameWithLine (f : CsiFrame) (dt : Nat) (crc : Bool) (d : List Byte) : CsiFrame :=
  { f with lines := f.lines + 1, bad := f.bad || !crc || !lineFits f dt d }

section Line
variable {dt : Nat} {crc : Bool} {d : List Byte} {f : CsiFrame}

theorem sensor_of_sensors {a b : State} (h : a.sensors = b.sensors) (n : Nat) : a.sensor n = b.sensor n := by
  simp only [State.sensor, h]

theorem takeLine_sensor (h : (s.sensor n).openFrame = some f) :
    (s.takeLine n dt crc d).sensor n = { s.sensor n with openFrame := some (frameWithLine f dt crc d) } := by
  simp only [State.takeLine, h, sensor_setSensor_same]
  rfl

theorem takeLine_sensor_other (a : State) {m : Nat} (hm : m ≠ n) : (a.takeLine m dt crc d).sensor n = a.sensor n := by
  unfold State.takeLine
  dsimp only
  split
  · rfl
  · rw [Changes.sensor_setSensor_other hm.symm]
    split
    · exact sensor_of_sensors (accessFrame_unitWrite a _ _).sensors n
    · rfl

/-- A line that fits is written to the frame's buffer. -/
theorem takeLine_byte (h : (s.sensor n).openFrame = some f) (hfit : lineFits f dt d = true) (k : Nat) :
    (s.takeLine n dt crc d).byte k =
      (s.unitWrite (ptrAdd f.buf (f.lines * csiPitch dt (bits f.size 15 0))) (csiStored dt d)).byte k := by
  unfold lineFits at hfit
  simp only [State.takeLine, h, hfit, if_true]
  rfl

/-- The inputs whose settings match a long packet. -/
def lineInputs (s : State) (p vc dt : Nat) : List Nat := (List.range 16).filter (fun n => s.inputMatches n p vc dt)

theorem lineInputs_nodup (s : State) (p vc dt : Nat) : (lineInputs s p vc dt).Nodup := List.Nodup.filter _ List.nodup_range

theorem mem_lineInputs : n ∈ lineInputs s p vc dt ↔ n < 16 ∧ s.inputMatches n p vc dt = true := by
  simp only [lineInputs, List.mem_filter, List.mem_range]

/-- A header and a check sum have been read: inputs and settings are as before, and an access finds what it found. -/
structure PacketRead (s u : State) : Prop where
  sensors : u.sensors = s.sensors
  eff : u.eff = s.eff
  access : SameAccess s u

theorem PacketRead.lineInputs {s u : State} (h : PacketRead s u) (p vc dt : Nat) : lineInputs u p vc dt = lineInputs s p vc dt := by
  simp only [Laws.lineInputs, State.inputMatches, State.inCtl, State.effReg, State.sensor, h.sensors, h.eff]

theorem exec_csiLongPacket_dropped {port vc : Fin 4} {dt : BitVec 6} {ecc : Ecc} (hon : s.csiOn port.val = true)
    (hecc : ecc ≠ .uncorrectable) (hdt : csiTypes.contains dt.toNat = false) :
    ∃ u, HeaderRead port.val s u ∧ exec (.csiLongPacket port vc dt ecc crc d) s = done (u.tally (Reg.CSI_DT_DROP port.val)) := by
  obtain ⟨u, hu, hread⟩ := csiHeader_usable hecc s port.val vc.val
  refine ⟨u, hread, ?_⟩
  show execCsiLongPacket port vc dt ecc crc d s = _
  simp only [execCsiLongPacket, hon, hu, hdt, if_true, Bool.true_eq_false, if_false]

theorem exec_csiLongPacket {port vc : Fin 4} {dt : BitVec 6} {ecc : Ecc} (hon : s.csiOn port.val = true)
    (hecc : ecc ≠ .uncorrectable) (hdt : csiTypes.contains dt.toNat = true) :
    ∃ u, PacketRead s u ∧ (∀ k, k ≠ Reg.CSI_ECC_CORR port.val → k ≠ Reg.CSI_CRC_ERR port.val → u.reg k = s.reg k) ∧
      (lineInputs s port.val vc.val dt.toNat = [] →
        exec (.csiLongPacket port vc dt ecc crc d) s = done (u.tally (Reg.CSI_NO_INPUT port.val))) ∧
      (lineInputs s port.val vc.val dt.toNat ≠ [] → exec (.csiLongPacket port vc dt ecc crc d) s =
        done ((lineInputs s port.val vc.val dt.toNat).foldl (fun a n => a.takeLine n dt.toNat crc d) u)) := by
  obtain ⟨h, hh, hread⟩ := csiHeader_usable hecc s port.val vc.val
  obtain ⟨u, hu, hpacket, hreg⟩ : ∃ u, u = (if crc then h else h.tally (Reg.CSI_CRC_ERR port.val)) ∧ PacketRead s u ∧
      ∀ k, k ≠ Reg.CSI_ECC_CORR port.val → k ≠ Reg.CSI_CRC_ERR port.val → u.reg k = s.reg k := by
    refine ⟨_, rfl, ?_, fun k hk hk' => ?_⟩
    · split
      · exact ⟨hread.sensors, hread.eff, hread.access⟩
      · exact ⟨hread.sensors, hread.eff, hread.access.tally (isTally_rkey (by decide) (by decide))⟩
    · split
      · exact hread.reg hk
      · exact (reg_tally_other h hk').trans (hread.reg hk)
  have hexec : exec (.csiLongPacket port vc dt ecc crc d) s = done (if lineInputs u port.val vc.val dt.toNat = []
      then u.tally (Reg.CSI_NO_INPUT port.val)
      else (lineInputs u port.val vc.val dt.toNat).foldl (fun a n => a.takeLine n dt.toNat crc d) u) := by
    show execCsiLongPacket port vc dt ecc crc d s = _
    simp only [execCsiLongPacket, hon, hh, hdt, if_true, Bool.true_eq_false, if_false, ← hu]
    rfl
  rw [hpacket.lineInputs] at hexec
  exact ⟨u, hpacket, hreg, fun hnil => by rw [hexec, if_pos hnil], fun hne => by rw [hexec, if_neg hne]⟩

/-- After the lines of a packet an input with an open frame has one more line where it matches. -/
theorem takeLines_sensor (hu : PacketRead s u) (hn : n < 16) (h : (s.sensor n).openFrame = some f) (p vc dt : Nat) :
    ((lineInputs s p vc dt).foldl (fun a m => a.takeLine m dt crc d) u).sensor n =
      { s.sensor n with openFrame := some (if s.inputMatches n p vc dt then frameWithLine f dt crc d else f) } := by
  have hsensor : u.sensor n = s.sensor n := sensor_of_sensors hu.sensors n
  split
  · next hm =>
    obtain ⟨a, -, ha, hfold⟩ := foldl_at (P := fun _ : State => True) (g := fun a : State => a.sensor n) (s := u) (fun _ _ => id)
      (fun a _ hm _ => takeLine_sensor_other a hm) (lineInputs_nodup s p vc dt) (mem_lineInputs.mpr ⟨hn, hm⟩) trivial
    have ha' : a.sensor n = s.sensor n := ha.trans hsensor
    rw [hfold, takeLine_sensor (ha' ▸ h), ha']
  · next hm =>
    have hfold := foldl_unseen (P := fun _ : State => True) (g := fun a : State => a.sensor n) (s := u) (fun _ _ => id)
      (fun a _ hm _ => takeLine_sensor_other (dt := dt) (crc := crc) (d := d) a hm)
      (fun hmem => hm (mem_lineInputs.mp hmem).2) trivial
    rw [hfold, hsensor, ← h]

end Line

/-! ## A frame end (R218) -/

/-- A frame that ends good: every line came, and the numbers of its start and end agree. -/
abbrev EndsGood (f : CsiFrame) (no : BitVec 16) : Prop := f.bad = false ∧ f.lines = bits f.size 31 16 ∧ f.frameNo = no

theorem endFrameAt_changes (s : State) (p n : Nat) (no : BitVec 16) : Changes (badKey p) (· = n) s (s.endFrameAt p n no) := by
  unfold State.endFrameAt
  dsimp only
  split
  · exact Changes.refl s
  · split
    · have h0 : Changes (badKey p) (· = n) s s := Changes.refl s
      exact h0.setSensor rfl _
    · exact badFrame_changes s p n _

theorem endFrameAt_sensor {f : CsiFrame} (h : (s.sensor n).openFrame = some f) (p : Nat) (no : BitVec 16) :
    ((s.endFrameAt p n no).sensor n).openFrame = none ∧
    ((s.endFrameAt p n no).sensor n).candidates =
      if EndsGood f no then (s.sensor n).candidates ++ [f] else (s.sensor n).candidates := by
  simp only [State.endFrameAt, h]
  split
  · rw [sensor_setSensor_same]
    exact ⟨rfl, rfl⟩
  · rw [badFrame_sensor]
    exact ⟨rfl, rfl⟩

theorem endFrameAt_counts (hp : p < 4) {f : CsiFrame} (h : (s.sensor n).openFrame = some f) {no : BitVec 16} (hbad : ¬ EndsGood f no) :
    (s.endFrameAt p n no).reg (Reg.CSI_FRAME_BAD p) = s.counted (Reg.CSI_FRAME_BAD p) := by
  simp only [State.endFrameAt, h, if_neg hbad]
  exact badFrame_counts hp s n f

/-- A frame end with a usable header: every frame open on the port and virtual channel ends. -/
def csiEnd (s : State) (p vc : Nat) (no : BitVec 16) : State := (s.openInputs p vc).foldl (fun a n => a.endFrameAt p n no) s

theorem exec_csiFe {port vc : Fin 4} {no : BitVec 16} {ecc : Ecc} (hon : s.csiOn port.val = true) (hecc : ecc ≠ .uncorrectable) :
    ∃ u, HeaderRead port.val s u ∧ exec (.csiFe port vc no ecc) s = done (csiEnd u port.val vc.val no) := by
  obtain ⟨u, hu, hread⟩ := csiHeader_usable hecc s port.val vc.val
  refine ⟨u, hread, ?_⟩
  show execCsiFe port vc no ecc s = _
  simp only [execCsiFe, hon, hu, if_true]
  rfl

theorem csiEnd_changes (s : State) (p vc : Nat) (no : BitVec 16) : Changes (badKey p) (fun _ => True) s (csiEnd s p vc no) :=
  foldl_keeps (P := Changes (badKey p) (fun _ => True) s)
    (fun a n ha => ha.trans ((endFrameAt_changes a p n no).mono (fun _ => id) fun _ _ => trivial)) _ (Changes.refl s)

theorem endFrameAt_sensor_other (no : BitVec 16) (a : State) {m : Nat} (hm : m ≠ n) : (a.endFrameAt p m no).sensor n = a.sensor n :=
  (endFrameAt_changes a p m no).sensor n hm.symm

theorem csiEnd_sensor_mem {f : CsiFrame} (h : (s.sensor n).openFrame = some f) (hn : n ∈ s.openInputs p vc) (no : BitVec 16) :
    ((csiEnd s p vc no).sensor n).openFrame = none ∧
    ((csiEnd s p vc no).sensor n).candidates =
      if EndsGood f no then (s.sensor n).candidates ++ [f] else (s.sensor n).candidates := by
  obtain ⟨a, -, ha, hfold⟩ := foldl_at (P := fun _ : State => True) (g := fun a : State => a.sensor n) (s := s) (fun _ _ => id)
    (fun a _ hm _ => endFrameAt_sensor_other no a hm) (openInputs_nodup s p vc) hn trivial
  have hend : (csiEnd s p vc no).sensor n = (a.endFrameAt p n no).sensor n := hfold
  rw [hend, ← ha]
  exact endFrameAt_sensor (ha ▸ h) p no

theorem csiEnd_sensor_not_mem (hn : n ∉ s.openInputs p vc) (no : BitVec 16) : (csiEnd s p vc no).sensor n = s.sensor n :=
  foldl_unseen (P := fun _ : State => True) (g := fun a : State => a.sensor n) (fun _ _ => id)
    (fun a _ hm _ => endFrameAt_sensor_other no a hm) hn trivial

end Csi

end Sys2Proof.Laws
end

section
/-!
SUPPORT. The alignment at the cut-off (R16, R220): which input is a group's anchor, what an input's decision leaves of its candidates
and shows as its stamp; and the settling of O51.
-/
namespace Sys2Proof.Laws
open Sys2Proof.Machine

section Align
variable {s a : State} {n m : Nat}

/-! ## What a decision changes -/

/-- The registers that the decision for input n may change. -/
def alignKey (n k : Nat) : Prop :=
  passKey k ∨ k = Reg.ALIGN_ALIGN_DROP ∨ k = Reg.ALIGN_ALIGN_MISS ∨ k = Reg.EVT_RAW 0x21C ∨ k = Reg.ALIGN_IN_LAST n

/-- A register of an input or group of the alignment unit, which no other key of it names. -/
theorem alignBank_not_passKey {b o : Nat} (ho : o < 4096) : ¬ passKey (bkey b 0x21C o) := by
  have hpage : keyPage (bkey b 0x21C o) = 0x21C := keyPage_bkey (by decide) ho
  unfold passKey bpmKey
  omega

theorem inLast_not_passKey (n : Nat) : ¬ passKey (Reg.ALIGN_IN_LAST n) := alignBank_not_passKey (by decide)

theorem inLast_ne_of_off {b k : Nat} (h : keyOff k ≠ 0x110) : Reg.ALIGN_IN_LAST b ≠ k := by
  rintro rfl
  exact h (keyOff_bkey (by decide))

theorem inLast_inj (h : Reg.ALIGN_IN_LAST n = Reg.ALIGN_IN_LAST m) : n = m := by
  unfold Reg.ALIGN_IN_LAST bkey at h
  omega

theorem inLast_not_alignKey (h : n ≠ m) : ¬ alignKey m (Reg.ALIGN_IN_LAST n) := by
  rintro (hk | hk | hk | hk | hk)
  · exact inLast_not_passKey n hk
  · exact inLast_ne_of_off (by decide) hk
  · exact inLast_ne_of_off (by decide) hk
  · exact inLast_ne_of_off (by decide) hk
  · exact h (inLast_inj hk)

theorem grpWindow_not_alignKey (g m : Nat) : ¬ alignKey m (Reg.ALIGN_GRP_WINDOW g) := by
  have hoff : keyOff (Reg.ALIGN_GRP_WINDOW g) = 0x144 := keyOff_bkey (by decide)
  have hne {k : Nat} (h : keyOff k ≠ 0x144) : Reg.ALIGN_GRP_WINDOW g ≠ k := by
    rintro rfl
    exact h hoff
  rintro (hk | hk | hk | hk | hk)
  · exact alignBank_not_passKey (by decide) hk
  · exact hne (by decide) hk
  · exact hne (by decide) hk
  · exact hne (by decide) hk
  · exact inLast_ne_of_off (by rw [hoff]; decide) hk.symm

/-! ## The record of an input -/

/-- The record of a selected frame shows its stamp. -/
theorem sensorRecord_some (s : State) (n kind : Nat) (f : CsiFrame) :
    Changes (alignKey n) noInput s (s.sensorRecord n kind (some f)) ∧
    (s.sensorRecord n kind (some f)).reg (Reg.ALIGN_IN_LAST n) = f.stamp := by
  simp only [State.sensorRecord]
  have h0 : Changes (alignKey n) noInput s s := Changes.refl s
  refine ⟨((h0.setReg (.inr (.inr (.inr (.inr rfl)))) _).setStream _ _).trans ((passOn_changes _ _ _).of_noInput fun _ => .inl), ?_⟩
  rw [(passOn_changes _ _ _).reg _ (inLast_not_passKey n), setStream_reg, reg_setReg_same]

/-- The record of a missing frame changes what passing it on changes. -/
theorem sensorRecord_none (s : State) (n kind : Nat) : Changes passKey noInput s (s.sensorRecord n kind none) := by
  simp only [State.sensorRecord]
  have h0 : Changes passKey noInput s s := Changes.refl s
  exact h0.free.trans (passOn_changes _ _ _)

/-- The registers that giving back candidates changes. -/
def dropKey (k : Nat) : Prop := bpmKey k ∨ k = Reg.ALIGN_ALIGN_DROP

theorem inLast_not_dropKey (n : Nat) : ¬ dropKey (Reg.ALIGN_IN_LAST n) := by
  rintro (hk | hk)
  · exact inLast_not_passKey n (.inl hk)
  · exact inLast_ne_of_off (by decide) hk

/-- The candidates that are not kept go back to their pools; none is left at the input. -/
theorem dropOthers_spec (s : State) (n : Nat) (keep : Option CsiFrame) :
    Changes dropKey (· = n) s (s.dropOthers n keep) ∧ (s.dropOthers n keep).sensor n = { s.sensor n with candidates := [] } := by
  unfold State.dropOthers
  extract_lets x others
  have hfold (b : State) : Changes dropKey noInput b
      (others.foldl (fun (a : State) f => ((a.bpmRelease 14 f.buf 3).1).tally Reg.ALIGN_ALIGN_DROP) b) :=
    foldl_keeps (P := Changes dropKey noInput b)
      (fun a f ha => (ha.trans ((bpmRelease_changes a 14 f.buf 3).of_noInput fun _ => .inl)).tally (.inr rfl)) _ (Changes.refl b)
  have h0 : Changes dropKey (· = n) s s := Changes.refl s
  exact ⟨(h0.setSensor rfl _).trans ((hfold _).of_noInput fun _ => id),
    ((hfold _).sensor n id).trans (sensor_setSensor_same s n _)⟩

/-- An input's record and the giving back of its other candidates. -/
theorem recordAndDrop {u : State} (h : Changes (alignKey n) noInput s u) (keep : Option CsiFrame) :
    Changes (alignKey n) (· = n) s (u.dropOthers n keep) ∧
    (u.dropOthers n keep).sensor n = { s.sensor n with candidates := [] } ∧
    (u.dropOthers n keep).reg (Reg.ALIGN_IN_LAST n) = u.reg (Reg.ALIGN_IN_LAST n) := by
  obtain ⟨hdrop, hsensor⟩ := dropOthers_spec u n keep
  have hkey : ∀ k, dropKey k → alignKey n k := by
    rintro k (hk | hk)
    · exact .inl (.inl hk)
    · exact .inr (.inl hk)
  refine ⟨(h.of_noInput fun _ => id).trans (hdrop.mono hkey fun _ => id), ?_, hdrop.reg _ (inLast_not_dropKey n)⟩
  rw [hsensor, h.sensor n id]

/-! ## The decision for an input -/

/-- A member without a frame in the window counts in ALIGN_MISS and keeps its shown stamp. -/
theorem missRecord (s : State) (n : Nat) :
    Changes (alignKey n) noInput s (((s.tally Reg.ALIGN_ALIGN_MISS).event 0x21C 1).sensorRecord n 5 none) ∧
    (((s.tally Reg.ALIGN_ALIGN_MISS).event 0x21C 1).sensorRecord n 5 none).reg (Reg.ALIGN_IN_LAST n) = s.reg (Reg.ALIGN_IN_LAST n) := by
  have h0 : Changes (alignKey n) noInput s s := Changes.refl s
  have hcount := (h0.tally (.inr (.inr (.inl rfl)))).event (p := 0x21C) (.inr (.inr (.inr (.inl rfl)))) 1
  have hrec := sensorRecord_none ((s.tally Reg.ALIGN_ALIGN_MISS).event 0x21C 1) n 5
  refine ⟨hcount.trans (hrec.of_noInput fun _ => .inl), ?_⟩
  rw [hrec.reg _ (inLast_not_passKey n), reg_event_other _ (inLast_ne_of_off (by decide)),
    reg_tally_other _ (inLast_ne_of_off (by decide))]

theorem alignMember_spec (s : State) (ta : Word) (w n : Nat) :
    Changes (alignKey n) (· = n) s (s.alignMember ta w n) ∧
    (s.alignMember ta w n).sensor n = { s.sensor n with candidates := [] } ∧
    ∀ c, nearest ta (s.sensor n).candidates = some c → (s.alignMember ta w n).reg (Reg.ALIGN_IN_LAST n) =
      if (stampDiff c.stamp ta).natAbs ≤ w * 1000 then c.stamp else s.reg (Reg.ALIGN_IN_LAST n) := by
  obtain ⟨hmiss, hmissLast⟩ := missRecord s n
  obtain ⟨hmissCh, hmissSensor, hmissReg⟩ := recordAndDrop hmiss none
  unfold State.alignMember
  split
  · next c hc =>
    split
    · next hin =>
      obtain ⟨hrec, hlast⟩ := sensorRecord_some s n 5 c
      obtain ⟨hch, hsensor, hreg⟩ := recordAndDrop hrec (some c)
      refine ⟨hch, hsensor, fun c' hc' => ?_⟩
      obtain rfl : c = c' := Option.some_inj.mp (hc.symm.trans hc')
      rw [if_pos hin, hreg, hlast]
    · next hout =>
      refine ⟨hmissCh, hmissSensor, fun c' hc' => ?_⟩
      obtain rfl : c = c' := Option.some_inj.mp (hc.symm.trans hc')
      rw [if_neg hout, hmissReg, hmissLast]
  · next hnone =>
    refine ⟨hmissCh, hmissSensor, fun c' hc' => ?_⟩
    rw [hnone] at hc'
    cases hc'

theorem alignSingle_spec (s : State) (n : Nat) :
    Changes (alignKey n) (· = n) s (s.alignSingle n) ∧
    (s.alignSingle n).sensor n = { s.sensor n with candidates := [] } ∧
    ∀ f, latest (s.sensor n).candidates = some f → (s.alignSingle n).reg (Reg.ALIGN_IN_LAST n) = f.stamp := by
  unfold State.alignSingle
  dsimp only
  cases hf : latest (s.sensor n).candidates with
  | none =>
    obtain ⟨hch, hsensor, -⟩ := recordAndDrop ((sensorRecord_none s n 4).of_noInput (K' := alignKey n) fun _ => .inl) none
    exact ⟨hch, hsensor, by simp⟩
  | some f =>
    obtain ⟨hrec, hlast⟩ := sensorRecord_some s n 4 f
    obtain ⟨hch, hsensor, hreg⟩ := recordAndDrop hrec (some f)
    refine ⟨hch, hsensor, fun f' hf' => ?_⟩
    obtain rfl := Option.some_inj.mp hf'
    rw [hreg, hlast]

/-! ## A group -/

/-- The valid inputs of group g. -/
def members (s : State) (g : Nat) : List Nat := s.validInputs.filter (fun n => s.inGroup n == g)

/-- The members that have a candidate. -/
def withCandidate (s : State) (g : Nat) : List Nat := (members s g).filter (fun n => !(s.sensor n).candidates.isEmpty)

theorem withCandidate_eq (s : State) (g : Nat) : withCandidate s g =
    s.validInputs.filter (fun n => s.inGroup n == g && !(s.sensor n).candidates.isEmpty) := by
  simp only [withCandidate, members, List.filter_filter, Bool.and_comm]

/-- The anchor of a group: the member that is preferred, else the lowest, of those with a candidate. -/
def anchor (s : State) (g : Nat) : Option Nat :=
  match (withCandidate s g).find? (fun n => bit (s.effReg (Reg.ALIGN_IN_GROUP n)) 4) with
  | some n => some n
  | none => (withCandidate s g).head?

theorem alignGroup_eq (s : State) (g : Nat) : s.alignGroup g = match anchor s g with
    | none => (members s g).foldl (fun (a : State) n => a.sensorRecord n 5 none) s
    | some a0 => match latest (s.sensor a0).candidates with
      | none => s
      | some f => (members s g).foldl (fun (a : State) n => a.alignMember f.stamp (bits (s.reg (Reg.ALIGN_GRP_WINDOW g)) 15 0) n) s :=
  rfl

theorem validInputs_nodup (s : State) : s.validInputs.Nodup := List.Nodup.filter _ List.nodup_range

theorem members_nodup (s : State) (g : Nat) : (members s g).Nodup := (validInputs_nodup s).filter _

theorem mem_members {g : Nat} : n ∈ members s g ↔ n ∈ s.validInputs ∧ s.inGroup n = g := by
  simp only [members, List.mem_filter, beq_iff_eq]

theorem mem_withCandidate {g : Nat} : n ∈ withCandidate s g ↔ n ∈ members s g ∧ (s.sensor n).candidates ≠ [] := by
  simp only [withCandidate, List.mem_filter, Bool.not_eq_true', List.isEmpty_eq_false_iff]

theorem anchor_none {g : Nat} (h : anchor s g = none) (hn : n ∈ members s g) : (s.sensor n).candidates = [] := by
  unfold anchor at h
  split at h
  · cases h
  · have hnil : withCandidate s g = [] := List.head?_eq_none_iff.mp h
    by_contra hne
    have hmem := mem_withCandidate.mpr ⟨hn, hne⟩
    rw [hnil] at hmem
    cases hmem

theorem anchor_latest {g a0 : Nat} (h : anchor s g = some a0) : ∃ f, latest (s.sensor a0).candidates = some f := by
  have hmem : a0 ∈ withCandidate s g := by
    unfold anchor at h
    split at h
    · next hfind =>
      cases h
      exact List.mem_of_find?_eq_some hfind
    · exact List.mem_of_head? h
  obtain ⟨-, hne⟩ := mem_withCandidate.mp hmem
  exact ⟨_, List.getLast?_eq_some_getLast hne⟩

/-- What an input shows: its frame and candidates, and the stamp of its last selected frame. -/
def shown (n : Nat) (s : State) : Sensor × Word := (s.sensor n, s.reg (Reg.ALIGN_IN_LAST n))

theorem shown_of_changes (h : Changes (alignKey m) (· = m) s a) (hne : m ≠ n) : shown n a = shown n s :=
  Prod.ext (h.sensor n hne.symm) (h.reg _ (inLast_not_alignKey hne.symm))

/-- Any number of decisions. -/
abbrev AlignChanges : State → State → Prop := Changes (fun k => ∃ n, alignKey n k) (fun _ => True)

theorem alignChanges_step (h : AlignChanges s a) {u : State} (hu : Changes (alignKey n) (· = n) a u) : AlignChanges s u :=
  h.trans (hu.mono (fun _ hk => ⟨n, hk⟩) fun _ _ => trivial)

theorem recordStep (s : State) (n : Nat) : Changes (alignKey n) (· = n) s (s.sensorRecord n 5 none) :=
  (sensorRecord_none s n 5).of_noInput fun _ => .inl

theorem alignGroup_changes (h : AlignChanges s a) (g : Nat) : AlignChanges s (a.alignGroup g) := by
  rw [alignGroup_eq]
  split
  · exact foldl_keeps (P := AlignChanges s) (fun b n hb => alignChanges_step hb (recordStep b n)) _ h
  · split
    · exact h
    · exact foldl_keeps (P := AlignChanges s) (fun b n hb => alignChanges_step hb (alignMember_spec b _ _ n).1) _ h

/-- An input outside a group shows what it showed. -/
theorem alignGroup_shown_other {g : Nat} (hn : n ∉ members s g) : shown n (s.alignGroup g) = shown n s := by
  rw [alignGroup_eq]
  split
  · exact foldl_unseen (P := fun _ : State => True) (fun _ _ => id) (fun b m hm _ => shown_of_changes (recordStep b m) hm) hn trivial
  · split
    · rfl
    · exact foldl_unseen (P := fun _ : State => True) (fun _ _ => id)
        (fun b m hm _ => shown_of_changes (alignMember_spec b _ _ m).1 hm) hn trivial

/-- A member of a group is left without candidates; with an anchor, it shows the nearest candidate within the window. -/
theorem alignGroup_member {g : Nat} (hn : n ∈ members s g) :
    (s.alignGroup g).sensor n = { s.sensor n with candidates := [] } ∧
    ∀ a0 f c, anchor s g = some a0 → latest (s.sensor a0).candidates = some f → nearest f.stamp (s.sensor n).candidates = some c →
      (s.alignGroup g).reg (Reg.ALIGN_IN_LAST n) =
        if (stampDiff c.stamp f.stamp).natAbs ≤ bits (s.reg (Reg.ALIGN_GRP_WINDOW g)) 15 0 * 1000 then c.stamp
        else s.reg (Reg.ALIGN_IN_LAST n) := by
  cases ha : anchor s g with
  | none =>
    have hsensor : (s.alignGroup g).sensor n = s.sensor n := by
      rw [alignGroup_eq, ha]
      exact foldl_keeps (P := fun b : State => b.sensor n = s.sensor n)
        (fun b m hb => ((sensorRecord_none b m 5).sensor n id).trans hb) _ rfl
    refine ⟨?_, by simp⟩
    rw [hsensor, ← anchor_none ha hn]
  | some a0 =>
    obtain ⟨f, hf⟩ := anchor_latest ha
    have heq : s.alignGroup g =
        (members s g).foldl (fun (a : State) n => a.alignMember f.stamp (bits (s.reg (Reg.ALIGN_GRP_WINDOW g)) 15 0) n) s := by
      rw [alignGroup_eq, ha]
      simp only [hf]
    obtain ⟨b, -, hb, hfold⟩ := foldl_at (P := fun _ : State => True) (g := shown n) (s := s)
      (f := fun (a : State) n => a.alignMember f.stamp (bits (s.reg (Reg.ALIGN_GRP_WINDOW g)) 15 0) n) (fun _ _ => id)
      (fun b m hm _ => shown_of_changes (alignMember_spec b _ _ m).1 hm) (members_nodup s g) hn trivial
    rw [← heq] at hfold
    obtain ⟨hbs, hbl⟩ := Prod.ext_iff.mp hb
    obtain ⟨hfs, hfl⟩ := Prod.ext_iff.mp hfold
    simp only [shown] at hbs hbl hfs hfl
    obtain ⟨-, hsensor, hlast⟩ := alignMember_spec b f.stamp (bits (s.reg (Reg.ALIGN_GRP_WINDOW g)) 15 0) n
    refine ⟨by rw [hfs, hsensor, hbs], ?_⟩
    rintro a1 f1 c ⟨⟩ hf1 hc
    obtain rfl : f = f1 := Option.some_inj.mp (hf.symm.trans hf1)
    rw [hfl, hlast c (by rw [hbs]; exact hc), hbl]

/-! ## The cut-off -/

/-- The groups in order. -/
def cutoffGroups (s : State) : State := (List.range 8).foldl (fun a g => a.alignGroup g) s

/-- Then the inputs without a group. -/
def cutoffSingles (s : State) : State :=
  (s.validInputs.filter (fun n => decide (8 ≤ s.inGroup n))).foldl (fun a n => a.alignSingle n) (cutoffGroups s)

/-- Then the candidates of inputs that are no longer valid go back. -/
def cutoff (s : State) : State :=
  ((List.range 16).filter (fun n => !s.validInputs.contains n)).foldl (fun a n => a.dropOthers n none) (cutoffSingles s)

theorem exec_csiCutoff_entry {i : EntryIx} {e : Entry} (h : s.entryFor i.val 0x20 0x20 9 = some e) :
    exec (.csiCutoff i) s = done (cutoff s) := by
  show execCsiCutoff i s = _
  simp only [execCsiCutoff, h]
  rfl

theorem AlignChanges.members (h : AlignChanges s a) (g : Nat) : members a g = members s g := by
  simp only [Laws.members, h.validInputs, h.inGroup]

theorem cutoffGroups_step (s : State) (a : State) (g : Nat) (h : AlignChanges s a) : AlignChanges s (a.alignGroup g) :=
  alignGroup_changes h g

/-- What the inputs of group g show. -/
def groupShown (s : State) (g : Nat) (a : State) (m : { m // m ∈ members s g }) : Sensor × Word := shown m.val a

/-- A group's decision leaves what the inputs of another group show. -/
theorem groupShown_other {g x : Nat} (hx : x ≠ g) (h : AlignChanges s a) : groupShown s g (a.alignGroup x) = groupShown s g a := by
  funext ⟨m, hm⟩
  refine alignGroup_shown_other fun hmx => hx ?_
  rw [AlignChanges.members h] at hmx
  exact (mem_members.mp hmx).2.symm.trans (mem_members.mp hm).2

/-- Which input is the anchor depends on the group's members and their candidates. -/
theorem anchor_congr {g : Nat} (h : AlignChanges s a) (hsame : groupShown s g a = groupShown s g s) : anchor a g = anchor s g := by
  have hwith : withCandidate a g = withCandidate s g := by
    unfold withCandidate
    rw [AlignChanges.members h]
    refine List.filter_congr fun m hm => ?_
    have hm' : (a.sensor m, a.reg (Reg.ALIGN_IN_LAST m)) = (s.sensor m, s.reg (Reg.ALIGN_IN_LAST m)) := congrFun hsame ⟨m, hm⟩
    rw [(Prod.mk.inj hm').1]
  simp only [anchor, hwith, h.effReg]

theorem anchor_mem {g a0 : Nat} (h : anchor s g = some a0) : a0 ∈ members s g := by
  refine (mem_withCandidate.mp ?_).1
  unfold anchor at h
  split at h
  · next hfind =>
    cases h
    exact List.mem_of_find?_eq_some hfind
  · exact List.mem_of_head? h

/-- A member of a group after the decisions for all groups. -/
theorem cutoffGroups_member {g : Nat} (hg : g < 8) (hn : n ∈ members s g) :
    (cutoffGroups s).sensor n = { s.sensor n with candidates := [] } ∧
    ∀ a0 f c, anchor s g = some a0 → latest (s.sensor a0).candidates = some f → nearest f.stamp (s.sensor n).candidates = some c →
      (cutoffGroups s).reg (Reg.ALIGN_IN_LAST n) =
        if (stampDiff c.stamp f.stamp).natAbs ≤ bits (s.reg (Reg.ALIGN_GRP_WINDOW g)) 15 0 * 1000 then c.stamp
        else s.reg (Reg.ALIGN_IN_LAST n) := by
  obtain ⟨a, hacc, hbefore, hfold⟩ := foldl_at (g := groupShown s g) (f := fun (a : State) g => a.alignGroup g) (cutoffGroups_step s)
    (fun _ _ hx h => groupShown_other hx h) List.nodup_range (List.mem_range.mpr hg) (Changes.refl s)
  have hsame (m : Nat) (hm : m ∈ members s g) : a.sensor m = s.sensor m ∧ a.reg (Reg.ALIGN_IN_LAST m) = s.reg (Reg.ALIGN_IN_LAST m) :=
    Prod.mk.inj (congrFun hbefore ⟨m, hm⟩)
  obtain ⟨hsensor, hlast⟩ : (cutoffGroups s).sensor n = (a.alignGroup g).sensor n ∧
      (cutoffGroups s).reg (Reg.ALIGN_IN_LAST n) = (a.alignGroup g).reg (Reg.ALIGN_IN_LAST n) :=
    Prod.mk.inj (congrFun hfold ⟨n, hn⟩)
  have hwindow : a.reg (Reg.ALIGN_GRP_WINDOW g) = s.reg (Reg.ALIGN_GRP_WINDOW g) :=
    hacc.reg _ fun ⟨m, hm⟩ => grpWindow_not_alignKey g m hm
  obtain ⟨hmember, hstamp⟩ := alignGroup_member (s := a) (n := n) (g := g) (by rw [AlignChanges.members hacc]; exact hn)
  rw [(hsame n hn).1] at hmember hstamp
  rw [hwindow, (hsame n hn).2] at hstamp
  refine ⟨hsensor.trans hmember, fun a0 f c ha hf hc => hlast.trans (hstamp a0 f c ?_ ?_ hc)⟩
  · exact (anchor_congr hacc hbefore).trans ha
  · rw [(hsame a0 (anchor_mem ha)).1]
    exact hf

/-- An input of no group shows after the groups what it showed. -/
theorem cutoffGroups_shown_other (hn : ∀ g < 8, n ∉ members s g) : shown n (cutoffGroups s) = shown n s := by
  refine (List.foldlRecOn (motive := fun a : State => AlignChanges s a ∧ shown n a = shown n s) (List.range 8)
    (fun (a : State) g => a.alignGroup g) ⟨Changes.refl s, rfl⟩ fun a ha g hg => ?_).2
  obtain ⟨hacc, hshown⟩ := ha
  refine ⟨alignGroup_changes hacc g, (alignGroup_shown_other fun hm => ?_).trans hshown⟩
  rw [AlignChanges.members hacc] at hm
  exact hn g (List.mem_range.mp hg) hm

theorem alignSingle_shown_other (b : State) {m : Nat} (hm : m ≠ n) : shown n (b.alignSingle m) = shown n b :=
  shown_of_changes (alignSingle_spec b m).1 hm

theorem dropOthers_shown_other (b : State) {m : Nat} (hm : m ≠ n) : shown n (b.dropOthers m none) = shown n b :=
  shown_of_changes ((dropOthers_spec b m none).1.mono (fun _ hk => hk.elim (fun h => .inl (.inl h)) fun h => .inr (.inl h))
    fun _ => id) hm

theorem cutoffSingles_shown_other (hn : n ∈ s.validInputs → s.inGroup n < 8) : shown n (cutoffSingles s) = shown n (cutoffGroups s) := by
  refine foldl_unseen (P := fun _ : State => True) (fun _ _ => id) (fun b m hm _ => alignSingle_shown_other b hm) (fun hmem => ?_) trivial
  obtain ⟨hvalid, hgroup⟩ := List.mem_filter.mp hmem
  have := hn hvalid
  simp only [decide_eq_true_eq] at hgroup
  omega

theorem cutoff_shown_valid (hn : n ∈ s.validInputs) : shown n (cutoff s) = shown n (cutoffSingles s) := by
  refine foldl_unseen (P := fun _ : State => True) (fun _ _ => id) (fun b m hm _ => dropOthers_shown_other b hm) (fun hmem => ?_) trivial
  have hnot := (List.mem_filter.mp hmem).2
  simp [hn] at hnot

/-- A member of a group after the cut-off. -/
theorem cutoff_shown_member {g : Nat} (hg : g < 8) (hn : n ∈ members s g) : shown n (cutoff s) = shown n (cutoffGroups s) := by
  obtain ⟨hvalid, hgroup⟩ := mem_members.mp hn
  exact (cutoff_shown_valid hvalid).trans (cutoffSingles_shown_other fun _ => by omega)

/-- An input without a group after the cut-off: no candidates, and the stamp of the latest. -/
theorem cutoff_single (hn : n ∈ s.validInputs) (hgroup : 8 ≤ s.inGroup n) :
    (cutoff s).sensor n = { s.sensor n with candidates := [] } ∧
    ∀ f, latest (s.sensor n).candidates = some f → (cutoff s).reg (Reg.ALIGN_IN_LAST n) = f.stamp := by
  obtain ⟨a, -, hbefore, hfold⟩ := foldl_at (P := fun _ : State => True) (g := shown n) (s := cutoffGroups s)
    (f := fun (a : State) n => a.alignSingle n) (fun _ _ => id) (fun b m hm _ => alignSingle_shown_other b hm)
    ((validInputs_nodup s).filter (fun n => decide (8 ≤ s.inGroup n))) (List.mem_filter.mpr ⟨hn, by simpa using hgroup⟩) trivial
  have hnogroup : ∀ g < 8, n ∉ members s g := fun g hg hm => by
    have := (mem_members.mp hm).2
    omega
  obtain ⟨hsensor, -⟩ := Prod.mk.inj (hbefore.trans (cutoffGroups_shown_other hnogroup))
  obtain ⟨hsensor', hlast'⟩ := Prod.mk.inj ((cutoff_shown_valid hn).trans hfold)
  obtain ⟨-, hsingle, hstamp⟩ := alignSingle_spec a n
  rw [hsensor] at hsingle hstamp
  exact ⟨hsensor'.trans hsingle, fun f hf => hlast'.trans (hstamp f hf)⟩

/-- After the cut-off no input has a candidate, and every open frame is as it was. -/
theorem cutoff_sensor (hn : n < 16) : (cutoff s).sensor n = { s.sensor n with candidates := [] } := by
  by_cases hvalid : n ∈ s.validInputs
  · rcases Nat.lt_or_ge (s.inGroup n) 8 with hgroup | hgroup
    · have hmem : n ∈ members s (s.inGroup n) := mem_members.mpr ⟨hvalid, rfl⟩
      exact (Prod.mk.inj (cutoff_shown_member hgroup hmem)).1.trans (cutoffGroups_member hgroup hmem).1
    · exact (cutoff_single hvalid hgroup).1
  · obtain ⟨a, -, hbefore, hfold⟩ := foldl_at (P := fun _ : State => True) (g := shown n) (s := cutoffSingles s)
      (f := fun (a : State) n => a.dropOthers n none) (fun _ _ => id) (fun b m hm _ => dropOthers_shown_other b hm)
      (List.nodup_range.filter (fun n => !s.validInputs.contains n))
      (List.mem_filter.mpr ⟨List.mem_range.mpr hn, by simpa using hvalid⟩) trivial
    have hnogroup : ∀ g < 8, n ∉ members s g := fun g _ hm => hvalid (mem_members.mp hm).1
    have hsingles : shown n (cutoffSingles s) = shown n s :=
      (cutoffSingles_shown_other fun h => absurd h hvalid).trans (cutoffGroups_shown_other hnogroup)
    have hsensor := (Prod.mk.inj (hbefore.trans hsingles)).1
    rw [← hsensor]
    exact (Prod.mk.inj hfold).1.trans (dropOthers_spec a n none).2

end Align

end Sys2Proof.Laws
end

section
/-!
SUPPORT. The settling of O51: a frame start, a long packet and a frame end with a usable header, told of the state before the header,
and a change of a port's link.
-/
namespace Sys2Proof.Laws
open Sys2Proof.Machine

section Settled
variable {s u : State} {p vc n : Nat} {no : BitVec 16}

theorem settle_sensor (n : Nat) : (settle s).sensor n = s.sensor n := rfl

theorem reg_settle_csi (hp : p < 4) {o : Nat} (ho : o < 4096) (s : State) :
    (settle s).reg (rkey (0x218 + p) o) = s.reg (rkey (0x218 + p) o) :=
  reg_settle (csiReg_not_rise hp ho) s

theorem reg_settle_inLast (n : Nat) (s : State) : (settle s).reg (Reg.ALIGN_IN_LAST n) = s.reg (Reg.ALIGN_IN_LAST n) := by
  have hpage : keyPage (Reg.ALIGN_IN_LAST n) = 0x21C := keyPage_bkey (by decide) (by decide)
  exact reg_settle (not_mem_riseTallies_of_page (by omega) (by omega) (by omega)) s

namespace HeaderRead

theorem csiInputs (h : HeaderRead p s u) (vc : Nat) : csiInputs u p vc = csiInputs s p vc := by
  simp only [Laws.csiInputs, h.inCtl]

theorem openInputs (h : HeaderRead p s u) (vc : Nat) : u.openInputs p vc = s.openInputs p vc := openInputs_congr h.sensors p vc

theorem newFrame (h : HeaderRead p s u) (n : Nat) (no : BitVec 16) : newFrame u p n no = newFrame s p n no := by
  have hadj : u.reg (Reg.CSI_STAMP_ADJ p) = s.reg (Reg.CSI_STAMP_ADJ p) := h.reg (header_ne (by decide))
  funext b
  simp only [Laws.newFrame, h.tsu, hadj, h.inCtl, State.effReg, h.eff]

end HeaderRead

/-! ## A frame start -/

theorem csiStart_read_mem (hp : p < 4) (h : HeaderRead p s u) (hn : n ∈ csiInputs s p vc) :
    ∃ b : Option Ptr, (csiStart u p vc no).sensor n = { s.sensor n with openFrame := b.map (newFrame s p n no) } := by
  rw [← h.csiInputs] at hn
  rw [← h.newFrame, ← h.sensor]
  exact csiStart_sensor_mem hp hn no

theorem csiStart_read_not_mem (h : HeaderRead p s u) (hn : n ∉ csiInputs s p vc) :
    (csiStart u p vc no).sensor n = if n ∈ s.openInputs p vc then { s.sensor n with openFrame := none } else s.sensor n := by
  rw [← h.csiInputs] at hn
  rw [← h.openInputs, ← h.sensor]
  exact csiStart_sensor_not_mem hn no

theorem csiStart_candidates (hp : p < 4) (h : HeaderRead p s u) (n : Nat) :
    ((csiStart u p vc no).sensor n).candidates = (s.sensor n).candidates := by
  by_cases hn : n ∈ csiInputs s p vc
  · obtain ⟨b, hb⟩ := csiStart_read_mem (no := no) hp h hn
    rw [hb]
  · rw [csiStart_read_not_mem h hn]
    split <;> rfl

/-- The one input concerned, without an open frame, starts one where its pool gives a buffer. -/
theorem csiStart_single_fresh (hp : p < 4) (h : HeaderRead p s u) (hins : csiInputs s p vc = [n]) (hopen : s.openInputs p vc = [])
    (hnone : (s.sensor n).openFrame = none) :
    ((csiStart u p vc no).sensor n).openFrame = (s.bpmAlloc 14 (inPool (s.inCtl n)) 3).2.map (newFrame s p n no) ∧
    (csiStart u p vc no).reg (Reg.CSI_CSI_POOL_EMPTY p) =
      if (s.bpmAlloc 14 (inPool (s.inCtl n)) 3).2.isNone then s.counted (Reg.CSI_CSI_POOL_EMPTY p)
      else s.reg (Reg.CSI_CSI_POOL_EMPTY p) := by
  have hsingle : csiStart u p vc no = u.startFrameAt p n no :=
    csiStart_single ((h.csiInputs vc).trans hins) (by simp [h.openInputs, hopen])
  have hu : (u.sensor n).openFrame = none := by rw [h.sensor, hnone]
  have hcut : cutFrame p u n = u := by simp only [cutFrame, hu]
  have halloc : (u.bpmAlloc 14 (inPool (u.inCtl n)) 3).2 = (s.bpmAlloc 14 (inPool (s.inCtl n)) 3).2 := by
    rw [h.inCtl, bpmAlloc_congr h.pools]
  have hne : Reg.CSI_CSI_POOL_EMPTY p ≠ Reg.CSI_ECC_CORR p := header_ne (by decide)
  rw [hsingle, startFrameAt_eq, hcut, openFrameAt_poolEmpty hp, openFrameAt_sensor hp hu, halloc, h.newFrame, h.counted hne, h.reg hne]
  exact ⟨rfl, rfl⟩

/-- The one input concerned, with an open frame, counts it as cut and as bad. -/
theorem csiStart_single_cut (hp : p < 4) (h : HeaderRead p s u) (hins : csiInputs s p vc = [n]) (hopen : s.openInputs p vc = [n]) :
    (csiStart u p vc no).reg (Reg.CSI_FRAME_CUT p) = s.counted (Reg.CSI_FRAME_CUT p) ∧
    (csiStart u p vc no).reg (Reg.CSI_FRAME_BAD p) = s.counted (Reg.CSI_FRAME_BAD p) := by
  have hsingle : csiStart u p vc no = u.startFrameAt p n no :=
    csiStart_single ((h.csiInputs vc).trans hins) (by simp [h.openInputs, hopen])
  obtain ⟨f, hf⟩ := openFrame_isSome_of_openInputs (s := u) (n := n) (p := p) (vc := vc) (by simp [h.openInputs, hopen])
  obtain ⟨hcut, hbad⟩ := cutFrame_counts hp hf
  have hkey {o : Nat} (ho : o < 4096) (hne : o ≠ 0xE1C) : ¬ allocKey p (rkey (0x218 + p) o) := by
    rintro (hk | hk)
    · exact csiReg_not_bpm hp ho hk
    · exact (header_ne hne : rkey (0x218 + p) o ≠ Reg.CSI_CSI_POOL_EMPTY p) hk
  have halloc := openFrameAt_changes (cutFrame p u n) p n no
  rw [hsingle, startFrameAt_eq]
  exact ⟨((halloc.reg _ (hkey (by decide) (by decide))).trans hcut).trans (h.counted (header_ne (by decide))),
    ((halloc.reg _ (hkey (by decide) (by decide))).trans hbad).trans (h.counted (header_ne (by decide)))⟩

/-! ## A long packet -/

section Line
variable {dt : Nat} {crc : Bool} {d : List Byte}

theorem lineInputs_eq_nil (h : ∀ n < 16, s.inputMatches n p vc dt = false) : lineInputs s p vc dt = [] := by
  refine List.eq_nil_iff_forall_not_mem.mpr fun n hn => ?_
  obtain ⟨hlt, hm⟩ := mem_lineInputs.mp hn
  rw [h n hlt] at hm
  cases hm

theorem lineInputs_single (hn : n < 16) (h : ∀ x < 16, s.inputMatches x p vc dt = decide (x = n)) : lineInputs s p vc dt = [n] := by
  have hfilter : lineInputs s p vc dt = (List.range 16).filter (· == n) :=
    List.filter_congr fun x hx => h x (List.mem_range.mp hx)
  rw [hfilter, List.filter_beq, List.count_eq_one_of_mem List.nodup_range (List.mem_range.mpr hn), List.replicate_one]

end Line

/-- A packet of an unsupported type is dropped and counted. -/
theorem csiLongPacket_unsupported {port vc : Fin 4} {dt : BitVec 6} {ecc : Ecc} {crc : Bool} {d : List Byte}
    (hon : s.csiOn port.val = true) (hecc : ecc ≠ .uncorrectable) (hdt : csiTypes.contains dt.toNat = false) :
    ∃ t, exec (.csiLongPacket port vc dt ecc crc d) s = .next t ∧
      t.reg (Reg.CSI_DT_DROP port.val) = s.counted (Reg.CSI_DT_DROP port.val) ∧ (∀ n, t.sensor n = s.sensor n) ∧ SameBytes s t := by
  obtain ⟨u, hread, hexec⟩ := exec_csiLongPacket_dropped (vc := vc) (crc := crc) (d := d) hon hecc hdt
  exact ⟨_, hexec,
    ((reg_settle_csi port.isLt (by decide) _).trans (reg_tally_same u _)).trans (hread.counted (header_ne (by decide))),
    fun n => hread.sensor n, hread.access.sameBytes⟩

/-- A packet of a supported type: of no input, it is dropped and counted; else each input that it matches takes the line. -/
theorem csiLongPacket_supported {port vc : Fin 4} {dt : BitVec 6} {ecc : Ecc} {crc : Bool} {d : List Byte}
    (hon : s.csiOn port.val = true) (hecc : ecc ≠ .uncorrectable) (hdt : csiTypes.contains dt.toNat = true) :
    ∃ t, exec (.csiLongPacket port vc dt ecc crc d) s = .next t ∧
      ((∀ n < 16, s.inputMatches n port.val vc.val dt.toNat = false) →
        t.reg (Reg.CSI_NO_INPUT port.val) = s.counted (Reg.CSI_NO_INPUT port.val) ∧ (∀ n, t.sensor n = s.sensor n) ∧ SameBytes s t) ∧
      (∀ n < 16, ∀ f, (s.sensor n).openFrame = some f → t.sensor n = { s.sensor n with
        openFrame := some (if s.inputMatches n port.val vc.val dt.toNat then frameWithLine f dt.toNat crc d else f) }) ∧
      (∀ n f, n < 16 → (s.sensor n).openFrame = some f → s.upsets = [] →
        (∀ x < 16, s.inputMatches x port.val vc.val dt.toNat = decide (x = n)) → lineFits f dt.toNat d = true → ∀ k, t.byte k =
          (s.unitWrite (ptrAdd f.buf (f.lines * csiPitch dt.toNat (bits f.size 15 0))) (csiStored dt.toNat d)).byte k) := by
  obtain ⟨u, hpacket, hreg, hexecNil, hexecLines⟩ := exec_csiLongPacket (vc := vc) (crc := crc) (d := d) hon hecc hdt
  have hsensor (n : Nat) : u.sensor n = s.sensor n := sensor_of_sensors hpacket.sensors n
  by_cases hnil : lineInputs s port.val vc.val dt.toNat = []
  · refine ⟨_, hexecNil hnil, fun _ => ⟨?_, hsensor, hpacket.access.sameBytes⟩, fun n hn f hf => ?_, fun n f hn _ _ hone => ?_⟩
    · have hsame : u.reg (Reg.CSI_NO_INPUT port.val) = s.reg (Reg.CSI_NO_INPUT port.val) :=
        hreg _ (header_ne (by decide)) (header_ne (by decide))
      have hcount : u.counted (Reg.CSI_NO_INPUT port.val) = s.counted (Reg.CSI_NO_INPUT port.val) := by
        simp only [State.counted, hsame]
      exact ((reg_settle_csi port.isLt (by decide) _).trans (reg_tally_same u _)).trans hcount
    · have hlines := takeLines_sensor (crc := crc) (d := d) hpacket hn hf port.val vc.val dt.toNat
      rw [hnil] at hlines
      exact hlines
    · rw [lineInputs_single hn hone] at hnil
      cases hnil
  · refine ⟨_, hexecLines hnil, fun hno => absurd (lineInputs_eq_nil hno) hnil,
      fun n hn f hf => takeLines_sensor hpacket hn hf port.val vc.val dt.toNat, fun n f hn hf hup hone hfit k => ?_⟩
    rw [lineInputs_single hn hone]
    rw [← hsensor] at hf
    exact (takeLine_byte hf hfit k).trans (hpacket.access.byte_unitWrite hup _ _ k)

/-! ## A frame end -/

theorem csiEnd_read_mem (h : HeaderRead p s u) {f : CsiFrame} (hf : (s.sensor n).openFrame = some f) (hn : n ∈ s.openInputs p vc) :
    ((csiEnd u p vc no).sensor n).openFrame = none ∧
    ((csiEnd u p vc no).sensor n).candidates =
      if EndsGood f no then (s.sensor n).candidates ++ [f] else (s.sensor n).candidates := by
  rw [← h.openInputs] at hn
  rw [← h.sensor] at hf ⊢
  exact csiEnd_sensor_mem hf hn no

theorem csiEnd_single_bad (hp : p < 4) (h : HeaderRead p s u) {f : CsiFrame} (hf : (s.sensor n).openFrame = some f)
    (hopen : s.openInputs p vc = [n]) (hbad : ¬ EndsGood f no) :
    (csiEnd u p vc no).reg (Reg.CSI_FRAME_BAD p) = s.counted (Reg.CSI_FRAME_BAD p) := by
  rw [← h.sensor] at hf
  rw [csiEnd, h.openInputs, hopen]
  exact (endFrameAt_counts hp hf hbad).trans (h.counted (header_ne (by decide)))

/-! ## A change of the link (R216, R228) -/

/-- The bits of LINK that a port shows: all four lanes' only with a supported lane count. -/
def linkShown (s : State) (p : Nat) (link : Word) : Word :=
  link &&& (if [1, 2, 4].contains (bits (s.reg (Reg.CSI_PHY_CFG p)) 2 0) then 0x11F else 0x1F)

theorem exec_csiLinkChange_same {port : Fin 4} {link : Word}
    (h : s.domOn 22 = false ∨ s.reg (Reg.CSI_LINK port.val) = linkShown s port.val link) :
    exec (.csiLinkChange port link) s = done s := by
  show execCsiLinkChange port link s = _
  simp only [execCsiLinkChange]
  exact congrArg done (if_pos h)

theorem exec_csiLinkChange_new {port : Fin 4} {link : Word} (hdom : s.domOn 22 = true)
    (h : s.reg (Reg.CSI_LINK port.val) ≠ linkShown s port.val link) :
    exec (.csiLinkChange port link) s =
      done ((s.setReg (Reg.CSI_LINK port.val) (linkShown s port.val link)).event (pageCsi port.val) 1) := by
  show execCsiLinkChange port link s = _
  simp only [execCsiLinkChange]
  refine congrArg done (if_neg ?_)
  rintro (hoff | hsame)
  · rw [hdom] at hoff
    cases hoff
  · exact h hsame

/-- A link that changes shows in LINK, with its event; one that does not changes nothing. -/
theorem csiLinkChange_shown {port : Fin 4} {link : Word} (hdom : s.domOn 22 = true) :
    ∃ t, exec (.csiLinkChange port link) s = .next t ∧ t.reg (Reg.CSI_LINK port.val) = linkShown s port.val link ∧
      OnlyRegs [Reg.CSI_LINK port.val, Reg.EVT_RAW (pageCsi port.val)] s t ∧
      (s.reg (Reg.CSI_LINK port.val) = linkShown s port.val link → SameRegs [] s t) ∧
      (s.reg (Reg.CSI_LINK port.val) ≠ linkShown s port.val link →
        t.reg (Reg.EVT_RAW (pageCsi port.val)) = s.reg (Reg.EVT_RAW (pageCsi port.val)) ||| 1) := by
  have hlink : Reg.CSI_LINK port.val ∉ riseTallies := csiReg_not_rise port.isLt (by decide)
  by_cases h : s.reg (Reg.CSI_LINK port.val) = linkShown s port.val link
  · exact ⟨_, exec_csiLinkChange_same (.inr h), (reg_settle hlink s).trans h, onlyRegs_settle (onlyRegs_refl _ s),
      fun _ => sameRegs_settle fun _ _ _ => rfl, fun hne => absurd h hne⟩
  · have hne : Reg.CSI_LINK port.val ≠ Reg.EVT_RAW (pageCsi port.val) := header_ne (by decide)
    refine ⟨_, exec_csiLinkChange_new hdom h, ?_, ?_, fun heq => absurd heq h, fun _ => ?_⟩
    · rw [reg_settle hlink, reg_event_other _ hne, reg_setReg_same]
    · exact onlyRegs_settle (onlyRegs_setReg (onlyRegs_setReg (onlyRegs_refl _ s) List.mem_cons_self _)
        (List.mem_cons_of_mem _ List.mem_cons_self) _)
    · rw [reg_settle (evtRaw_not_mem_riseTallies _), reg_event_same, reg_setReg_other _ hne.symm]

end Settled

/-! ## The clauses of O51 -/

/-- Settles O51: each input's frame follows its own steps of the command, which leave the other inputs as they are. -/
theorem sensorFramesStartFillAndEnd : Obligations.SensorFramesStartFillAndEnd := by
  refine ⟨fun port vc no ecc s hon hecc => ?_, fun port vc no dt ecc crc d s c hc => ⟨fun hoff => ?_, fun hon hecc => ?_⟩,
    fun port vc dt ecc crc d s hon hecc => ?_, fun port vc no ecc s hon hecc => ?_, fun i port link s c hc => ?_,
    fun i e s he => ?_, fun port link v s hdom hv => ?_⟩
  · obtain ⟨u, hread, hexec⟩ := exec_csiFs (vc := vc) (no := no) hon hecc
    have hp := port.isLt
    refine ⟨_, hexec, fun n hn hvalid hport hvc => ?_, fun n hn hother => ?_, fun n _ => csiStart_candidates hp hread n,
      fun k => ?_, fun n hins => ⟨fun hopen hnone => ?_, fun hopen => ?_⟩⟩
    · obtain ⟨b, hb⟩ := csiStart_read_mem (no := no) hp hread (mem_csiInputs.mpr ⟨hn, hvalid, hport, hvc⟩)
      rw [settle_sensor, hb]
      cases b with
      | none => exact .inl rfl
      | some b => exact .inr ⟨b, rfl⟩
    · have hnot : n ∉ csiInputs s port.val vc.val := fun hmem => by
        obtain ⟨-, hvalid, hport, hvc⟩ := mem_csiInputs.mp hmem
        rcases hother with h | h | h
        · rw [hvalid] at h
          cases h
        · exact h hport
        · exact h hvc
      rw [settle_sensor, csiStart_read_not_mem hread hnot]
      simp only [List.contains_eq_mem, decide_eq_true_eq]
      split <;> rfl
    · exact ((csiStart_changes u port.val vc.val no).sameBytes k).trans (hread.access.sameBytes k)
    · obtain ⟨hframe, hcount⟩ := csiStart_single_fresh (no := no) hp hread hins hopen hnone
      exact ⟨hframe, (reg_settle_csi hp (by decide) _).trans hcount⟩
    · obtain ⟨hcut, hbad⟩ := csiStart_single_cut (no := no) hp hread hins hopen
      exact ⟨(reg_settle_csi hp (by decide) _).trans hcut, (reg_settle_csi hp (by decide) _).trans hbad⟩
  · exact ⟨_, exec_csi_off hc hoff, onlyRegs_settle (onlyRegs_refl [] s)⟩
  · subst hecc
    obtain ⟨hregs, hbytes⟩ := spoilOpen_keeps s port.val vc.val
    refine ⟨_, exec_csi_uncorrectable hc hon, hbytes, ?_, sameRegs_settle fun k hk _ => ?_, fun n _ => ?_⟩
    · exact (reg_settle_csi port.isLt (by decide) _).trans ((hregs _).trans (reg_tally_same s _))
    · rw [hregs, reg_tally_other s (by simpa using hk)]
    · rw [settle_sensor, spoilOpen_openFrame]
      simp only [List.contains_eq_mem, decide_eq_true_eq]
  · cases hdt : csiTypes.contains dt.toNat with
    | false =>
      obtain ⟨t, ht, hcount, hsensor, hbytes⟩ := csiLongPacket_unsupported (vc := vc) (crc := crc) (d := d) hon hecc hdt
      exact ⟨t, ht, fun _ => ⟨hcount, hsensor, hbytes⟩, by simp, by simp, by simp⟩
    | true =>
      obtain ⟨t, ht, hnone, hline, hbytes⟩ := csiLongPacket_supported (vc := vc) (crc := crc) (d := d) hon hecc hdt
      refine ⟨t, ht, by simp, fun _ => hnone, fun _ n hn f hf => ?_, fun _ n f hn hf hup hone hlen hheight => ?_⟩
      · rw [hline n hn f hf]
        exact ⟨rfl, rfl⟩
      · exact hbytes n f hn hf hup hone (by simp [lineFits, hlen, hheight])
  · obtain ⟨u, hread, hexec⟩ := exec_csiFe (vc := vc) (no := no) hon hecc
    refine ⟨_, hexec, fun k => ?_, fun n _ => ⟨fun f hf hopen => ?_, fun hclosed => ?_⟩⟩
    · exact ((csiEnd_changes u port.val vc.val no).sameBytes k).trans (hread.access.sameBytes k)
    · obtain ⟨hframe, hcands⟩ := csiEnd_read_mem (no := no) hread hf (List.contains_iff_mem.mp hopen)
      exact ⟨hframe, hcands, fun hbad hsingle =>
        (reg_settle_csi port.isLt (by decide) _).trans (csiEnd_single_bad port.isLt hread hf hsingle hbad)⟩
    · have hnot : n ∉ u.openInputs port.val vc.val := by
        rw [hread.openInputs]
        simpa using hclosed
      rw [settle_sensor, csiEnd_sensor_not_mem hnot, hread.sensor]
  · have hexec : exec c s = done s := by
      rcases hc with ⟨rfl, hnone⟩ | ⟨rfl, hoff⟩
      · show execCsiCutoff i s = _
        simp only [execCsiCutoff, hnone]
      · exact exec_csiLinkChange_same (.inl hoff)
    exact ⟨_, hexec, onlyRegs_settle (onlyRegs_refl [] s)⟩
  · refine ⟨_, exec_csiCutoff_entry he, fun n hn => ?_, fun n f hn hgroup hf => ?_, fun g a f n c hg ha hf hn hgroup hc => ?_⟩
    · rw [settle_sensor, cutoff_sensor hn]
      exact ⟨rfl, rfl⟩
    · exact (reg_settle_inLast n _).trans ((cutoff_single hn hgroup).2 f hf)
    · have hmem : n ∈ members s g := mem_members.mpr ⟨hn, hgroup⟩
      have hanchor : anchor s g = some a := by
        rw [anchor, withCandidate_eq]
        exact ha
      rw [reg_settle_inLast, (Prod.mk.inj (cutoff_shown_member hg hmem)).2]
      exact (cutoffGroups_member hg hmem).2 a f c hanchor hf hc
  · subst hv
    obtain ⟨t, ht, hlink, ⟨hregs, hbytes, hrest⟩, hsame, hevent⟩ := csiLinkChange_shown (port := port) (link := link) hdom
    exact ⟨t, ht, hlink, hbytes, hrest, hsame, fun hne => ⟨hevent hne, hregs⟩⟩

end Sys2Proof.Laws
end

section
/-!
SUPPORT. Registers that a command sets or counts, and the settling of O52: RING_CFG, the stream configuration, the proxy
registers and the rate caps.
-/
namespace Sys2Proof.Laws
open Sys2Proof.Machine

/-! ## Keys -/

theorem rkey_not_mem_riseTallies {p o : Nat} (ho : o < 4096) (h8 : o ≠ 0xE08) (h20 : o ≠ 0xE20) : rkey p o ∉ riseTallies := by
  have hk : keyOff (rkey p o) = o := keyOff_rkey ho
  exact not_mem_riseTallies (by omega) (by omega)

theorem bkey_not_mem_riseTallies {b p o : Nat} (ho : o < 4096) (h8 : o ≠ 0xE08) (h20 : o ≠ 0xE20) :
    bkey b p o ∉ riseTallies := by
  have hk : keyOff (bkey b p o) = o := keyOff_bkey ho
  exact not_mem_riseTallies (by omega) (by omega)

/-- Registers at different offsets of pages are different. -/
theorem ne_of_keyOff {k k' : Nat} (h : keyOff k ≠ keyOff k') : k ≠ k' := fun he => h (congrArg keyOff he)

/-! ## Commands that set or count registers -/

theorem onlyRegs_mono {ks ks' : List Nat} {s t : State} (h : OnlyRegs ks s t) (hsub : ks ⊆ ks') : OnlyRegs ks' s t := by
  obtain ⟨hregs, hbytes, hrest⟩ := h
  exact ⟨fun k hk hr => hregs k (fun hm => hk (hsub hm)) hr, hbytes, hrest⟩

theorem onlyRegs_tally {ks : List Nat} {s t : State} {k : Nat} (h : OnlyRegs ks s t) (hk : k ∈ ks) : OnlyRegs ks s (t.tally k) :=
  onlyRegs_setReg h hk _

theorem onlyRegs_event {ks : List Nat} {s t : State} {p : Nat} (h : OnlyRegs ks s t) (hk : Reg.EVT_RAW p ∈ ks) (w : Word) :
    OnlyRegs ks s (t.event p w) :=
  onlyRegs_setReg h hk _

/-- The outcome of a command that counts in one tally. -/
theorem done_tally {k : Nat} (hk : k ∉ riseTallies) (s : State) :
    ∃ t, done (s.tally k) = .next t ∧ t.reg k = s.counted k ∧ OnlyRegs [k] s t :=
  done_setReg hk _ s

/-! ## RING_CFG (R242, R256) -/

theorem exec_ringCfg {m : Master} {v : Word} {s : State} (h : s.admits m 0x221 = true) :
    exec (.ringCfg m v) s = done (if bits v 3 0 < 5 ∨ 10 < bits v 3 0 ∨ bits v 12 8 < 16 ∨ 24 < bits v 12 8 then s.drop 0x221
      else s.setReg Reg.SHEET_RING_CFG (BitVec.ofNat 32 (bits v 3 0 + 256 * bits v 12 8))) := by
  show execRingCfg m v s = _
  rw [execRingCfg, gate_admits s h]

theorem ringCfg_refused {m : Master} {v : Word} {s : State} (h : s.admits m 0x221 = true)
    (hv : bits v 3 0 < 5 ∨ 10 < bits v 3 0 ∨ bits v 12 8 < 16 ∨ 24 < bits v 12 8) :
    ∃ t, exec (.ringCfg m v) s = .next t ∧ t.reg (Reg.DROP_TALLY 0x221) = s.counted (Reg.DROP_TALLY 0x221) ∧
      OnlyRegs [Reg.DROP_TALLY 0x221] s t := by
  rw [exec_ringCfg h, if_pos hv]
  exact done_drop 0x221 s

theorem ringCfg_taken {m : Master} {v : Word} {s : State} (h : s.admits m 0x221 = true)
    (hv : ¬ (bits v 3 0 < 5 ∨ 10 < bits v 3 0 ∨ bits v 12 8 < 16 ∨ 24 < bits v 12 8)) :
    ∃ t, exec (.ringCfg m v) s = .next t ∧ t.reg Reg.SHEET_RING_CFG = BitVec.ofNat 32 (bits v 3 0 + 256 * bits v 12 8) ∧
      OnlyRegs [Reg.SHEET_RING_CFG] s t := by
  rw [exec_ringCfg h, if_neg hv]
  exact done_setReg (by decide) _ s

/-! ## Stream configuration (R201) -/

/-- What a write of the register under key `k` of stream x leaves: `c` says that it is CTX_CTL, `w` is the word with all its
fields written and `w1` the one with bit 0 only. -/
def intakeWritten (s : State) (x k : Nat) (c : Prop) [Decidable c] (w w1 : Word) : State :=
  if s.ctxEnabled x = false then s.setReg k w
  else if c then
    if (w ^^^ s.reg k) &&& 0xFFFFFFFE = 0 then s.setReg k w1 else (s.setReg k w1).refuseCfg
  else s.refuseCfg

section Intake
variable {m : Master} {o : BitVec 12} {d : RegDesc} {v : Word} {s : State}

theorem exec_intakeConfigWrite (h : s.admits m 0x200 = true) (ho : o ∈ [0x114, 0x118, 0x11C, 0x120])
    (hd : regDesc 0x200 o.toNat = some d) {x k : Nat} (hx : x = s.bankOf 0x200 o.toNat) (hk : k = bkey x 0x200 o.toNat) :
    exec (.intakeConfigWrite m o v) s =
      done (intakeWritten s x k (o.toNat = 0x114) (mergeBits (s.reg k) (fieldsMask d.fields) v) (mergeBits (s.reg k) 1 v)) := by
  have hlist : [0x114, 0x118, 0x11C, 0x120].contains o.toNat = true := by
    simp only [List.mem_cons, List.not_mem_nil, or_false] at ho
    rcases ho with rfl | rfl | rfl | rfl <;> rfl
  subst hx hk
  show execIntakeConfigWrite m o v s = _
  simp only [execIntakeConfigWrite, gate_admits s h, hlist, if_true, hd]
  rfl

/-- A refused configuration write counts and shows (R201). -/
theorem refuseCfg_shown (s : State) :
    s.refuseCfg.reg Reg.INTAKE_CFG_REFUSED = s.counted Reg.INTAKE_CFG_REFUSED ∧
    s.refuseCfg.reg (Reg.EVT_RAW 0x200) = s.reg (Reg.EVT_RAW 0x200) ||| 4 := by
  have hne : Reg.INTAKE_CFG_REFUSED ≠ Reg.EVT_RAW 0x200 := by decide
  refine ⟨?_, ?_⟩
  · rw [State.refuseCfg, reg_event_other _ hne, reg_tally_same]
    rfl
  · rw [State.refuseCfg, reg_event_same, reg_tally_other s hne.symm]

theorem onlyRegs_refuseCfg {ks : List Nat} {t : State} (h : OnlyRegs ks s t) (hk : Reg.INTAKE_CFG_REFUSED ∈ ks)
    (he : Reg.EVT_RAW 0x200 ∈ ks) : OnlyRegs ks s t.refuseCfg :=
  onlyRegs_event (onlyRegs_tally h hk) he 4

variable {x k : Nat} {c : Prop} [Decidable c] {w w1 : Word}

theorem intakeWritten_onlyRegs :
    OnlyRegs [k, Reg.INTAKE_CFG_REFUSED, Reg.EVT_RAW 0x200] s (intakeWritten s x k c w w1) := by
  have hset (u : Word) : OnlyRegs [k, Reg.INTAKE_CFG_REFUSED, Reg.EVT_RAW 0x200] s (s.setReg k u) :=
    onlyRegs_setReg (onlyRegs_refl _ s) List.mem_cons_self u
  unfold intakeWritten
  split
  · exact hset w
  · split
    · split
      · exact hset w1
      · exact onlyRegs_refuseCfg (hset w1) (by simp) (by simp)
    · exact onlyRegs_refuseCfg (onlyRegs_refl _ s) (by simp) (by simp)

/-- With ENABLE at 0 the register is written whole. -/
theorem intakeWritten_disabled (h : s.ctxEnabled x = false) : intakeWritten s x k c w w1 = s.setReg k w := if_pos h

/-- With ENABLE at 1 CTX_CTL takes bit 0, and a change of its other bits is refused. -/
theorem intakeWritten_ctxCtl (h : s.ctxEnabled x = true) (hc : c) (hk : k ≠ Reg.INTAKE_CFG_REFUSED) (hk' : k ≠ Reg.EVT_RAW 0x200) :
    (intakeWritten s x k c w w1).reg k = w1 ∧
    (intakeWritten s x k c w w1).reg Reg.INTAKE_CFG_REFUSED =
      if (w ^^^ s.reg k) &&& 0xFFFFFFFE = 0 then s.reg Reg.INTAKE_CFG_REFUSED else s.counted Reg.INTAKE_CFG_REFUSED := by
  have hother : (s.setReg k w1).reg Reg.INTAKE_CFG_REFUSED = s.reg Reg.INTAKE_CFG_REFUSED := reg_setReg_other s hk.symm w1
  simp only [intakeWritten, h, Bool.true_eq_false, if_false, hc, if_true]
  split
  · exact ⟨reg_setReg_same s k w1, hother⟩
  · refine ⟨?_, (refuseCfg_shown _).1.trans ?_⟩
    · rw [State.refuseCfg, reg_event_other _ hk', reg_tally_other _ hk, reg_setReg_same]
    · rw [State.counted, hother]
      rfl

/-- With ENABLE at 1 the ring's other registers are held. -/
theorem intakeWritten_held (h : s.ctxEnabled x = true) (hc : ¬ c) : intakeWritten s x k c w w1 = s.refuseCfg := by
  simp only [intakeWritten, h, Bool.true_eq_false, if_false, hc]

end Intake

/-! ## The proxy's registers (R223, R225) -/

/-- The proxy geometry that a write asks for: records and frames. -/
def proxyAsked (s : State) (fr : Bool) (v : Word) : Nat × Nat :=
  (if fr then bits (s.reg Reg.PROXY_RECORDS) 15 0 else bits v 15 0, if fr then bits v 19 0 else bits (s.reg Reg.PROXY_FRAMES) 19 0)

theorem exec_proxyGeometryWrite {m : Master} {fr : Bool} {v : Word} {s : State} (h : s.admits m 0x21D = true) :
    exec (.proxyGeometryWrite m fr v) s =
      done (if s.proxyFits (proxyAsked s fr v).1 (proxyAsked s fr v).2 then
        (if fr then s.setReg Reg.PROXY_FRAMES (BitVec.ofNat 32 (proxyAsked s fr v).2)
          else s.setReg Reg.PROXY_RECORDS (BitVec.ofNat 32 (proxyAsked s fr v).1))
        else s.tally Reg.PROXY_CFG_REFUSED) := by
  show execProxyGeometryWrite m fr v s = _
  rw [execProxyGeometryWrite, gate_admits s h]
  rfl

theorem exec_proxyGen {m : Master} {v : Word} {s : State} (h : s.admits m 0x21D = true) :
    exec (.proxyGen m v) s = done (s.setReg Reg.PROXY_GEN (BitVec.ofNat 32 (bits v 15 0))) := by
  show execProxyGen m v s = _
  rw [execProxyGen, gate_admits s h]

/-! ## Rate caps (R47) -/

/-- A cap and its RATE_CAP_IGNORED are different, and neither counts rises of the outputs. -/
theorem capRegs_distinct {r : Regulator} {cap fig p ign : Nat} (h : capRegs r = some (cap, fig, p, ign)) :
    cap ≠ ign ∧ cap ∉ riseTallies ∧ ign ∉ riseTallies := by
  cases r <;> simp only [capRegs, Option.some.injEq, Prod.mk.injEq, reduceCtorEq] at h <;> obtain ⟨rfl, -, -, rfl⟩ := h
  case stallDram st => exact ⟨header_ne (by decide), rkey_not_mem_riseTallies (by decide) (by decide) (by decide),
      rkey_not_mem_riseTallies (by decide) (by decide) (by decide)⟩
  case stallFabric st => exact ⟨header_ne (by decide), rkey_not_mem_riseTallies (by decide) (by decide) (by decide),
      rkey_not_mem_riseTallies (by decide) (by decide) (by decide)⟩
  all_goals decide

/-- The cap is written, and one above the bundle's figure is counted. -/
theorem rateCapWrite_taken {m : Master} {r : Regulator} {v : Word} {s : State} {cap fig p ign : Nat}
    (h : capRegs r = some (cap, fig, p, ign)) (hp : s.admits m p = true) :
    ∃ t, exec (.rateCapWrite m r v) s = .next t ∧ t.reg cap = v &&& 0xFFFF ∧
      t.reg ign = (if s.bankActive = true ∧ s.regN fig < bits v 15 0 then s.counted ign else s.reg ign) ∧
      t.eff = s.eff ∧ OnlyRegs [cap, ign] s t := by
  obtain ⟨hne, hcap, hign⟩ := capRegs_distinct h
  have hset : OnlyRegs [cap, ign] s (s.setReg cap (v &&& 0xFFFF)) :=
    onlyRegs_setReg (onlyRegs_refl _ s) List.mem_cons_self _
  have hold : (s.setReg cap (v &&& 0xFFFF)).reg ign = s.reg ign := reg_setReg_other s hne.symm _
  have hexec : exec (.rateCapWrite m r v) s =
      done (if s.bankActive = true ∧ s.regN fig < bits v 15 0 then (s.setReg cap (v &&& 0xFFFF)).tally ign
        else s.setReg cap (v &&& 0xFFFF)) := by
    show execRateCapWrite m r v s = _
    simp only [execRateCapWrite, h, gate_admits s hp]
  rw [hexec]
  split
  · refine ⟨_, rfl, ?_, ?_, rfl, onlyRegs_settle (onlyRegs_tally hset (by simp))⟩
    · rw [reg_settle hcap, reg_tally_other _ hne, reg_setReg_same]
    · rw [reg_settle hign, reg_tally_same, hold]
      rfl
  · exact ⟨_, rfl, by rw [reg_settle hcap, reg_setReg_same], by rw [reg_settle hign, hold], rfl, onlyRegs_settle hset⟩

/-- Settles O52: each write of the five families sets its register, or counts the ground on which it does not. -/
theorem configurationWritesWithRules : Obligations.ConfigurationWritesWithRules := by
  refine ⟨?_, ?_, ?_, ?_, ?_⟩
  · rintro m v s hadm n h rfl rfl
    by_cases hv : bits v 3 0 < 5 ∨ 10 < bits v 3 0 ∨ bits v 12 8 < 16 ∨ 24 < bits v 12 8
    · obtain ⟨t, ht, hcount, hregs, hbytes, hrest⟩ := ringCfg_refused hadm hv
      exact ⟨t, ht, hbytes, hrest, by omega, fun _ => ⟨hcount, hregs⟩⟩
    · obtain ⟨t, ht, hreg, hregs, hbytes, hrest⟩ := ringCfg_taken hadm hv
      exact ⟨t, ht, hbytes, hrest, fun _ _ _ _ => ⟨hreg, hregs⟩, fun hbad => absurd hbad hv⟩
  · intro m o d v s k x hadm ho hd hx hk
    have hoff : keyOff k = o.toNat := hk ▸ keyOff_bkey o.isLt
    have hlow : o.toNat < 0xE00 ∧ 0x100 ≤ o.toNat := by
      simp only [List.mem_cons, List.not_mem_nil, or_false] at ho
      rcases ho with rfl | rfl | rfl | rfl <;> decide
    have hrise : k ∉ riseTallies := not_mem_riseTallies (by omega) (by omega)
    have hrefused : Reg.INTAKE_CFG_REFUSED ∉ riseTallies := by decide
    have hk1 : k ≠ Reg.INTAKE_CFG_REFUSED := ne_of_keyOff (by rw [hoff]; show o.toNat ≠ 0xE10; omega)
    have hk2 : k ≠ Reg.EVT_RAW 0x200 := ne_of_keyOff (by rw [hoff]; show o.toNat ≠ 0x010; omega)
    obtain ⟨hregs, hbytes, hrest⟩ := onlyRegs_settle (intakeWritten_onlyRegs (s := s) (x := x) (k := k) (c := o.toNat = 0x114)
      (w := mergeBits (s.reg k) (fieldsMask d.fields) v) (w1 := mergeBits (s.reg k) 1 v))
    refine ⟨_, exec_intakeConfigWrite hadm ho hd hx hk, hbytes, hrest, fun hoff => ?_, fun hon ho => ?_, fun hon ho => ?_⟩
    · rw [intakeWritten_disabled hoff, reg_settle hrise]
      exact ⟨reg_setReg_same .., (onlyRegs_settle (onlyRegs_setReg (onlyRegs_refl _ s) List.mem_cons_self _)).1⟩
    · obtain ⟨hreg, hcount⟩ := intakeWritten_ctxCtl (w := mergeBits (s.reg k) (fieldsMask d.fields) v)
        (w1 := mergeBits (s.reg k) 1 v) hon (show o.toNat = 0x114 by rw [ho]; rfl) hk1 hk2
      exact ⟨(reg_settle hrise _).trans hreg, (reg_settle hrefused _).trans hcount, hregs⟩
    · have hc : ¬ o.toNat = 0x114 := fun h => ho (BitVec.eq_of_toNat_eq h)
      rw [intakeWritten_held hon hc, reg_settle hrefused, reg_settle (evtRaw_not_mem_riseTallies _)]
      obtain ⟨hcount, hevent⟩ := refuseCfg_shown s
      exact ⟨hcount, hevent, (onlyRegs_settle (onlyRegs_refuseCfg (onlyRegs_refl _ s) (by simp) (by simp))).1⟩
  · rintro m fr v s r f hadm rfl rfl
    have hexec := exec_proxyGeometryWrite (fr := fr) (v := v) hadm
    cases hfits : s.proxyFits (proxyAsked s fr v).1 (proxyAsked s fr v).2 with
    | false =>
      rw [hfits, if_neg Bool.false_ne_true] at hexec
      obtain ⟨t, ht, hcount, hregs, hbytes, hrest⟩ := done_tally (k := Reg.PROXY_CFG_REFUSED) (by decide) s
      refine ⟨t, hexec.trans ht, hbytes, hrest, fun h => ?_, fun h => ?_, fun _ => ⟨hcount, hregs⟩⟩
      · exact absurd (hfits.symm.trans h) Bool.false_ne_true
      · exact absurd (hfits.symm.trans h) Bool.false_ne_true
    | true =>
      rw [hfits, if_pos rfl] at hexec
      have hnot (h : s.proxyFits (proxyAsked s fr v).1 (proxyAsked s fr v).2 = false) : False :=
        Bool.false_ne_true (h.symm.trans hfits)
      cases fr with
      | true =>
        obtain ⟨t, ht, hreg, hregs, hbytes, hrest⟩ := done_setReg (k := Reg.PROXY_FRAMES) (by decide)
          (BitVec.ofNat 32 (proxyAsked s true v).2) s
        exact ⟨t, hexec.trans ht, hbytes, hrest, fun _ _ => ⟨hreg, hregs⟩, by simp, fun h => (hnot h).elim⟩
      | false =>
        obtain ⟨t, ht, hreg, hregs, hbytes, hrest⟩ := done_setReg (k := Reg.PROXY_RECORDS) (by decide)
          (BitVec.ofNat 32 (proxyAsked s false v).1) s
        exact ⟨t, hexec.trans ht, hbytes, hrest, by simp, fun _ _ => ⟨hreg, hregs⟩, fun h => (hnot h).elim⟩
  · intro m v s hadm
    rw [exec_proxyGen hadm]
    obtain ⟨t, ht, hreg, hregs, hbytes, hrest⟩ := done_setReg (k := Reg.PROXY_GEN) (by decide) (BitVec.ofNat 32 (bits v 15 0)) s
    exact ⟨t, ht, hreg, hregs, hbytes, hrest⟩
  · intro m r v s cap fig p ign hr hp
    obtain ⟨t, ht, hcap, hign, heff, hregs, hbytes, hrest⟩ := rateCapWrite_taken (v := v) hr hp
    exact ⟨t, ht, hcap, hign, heff, hregs, hbytes, hrest⟩

end Sys2Proof.Laws
end

section
/-!
SUPPORT. The bits of a register's fields: what a field reads after it, or another, has been written.
-/
namespace Sys2Proof.Laws
open Sys2Proof.Machine

theorem bit_eq_getLsbD (w : Word) (n : Nat) : bit w n = w.getLsbD n := BitVec.testBit_toNat w

theorem testBit_bits (w : Word) (hi lo i : Nat) : (bits w hi lo).testBit i = (decide (i < hi + 1 - lo) && w.getLsbD (i + lo)) := by
  rw [bits, Nat.testBit_mod_two_pow, Nat.testBit_div_two_pow, BitVec.testBit_toNat]

/-- Words that agree on a field's bits have the same field. -/
theorem bits_congr {w w' : Word} {hi lo : Nat} (h : ∀ i, lo ≤ i → i ≤ hi → w.getLsbD i = w'.getLsbD i) :
    bits w hi lo = bits w' hi lo := by
  refine Nat.eq_of_testBit_eq fun i => ?_
  rw [testBit_bits, testBit_bits]
  by_cases hi' : i < hi + 1 - lo
  · rw [h (i + lo) (by omega) (by omega)]
  · rw [decide_eq_false hi', Bool.false_and, Bool.false_and]

theorem getLsbD_fieldMask (hi lo i : Nat) : (fieldMask hi lo).getLsbD i = (decide (i < 32) && decide (lo ≤ i ∧ i ≤ hi)) := by
  rw [fieldMask, BitVec.getLsbD_ofNat, Nat.testBit_mul_two_pow, Nat.testBit_two_pow_sub_one, Bool.decide_and]
  congr 1
  by_cases hlo : lo ≤ i
  · simp only [hlo, decide_true, Bool.true_and, decide_eq_decide]
    omega
  · simp [hlo]

theorem getLsbD_mergeBits (old mask v : Word) (i : Nat) :
    (mergeBits old mask v).getLsbD i = if mask.getLsbD i then v.getLsbD i else old.getLsbD i := by
  simp only [mergeBits, BitVec.getLsbD_or, BitVec.getLsbD_and, BitVec.getLsbD_not]
  by_cases hi : i < 32
  · cases mask.getLsbD i <;> simp [hi]
  · simp [BitVec.getLsbD_of_ge _ i (Nat.le_of_not_lt hi)]

/-- A field that is written takes the value's bits. -/
theorem bits_mergeBits_same (old v : Word) {hi lo : Nat} (h : hi < 32) :
    bits (mergeBits old (fieldMask hi lo) v) hi lo = bits v hi lo := by
  refine bits_congr fun i hlo hhi => ?_
  have h32 : i < 32 := by omega
  rw [getLsbD_mergeBits, getLsbD_fieldMask, if_pos (by simp [h32, hlo, hhi])]

/-- A field apart from the written one stays. -/
theorem bits_mergeBits_other (old v : Word) {hi lo hi' lo' : Nat} (h : hi' < lo ∨ hi < lo') :
    bits (mergeBits old (fieldMask hi lo) v) hi' lo' = bits old hi' lo' := by
  refine bits_congr fun i hlo hhi => ?_
  have hout : ¬ (lo ≤ i ∧ i ≤ hi) := by omega
  rw [getLsbD_mergeBits, getLsbD_fieldMask, if_neg (by simp [hout])]

theorem bits_ofNat_shift {hi lo v : Nat} (h : hi < 32) (hv : v < 2 ^ (hi + 1 - lo)) : bits (BitVec.ofNat 32 (v * 2 ^ lo)) hi lo = v := by
  refine Nat.eq_of_testBit_eq fun i => ?_
  rw [testBit_bits, BitVec.getLsbD_ofNat, Nat.testBit_mul_two_pow]
  by_cases hi' : i < hi + 1 - lo
  · have h32 : i + lo < 32 := by omega
    simp [hi', h32]
  · rw [decide_eq_false hi', Bool.false_and]
    exact (Nat.testBit_lt_two_pow (lt_of_lt_of_le hv (Nat.pow_le_pow_right (by decide) (by omega)))).symm

/-- A register's field reads back what it has been set to. -/
theorem bits_setField_same (s : State) (k : Nat) {hi lo v : Nat} (h : hi < 32) (hv : v < 2 ^ (hi + 1 - lo)) :
    bits ((s.setField k hi lo v).reg k) hi lo = v := by
  rw [reg_setField_same, bits_mergeBits_same _ _ h, bits_ofNat_shift h hv]

/-- The other fields of the register stay. -/
theorem bits_setField_other (s : State) (k v : Nat) {hi lo hi' lo' : Nat} (h : hi' < lo ∨ hi < lo') :
    bits ((s.setField k hi lo v).reg k) hi' lo' = bits (s.reg k) hi' lo' := by
  rw [reg_setField_same, bits_mergeBits_other _ _ h]

end Sys2Proof.Laws
end

section
/-!
SUPPORT. The time domains (R25, R338 to R345): what following another domain leaves alone, the meaning of the commands of a domain's
page, and the settling of O18.
-/
namespace Sys2Proof.Laws
open Sys2Proof.Machine

/-! ## What the choice of the followed domain leaves alone -/

/-- Only registers of the time page and the terms of local time differ; the grandmasters stay. -/
structure TimeFrame (s t : State) : Prop where
  rest : { t with regs := s.regs, tsu := s.tsu } = s
  gmA : t.tsu.gmA = s.tsu.gmA
  gmB : t.tsu.gmB = s.tsu.gmB
  reg : ∀ k, keyPage k ≠ 0x500 → t.reg k = s.reg k

namespace TimeFrame
variable {s a : State}

theorem refl (s : State) : TimeFrame s s := ⟨rfl, rfl, rfl, fun _ _ => rfl⟩

theorem setReg (h : TimeFrame s a) {k : Nat} (hk : keyPage k = 0x500) (v : Word) : TimeFrame s (a.setReg k v) where
  rest := h.rest
  gmA := h.gmA
  gmB := h.gmB
  reg k' hk' := (reg_setReg_other a (by rintro rfl; exact hk' hk) v).trans (h.reg k' hk')

theorem setRate (h : TimeFrame s a) (f phi : Int) : TimeFrame s (a.setRate f phi) := by
  have h1 : TimeFrame s { a with tsu := { a.tsu with freq := f, phase := phi, inc := incOf (f + phi) } } :=
    ⟨h.rest, h.gmA, h.gmB, h.reg⟩
  exact (((h1.setReg (k := Reg.TIME_INC_FRAC) rfl _).setReg (k := Reg.TIME_INC_NS) rfl _).setReg
    (k := Reg.TIME_RATE) rfl _).setReg (k := Reg.TIME_FREQ) rfl _

theorem setResidual (h : TimeFrame s a) (x : Int) : TimeFrame s (a.setResidual x) := by
  have h1 : TimeFrame s { a with tsu := { a.tsu with residual := x } } := ⟨h.rest, h.gmA, h.gmB, h.reg⟩
  exact (h1.setReg (k := Reg.TIME_HAND_REM) rfl _).setReg (k := Reg.TIME_FOLLOW) rfl _

theorem follow (h : TimeFrame s a) (d : Nat) : TimeFrame s (a.follow d) := by
  have h1 := (h.setReg (k := Reg.TIME_HANDOVER) rfl (BitVec.ofNat 32 (min (a.regN Reg.TIME_HANDOVER + 1) 0xFFFFFFFF))).setReg
    (k := Reg.TIME_FOLLOW) rfl
  exact ((h1 _).setResidual _).setRate _ _

theorem holdover (h : TimeFrame s a) : TimeFrame s a.holdover := by
  have h1 := (h.setReg (k := Reg.TIME_HOLDOVER) rfl (BitVec.ofNat 32 (min (a.regN Reg.TIME_HOLDOVER + 1) 0xFFFFFFFF))).setReg
    (k := Reg.EVT_RAW 0x500) rfl
  exact (((h1 _).setReg (k := Reg.TIME_FOLLOW) rfl _).setResidual _).setRate _ _

theorem loseFollowed (h : TimeFrame s a) (d : Nat) : TimeFrame s (a.loseFollowed d) := by
  unfold State.loseFollowed
  split
  · have h1 := h.setReg (k := Reg.TIME_FAILOVER) rfl (BitVec.ofNat 32 (min (a.regN Reg.TIME_FAILOVER + 1) 0xFFFFFFFF))
    exact (h1.setReg (k := Reg.EVT_RAW 0x500) rfl _).follow _
  · exact h.holdover

theorem sameBytes {t : State} (h : TimeFrame s t) : SameBytes s t := by
  have hmem := congrArg State.mem h.rest
  have hdrams := congrArg State.drams h.rest
  exact sameBytes_of_mem_drams hmem hdrams

end TimeFrame

/-- A domain that loses its lock shows the code given; what follows for local time leaves the domain's page alone. -/
theorem setDomState_unlocked (s : State) (d : Nat) {code : Nat} (h : code ≠ 3) :
    TimeFrame (s.setField (Reg.DOMAIN_STATE d) 2 0 code) (s.setDomState d code) := by
  unfold State.setDomState
  dsimp only
  split
  · exact (TimeFrame.refl _).loseFollowed d
  · rw [if_neg fun hc => h hc.1]
    exact TimeFrame.refl _

/-! ## Grandmasters (R341) -/

/-- The clockIdentity at the previous GM_ID_HI write of domain d. -/
def gmOf (s : State) (d : Fin 2) : BitVec 64 := if d = 0 then s.tsu.gmA else s.tsu.gmB

/-- Domain d's GM_ID_HI has taken v, and its clockIdentity with it. -/
def gmWritten (s : State) (d : Fin 2) (v : Word) : State :=
  { s.setReg (Reg.DOMAIN_GM_ID_HI d.val) v with
    tsu := if d = 0 then { s.tsu with gmA := v ++ s.reg (Reg.DOMAIN_GM_ID_LO d.val) }
      else { s.tsu with gmB := v ++ s.reg (Reg.DOMAIN_GM_ID_LO d.val) } }

/-- A new grandmaster is counted and shown. -/
def gmCounted (s : State) (d : Fin 2) (v : Word) : State :=
  ((gmWritten s d v).tally (Reg.DOMAIN_GM_CHANGE d.val)).event (pageDomain d.val) 1

section Grandmaster
variable {m : Master} {d : Fin 2} {v : Word} {s : State}

theorem toNat_append_word (v w : Word) : (v ++ w : BitVec 64) = BitVec.ofNat 64 (v.toNat * 2 ^ 32 + w.toNat) := by
  refine BitVec.eq_of_toNat_eq ?_
  rw [BitVec.toNat_append, BitVec.toNat_ofNat, ← Nat.shiftLeft_add_eq_or_of_lt w.isLt, Nat.shiftLeft_eq, Nat.mod_eq_of_lt]
  have hv := v.isLt
  have hw := w.isLt
  omega

theorem exec_gmChange (h : s.admits m (pageDomain d.val) = true) :
    exec (.gmChange m d v) s =
      done (if v ++ s.reg (Reg.DOMAIN_GM_ID_LO d.val) = gmOf s d then gmWritten s d v
        else if (gmCounted s d v).domLocked d.val then (gmCounted s d v).setDomState d.val 2 else gmCounted s d v) := by
  have hlo : (s.setReg (Reg.DOMAIN_GM_ID_HI d.val) v).regN (Reg.DOMAIN_GM_ID_LO d.val) =
      (s.reg (Reg.DOMAIN_GM_ID_LO d.val)).toNat := congrArg BitVec.toNat (reg_setReg_other s (header_ne (by decide)) v)
  show execGmChange m d v s = _
  simp only [execGmChange, gate_admits s h, hlo, ← toNat_append_word]
  unfold gmCounted gmWritten gmOf
  fin_cases d <;> rfl

/-- The registers of a domain's page. -/
theorem domainReg_not_mem_riseTallies {o : Nat} (ho : o < 4096) (d : Fin 2) : rkey (0x501 + d.val) o ∉ riseTallies := by
  have hd := d.isLt
  have hk : keyPage (rkey (0x501 + d.val) o) = 0x501 + d.val := keyPage_rkey (by omega) ho
  exact not_mem_riseTallies_of_page (by omega) (by omega) (by omega)

theorem keyPage_domainReg {o : Nat} (ho : o < 4096) (d : Fin 2) : keyPage (rkey (0x501 + d.val) o) ≠ 0x500 := by
  have hd := d.isLt
  have hk : keyPage (rkey (0x501 + d.val) o) = 0x501 + d.val := keyPage_rkey (by omega) ho
  omega

theorem bit_or_one (w : Word) : bit (w ||| 1) 0 = true := by simp [bit]

theorem gmCounted_shown (s : State) (d : Fin 2) (v : Word) :
    (gmCounted s d v).reg (Reg.DOMAIN_GM_ID_HI d.val) = v ∧
    (gmCounted s d v).reg (Reg.DOMAIN_GM_CHANGE d.val) = s.counted (Reg.DOMAIN_GM_CHANGE d.val) ∧
    bit ((gmCounted s d v).reg (Reg.EVT_RAW (pageDomain d.val))) 0 = true ∧
    (gmCounted s d v).reg (Reg.DOMAIN_STATE d.val) = s.reg (Reg.DOMAIN_STATE d.val) ∧
    SameRegs [Reg.DOMAIN_GM_ID_HI d.val, Reg.DOMAIN_GM_CHANGE d.val, Reg.EVT_RAW (pageDomain d.val)] s (gmCounted s d v) := by
  have hreg (k : Nat) : (gmWritten s d v).reg k = (s.setReg (Reg.DOMAIN_GM_ID_HI d.val) v).reg k := rfl
  have hother {k : Nat} (h1 : k ≠ Reg.DOMAIN_GM_ID_HI d.val) (h2 : k ≠ Reg.DOMAIN_GM_CHANGE d.val)
      (h3 : k ≠ Reg.EVT_RAW (pageDomain d.val)) : (gmCounted s d v).reg k = s.reg k := by
    rw [gmCounted, reg_event_other _ h3, reg_tally_other _ h2, hreg, reg_setReg_other s h1]
  have hhi : Reg.DOMAIN_GM_ID_HI d.val ≠ Reg.EVT_RAW (pageDomain d.val) := header_ne (by decide)
  have hcount : Reg.DOMAIN_GM_CHANGE d.val ≠ Reg.EVT_RAW (pageDomain d.val) := header_ne (by decide)
  have hne : Reg.DOMAIN_GM_CHANGE d.val ≠ Reg.DOMAIN_GM_ID_HI d.val := header_ne (by decide)
  refine ⟨?_, ?_, ?_, hother (header_ne (by decide)) (header_ne (by decide)) (header_ne (by decide)), fun k hk _ => ?_⟩
  · rw [gmCounted, reg_event_other _ hhi, reg_tally_other _ hne.symm, hreg, reg_setReg_same]
  · rw [gmCounted, reg_event_other _ hcount, reg_tally_same, hreg, reg_setReg_other s hne]
    rfl
  · rw [gmCounted, reg_event_same]
    exact bit_or_one _
  · simp only [List.mem_cons, List.not_mem_nil, or_false, not_or] at hk
    obtain ⟨h1, h2, h3⟩ := hk
    exact hother h1 h2 h3

theorem gmOf_gmCounted (s : State) (d : Fin 2) (v : Word) : gmOf (gmCounted s d v) d = v ++ s.reg (Reg.DOMAIN_GM_ID_LO d.val) := by
  fin_cases d <;> rfl

theorem gmOf_setField (s : State) (k hi lo v : Nat) (d : Fin 2) : gmOf (s.setField k hi lo v) d = gmOf s d := rfl

theorem gmOf_settle (s : State) (d : Fin 2) : gmOf (settle s) d = gmOf s d := rfl

theorem TimeFrame.gmOf {s t : State} (h : TimeFrame s t) (d : Fin 2) : gmOf t d = gmOf s d := by
  simp only [Laws.gmOf, h.gmA, h.gmB]

/-- The same grandmaster again changes the register only. -/
theorem gmChange_same (h : s.admits m (pageDomain d.val) = true) (hid : v ++ s.reg (Reg.DOMAIN_GM_ID_LO d.val) = gmOf s d) :
    ∃ t, exec (.gmChange m d v) s = .next t ∧ t.reg (Reg.DOMAIN_GM_ID_HI d.val) = v ∧ SameBytes s t ∧
      SameRegs [Reg.DOMAIN_GM_ID_HI d.val] s t ∧ t.tsu = s.tsu := by
  have htsu : (gmWritten s d v).tsu = s.tsu := by
    simp only [gmWritten, hid, gmOf]
    split <;> rfl
  obtain ⟨hregs, -, -⟩ := onlyRegs_setReg (onlyRegs_refl [Reg.DOMAIN_GM_ID_HI d.val] s) List.mem_cons_self v
  rw [exec_gmChange h, if_pos hid]
  refine ⟨_, rfl, ?_, fun _ => rfl, sameRegs_settle hregs, htsu⟩
  exact (reg_settle (domainReg_not_mem_riseTallies (by decide) d) _).trans (reg_setReg_same s _ v)

/-- A new grandmaster counts, shows, and takes a LOCKED domain to ACQUIRING. -/
theorem gmChange_new (h : s.admits m (pageDomain d.val) = true) (hid : v ++ s.reg (Reg.DOMAIN_GM_ID_LO d.val) ≠ gmOf s d) :
    ∃ t, exec (.gmChange m d v) s = .next t ∧ t.reg (Reg.DOMAIN_GM_ID_HI d.val) = v ∧ SameBytes s t ∧
      gmOf t d = v ++ s.reg (Reg.DOMAIN_GM_ID_LO d.val) ∧
      t.reg (Reg.DOMAIN_GM_CHANGE d.val) = s.counted (Reg.DOMAIN_GM_CHANGE d.val) ∧
      bit (t.reg (Reg.EVT_RAW (pageDomain d.val))) 0 = true ∧
      (bits (s.reg (Reg.DOMAIN_STATE d.val)) 2 0 = 3 → bits (t.reg (Reg.DOMAIN_STATE d.val)) 2 0 = 2) ∧
      (bits (s.reg (Reg.DOMAIN_STATE d.val)) 2 0 ≠ 3 →
        SameRegs [Reg.DOMAIN_GM_ID_HI d.val, Reg.DOMAIN_GM_CHANGE d.val, Reg.EVT_RAW (pageDomain d.val)] s t) := by
  obtain ⟨hhi, hcount, hevent, hstate, hregs⟩ := gmCounted_shown s d v
  have hlocked : (gmCounted s d v).domLocked d.val = decide (bits (s.reg (Reg.DOMAIN_STATE d.val)) 2 0 = 3) := by
    simp only [State.domLocked, hstate, beq_eq_decide]
  have hrise {o : Nat} (ho : o < 4096) (u : State) : (settle u).reg (rkey (0x501 + d.val) o) = u.reg (rkey (0x501 + d.val) o) :=
    reg_settle (domainReg_not_mem_riseTallies ho d) u
  rw [exec_gmChange h, if_neg hid, hlocked]
  by_cases h3 : bits (s.reg (Reg.DOMAIN_STATE d.val)) 2 0 = 3
  · rw [if_pos (decide_eq_true h3)]
    have hframe := setDomState_unlocked (gmCounted s d v) d.val (code := 2) (by decide)
    have hkeep {o : Nat} (ho : o < 4096) (hne : o ≠ 0x118) : ((gmCounted s d v).setDomState d.val 2).reg (rkey (0x501 + d.val) o) =
        (gmCounted s d v).reg (rkey (0x501 + d.val) o) :=
      (hframe.reg _ (keyPage_domainReg ho d)).trans (reg_setField_other _ (header_ne hne) 2 0 2)
    have hgm := (gmOf_settle ((gmCounted s d v).setDomState d.val 2) d).trans ((hframe.gmOf d).trans
      ((gmOf_setField _ _ 2 0 2 d).trans (gmOf_gmCounted s d v)))
    refine ⟨_, rfl, ?_, hframe.sameBytes, hgm, ?_, ?_, fun _ => ?_, fun hno => absurd h3 hno⟩
    · exact ((hrise (by decide) _).trans (hkeep (by decide) (by decide))).trans hhi
    · exact ((hrise (by decide) _).trans (hkeep (by decide) (by decide))).trans hcount
    · refine Eq.trans (congrArg (bit · 0) ?_) hevent
      exact (hrise (o := 0x010) (by decide) _).trans (hkeep (by decide) (by decide))
    · refine Eq.trans (congrArg (bits · 2 0) ?_) (bits_setField_same (gmCounted s d v) (Reg.DOMAIN_STATE d.val) (by decide) (by decide))
      exact (hrise (by decide) _).trans (hframe.reg _ (keyPage_domainReg (by decide) d))
  · rw [decide_eq_false h3, if_neg Bool.false_ne_true]
    refine ⟨_, rfl, (hrise (by decide) _).trans hhi, fun _ => rfl, gmOf_gmCounted s d v, (hrise (by decide) _).trans hcount, ?_,
      fun he => absurd he h3, fun _ => sameRegs_settle hregs⟩
    exact (congrArg (bit · 0) (hrise (o := 0x010) (by decide) _)).trans hevent

end Grandmaster

/-! ## CFG and the BOUND guard (R25, R343) -/

section DomainCfg
variable {m : Master} {d : Fin 2} {v : Word} {s : State}

/-- The reserved bits of CFG hold neither ENABLE nor BOUND. -/
theorem corrOf_masked (v w : Word) : corrOf (v &&& 0x03FFFF7F) w = corrOf v w := by
  have hbit : bit (v &&& 0x03FFFF7F) 0 = bit v 0 := by simp [bit_eq_getLsbD]
  have hbits : bits (v &&& 0x03FFFF7F) 25 16 = bits v 25 16 := by
    refine bits_congr fun i hlo hhi => ?_
    have hmask : (0x03FFFF7F : Word).getLsbD i = true := by interval_cases i <;> rfl
    rw [BitVec.getLsbD_and, hmask, Bool.and_true]
  simp only [corrOf, hbit, hbits]

theorem exec_domainCfg (h : s.admits m (pageDomain d.val) = true) {new old : Nat}
    (hnew : new = corrOf v (s.reg (Reg.DOMAIN_CFG (1 - d.val))))
    (hold : old = corrOf (s.reg (Reg.DOMAIN_CFG d.val)) (s.reg (Reg.DOMAIN_CFG (1 - d.val)))) :
    exec (.domainCfg m d v) s =
      done (if s.locked (pageDomain d.val) 0 then s.drop (pageDomain d.val)
        else if old < new ∧ (s.bankGuardOk false new = false ∨ s.bankGuardOk true new = false) then s.tally Reg.TICK_GUARD_REFUSE
        else (s.setReg (Reg.DOMAIN_CFG d.val) (v &&& 0x03FFFF7F)).setReg Reg.TICK_CORR_S (BitVec.ofNat 32 new)) := by
  subst hnew hold
  show execDomainCfg m d v s = _
  simp only [execDomainCfg, gate_admits s h, corrOf_masked]

/-- A value that is not refused takes effect, with S beside it. -/
theorem done_domainCfg (d : Fin 2) (w : Word) (new : Nat) (s : State) :
    ∃ t, done ((s.setReg (Reg.DOMAIN_CFG d.val) w).setReg Reg.TICK_CORR_S (BitVec.ofNat 32 new)) = .next t ∧
      t.reg (Reg.DOMAIN_CFG d.val) = w ∧ t.reg Reg.TICK_CORR_S = BitVec.ofNat 32 new ∧
      OnlyRegs [Reg.DOMAIN_CFG d.val, Reg.TICK_CORR_S] s t := by
  have hne : Reg.DOMAIN_CFG d.val ≠ Reg.TICK_CORR_S := by
    simp only [Reg.DOMAIN_CFG, Reg.TICK_CORR_S, rkey]
    omega
  have hrise : Reg.DOMAIN_CFG d.val ∉ riseTallies := domainReg_not_mem_riseTallies (by decide) d
  have hrise' : Reg.TICK_CORR_S ∉ riseTallies := by decide
  refine ⟨_, rfl, ?_, ?_, onlyRegs_settle ?_⟩
  · rw [reg_settle hrise, reg_setReg_other _ hne, reg_setReg_same]
  · rw [reg_settle hrise', reg_setReg_same]
  · exact onlyRegs_setReg (onlyRegs_setReg (onlyRegs_refl _ s) (by simp) _) (by simp) _

end DomainCfg

/-! ## Transmit stamps (R338, R339) -/

section Stamps
variable {d : Fin 2} {s : State}

/-- The word of a stamp: its fields side by side. -/
theorem stampInfo_eq (f : Byte) (y : BitVec 4) (q : BitVec 16) :
    BitVec.ofNat 32 (2 ^ 31 + f.toNat * 2 ^ 20 + y.toNat * 2 ^ 16 + q.toNat) = (8#4 ++ f ++ y ++ q : BitVec 32) := by
  refine BitVec.eq_of_toNat_eq ?_
  have hf := f.isLt
  have hy := y.isLt
  have hq := q.isLt
  rw [BitVec.toNat_append, BitVec.toNat_append, BitVec.toNat_append, ← Nat.shiftLeft_add_eq_or_of_lt hf,
    ← Nat.shiftLeft_add_eq_or_of_lt hy, ← Nat.shiftLeft_add_eq_or_of_lt hq]
  simp only [BitVec.toNat_ofNat, Nat.shiftLeft_eq]
  omega

/-- The transmit stamp of domain d before the new one has been counted as lost, where it was not read. -/
def stampLost (s : State) (d : Fin 2) : State :=
  if bit (s.reg (Reg.DOMAIN_TX_STAMP_INFO d.val)) 31 then s.tally (Reg.DOMAIN_TX_STAMP_LOST d.val) else s

theorem stampLost_onlyRegs (s : State) (d : Fin 2) : OnlyRegs [Reg.DOMAIN_TX_STAMP_LOST d.val] s (stampLost s d) := by
  unfold stampLost
  split
  · exact onlyRegs_tally (onlyRegs_refl _ s) List.mem_cons_self
  · exact onlyRegs_refl _ s

theorem stampLost_counts (s : State) (d : Fin 2) : (stampLost s d).reg (Reg.DOMAIN_TX_STAMP_LOST d.val) =
    if bit (s.reg (Reg.DOMAIN_TX_STAMP_INFO d.val)) 31 then s.counted (Reg.DOMAIN_TX_STAMP_LOST d.val)
    else s.reg (Reg.DOMAIN_TX_STAMP_LOST d.val) := by
  unfold stampLost
  split
  · exact reg_tally_same s _
  · rfl

theorem exec_ptpEventTx (q : BitVec 16) (y : BitVec 4) (stamp : Word) (frac : Byte) :
    exec (.ptpEventTx d q y stamp frac) s =
      done (((stampLost s d).setReg (Reg.DOMAIN_TX_STAMP_NS d.val) (s.egressStamp (s.domainPort d.val) stamp frac).1).setReg
        (Reg.DOMAIN_TX_STAMP_INFO d.val) (8#4 ++ (s.egressStamp (s.domainPort d.val) stamp frac).2 ++ y ++ q : BitVec 32)) := by
  rw [← stampInfo_eq]
  rfl

/-- An event message leaves its stamp. -/
theorem ptpEventTx_stamped (q : BitVec 16) (y : BitVec 4) (stamp : Word) (frac : Byte) :
    ∃ t, exec (.ptpEventTx d q y stamp frac) s = .next t ∧
      t.reg (Reg.DOMAIN_TX_STAMP_NS d.val) = (s.egressStamp (s.domainPort d.val) stamp frac).1 ∧
      t.reg (Reg.DOMAIN_TX_STAMP_INFO d.val) =
        (8#4 ++ (s.egressStamp (s.domainPort d.val) stamp frac).2 ++ y ++ q : BitVec 32) ∧
      t.reg (Reg.DOMAIN_TX_STAMP_LOST d.val) = (if bit (s.reg (Reg.DOMAIN_TX_STAMP_INFO d.val)) 31 then
        s.counted (Reg.DOMAIN_TX_STAMP_LOST d.val) else s.reg (Reg.DOMAIN_TX_STAMP_LOST d.val)) ∧
      OnlyRegs [Reg.DOMAIN_TX_STAMP_NS d.val, Reg.DOMAIN_TX_STAMP_INFO d.val, Reg.DOMAIN_TX_STAMP_LOST d.val] s t := by
  have hrise {o : Nat} (ho : o < 4096) (u : State) : (settle u).reg (rkey (0x501 + d.val) o) = u.reg (rkey (0x501 + d.val) o) :=
    reg_settle (domainReg_not_mem_riseTallies ho d) u
  have hns : Reg.DOMAIN_TX_STAMP_NS d.val ≠ Reg.DOMAIN_TX_STAMP_INFO d.val := header_ne (by decide)
  have hlost : Reg.DOMAIN_TX_STAMP_LOST d.val ≠ Reg.DOMAIN_TX_STAMP_INFO d.val := header_ne (by decide)
  have hlost' : Reg.DOMAIN_TX_STAMP_LOST d.val ≠ Reg.DOMAIN_TX_STAMP_NS d.val := header_ne (by decide)
  rw [exec_ptpEventTx]
  refine ⟨_, rfl, (hrise (by decide) _).trans ?_, (hrise (by decide) _).trans (reg_setReg_same ..), (hrise (by decide) _).trans ?_,
    onlyRegs_settle ?_⟩
  · exact (reg_setReg_other _ hns _).trans (reg_setReg_same ..)
  · exact ((reg_setReg_other _ hlost _).trans (reg_setReg_other _ hlost' _)).trans (stampLost_counts s d)
  · exact onlyRegs_setReg (onlyRegs_setReg (onlyRegs_mono (stampLost_onlyRegs s d) (by simp)) (by simp) _) (by simp) _

/-- Clearing bit 31 alone. -/
theorem mergeBits_valid (w : Word) : mergeBits w (fieldMask 31 31) (BitVec.ofNat 32 (0 * 2 ^ 31)) = w &&& 0x7FFFFFFF := by
  have hmask : ~~~(fieldMask 31 31) = 0x7FFFFFFF := rfl
  have hzero : BitVec.ofNat 32 (0 * 2 ^ 31) &&& fieldMask 31 31 = 0#32 := rfl
  rw [mergeBits, hmask, hzero, BitVec.or_zero]

theorem exec_txStampRead {m : Master} (h : m = .host → s.hostReadBlocked = none) :
    exec (.txStampRead m d) s =
      done (if s.owner (pageDomain d.val) = masterCode m then
        (s.send (.readCompletion (s.reg (Reg.DOMAIN_TX_STAMP_INFO d.val)))).setField (Reg.DOMAIN_TX_STAMP_INFO d.val) 31 31 0
        else s.send (.readCompletion (s.reg (Reg.DOMAIN_TX_STAMP_INFO d.val)))) := by
  have hnone : (if m = .host then s.hostReadBlocked else none) = none := by
    split
    · next hm => exact h hm
    · rfl
  show execTxStampRead m d s = _
  simp only [execTxStampRead, State.readGate, hnone]

/-- What a command sends stands first among what leaves. -/
theorem egress_send_settle {s t : State} {e : Egress} (h : t.egress = s.egress ++ [e]) :
    ∃ r, (settle t).egress = s.egress ++ e :: r :=
  ⟨t.settleSends, by rw [show (settle t).egress = t.egress ++ t.settleSends from rfl, h, List.append_assoc]; rfl⟩

/-- A read of the stamp answers it; the owner's clears the valid bit. -/
theorem txStampRead_answered {m : Master} (h : m = .host → s.hostReadBlocked = none) :
    ∃ t, exec (.txStampRead m d) s = .next t ∧
      (∃ r, t.egress = s.egress ++ Egress.readCompletion (s.reg (Reg.DOMAIN_TX_STAMP_INFO d.val)) :: r) ∧
      t.reg (Reg.DOMAIN_TX_STAMP_INFO d.val) = (if s.owner (pageDomain d.val) = masterCode m then
        s.reg (Reg.DOMAIN_TX_STAMP_INFO d.val) &&& 0x7FFFFFFF else s.reg (Reg.DOMAIN_TX_STAMP_INFO d.val)) ∧
      OnlyRegs [Reg.DOMAIN_TX_STAMP_INFO d.val] s t := by
  have hrise : Reg.DOMAIN_TX_STAMP_INFO d.val ∉ riseTallies := domainReg_not_mem_riseTallies (by decide) d
  have hsent : OnlyRegs [Reg.DOMAIN_TX_STAMP_INFO d.val] s (s.send (.readCompletion (s.reg (Reg.DOMAIN_TX_STAMP_INFO d.val)))) :=
    ⟨fun _ _ _ => rfl, fun _ => rfl, rfl⟩
  rw [exec_txStampRead h]
  split
  · refine ⟨_, rfl, egress_send_settle rfl, ?_, onlyRegs_settle (onlyRegs_setReg hsent List.mem_cons_self _)⟩
    rw [reg_settle hrise, reg_setField_same, mergeBits_valid, send_reg]
  · exact ⟨_, rfl, egress_send_settle rfl, by rw [reg_settle hrise, send_reg], onlyRegs_settle hsent⟩

end Stamps

/-- Settles O18: the four commands of a domain's page, and the table of corrections row by row. -/
theorem grandmastersBoundsAndTransmitStamps : Obligations.GrandmastersBoundsAndTransmitStamps := by
  refine ⟨fun m d v s hadm => ?_, ?_, fun d q y stamp frac s => ?_, fun m d s hm => ?_, by decide⟩
  · by_cases hid : v ++ s.reg (Reg.DOMAIN_GM_ID_LO d.val) = gmOf s d
    · obtain ⟨t, ht, hreg, hbytes, hregs, htsu⟩ := gmChange_same hadm hid
      exact ⟨t, ht, hreg, hbytes, fun _ => ⟨hregs, htsu⟩, fun hne => absurd hid hne⟩
    · obtain ⟨t, ht, hreg, hbytes, hnew⟩ := gmChange_new hadm hid
      exact ⟨t, ht, hreg, hbytes, fun he => absurd he hid, fun _ => hnew⟩
  · intro m d v s hadm new old hnew hold
    have hexec := exec_domainCfg hadm hnew hold
    refine ⟨fun hl => ?_, fun hl hlt hbad => ?_, fun hl hok => ?_⟩
    · obtain ⟨t, ht, hcount, hregs, -, hrest⟩ := done_drop (pageDomain d.val) s
      rw [if_pos hl] at hexec
      exact ⟨t, hexec.trans ht, hcount, hregs, hrest⟩
    · obtain ⟨t, ht, hcount, hregs, hbytes, hrest⟩ := done_tally (k := Reg.TICK_GUARD_REFUSE) (by decide) s
      rw [hl, if_neg Bool.false_ne_true, if_pos ⟨hlt, Bool.exists_bool.mp hbad⟩] at hexec
      exact ⟨t, hexec.trans ht, hcount, hregs, hbytes, hrest⟩
    · obtain ⟨t, ht, hcfg, hcorr, hregs, hbytes, hrest⟩ := done_domainCfg d (v &&& 0x03FFFF7F) new s
      have hnot : ¬ (old < new ∧ (s.bankGuardOk false new = false ∨ s.bankGuardOk true new = false)) := by
        rintro ⟨hlt, hbad⟩
        rcases hok with hle | hall
        · exact absurd hlt (Nat.not_lt.mpr hle)
        · simp only [hall, Bool.true_eq_false, or_self] at hbad
      rw [hl, if_neg Bool.false_ne_true, if_neg hnot] at hexec
      exact ⟨t, hexec.trans ht, hcfg, hcorr, hregs, hbytes, hrest⟩
  · obtain ⟨t, ht, hns, hinfo, hlost, hregs, hbytes, hrest⟩ := ptpEventTx_stamped (d := d) (s := s) q y stamp frac
    exact ⟨t, ht, hns, hinfo, hlost, hregs, hbytes, hrest⟩
  · obtain ⟨t, ht, hsent, hinfo, hregs, hbytes, hrest⟩ := txStampRead_answered (d := d) hm
    exact ⟨t, ht, hsent, hinfo, hregs, hbytes, hrest⟩

end Sys2Proof.Laws
end

section
/-!
SUPPORT. Tick events (R21 to R27) and the requests for a switch or a halt (R34, R36, R347): what a firmware switch leaves alone,
how a tick begins, and the settling of O19 and O21.
-/
namespace Sys2Proof.Laws
open Sys2Proof.Machine

/-! ## Tick events -/

/-- Only registers of the security page, the firmware's state and the image memory differ. -/
structure FirmwareFrame (s t : State) : Prop where
  rest : { t with regs := s.regs, sec := s.sec, mem := s.mem, upsets := s.upsets } = s
  reg : ∀ k, keyPage k ≠ 0x006 → t.reg k = s.reg k

theorem FirmwareFrame.setReg {s a : State} (h : FirmwareFrame s a) {k : Nat} (hk : keyPage k = 0x006) (v : Word) :
    FirmwareFrame s (a.setReg k v) where
  rest := h.rest
  reg k' hk' := (reg_setReg_other a (by rintro rfl; exact hk' hk) v).trans (h.reg k' hk')

theorem firmwareSwitch_frame (s : State) : FirmwareFrame s s.firmwareSwitch := by
  unfold State.firmwareSwitch
  split
  · extract_lets old s1
    have h1 : FirmwareFrame s ({ s1 with sec := { s1.sec with updLatched := false } }.clearHalf old) := ⟨rfl, fun _ _ => rfl⟩
    exact (((h1.setReg (k := Reg.SECURITY_UPD_DONE) rfl _).setReg (k := Reg.SECURITY_CMD_STATE) rfl _).setReg
      (k := Reg.SECURITY_LC) rfl _).setReg (k := Reg.SECURITY_FW_INFO) rfl _
  · exact ⟨rfl, fun _ _ => rfl⟩

theorem firmwareSwitch_none {s : State} (h : s.sec.updLatched = false) : s.firmwareSwitch = s := by
  rw [State.firmwareSwitch, h, if_neg Bool.false_ne_true]

/-- The state in which a tick has begun, but for a firmware switch at its boundary. -/
def tickBegun (s : State) (number : Word) (late : BitVec 16) : State :=
  { (s.setReg Reg.TICK_SEQ number).setReg Reg.TICK_GRAIN 0 with
    ledger := { s.ledger with armed := false, ticking := true, grainTclk := 0, lateEclk := late, lateTick := none } }

theorem beginTick_eq (s : State) (number : Word) (late : BitVec 16) :
    s.beginTick number late = (tickBegun s number late).firmwareSwitch := rfl

theorem beginTick_regs (s : State) (number : Word) (late : BitVec 16) :
    (s.beginTick number late).reg Reg.TICK_SEQ = number ∧ (s.beginTick number late).reg Reg.TICK_GRAIN = 0 := by
  have hreg := (firmwareSwitch_frame (tickBegun s number late)).reg
  rw [beginTick_eq]
  refine ⟨(hreg _ (by decide)).trans ?_, (hreg _ (by decide)).trans ?_⟩
  · show ((s.setReg Reg.TICK_SEQ number).setReg Reg.TICK_GRAIN 0).reg Reg.TICK_SEQ = number
    rw [reg_setReg_other _ (by decide), reg_setReg_same]
  · show ((s.setReg Reg.TICK_SEQ number).setReg Reg.TICK_GRAIN 0).reg Reg.TICK_GRAIN = 0
    rw [reg_setReg_same]

theorem beginTick_tsu_ledger (s : State) (number : Word) (late : BitVec 16) :
    (s.beginTick number late).tsu = s.tsu ∧ (s.beginTick number late).ledger =
      { s.ledger with armed := false, ticking := true, grainTclk := 0, lateEclk := late, lateTick := none } := by
  have hrest := (firmwareSwitch_frame (tickBegun s number late)).rest
  have htsu := congrArg State.tsu hrest
  have hledger := congrArg State.ledger hrest
  exact ⟨htsu, hledger⟩

/-- Without a firmware switch a tick's begin sets its number and the grain, and moves no byte. -/
theorem beginTick_plain {s : State} (h : s.sec.updLatched = false) (number : Word) (late : BitVec 16) :
    SameRegs [Reg.TICK_SEQ, Reg.TICK_GRAIN] s (s.beginTick number late) ∧ SameBytes s (s.beginTick number late) := by
  have hkeep : (tickBegun s number late).sec.updLatched = false := h
  obtain ⟨hregs, -, -⟩ := onlyRegs_setReg (onlyRegs_setReg (onlyRegs_refl [Reg.TICK_SEQ, Reg.TICK_GRAIN] s)
    (k := Reg.TICK_SEQ) (by simp) number) (k := Reg.TICK_GRAIN) (by simp) 0
  rw [beginTick_eq, firmwareSwitch_none hkeep]
  exact ⟨hregs, fun _ => rfl⟩

/-- Every tick event raises the edge of source 245 (R326). -/
theorem pendingSrc_edge (s : State) : (settle (s.edge 5)).pendingSrc 245 = true := by
  show (s.icu.edges ||| BitVec.ofNat 8 (2 ^ 5)).getLsbD 5 = true
  rw [BitVec.getLsbD_or]
  exact Bool.or_true _

section TickEvent
variable {s : State} {d : BitVec 16}

theorem exec_tickEvent_idle (hfirst : s.ledger.firstNs = 0) (h : s.tsu.running = false ∨ s.periodNs = 0) :
    exec (.tickEvent d) s = done s := by
  show done (s.raiseTick d) = done s
  have hnot : ¬ (s.tsu.running = true ∧ s.periodNs ≠ 0) := by
    rintro ⟨hrun, hper⟩
    rcases h with h | h
    · exact Bool.false_ne_true (h.symm.trans hrun)
    · exact hper h
  rw [State.raiseTick, if_neg fun hc => hc.2 hfirst, if_neg hnot]

/-- With local time at or past the next tick value the event does not move local time. -/
theorem tickEvent_notAhead (hrun : s.tsu.running = true) (hper : s.periodNs ≠ 0)
    (hpast : (s.tsu.ns - s.tsu.nextTick).toNat < 2 ^ 31) :
    s.tickEvent d = if s.ledger.armed = true ∨ s.ledger.ticking = false then s.nextBoundary.beginTick s.ledger.nextSeq 0
      else { s.nextBoundary.tally Reg.TICK_LATE_START with ledger := { s.nextBoundary.ledger with lateTick := some d } } := by
  have hreach : (if (s.tsu.nextTick - s.tsu.ns).toNat < 2 ^ 31 then s.reachTime (s.fullNs + (s.tsu.nextTick - s.tsu.ns).toNat) else s)
      = s := by
    split
    · next hahead =>
      have hzero : (s.tsu.nextTick - s.tsu.ns).toNat = 0 := by bv_omega
      rw [hzero, State.reachTime, if_neg (by omega)]
    · rfl
  have hnot : ¬ (s.tsu.running = false ∨ s.periodNs = 0) := by simp [hrun, hper]
  simp only [State.tickEvent, if_neg hnot, hreach]

theorem exec_tickEvent (hfirst : s.ledger.firstNs = 0) (hrun : s.tsu.running = true) (hper : s.periodNs ≠ 0) :
    exec (.tickEvent d) s = done ((s.tickEvent d).edge 5) := by
  show done (s.raiseTick d) = _
  rw [State.raiseTick, if_neg fun hc => hc.2 hfirst, if_pos ⟨hrun, hper⟩]

/-- The first tick of a bank, and one that finds the device in Arm, begins at once. -/
theorem tickEvent_begins (hfirst : s.ledger.firstNs = 0) (hrun : s.tsu.running = true) (hper : s.periodNs ≠ 0)
    (hpast : (s.tsu.ns - s.tsu.nextTick).toNat < 2 ^ 31) (harm : s.ledger.armed = true ∨ s.ledger.ticking = false) :
    exec (.tickEvent d) s = done ((s.nextBoundary.beginTick s.ledger.nextSeq 0).edge 5) := by
  rw [exec_tickEvent hfirst hrun hper, tickEvent_notAhead hrun hper hpast, if_pos harm]

/-- One that comes before Arm is late. -/
theorem tickEvent_late (hfirst : s.ledger.firstNs = 0) (hrun : s.tsu.running = true) (hper : s.periodNs ≠ 0)
    (hpast : (s.tsu.ns - s.tsu.nextTick).toNat < 2 ^ 31) (harm : ¬ (s.ledger.armed = true ∨ s.ledger.ticking = false)) :
    exec (.tickEvent d) s =
      done (State.edge { s.nextBoundary.tally Reg.TICK_LATE_START with
        ledger := { s.nextBoundary.ledger with lateTick := some d } } 5) := by
  rw [exec_tickEvent hfirst hrun hper, tickEvent_notAhead hrun hper hpast, if_neg harm]

end TickEvent

/-- Settles O19: the event finds the clock idle, the device ready for the tick, or the tick still running. -/
theorem tickEventsBeginTicks : Obligations.TickEventsBeginTicks := by
  intro d s hfirst
  refine ⟨fun hidle => ⟨_, exec_tickEvent_idle hfirst hidle, rfl, rfl, ?_⟩, fun hrun hper hpast => ?_⟩
  · exact onlyRegs_settle (onlyRegs_refl [] s)
  by_cases harm : s.ledger.armed = true ∨ s.ledger.ticking = false
  · obtain ⟨htsu, hledger⟩ := beginTick_tsu_ledger s.nextBoundary s.ledger.nextSeq 0
    obtain ⟨hseq, hgrain⟩ := beginTick_regs s.nextBoundary s.ledger.nextSeq 0
    have hnot : s.ledger.armed = false → s.ledger.ticking = true → False := by
      intro h1 h2
      simp only [h1, h2, Bool.false_eq_true, Bool.true_eq_false, or_self] at harm
    have hns : (s.nextBoundary.beginTick s.ledger.nextSeq 0).tsu.ns = s.tsu.ns := by
      rw [htsu]
      rfl
    have hfrac : (s.nextBoundary.beginTick s.ledger.nextSeq 0).tsu.frac = s.tsu.frac := by
      rw [htsu]
      rfl
    refine ⟨_, tickEvent_begins hfirst hrun hper hpast harm, congrArg Tsu.nextTick htsu, hns, hfrac, pendingSrc_edge _, fun _ => ?_, fun h1 h2 => (hnot h1 h2).elim⟩
    refine ⟨(reg_settle (by decide) _).trans hseq, (reg_settle (by decide) _).trans hgrain, congrArg Ledger.ticking hledger,
      congrArg Ledger.armed hledger, congrArg Ledger.lateEclk hledger, congrArg Ledger.lateTick hledger,
      congrArg Ledger.nextSeq hledger, fun hupd => ?_⟩
    obtain ⟨hregs, hbytes⟩ := beginTick_plain (s := s.nextBoundary) hupd s.ledger.nextSeq 0
    exact ⟨sameRegs_settle hregs, hbytes⟩
  · have hcount : (s.nextBoundary.tally Reg.TICK_LATE_START).reg Reg.TICK_LATE_START = s.counted Reg.TICK_LATE_START :=
      reg_tally_same _ _
    obtain ⟨hregs, -, -⟩ := onlyRegs_tally (onlyRegs_refl [Reg.TICK_LATE_START] s) List.mem_cons_self
    have hbefore : s.ledger.ticking = true ∧ s.ledger.armed = false := by
      simp only [not_or, Bool.not_eq_true, Bool.not_eq_false] at harm
      exact harm.symm
    exact ⟨_, tickEvent_late hfirst hrun hper hpast harm, rfl, rfl, rfl, pendingSrc_edge _, fun h => absurd h harm, fun _ _ =>
      ⟨(reg_settle (by decide) _).trans hcount, rfl, hbefore.1, hbefore.2, sameRegs_settle hregs, fun _ => rfl⟩⟩

/-! ## Requests for a switch (R34, R36, R347) -/

/-- The words of a bank are bytes of the common store. -/
theorem bankWord_congr {s t : State} (h : SameBytes s t) (b : Bool) (off : Nat) : t.bankWord b off = s.bankWord b off := by
  have hstore (i : Nat) : (ptrAdd (ptrAdd (bankPtr b) off) i).store ≠ .dram := Store.noConfusion
  simp only [State.bankWord, State.word, State.peeks, State.peek, flat_onChip _ (hstore _)]
  simp only [funext h]

/-- The register has taken a request, and no boundary is waited for. -/
def requestTaken (s : State) (v : Word) : State :=
  { s.setReg Reg.LEDGER_SWITCH_REQ (v &&& 3) with ledger := { s.ledger with firstNs := 0 } }

section Request
variable {m : Master} {v : Word} {s : State}

theorem exec_switchReq (h : s.admits m 0x011 = true) :
    exec (.switchReq m v) s = done (if bit v 1 then (requestTaken s v).requestSwitch (bit v 0) else requestTaken s v) := by
  show execSwitchReq m v s = _
  rw [execSwitchReq, gate_admits s h]
  rfl

theorem requestTaken_reg {k : Nat} (hk : k ≠ Reg.LEDGER_SWITCH_REQ) : (requestTaken s v).reg k = s.reg k :=
  reg_setReg_other s hk _

theorem requestTaken_regs : SameRegs [Reg.LEDGER_SWITCH_REQ] s (requestTaken s v) :=
  fun _ hk _ => requestTaken_reg (by simpa using hk)

theorem reg_settle_requestTaken : (settle (requestTaken s v)).reg Reg.LEDGER_SWITCH_REQ = v &&& 3 :=
  (reg_settle (by decide) _).trans (reg_setReg_same s _ _)

theorem requestTaken_bankState (b : Bool) : (requestTaken s v).bankState b = s.bankState b := by
  simp only [State.bankState, requestTaken_reg (v := v) (s := s) (k := Reg.LEDGER_BANK_STATE) (by decide)]

theorem requestTaken_bankActive : (requestTaken s v).bankActive = s.bankActive := by
  simp only [State.bankActive, requestTaken_reg (v := v) (s := s) (k := Reg.LEDGER_ACTIVE) (by decide)]

theorem requestTaken_haltStage : (requestTaken s v).haltStage = s.haltStage := by
  simp only [State.haltStage, requestTaken_reg (v := v) (s := s) (k := Reg.LEDGER_ACTIVE) (by decide)]

theorem requestTaken_periodNs : (requestTaken s v).periodNs = s.periodNs := by
  simp only [State.periodNs, State.regN, requestTaken_reg (v := v) (s := s) (k := Reg.TICK_PERIOD_US) (by decide)]

theorem requestTaken_bankWord (b : Bool) (off : Nat) : (requestTaken s v).bankWord b off = s.bankWord b off :=
  bankWord_congr (fun _ => rfl) b off

theorem requestTaken_firstBoundary (p : Nat) (k : Word) : (requestTaken s v).firstBoundary p k = s.firstBoundary p k := by
  have hfull : (requestTaken s v).fullNs = s.fullNs := rfl
  have hphase : (requestTaken s v).regN Reg.TICK_PHASE_NS = s.regN Reg.TICK_PHASE_NS :=
    congrArg BitVec.toNat (requestTaken_reg (by decide))
  unfold State.firstBoundary
  rw [hphase, hfull]

/-- A request as it is judged, with what its write has left of the state. -/
theorem requestTaken_requestSwitch (b : Bool) : (requestTaken s v).requestSwitch b =
    if s.bankState b ≠ 2 then (requestTaken s v).missSwitch
    else if s.bankActive = false ∨ (s.haltStage = 2 ∧ bits (s.bankWord b 0x004) 17 0 * 1000 ≠ s.periodNs) then
      match s.firstBoundary (bits (s.bankWord b 0x004) 17 0 * 1000) (s.reg Reg.LEDGER_SWITCH_TICK) with
      | none => (requestTaken s v).missSwitch
      | some x =>
        { requestTaken s v with
          ledger := { (requestTaken s v).ledger with firstNs := x, nextSeq := s.reg Reg.LEDGER_SWITCH_TICK }
          tsu := { s.tsu with nextTick := BitVec.ofNat 32 x } }
    else if (s.reg Reg.LEDGER_SWITCH_TICK - s.reg Reg.TICK_SEQ).toNat = 0 ∨
        2 ^ 31 < (s.reg Reg.LEDGER_SWITCH_TICK - s.reg Reg.TICK_SEQ).toNat ∨
        ((s.reg Reg.LEDGER_SWITCH_TICK - s.reg Reg.TICK_SEQ).toNat = 1 ∧ s.ledger.armed = true) then (requestTaken s v).missSwitch
    else requestTaken s v := by
  have hledger : (requestTaken s v).ledger.armed = s.ledger.armed := rfl
  have htick : (requestTaken s v).reg Reg.LEDGER_SWITCH_TICK = s.reg Reg.LEDGER_SWITCH_TICK := requestTaken_reg (by decide)
  have hseq : (requestTaken s v).reg Reg.TICK_SEQ = s.reg Reg.TICK_SEQ := requestTaken_reg (by decide)
  simp only [State.requestSwitch, State.tick, requestTaken_bankState, requestTaken_bankActive, requestTaken_haltStage,
    requestTaken_periodNs, requestTaken_bankWord, requestTaken_firstBoundary, htick, hseq, hledger]
  rfl

/-- What a refused request leaves: the valid bit clear, a count and an event. -/
def SwitchRefusal (s t : State) : Prop :=
  bit (t.reg Reg.LEDGER_SWITCH_REQ) 1 = false ∧ bit (t.reg (Reg.EVT_RAW 0x011)) 0 = true ∧
  t.reg Reg.LEDGER_SWITCH_MISSED = s.counted Reg.LEDGER_SWITCH_MISSED ∧ t.ledger.firstNs = 0 ∧
  SameRegs [Reg.LEDGER_SWITCH_REQ, Reg.LEDGER_SWITCH_MISSED, Reg.EVT_RAW 0x011] s t ∧ SameBytes s t

theorem bit_setField_one (s : State) (k : Nat) : bit ((s.setField k 1 1 0).reg k) 1 = false := by
  rw [reg_setField_same, bit_eq_getLsbD, getLsbD_mergeBits, getLsbD_fieldMask, if_pos (by decide)]
  rfl

theorem missSwitch_refusal : SwitchRefusal s (settle (requestTaken s v).missSwitch) := by
  have hreg (k : Nat) : (requestTaken s v).missSwitch.reg k =
      ((((requestTaken s v).setField Reg.LEDGER_SWITCH_REQ 1 1 0).tally Reg.LEDGER_SWITCH_MISSED).event 0x011 1).reg k := rfl
  refine ⟨?_, ?_, ?_, rfl, sameRegs_settle fun k hk _ => ?_, fun _ => rfl⟩
  · rw [reg_settle (by decide), hreg, reg_event_other _ (by decide), reg_tally_other _ (by decide)]
    exact bit_setField_one _ _
  · rw [reg_settle (by decide), hreg, reg_event_same]
    exact bit_or_one _
  · rw [reg_settle (by decide), hreg, reg_event_other _ (by decide), reg_tally_same, reg_setField_other _ (by decide),
      requestTaken_reg (by decide)]
    rfl
  · simp only [List.mem_cons, List.not_mem_nil, or_false, not_or] at hk
    obtain ⟨h1, h2, h3⟩ := hk
    rw [hreg, reg_event_other _ h3, reg_tally_other _ h2, reg_setField_other _ h1, requestTaken_reg h1]

/-- A boundary that a first bank waits for is one of its period's, and at least 1 ms ahead. -/
theorem firstBoundary_some {p : Nat} {k : Word} {x : Nat} (h : s.firstBoundary p k = some x) :
    s.fullNs + 1000000 ≤ x ∧ ∃ j, x = s.regN Reg.TICK_PHASE_NS + j * p ∧ BitVec.ofNat 32 j = k := by
  unfold State.firstBoundary at h
  split at h
  · cases h
  · extract_lets ph c d t at h
    split at h
    · cases h
    · next hok =>
      obtain ⟨-, hfar⟩ := not_or.mp hok
      have hx : t = x := Option.some.inj h
      refine ⟨by omega, c + d, hx.symm, ?_⟩
      rw [BitVec.ofNat_add, BitVec.ofNat_toNat, BitVec.setWidth_eq]
      exact (BitVec.add_comm _ _).trans (BitVec.sub_add_cancel _ _)

end Request

/-! ## Halts (R36) -/

theorem entry_some {s : State} {i : Nat} {e : Entry} (h : s.entry i = some e) :
    s.bankActive = true ∧ s.haltStage ≠ 2 ∧ (s.haltStage = 1 → haltStops e = false) := by
  unfold State.entry at h
  split at h
  · next hrun =>
    dsimp only at h
    split at h
    · cases h
    · next hgo =>
      simp only [not_or, not_and, Bool.not_eq_true] at hgo
      obtain ⟨-, hhalted, hstage⟩ := hgo
      cases h
      exact ⟨hrun.1, hhalted, hstage⟩
  · cases h

theorem haltStops_eq_false {e : Entry} (h : haltStops e = false) :
    ¬ (0x10 ≤ e.unit ∧ e.unit ≤ 0x1D) ∧ e.unit ≠ 0x20 ∧ e.unit ≠ 0x21 ∧ ¬ (e.unit = 0x1F ∧ e.action = 9) := by
  simpa [haltStops, and_assoc] using h

/-- Settles O21: the grounds on which a request is refused, the boundary that a first one waits for, and what a halt stops. -/
theorem switchRequestsAndHalts : Obligations.SwitchRequestsAndHalts := by
  refine ⟨?_, fun s p k x => firstBoundary_some, fun m v s hadm => ?_, fun s i e he => ?_⟩
  · rintro m v s hadm b refuse rfl rfl
    have hrefuse {u : State} (h : exec (.switchReq m v) s = done u) (hu : u = (requestTaken s v).missSwitch) :
        ∃ t, exec (.switchReq m v) s = .next t ∧ SwitchRefusal s t := ⟨_, hu ▸ h, missSwitch_refusal⟩
    have hjudged (hvalid : bit v 1 = true) : exec (.switchReq m v) s = done ((requestTaken s v).requestSwitch (bit v 0)) := by
      rw [exec_switchReq hadm, if_pos hvalid]
    refine ⟨fun hno => ?_, fun hvalid hbank => ?_, fun hvalid hbank hact hper d hd => ⟨fun hbad => ?_, fun hok => ?_⟩,
      fun hvalid hbank hidle => ⟨fun hnone => ?_, fun x hx => ?_⟩⟩
    · refine ⟨_, ?_, reg_settle_requestTaken, rfl, sameRegs_settle requestTaken_regs, fun _ => rfl⟩
      rw [exec_switchReq hadm, hno, if_neg Bool.false_ne_true]
      rfl
    · exact hrefuse (hjudged hvalid) (by rw [requestTaken_requestSwitch, if_pos hbank])
    · have hnot : ¬ (s.bankActive = false ∨ (s.haltStage = 2 ∧ bits (s.bankWord (bit v 0) 0x004) 17 0 * 1000 ≠ s.periodNs)) := by
        simp only [hact, Bool.true_eq_false, false_or, not_and, not_not]
        exact hper
      subst hd
      refine hrefuse (hjudged hvalid) ?_
      rw [requestTaken_requestSwitch, if_neg (not_not.mpr hbank), if_neg hnot, if_pos hbad]
    · have hnot : ¬ (s.bankActive = false ∨ (s.haltStage = 2 ∧ bits (s.bankWord (bit v 0) 0x004) 17 0 * 1000 ≠ s.periodNs)) := by
        simp only [hact, Bool.true_eq_false, false_or, not_and, not_not]
        exact hper
      subst hd
      refine ⟨_, hjudged hvalid, ?_⟩
      rw [requestTaken_requestSwitch, if_neg (not_not.mpr hbank), if_neg hnot, if_neg]
      · exact ⟨reg_settle_requestTaken, sameRegs_settle requestTaken_regs, fun _ => rfl⟩
      · rintro (h0 | hfar | ⟨h1, harm⟩)
        · exact hok.1 h0
        · exact absurd hfar (Nat.not_lt.mpr hok.2.1)
        · exact hok.2.2.elim (fun h => h h1) fun h => Bool.false_ne_true (h.symm.trans harm)
    · refine hrefuse (hjudged hvalid) ?_
      rw [requestTaken_requestSwitch, if_neg (not_not.mpr hbank), if_pos hidle, hnone]
    · refine ⟨_, hjudged hvalid, ?_⟩
      rw [requestTaken_requestSwitch, if_neg (not_not.mpr hbank), if_pos hidle, hx]
      exact ⟨reg_settle_requestTaken (s := s) (v := v), rfl, rfl, sameRegs_settle requestTaken_regs, fun _ => rfl⟩
  · have hexec : exec (.halt m v) s = done (s.setReg Reg.LEDGER_HALT (v &&& 1)) := by
      show execHalt m v s = _
      rw [execHalt, gate_admits s hadm]
    obtain ⟨t, ht, hreg, hregs, hbytes, hrest⟩ := done_setReg (k := Reg.LEDGER_HALT) (by decide) (v &&& 1) s
    exact ⟨t, hexec.trans ht, hreg, hregs, hbytes, hrest⟩
  · obtain ⟨hact, hhalted, hstage⟩ := entry_some he
    exact ⟨hact, hhalted, fun h1 => haltStops_eq_false (hstage h1)⟩

end Sys2Proof.Laws
end

section
/-!
SUPPORT. PROGRAM slots (R40, R41, R85, R97): what the start of a slot sets in each cluster of the stall, what its end leaves, and
the settling of O22.
-/
namespace Sys2Proof.Laws
open Sys2Proof.Machine

/-! ## Keys and folds -/

/-- The registers of a stall's page. -/
theorem stallReg_not_mem_riseTallies {st o : Nat} (hst : st < 8) (ho : o < 4096) : rkey (0x018 + st) o ∉ riseTallies := by
  have hk : keyPage (rkey (0x018 + st) o) = 0x018 + st := keyPage_rkey (by omega) ho
  exact not_mem_riseTallies_of_page (by omega) (by omega) (by omega)

/-- A stall's page is no cluster's. -/
theorem stallReg_ne_clusterReg {st c o o' : Nat} (hst : st < 8) (ho : o < 4096) : rkey (0x018 + st) o ≠ rkey (0x100 + 16 * c) o' := by
  unfold rkey
  omega

theorem seqState_inj {c c' : Nat} (h : Reg.CLUSTER_SEQ_STATE c = Reg.CLUSTER_SEQ_STATE c') : c = c' := by
  simp only [Reg.CLUSTER_SEQ_STATE, rkey] at h
  omega

theorem seqState_not_mem_riseTallies (c : Nat) : Reg.CLUSTER_SEQ_STATE c ∉ riseTallies :=
  rkey_not_mem_riseTallies (by decide) (by decide) (by decide)

theorem mem_stallClusters_lt {s : State} {st c : Nat} (h : c ∈ s.stallClusters st) : c < 8 :=
  List.mem_range.mp (List.mem_filter.mp h).1

/-- What each step sets for its own index, and every step keeps, a fold sets for every index of the list. -/
theorem foldl_establishes {σ ι : Type} {Φ : ι → σ → Prop} {f : σ → ι → σ} (hset : ∀ a x, Φ x (f a x))
    (hkeep : ∀ a x y, Φ y a → Φ y (f a x)) {l : List ι} {x : ι} (hx : x ∈ l) (s : σ) : Φ x (l.foldl f s) := by
  induction l generalizing s with
  | nil => cases hx
  | cons y r ih =>
    rcases List.mem_cons.mp hx with rfl | hx
    · exact foldl_keeps (P := Φ x) (fun a y ha => hkeep a y x ha) r (hset s x)
    · exact ih hx (f s y)

/-! ## Blocked jobs (R35, R40) -/

theorem blocked_iff (s : State) (e : Entry) : s.blocked e = true ↔ (s.ledger.coldTick = true ∨
    bit (s.reg (Reg.STALL_JOB_FAULTED e.unit)) e.job = true ∨ bit (s.effReg (Reg.STALL_JOB_SUSPEND e.unit)) e.job = true ∨
    ¬ (bit (s.reg (Reg.STALL_RESIDENT e.unit)) 31 = true ∧ bits (s.reg (Reg.STALL_RESIDENT e.unit)) 15 0 = e.model)) := by
  simp only [State.blocked, State.isResident, Bool.or_eq_true, Bool.not_eq_true', Bool.and_eq_false_iff, beq_eq_false_iff_ne, or_assoc,
    not_and_or, Bool.not_eq_true]

/-! ## The start of a slot -/

/-- What the commands of a slot read besides the engines does not differ. -/
structure EnginesOnly (s t : State) : Prop where
  regs : t.regs = s.regs
  mem : t.mem = s.mem
  drams : t.drams = s.drams
  acc : t.acc = s.acc
  stalls : t.stalls = s.stalls
  clusters : t.clusters = s.clusters

/-- The bytes of the stores and the stalls do not differ. -/
structure ClusterWork (s t : State) : Prop where
  mem : t.mem = s.mem
  drams : t.drams = s.drams
  stalls : t.stalls = s.stalls

namespace EnginesOnly
variable {s a : State}

theorem refl (s : State) : EnginesOnly s s := ⟨rfl, rfl, rfl, rfl, rfl, rfl⟩

theorem setEngine (h : EnginesOnly s a) (e : Nat) (v : Engine) : EnginesOnly s (a.setEngine e v) :=
  ⟨h.regs, h.mem, h.drams, h.acc, h.stalls, h.clusters⟩

theorem reg (h : EnginesOnly s a) (k : Nat) : a.reg k = s.reg k := by rw [State.reg, State.reg, h.regs]

theorem cluster (h : EnginesOnly s a) (c : Nat) : a.cluster c = s.cluster c := by rw [State.cluster, State.cluster, h.clusters]

theorem stall (h : EnginesOnly s a) (n : Nat) : a.stall n = s.stall n := by rw [State.stall, State.stall, h.stalls]

end EnginesOnly

/-- Cluster c is ready to run the job: no instruction has started, SEQ_STATE shows the job, no accumulator of it is live. -/
def SlotReady (job c : Nat) (t : State) : Prop :=
  (t.cluster c).started = 0 ∧ t.reg (Reg.CLUSTER_SEQ_STATE c) = BitVec.ofNat 32 (1 + 256 * job) ∧
    ∀ a ∈ t.acc, a.1 / (8 * 2048 * 32) ≠ c

section SlotStart
variable {s : State}

/-- A cluster at the start of a slot: engines apart, its accumulators are cleared, its record new, and SEQ_STATE shows the job. -/
theorem slotCluster_eq (a : State) (st job i c : Nat) (h : List Byte) : ∃ (b : State) (cl : Cluster),
    EnginesOnly (a.clearAcc c) b ∧ cl.started = 0 ∧
    a.slotCluster st job i c h = (b.setCluster c cl).setReg (Reg.CLUSTER_SEQ_STATE c) (BitVec.ofNat 32 (1 + 256 * job)) := by
  refine ⟨_, _, ?_, rfl, rfl⟩
  exact foldl_keeps (P := EnginesOnly (a.clearAcc c)) (fun b e hb => hb.setEngine e _) _ (EnginesOnly.refl _)

theorem slotCluster_work (a : State) (st job i c : Nat) (h : List Byte) : ClusterWork a (a.slotCluster st job i c h) := by
  obtain ⟨b, cl, hb, -, heq⟩ := slotCluster_eq a st job i c h
  rw [heq]
  exact ⟨hb.mem, hb.drams, hb.stalls⟩

theorem slotCluster_reg (a : State) (st job i c : Nat) (h : List Byte) (k : Nat) :
    (a.slotCluster st job i c h).reg k = if k = Reg.CLUSTER_SEQ_STATE c then BitVec.ofNat 32 (1 + 256 * job) else a.reg k := by
  obtain ⟨b, cl, hb, -, heq⟩ := slotCluster_eq a st job i c h
  rw [heq, reg_setReg, setCluster_reg, hb.reg, clearAcc_reg]

theorem slotCluster_acc (a : State) (st job i c : Nat) (h : List Byte) :
    (a.slotCluster st job i c h).acc = a.acc.filter (fun e => decide (e.1 / (8 * 2048 * 32) ≠ c)) := by
  obtain ⟨b, cl, hb, -, heq⟩ := slotCluster_eq a st job i c h
  rw [heq, setReg_acc, setCluster_acc, hb.acc]
  rfl

theorem slotCluster_cluster_other (a : State) (st job i c : Nat) (h : List Byte) {c' : Nat} (hne : c' ≠ c) :
    (a.slotCluster st job i c h).cluster c' = a.cluster c' := by
  obtain ⟨b, cl, hb, -, heq⟩ := slotCluster_eq a st job i c h
  rw [heq]
  exact (cluster_setCluster_other b hne cl).trans (hb.cluster c')

theorem slotCluster_ready (a : State) (st job i c : Nat) (h : List Byte) : SlotReady job c (a.slotCluster st job i c h) := by
  refine ⟨?_, ?_, fun e he => ?_⟩
  · obtain ⟨b, cl, -, hcl, heq⟩ := slotCluster_eq a st job i c h
    rw [heq]
    exact (congrArg Cluster.started (cluster_setCluster_same b c cl)).trans hcl
  · rw [slotCluster_reg, if_pos rfl]
  · rw [slotCluster_acc] at he
    exact of_decide_eq_true (List.mem_filter.mp he).2

theorem slotCluster_keeps_ready (a : State) (st job i c : Nat) (h : List Byte) {c' : Nat} (hready : SlotReady job c' a) :
    SlotReady job c' (a.slotCluster st job i c h) := by
  by_cases hc : c' = c
  · subst hc
    exact slotCluster_ready a st job i c' h
  · obtain ⟨hstarted, hseq, hacc⟩ := hready
    refine ⟨?_, ?_, fun e he => ?_⟩
    · rw [slotCluster_cluster_other a st job i c h hc, hstarted]
    · rw [slotCluster_reg, if_neg fun he => hc (seqState_inj he), hseq]
    · rw [slotCluster_acc] at he
      exact hacc e (List.mem_filter.mp he).1

/-- The clusters of a stall at the start of a slot. -/
def slotClusters (s : State) (e : Entry) (h : List Byte) : State :=
  (s.stallClusters e.unit).zipIdx.foldl (fun (a : State) c => a.slotCluster e.unit e.job c.2 c.1 h) s

theorem slotClusters_work (e : Entry) (h : List Byte) : ClusterWork s (slotClusters s e h) := by
  refine foldl_keeps (P := ClusterWork s) (fun a c ha => ?_) _ ⟨rfl, rfl, rfl⟩
  have hstep := slotCluster_work a e.unit e.job c.2 c.1 h
  exact ⟨hstep.mem.trans ha.mem, hstep.drams.trans ha.drams, hstep.stalls.trans ha.stalls⟩

theorem slotClusters_ready {e : Entry} (h : List Byte) {c : Nat} (hc : c ∈ s.stallClusters e.unit) :
    SlotReady e.job c (slotClusters s e h) := by
  obtain ⟨x, hx, rfl⟩ : ∃ x ∈ (s.stallClusters e.unit).zipIdx, x.1 = c := by
    rw [← List.zipIdx_map_fst 0 (s.stallClusters e.unit)] at hc
    exact List.mem_map.mp hc
  exact foldl_establishes (Φ := fun (x : Nat × Nat) (a : State) => SlotReady e.job x.1 a)
    (fun a x => slotCluster_ready a e.unit e.job x.2 x.1 h)
    (fun a x _ hready => slotCluster_keeps_ready a e.unit e.job x.2 x.1 h hready) hx s

theorem slotClusters_reg (e : Entry) (h : List Byte) {k : Nat} (hk : k ∉ (s.stallClusters e.unit).map Reg.CLUSTER_SEQ_STATE) :
    (slotClusters s e h).reg k = s.reg k := by
  unfold slotClusters
  have hsub : ∀ x ∈ (s.stallClusters e.unit).zipIdx, k ≠ Reg.CLUSTER_SEQ_STATE x.1 := by
    rintro x hx rfl
    refine hk (List.mem_map_of_mem ?_)
    rw [← List.zipIdx_map_fst 0 (s.stallClusters e.unit)]
    exact List.mem_map_of_mem hx
  generalize (s.stallClusters e.unit).zipIdx = l at hsub
  generalize s = a
  induction l generalizing a with
  | nil => rfl
  | cons x r ih =>
    rw [List.foldl_cons, ih fun y hy => hsub y (List.mem_cons_of_mem x hy), slotCluster_reg, if_neg (hsub x List.mem_cons_self)]

/-- What the start of a slot leaves: its clusters, its slot, the count of gaps, and the streams with one. -/
theorem startSlot_eq (s : State) (i : Nat) (e : Entry) (h : List Byte) : ∃ (n : Nat) (l : Ledger),
    s.startSlot i e h = { ((slotClusters s e h).setStall e.unit
      { (slotClusters s e h).stall e.unit with slot := some ⟨i, e.job, e.model⟩ }).count (Reg.STALL_INTAKE_GAP e.unit) n with
        ledger := l } := ⟨_, _, rfl⟩

/-- What stands of the stall's slot, its clusters, the registers and the bytes when a slot has started. -/
theorem startSlot_runs (i : Nat) {e : Entry} (hunit : e.unit < 8) (h : List Byte) :
    ((s.startSlot i e h).stall e.unit).slot = some ⟨i, e.job, e.model⟩ ∧
    (∀ c ∈ s.stallClusters e.unit, SlotReady e.job c (s.startSlot i e h)) ∧
    SameRegs (Reg.STALL_INTAKE_GAP e.unit :: (s.stallClusters e.unit).map Reg.CLUSTER_SEQ_STATE) s (s.startSlot i e h) ∧
    SameBytes s (s.startSlot i e h) := by
  obtain ⟨n, l, heq⟩ := startSlot_eq s i e h
  have hready {c : Nat} (hc : c ∈ s.stallClusters e.unit) := slotClusters_ready h hc
  have hreg {k : Nat} (hk : k ∉ (s.stallClusters e.unit).map Reg.CLUSTER_SEQ_STATE) := slotClusters_reg e h hk
  have hwork := slotClusters_work (s := s) e h
  have hseq (c : Nat) : Reg.CLUSTER_SEQ_STATE c ≠ Reg.STALL_INTAKE_GAP e.unit := (stallReg_ne_clusterReg hunit (by decide)).symm
  rw [heq]
  generalize slotClusters s e h = u at hready hreg hwork
  have hslot := stall_setStall_same u e.unit { u.stall e.unit with slot := some ⟨i, e.job, e.model⟩ }
  refine ⟨congrArg Stall.slot hslot, fun c hc => ?_, fun k hk _ => ?_, ?_⟩
  · obtain ⟨hstarted, hshown, hacc⟩ := hready hc
    exact ⟨hstarted, (reg_count_other (State.setStall u e.unit _) (hseq c) n).trans hshown, hacc⟩
  · rw [List.mem_cons, not_or] at hk
    exact (reg_count_other (State.setStall u e.unit _) hk.1 n).trans (hreg hk.2)
  · exact sameBytes_of_mem_drams hwork.mem hwork.drams

/-- The entry x, number n, runs in the stall e.unit, and the register k may have counted. -/
def SlotRuns (s : State) (st k n : Nat) (x : Entry) (t : State) : Prop :=
  (t.stall st).slot = some ⟨n, x.job, x.model⟩ ∧
  (∀ c ∈ s.stallClusters st, (t.cluster c).started = 0 ∧ t.reg (Reg.CLUSTER_SEQ_STATE c) = BitVec.ofNat 32 (1 + 256 * x.job) ∧
    ∀ a ∈ t.acc, a.1 / (8 * 2048 * 32) ≠ c) ∧
  SameRegs (k :: Reg.STALL_INTAKE_GAP x.unit :: (s.stallClusters x.unit).map Reg.CLUSTER_SEQ_STATE) s t ∧ SameBytes s t

theorem SlotReady.settle {job c : Nat} {t : State} (h : SlotReady job c t) : SlotReady job c (settle t) := by
  obtain ⟨hstarted, hseq, hacc⟩ := h
  exact ⟨hstarted, (reg_settle (seqState_not_mem_riseTallies c) t).trans hseq, hacc⟩

theorem SlotReady.tally {job c k : Nat} {t : State} (hk : Reg.CLUSTER_SEQ_STATE c ≠ k) (h : SlotReady job c t) :
    SlotReady job c (t.tally k) := by
  obtain ⟨hstarted, hseq, hacc⟩ := h
  exact ⟨hstarted, (reg_tally_other t hk).trans hseq, hacc⟩

theorem startSlot_slotRuns (i : Nat) {e : Entry} (hunit : e.unit < 8) (h : List Byte) :
    SlotRuns s e.unit (Reg.STALL_INTAKE_GAP e.unit) i e (settle (s.startSlot i e h)) := by
  obtain ⟨hslot, hready, hregs, hbytes⟩ := startSlot_runs (s := s) i hunit h
  exact ⟨hslot, fun c hc => (hready c hc).settle, sameRegs_settle fun k hk => hregs k fun hm => hk (List.mem_cons_of_mem _ hm), hbytes⟩

theorem startSlot_tally_slotRuns (i : Nat) {e : Entry} (hunit : e.unit < 8) (h : List Byte) :
    SlotRuns s e.unit (Reg.STALL_ALT_RUN e.unit) i e (settle ((s.startSlot i e h).tally (Reg.STALL_ALT_RUN e.unit))) ∧
    (settle ((s.startSlot i e h).tally (Reg.STALL_ALT_RUN e.unit))).reg (Reg.STALL_ALT_RUN e.unit) =
      s.counted (Reg.STALL_ALT_RUN e.unit) := by
  obtain ⟨hslot, hready, hregs, hbytes⟩ := startSlot_runs (s := s) i hunit h
  have hrise : Reg.STALL_ALT_RUN e.unit ∉ riseTallies := stallReg_not_mem_riseTallies hunit (by decide)
  have hseq (c : Nat) : Reg.CLUSTER_SEQ_STATE c ≠ Reg.STALL_ALT_RUN e.unit := (stallReg_ne_clusterReg hunit (by decide)).symm
  have hgap : Reg.STALL_ALT_RUN e.unit ≠ Reg.STALL_INTAKE_GAP e.unit := header_ne (by decide)
  have hold : (s.startSlot i e h).reg (Reg.STALL_ALT_RUN e.unit) = s.reg (Reg.STALL_ALT_RUN e.unit) := by
    refine hregs _ (fun hm => ?_) hrise
    rcases List.mem_cons.mp hm with hm | hm
    · exact hgap hm
    · obtain ⟨c, -, hc⟩ := List.mem_map.mp hm
      exact hseq c hc
  generalize s.startSlot i e h = u at hslot hready hregs hbytes hold
  refine ⟨⟨hslot, fun c hc => ((hready c hc).tally (hseq c)).settle, sameRegs_settle fun k hk hr => ?_, hbytes⟩, ?_⟩
  · rw [List.mem_cons, not_or] at hk
    exact (reg_tally_other _ hk.1).trans (hregs k hk.2 hr)
  · rw [reg_settle hrise, reg_tally_same, hold]
    rfl

theorem entryFor_some {i lo hi action : Nat} {e : Entry} (h : s.entryFor i lo hi action = some e) :
    s.entry i = some e ∧ lo ≤ e.unit ∧ e.unit ≤ hi ∧ e.action = action := by
  unfold State.entryFor at h
  split at h
  · next e' he =>
    obtain ⟨hc, heq⟩ := Option.ite_none_right_eq_some.mp h
    cases heq
    exact ⟨he, hc⟩
  · cases h

theorem exec_programSlotStart {i : EntryIx} {e : Entry} (he : s.entryFor i.val 0 7 1 = some e)
    (hworks : bits (s.reg (Reg.STALL_STATE e.unit)) 1 0 = 1) (hfree : (s.stall e.unit).slot = none) :
    exec (.programSlotStart i) s = done (s.programStart i.val e) := by
  have hc : ¬ (bits (s.reg (Reg.STALL_STATE e.unit)) 1 0 ≠ 1 ∨ (s.stall e.unit).slot.isSome = true) := by simp [hworks, hfree]
  show execProgramSlotStart i s = _
  simp only [execProgramSlotStart, he]
  rw [if_neg hc]

/-- A job that is not blocked runs. -/
theorem programStart_runs {i : Nat} {e : Entry} {h : List Byte} (hb : s.blocked e = false) (hh : s.jobHeader i e = some h) :
    s.programStart i e = s.startSlot i e h := by
  simp only [State.programStart, hb, hh, Bool.false_eq_true, if_false]

/-- A blocked job runs its alternate. -/
theorem programStart_alternate {i j : Nat} {e a : Entry} {h : List Byte} (hb : s.blocked e = true)
    (ha : s.altEntry e = some (j, a)) (hh : s.jobHeader j a = some h) :
    s.programStart i e = (s.startSlot j a h).tally (Reg.STALL_ALT_RUN e.unit) := by
  simp only [State.programStart, hb, ha, hh, if_true]

/-- A blocked job without an alternate idles. -/
theorem programStart_idle {i : Nat} {e : Entry} (hb : s.blocked e = true) (ha : s.altEntry e = none) :
    s.programStart i e = s.tally (Reg.STALL_IDLE_SLOT e.unit) := by
  simp only [State.programStart, hb, ha, if_true]

end SlotStart

/-! ## The end of a slot -/

/-- Nothing but the engines differs, and an engine that has no work left still has none. -/
structure EnginesIdle (s t : State) : Prop extends EnginesOnly s t where
  idle : ∀ e, (s.engine e).work = [] → (t.engine e).work = []

/-- The registers, the stalls and the bytes do not differ; the engines' own stores may. -/
structure EngineStores (s t : State) : Prop where
  regs : t.regs = s.regs
  stalls : t.stalls = s.stalls
  mem : t.mem = s.mem
  drams : t.drams = s.drams

/-- The bytes and one register do not differ. -/
structure SlotFrame (k : Nat) (s t : State) : Prop where
  mem : t.mem = s.mem
  drams : t.drams = s.drams
  reg : t.reg k = s.reg k

section SlotEnd
variable {s : State}

/-- An engine without work finishes nothing. -/
theorem finishEngine_idle {a : State} {e : Nat} (h : EnginesIdle s a) (he : (s.engine e).work = []) (st : Nat) (x : Slot) :
    EnginesIdle s (a.finishEngine e st x) := by
  have hw := h.idle e he
  have heq : a.finishEngine e st x = a.setEngine e { a.engine e with work := [] } := by
    unfold State.finishEngine
    rw [hw]
    rfl
  rw [heq]
  refine ⟨h.toEnginesOnly.setEngine e _, fun e' he' => ?_⟩
  by_cases hee : e' = e
  · subst hee
    exact congrArg Engine.work (engine_setEngine_same a e' _)
  · exact (congrArg Engine.work (engine_setEngine_other a hee _)).trans (h.idle e' he')

theorem finishEngines_idle {n : Nat} (hidle : ∀ c ∈ s.stallClusters n, ∀ e ∈ clusterEngines c, (s.engine e).work = []) (x : Slot) :
    EnginesIdle s ((s.stallClusters n).foldl (fun (a : State) c =>
      (clusterEngines c).foldl (fun (b : State) e => b.finishEngine e n x) a) s) :=
  List.foldlRecOn _ _ ⟨EnginesOnly.refl s, fun _ he => he⟩ fun _ ha c hc =>
    List.foldlRecOn _ _ ha fun _ hb e he => finishEngine_idle hb (hidle c hc e he) n x

theorem unfinished_of_idle {n : Nat} (hidle : ∀ c ∈ s.stallClusters n, ∀ e ∈ clusterEngines c, (s.engine e).work = []) :
    s.unfinished n = true ↔ ∃ c ∈ s.stallClusters n, (s.cluster c).started < (s.cluster c).count := by
  simp only [State.unfinished, List.any_eq_true, Bool.or_eq_true, decide_eq_true_eq]
  refine exists_congr fun c => and_congr_right fun hc => or_iff_left ?_
  rintro ⟨e, he, hwork⟩
  rw [hidle c hc e he] at hwork
  cases hwork

theorem clearBad_engineStores (a : State) (e : Nat) : EngineStores a (a.clearBad e) := by
  by_cases hb : (a.engine e).bad = []
  · have heq : a.clearBad e = a := if_pos hb
    rw [heq]
    exact ⟨rfl, rfl, rfl, rfl⟩
  · have heq : a.clearBad e = _ := if_neg hb
    rw [heq]
    exact ⟨rfl, rfl, rfl, rfl⟩

theorem EngineStores.trans {a b c : State} (h : EngineStores a b) (h' : EngineStores b c) : EngineStores a c :=
  ⟨h'.regs.trans h.regs, h'.stalls.trans h.stalls, h'.mem.trans h.mem, h'.drams.trans h.drams⟩

theorem clearBads_engineStores (l : List Nat) (a : State) :
    EngineStores a (l.foldl (fun (a : State) c => (clusterEngines c).foldl (fun (b : State) e => b.clearBad e) a) a) :=
  foldl_keeps (P := EngineStores a)
    (fun _ c hb => foldl_keeps (P := EngineStores a) (fun b e hb => hb.trans (clearBad_engineStores b e)) (clusterEngines c) hb)
    l ⟨rfl, rfl, rfl, rfl⟩

/-- The state when the sequencers and the slot of a stall are cleared, from the state that counted a late stop. -/
def slotCleared (s : State) (n : Nat) : State :=
  let s3 := (s.stallClusters n).foldl (fun (a : State) c =>
    (a.setCluster c { a.cluster c with started := 0, count := 0 }).setField (Reg.CLUSTER_SEQ_STATE c) 2 0 0) s
  let s4 := s3.setStall n { s3.stall n with slot := none }
  (s4.stallClusters n).foldl (fun (a : State) c => (clusterEngines c).foldl (fun (b : State) e => b.clearBad e) a) s4

theorem slotCleared_slot (s : State) (n : Nat) : ((slotCleared s n).stall n).slot = none := by
  unfold slotCleared
  generalize List.foldl _ s (s.stallClusters n) = u
  have hstalls := (clearBads_engineStores ((u.setStall n { u.stall n with slot := none }).stallClusters n)
    (u.setStall n { u.stall n with slot := none })).stalls
  have hslot := stall_setStall_same u n { u.stall n with slot := none }
  exact (congrArg (fun l => (mapGetD l n ({} : Stall)).slot) hstalls).trans (congrArg Stall.slot hslot)

theorem slotCleared_frame {n k : Nat} (hk : ∀ c, k ≠ Reg.CLUSTER_SEQ_STATE c) (s : State) : SlotFrame k s (slotCleared s n) := by
  have hseq : SlotFrame k s ((s.stallClusters n).foldl (fun (a : State) c =>
      (a.setCluster c { a.cluster c with started := 0, count := 0 }).setField (Reg.CLUSTER_SEQ_STATE c) 2 0 0) s) :=
    foldl_keeps (P := SlotFrame k s) (f := fun (a : State) c =>
        (a.setCluster c { a.cluster c with started := 0, count := 0 }).setField (Reg.CLUSTER_SEQ_STATE c) 2 0 0)
      (fun a c ha => ⟨ha.mem, ha.drams, (reg_setField_other (a.setCluster c _) (hk c) 2 0 0).trans ha.reg⟩) _ ⟨rfl, rfl, rfl⟩
  unfold slotCleared
  generalize List.foldl _ s (s.stallClusters n) = u at hseq
  have h := clearBads_engineStores ((u.setStall n { u.stall n with slot := none }).stallClusters n)
    (u.setStall n { u.stall n with slot := none })
  exact ⟨h.mem.trans hseq.mem, h.drams.trans hseq.drams, (congrArg (fun r => mapGetD r k (regReset k)) h.regs).trans hseq.reg⟩

/-- What the end of a slot leaves: a faulting drain has ended the slot, or the slot is cleared. -/
theorem endSlot_some {n : Nat} {x : Slot} (hx : (s.stall n).slot = some x) {s1 : State}
    (hs1 : s1 = (s.stallClusters n).foldl (fun (a : State) c =>
      (clusterEngines c).foldl (fun (b : State) e => b.finishEngine e n x) a) s) :
    s.endSlot n = if (s1.stall n).slot.isNone then s1 else slotCleared (if s.unfinished n then
      { s1.tally (Reg.STALL_LATE_STOP n) with ledger := { s1.ledger with late := (s1.ledger.late ++ s.lateStreams n).eraseDups } }
      else s1) n := by
  subst hs1
  unfold State.endSlot
  rw [hx]
  rfl

theorem endSlot_slot (s : State) (n : Nat) : ((s.endSlot n).stall n).slot = none := by
  cases hx : (s.stall n).slot with
  | none =>
    unfold State.endSlot
    rw [hx]
    exact hx
  | some x =>
    rw [endSlot_some hx rfl]
    split
    · next hnone => exact Option.isNone_iff_eq_none.mp hnone
    · exact slotCleared_slot _ n

/-- The end of a slot whose engines have no work left counts a late stop where an instruction has not started. -/
theorem endSlot_idle {n : Nat} (hn : n < 8) (hslot : (s.stall n).slot.isSome = true)
    (hidle : ∀ c ∈ s.stallClusters n, ∀ e ∈ clusterEngines c, (s.engine e).work = []) :
    (s.endSlot n).reg (Reg.STALL_LATE_STOP n) = (if (∃ c ∈ s.stallClusters n, (s.cluster c).started < (s.cluster c).count) then
      s.counted (Reg.STALL_LATE_STOP n) else s.reg (Reg.STALL_LATE_STOP n)) ∧ SameBytes s (s.endSlot n) := by
  obtain ⟨x, hx⟩ := Option.isSome_iff_exists.mp hslot
  have hfin := (finishEngines_idle hidle x).toEnginesOnly
  rw [endSlot_some hx rfl]
  generalize List.foldl _ s (s.stallClusters n) = s1 at hfin
  have hk (c : Nat) : Reg.STALL_LATE_STOP n ≠ Reg.CLUSTER_SEQ_STATE c := stallReg_ne_clusterReg hn (by decide)
  have hrun : ¬ (s1.stall n).slot.isNone = true := by simp [hfin.stall n, hx]
  rw [if_neg hrun]
  simp only [unfinished_of_idle hidle]
  split
  · have hframe := slotCleared_frame (n := n) hk ({ s1.tally (Reg.STALL_LATE_STOP n) with
      ledger := { s1.ledger with late := (s1.ledger.late ++ s.lateStreams n).eraseDups } })
    refine ⟨hframe.reg.trans ((reg_tally_same s1 _).trans ?_),
      sameBytes_of_mem_drams (hframe.mem.trans hfin.mem) (hframe.drams.trans hfin.drams)⟩
    rw [hfin.reg]
    rfl
  · have hframe := slotCleared_frame (n := n) hk s1
    exact ⟨hframe.reg.trans (hfin.reg _), sameBytes_of_mem_drams (hframe.mem.trans hfin.mem) (hframe.drams.trans hfin.drams)⟩

end SlotEnd

/-- Settles O22: a slot starts with its clusters ready, its alternate or an idle count; its end leaves none. -/
theorem programSlots : Obligations.ProgramSlots := by
  unfold Obligations.ProgramSlots
  refine ⟨blocked_iff, fun i s e runs he _ hworks hfree hruns => ?_, fun st s => ⟨_, rfl, endSlot_slot s st.val, fun hslot hidle => ?_⟩⟩
  · obtain ⟨-, -, hunit, -⟩ := entryFor_some he
    have hlt : e.unit < 8 := by omega
    have hexec := exec_programSlotStart he hworks hfree
    subst hruns
    refine ⟨fun h hb hh => ⟨_, ?_, startSlot_slotRuns i.val hlt h⟩, fun j a h hb ha hua hh => ?_, fun hb ha => ?_⟩
    · rw [hexec, programStart_runs hb hh]
      rfl
    · have hruns := startSlot_tally_slotRuns (s := s) j (e := a) (by omega) h
      rw [hua] at hruns
      obtain ⟨hslot, hcount⟩ := hruns
      refine ⟨_, ?_, by simpa only [SlotRuns, hua] using hslot, hcount⟩
      rw [hexec, programStart_alternate hb ha hh]
      rfl
    · have hrise : Reg.STALL_IDLE_SLOT e.unit ∉ riseTallies := stallReg_not_mem_riseTallies hlt (by decide)
      obtain ⟨t, ht, hcount, hregs, hbytes, hrest⟩ := done_tally hrise s
      rw [hexec, programStart_idle hb ha]
      refine ⟨t, ht, ?_, hcount, hregs, hbytes⟩
      have hstalls := congrArg State.stalls hrest
      rw [State.stall, show t.stalls = s.stalls from hstalls]
      exact hfree
  · obtain ⟨hlate, hbytes⟩ := endSlot_idle st.isLt hslot hidle
    have hrise : Reg.STALL_LATE_STOP st.val ∉ riseTallies := stallReg_not_mem_riseTallies st.isLt (by decide)
    exact ⟨(reg_settle hrise _).trans hlate, hbytes⟩

end Sys2Proof.Laws
end

section
/-!
SUPPORT. LOAD entries and readmission (R39, R43, R56), and the tear-down of job contexts by a fault and by a channel that freezes
(R43 to R45, R304); the settling of O23 and O24.
-/
namespace Sys2Proof.Laws
open Sys2Proof.Machine

/-! ## Bits of job registers -/

theorem getLsbD_jobBit {j : Nat} (hj : j < 32) (i : Nat) : (jobBit i).getLsbD j = decide (i = j) := by
  rw [jobBit, BitVec.getLsbD_ofNat, Nat.testBit_two_pow]
  simp [hj]

/-- The bits of a word gathered job by job are the jobs with the property. -/
theorem getLsbD_gatheredJobs {j : Nat} (hj : j < 32) (p : Nat → Prop) [DecidablePred p] :
    ((List.range 32).foldl (fun (w : Word) i => if p i then w ||| jobBit i else w) 0).getLsbD j = decide (p j) := by
  have hstep (w : Word) (i : Nat) :
      (if p i then w ||| jobBit i else w).getLsbD j = (w.getLsbD j || (decide (p i) && decide (i = j))) := by
    split
    · next hp => rw [BitVec.getLsbD_or, getLsbD_jobBit hj, decide_eq_true hp, Bool.true_and]
    · next hp => rw [decide_eq_false hp, Bool.false_and, Bool.or_false]
  obtain ⟨a, -, ha, hfold⟩ := foldl_at (P := fun _ : Word => True) (g := fun w => w.getLsbD j)
    (f := fun (w : Word) i => if p i then w ||| jobBit i else w) (fun _ _ _ => trivial)
    (fun w i hi _ => by rw [hstep, decide_eq_false hi, Bool.and_false, Bool.or_false])
    List.nodup_range (List.mem_range.mpr hj) (s := 0) trivial
  rw [hfold, hstep, ha]
  simp

/-! ## LOAD entries and readmission -/

section Loads
variable {s : State}

theorem exec_loadEntryStart {i : EntryIx} {e : Entry} (he : s.entryFor i.val 0 7 7 = some e)
    (hworks : bits (s.reg (Reg.STALL_STATE e.unit)) 1 0 = 1) :
    exec (.loadEntryStart i) s = done ((s.setStall e.unit { s.stall e.unit with loading := some (e.model, i.val) }).setReg
      (Reg.STALL_RESIDENT e.unit) 0) := by
  show execLoadEntryStart i s = _
  simp only [execLoadEntryStart, he]
  rw [if_neg (not_not.mpr hworks)]

/-- The start of a LOAD entry notes the model that loads and ends the residency of the one before. -/
theorem loadEntryStart_loading {i : EntryIx} {e : Entry} (he : s.entryFor i.val 0 7 7 = some e)
    (hworks : bits (s.reg (Reg.STALL_STATE e.unit)) 1 0 = 1) :
    ∃ t, exec (.loadEntryStart i) s = .next t ∧ (t.stall e.unit).loading = some (e.model, i.val) ∧
      t.reg (Reg.STALL_RESIDENT e.unit) = 0 ∧ (t.stall e.unit).slot = (s.stall e.unit).slot ∧
      (∀ n, n ≠ e.unit → t.stall n = s.stall n) ∧ SameRegs [Reg.STALL_RESIDENT e.unit] s t ∧ SameBytes s t := by
  obtain ⟨-, -, hunit, -⟩ := entryFor_some he
  have hrise : Reg.STALL_RESIDENT e.unit ∉ riseTallies := stallReg_not_mem_riseTallies (by omega) (by decide)
  have hsame := stall_setStall_same s e.unit { s.stall e.unit with loading := some (e.model, i.val) }
  have hslot := congrArg Stall.slot hsame
  refine ⟨_, exec_loadEntryStart he hworks, congrArg Stall.loading hsame, ?_, hslot,
    fun n hn => stall_setStall_other s hn _, sameRegs_settle fun k hk _ => ?_, fun _ => rfl⟩
  · rw [reg_settle hrise, reg_setReg_same]
  · rw [reg_setReg_other _ (List.ne_of_not_mem_cons hk), setStall_reg]

theorem exec_loadEntryEnd {st : Fin 8} {model k sec job n pl sl : Nat} {r : Region} {x : State × Bool}
    (hload : (s.stall st.val).loading = some (model, k)) (hmodel : s.modelOf st.val model = some (sec, job, n, pl, sl))
    (hsec : s.active.recs.find? (fun r => r.kind == 1 && r.section_ == sec) = some r)
    (hx : x = ((s.stallClusters st.val).zipIdx.flatMap (fun c => loadCopies r n pl sl c.2 c.1)).foldl
      (fun (a : State × Bool) c => if a.2 then a.1.copy c.1 c.2.1 c.2.2 else a)
      (s.setStall st.val { s.stall st.val with loading := none }, true)) :
    exec (.loadEntryEnd st) s = done (if x.2 = true ∧ bits (x.1.reg (Reg.STALL_STATE st.val)) 1 0 = 1 then
      x.1.setReg (Reg.STALL_RESIDENT st.val) (BitVec.ofNat 32 (model + 2 ^ 31)) else x.1) := by
  show execLoadEntryEnd st s = _
  unfold execLoadEntryEnd
  simp only [hload, hmodel, hsec]
  rw [hx]

/-- The end of a LOAD entry makes the model resident where all its copies succeed. -/
theorem loadEntryEnd_resident {st : Fin 8} (model : Nat) (x : State × Bool)
    {t : State} (ht : t = if x.2 = true ∧ bits (x.1.reg (Reg.STALL_STATE st.val)) 1 0 = 1 then
      x.1.setReg (Reg.STALL_RESIDENT st.val) (BitVec.ofNat 32 (model + 2 ^ 31)) else x.1) :
    (∀ a, (settle t).byte a = x.1.byte a) ∧ (settle t).reg (Reg.STALL_RESIDENT st.val) =
      (if x.2 = true ∧ bits (x.1.reg (Reg.STALL_STATE st.val)) 1 0 = 1 then BitVec.ofNat 32 (model + 2 ^ 31)
       else x.1.reg (Reg.STALL_RESIDENT st.val)) := by
  have hrise : Reg.STALL_RESIDENT st.val ∉ riseTallies := stallReg_not_mem_riseTallies st.isLt (by decide)
  subst ht
  rw [reg_settle hrise]
  split
  · exact ⟨fun _ => rfl, reg_setReg_same _ _ _⟩
  · exact ⟨fun _ => rfl, rfl⟩

/-- A write of JOB_READMIT waits in the stall's record. -/
theorem jobReadmit_kept {m : Master} {st : Fin 8} (v : Word) (h : s.admits m (pageStall st.val) = true) :
    ∃ t, exec (.jobReadmit m st v) s = .next t ∧
      (t.stall st.val).readmit = (s.stall st.val).readmit ||| (v &&& s.reg (Reg.STALL_JOB_FAULTED st.val)) ∧
      (t.stall st.val).faultTicks = (s.stall st.val).faultTicks ∧ SameRegs [] s t ∧ SameBytes s t := by
  have hsame := stall_setStall_same s st.val { s.stall st.val with
    readmit := (s.stall st.val).readmit ||| (v &&& s.reg (Reg.STALL_JOB_FAULTED st.val)) }
  have hticks := congrArg Stall.faultTicks hsame
  have hexec : exec (.jobReadmit m st v) s = done (s.setStall st.val { s.stall st.val with
      readmit := (s.stall st.val).readmit ||| (v &&& s.reg (Reg.STALL_JOB_FAULTED st.val)) }) := by
    show execJobReadmit m st v s = _
    rw [execJobReadmit, gate_admits s h]
  exact ⟨_, hexec, congrArg Stall.readmit hsame, hticks, sameRegs_settle fun _ _ _ => rfl, fun _ => rfl⟩

/-- A job stays torn down exactly if it has faulted often enough, or stayed so before, and has not been readmitted. -/
theorem faultCount_eq_held {limit old : Nat} (f r : Bool) (hlimit : limit ≤ 15) :
    decide (faultCount limit old f r = 16) = (!r && (if f then decide (limit ≤ old + 1) else decide (old = 16))) := by
  unfold faultCount
  cases f with
  | false =>
    by_cases h16 : old = 16
    · cases r <;> simp [h16]
    · simp [h16]
  | true =>
    by_cases hlt : old + 1 < limit
    · have h1 : old + 1 ≠ 16 := by omega
      have h2 : ¬ limit ≤ old + 1 := by omega
      simp [hlt, h1, h2]
    · have h2 : limit ≤ old + 1 := by omega
      cases r <;> simp [hlt, h2]

theorem rebuildJobs_faulted {st j : Nat} (hj : j < 32) (hstate : bits (s.reg (Reg.STALL_STATE st)) 1 0 ≠ 2) :
    bit ((s.rebuildJobs st).reg (Reg.STALL_JOB_FAULTED st)) j = decide (faultCount (max 1 (bits (s.reg (Reg.STALL_FAULT_LIMIT st)) 3 0))
      (mapGetD (s.stall st).faultTicks j 0) ((s.stall st).faultNow.getLsbD j) ((s.stall st).readmit.getLsbD j) = 16) := by
  rw [bit_eq_getLsbD]
  unfold State.rebuildJobs
  extract_lets x limit cnt held t old
  rw [reg_setReg_same, if_neg hstate]
  exact getLsbD_gatheredJobs hj fun i => cnt i = 16

theorem rebuildJobs_stall (s : State) (st : Nat) :
    ((s.rebuildJobs st).stall st).readmit = 0 ∧ ((s.rebuildJobs st).stall st).faultNow = 0 := by
  unfold State.rebuildJobs
  extract_lets x limit cnt held t old
  have hsame : t.stall st = _ := stall_setStall_same s st _
  exact ⟨congrArg Stall.readmit hsame, congrArg Stall.faultNow hsame⟩

end Loads

/-- Settles O23: LOAD entries by their copies, JOB_READMIT by the stall's record, the boundary job by job. -/
theorem loadEntriesAndReadmission : Obligations.LoadEntriesAndReadmission := by
  unfold Obligations.LoadEntriesAndReadmission
  refine ⟨fun i s e => loadEntryStart_loading, fun st s model k sec job n pl sl r x hload hmodel hsec hx =>
    ⟨_, exec_loadEntryEnd hload hmodel hsec hx, loadEntryEnd_resident model x rfl⟩, fun m st v s => jobReadmit_kept v,
    fun s st j hj hstate limit old f r hlimit hold hf hr _ => ⟨?_, rebuildJobs_stall s st⟩⟩
  have hbits : bits (s.reg (Reg.STALL_FAULT_LIMIT st)) 3 0 < 2 ^ 4 := Nat.mod_lt _ (by decide)
  rw [rebuildJobs_faulted hj hstate, ← hlimit, ← hold, ← hf, ← hr]
  exact faultCount_eq_held f r (by omega)

end Sys2Proof.Laws
end

section
/-!
SUPPORT. The tear-down of job contexts by a fault and by a channel that freezes (R43 to R45, R304): the registers and stalls that it
leaves; the settling of O24.
-/
namespace Sys2Proof.Laws
open Sys2Proof.Machine

/-! ## What the tear-down of a job's context leaves -/

/-- Pages outside the clusters' pages (R407). -/
def OutsideClusters (k : Nat) : Prop := k < 0x100 * 4096 ∨ 0x180 * 4096 ≤ k

/-- Outside the clusters' pages only the registers `ks` differ, of the stalls only `st`, and of the stores none of the DRAM. -/
structure ContextFrame (ks : List Nat) (st : Nat) (s t : State) : Prop where
  reg : ∀ k, k ∉ ks → OutsideClusters k → t.reg k = s.reg k
  stall : ∀ n, n ≠ st → t.stall n = s.stall n
  drams : t.drams = s.drams
  cell : ∀ k, flatIsDram k = true → mapGet t.mem k = mapGet s.mem k

namespace ContextFrame
variable {ks : List Nat} {st : Nat} {s a b : State}

theorem refl (ks : List Nat) (st : Nat) (s : State) : ContextFrame ks st s s :=
  ⟨fun _ _ _ => rfl, fun _ _ => rfl, rfl, fun _ _ => rfl⟩

theorem trans (h : ContextFrame ks st s a) (h' : ContextFrame ks st a b) : ContextFrame ks st s b :=
  ⟨fun k hk ho => (h'.reg k hk ho).trans (h.reg k hk ho), fun n hn => (h'.stall n hn).trans (h.stall n hn),
    h'.drams.trans h.drams, fun k hk => (h'.cell k hk).trans (h.cell k hk)⟩

theorem mono {ks' : List Nat} (h : ContextFrame ks st s a) (hsub : ks ⊆ ks') : ContextFrame ks' st s a :=
  ⟨fun k hk => h.reg k fun hm => hk (hsub hm), h.stall, h.drams, h.cell⟩

theorem setReg (h : ContextFrame ks st s a) {k : Nat} (hk : k ∈ ks) (v : Word) : ContextFrame ks st s (a.setReg k v) :=
  ⟨fun _ hk' ho => (reg_setReg_other a (ne_of_mem_of_not_mem hk hk').symm v).trans (h.reg _ hk' ho), h.stall, h.drams, h.cell⟩

theorem setStall (h : ContextFrame ks st s a) (v : Stall) : ContextFrame ks st s (a.setStall st v) :=
  ⟨h.reg, fun n hn => (stall_setStall_other a hn v).trans (h.stall n hn), h.drams, h.cell⟩

theorem setCluster (h : ContextFrame ks st s a) (c : Nat) (v : Cluster) : ContextFrame ks st s (a.setCluster c v) :=
  ⟨h.reg, h.stall, h.drams, h.cell⟩

theorem clearAcc (h : ContextFrame ks st s a) (c : Nat) : ContextFrame ks st s (a.clearAcc c) := ⟨h.reg, h.stall, h.drams, h.cell⟩

/-- A byte of the DRAM is as before. -/
theorem byte (h : ContextFrame ks st s a) {k : Nat} (hk : flatIsDram k = true) : a.byte k = s.byte k := by
  unfold State.byte State.epoch
  rw [h.cell k hk, h.drams]

end ContextFrame

theorem mem_clusterEngines_lt {c e : Nat} (hc : c < 8) (he : e ∈ clusterEngines c) : e < 64 := by
  obtain ⟨k, hk, rfl⟩ := List.mem_map.mp he
  have hk := List.mem_range.mp hk
  omega

section Context
variable {s : State}

theorem abandonWork_context (ks : List Nat) (st : Nat) {e : Nat} (he : e < 64) : ContextFrame ks st s (s.abandonWork e) := by
  unfold State.abandonWork
  extract_lets t
  have ht : ContextFrame ks st s t := by
    by_cases hw : ((s.engine e).work.any EngWork.isPass) = true
    · have heq : t = (s.tally (Reg.MX_PASS_ABANDONED e)).event (pageMx e) 2 := if_pos hw
      rw [heq]
      refine ⟨fun k _ ho => ?_, fun _ _ => rfl, rfl, fun _ _ => rfl⟩
      have htally : k ≠ Reg.MX_PASS_ABANDONED e := by
        unfold OutsideClusters at ho; unfold Reg.MX_PASS_ABANDONED rkey; omega
      have hevent : k ≠ Reg.EVT_RAW (pageMx e) := by
        unfold OutsideClusters at ho; unfold Reg.EVT_RAW rkey pageMx; omega
      exact (reg_event_other _ hevent _).trans (reg_tally_other s htally)
    · have heq : t = s := if_neg hw
      rw [heq]
      exact ContextFrame.refl ks st s
  exact ⟨ht.reg, ht.stall, ht.drams, ht.cell⟩

/-- Clearing a range of a cluster's scratchpad leaves the DRAM's cells. -/
theorem clearRange_cell {p : Ptr} (hp : p.store ≠ .dram) (n : Nat) {k : Nat} (hk : flatIsDram k = true) :
    mapGet (s.clearRange p n).mem k = mapGet s.mem k := by
  have hbase : 2 ^ 38 ≤ storeBase p.store := by
    cases h : p.store with
    | dram => exact absurd h hp
    | common => exact le_rfl
    | video => exact Nat.le_add_right _ _
    | mgcMem => exact Nat.le_add_right _ _
    | secure => exact Nat.le_add_right _ _
    | spad c => exact (Nat.le_add_right _ _).trans (Nat.le_add_right _ _)
  have hlt : k < 2 ^ 37 := of_decide_eq_true hk
  have hout : ¬ storeBase p.store + p.addr ≤ k := by omega
  show mapGet (s.mem.filter _) k = _
  rw [mapGet_filter_key (fun x => decide (storeBase p.store + p.addr ≤ x) && decide (x < storeBase p.store + p.addr + n)),
    decide_eq_false hout]
  rfl

/-- A tear-down leaves the other stalls and the DRAM, and outside the clusters' pages it changes JOB_FAULTED only. -/
theorem teardownJob_context (st j : Nat) : ContextFrame [Reg.STALL_JOB_FAULTED st] st s (s.teardownJob st j) := by
  unfold State.teardownJob
  extract_lets runs s1 s2 s3
  have h1 : ContextFrame [Reg.STALL_JOB_FAULTED st] st s s1 := by
    refine List.foldlRecOn _ _ (ContextFrame.refl _ _ s) fun a ha c hc => ?_
    dsimp only
    split
    · refine List.foldlRecOn (motive := ContextFrame [Reg.STALL_JOB_FAULTED st] st s) _ _ ((ha.setCluster c _).clearAcc c) fun b hb e he => ?_
      exact hb.trans (abandonWork_context _ st (mem_clusterEngines_lt (mem_stallClusters_lt hc) he))
    · exact ha.setCluster c _
  have h2 : ContextFrame [Reg.STALL_JOB_FAULTED st] st s s2 := by
    refine List.foldlRecOn (motive := ContextFrame [Reg.STALL_JOB_FAULTED st] st s) _ _ h1 fun a ha r hr => ?_
    have hspad : r.ptr.store ≠ .dram := by
      have hr := (List.mem_filter.mp hr).2
      simp only [Bool.and_eq_true, beq_iff_eq] at hr
      obtain ⟨-, hstore⟩ := hr
      simp [Region.ptr, storeOf, hstore]
    exact ⟨ha.reg, ha.stall, ha.drams, fun k hk => (clearRange_cell hspad r.size hk).trans (ha.cell k hk)⟩
  have h3 : ContextFrame [Reg.STALL_JOB_FAULTED st] st s s3 := h2.setReg List.mem_cons_self _
  split
  · exact h3.setStall _
  · exact h3

theorem teardownJob_marked {st j : Nat} (hj : j < 32) : bit ((s.teardownJob st j).reg (Reg.STALL_JOB_FAULTED st)) j = true := by
  unfold State.teardownJob
  extract_lets runs s1 s2 s3
  have h3 : bit (s3.reg (Reg.STALL_JOB_FAULTED st)) j = true := by
    rw [reg_setReg_same, bit_eq_getLsbD, BitVec.getLsbD_or, getLsbD_jobBit hj, decide_eq_true rfl, Bool.or_true]
  split
  · exact h3
  · exact h3

/-- The registers that a job's fault changes outside the clusters' pages, with or without its residency. -/
def faultRegs (st : Nat) : List Nat := [Reg.STALL_JOB_FAULTED st, Reg.STALL_FAULT_INFO st, Reg.STALL_JOB_FAULT st]

/-- A job's fault before residency is looked at. -/
def jobFaulted (s : State) (st cause : Nat) (x : Slot) : State :=
  (((s.teardownJob st x.job).setStall st { (s.teardownJob st x.job).stall st with
    faultNow := ((s.teardownJob st x.job).stall st).faultNow ||| jobBit x.job }).setReg (Reg.STALL_FAULT_INFO st)
      (BitVec.ofNat 32 (x.job + 256 * cause + 65536 * (s.tick.toNat % 65536)))).tally (Reg.STALL_JOB_FAULT st)

theorem jobFault_eq {st cause : Nat} {x : Slot} (h : (s.stall st).slot = some x) : s.jobFault st cause =
    if cause = 7 then (jobFaulted s st cause x).setReg (Reg.STALL_RESIDENT st) 0 else jobFaulted s st cause x := by
  unfold State.jobFault
  simp only [h]
  rfl

theorem jobFaulted_context (st cause : Nat) (x : Slot) : ContextFrame (faultRegs st) st s (jobFaulted s st cause x) := by
  unfold jobFaulted faultRegs
  have h := (teardownJob_context (s := s) st x.job).mono (ks' := faultRegs st) (by simp [faultRegs])
  exact ((h.setStall _).setReg (by simp [faultRegs]) _).setReg (by simp [faultRegs]) _

theorem stallReg_outsideClusters {st o : Nat} (hst : st < 8) (ho : o < 4096) : OutsideClusters (rkey (0x018 + st) o) := by
  unfold OutsideClusters rkey
  omega

/-- The registers of the fault and its slot, whatever the cause. -/
theorem jobFaulted_shown {st cause : Nat} {x : Slot} (hst : st < 8) (hx : (s.stall st).slot = some x) :
    ((jobFaulted s st cause x).stall st).slot = none ∧
    (jobFaulted s st cause x).reg (Reg.STALL_FAULT_INFO st) = BitVec.ofNat 32 (x.job + 256 * cause + 65536 * (s.tick.toNat % 65536)) ∧
    (x.job < 32 → bit ((jobFaulted s st cause x).reg (Reg.STALL_JOB_FAULTED st)) x.job = true) ∧
    (jobFaulted s st cause x).reg (Reg.STALL_JOB_FAULT st) = s.counted (Reg.STALL_JOB_FAULT st) := by
  have hinfo : Reg.STALL_FAULT_INFO st ≠ Reg.STALL_JOB_FAULT st := header_ne (by decide)
  have hcount : Reg.STALL_JOB_FAULTED st ≠ Reg.STALL_JOB_FAULT st := header_ne (by decide)
  have hmark : Reg.STALL_JOB_FAULTED st ≠ Reg.STALL_FAULT_INFO st := header_ne (by decide)
  have hkept : (s.teardownJob st x.job).reg (Reg.STALL_JOB_FAULT st) = s.reg (Reg.STALL_JOB_FAULT st) :=
    (teardownJob_context st x.job).reg _ (by simpa using hcount.symm) (stallReg_outsideClusters hst (by decide))
  have hslot := teardownJob_slot hx
  have hmarked := teardownJob_marked (s := s) (st := st) (j := x.job)
  unfold jobFaulted
  generalize s.teardownJob st x.job = u at hkept hslot hmarked
  have hstall := stall_setStall_same u st { u.stall st with faultNow := (u.stall st).faultNow ||| jobBit x.job }
  refine ⟨(congrArg Stall.slot hstall).trans hslot, ?_, fun hjob => ?_, ?_⟩
  · rw [reg_tally_other _ hinfo, reg_setReg_same]
  · rw [reg_tally_other _ hcount, reg_setReg_other _ hmark, setStall_reg]
    exact hmarked hjob
  · rw [reg_tally_same, reg_setReg_other _ hinfo.symm, setStall_reg, hkept]
    rfl

/-- Registers of different stalls are different. -/
theorem stallReg_ne {n st o o' : Nat} (hn : n ≠ st) (ho : o < 4096) (ho' : o' < 4096) : rkey (0x018 + n) o ≠ rkey (0x018 + st) o' := by
  unfold rkey
  omega

theorem resident_not_mem_faultRegs (n st : Nat) : Reg.STALL_RESIDENT n ∉ faultRegs st := by
  simp only [faultRegs, List.mem_cons, List.not_mem_nil, or_false, not_or]
  exact ⟨ne_of_keyOff (by simp [Reg.STALL_RESIDENT, Reg.STALL_JOB_FAULTED, keyOff_rkey]),
    ne_of_keyOff (by simp [Reg.STALL_RESIDENT, Reg.STALL_FAULT_INFO, keyOff_rkey]),
    ne_of_keyOff (by simp [Reg.STALL_RESIDENT, Reg.STALL_JOB_FAULT, keyOff_rkey])⟩

theorem jobFaulted_resident (st cause : Nat) (x : Slot) {n : Nat} (hn : n < 8) :
    (jobFaulted s st cause x).reg (Reg.STALL_RESIDENT n) = s.reg (Reg.STALL_RESIDENT n) :=
  (jobFaulted_context st cause x).reg _ (resident_not_mem_faultRegs n st) (stallReg_outsideClusters hn (by decide))

/-- A fault of the running job: its record, the end of its slot, and the end of residency under cause 7. -/
theorem jobFault_shown {st cause : Nat} {x : Slot} (hst : st < 8) (hx : (s.stall st).slot = some x) :
    ((s.jobFault st cause).stall st).slot = none ∧
    (s.jobFault st cause).reg (Reg.STALL_FAULT_INFO st) = BitVec.ofNat 32 (x.job + 256 * cause + 65536 * (s.tick.toNat % 65536)) ∧
    (x.job < 32 → bit ((s.jobFault st cause).reg (Reg.STALL_JOB_FAULTED st)) x.job = true) ∧
    (s.jobFault st cause).reg (Reg.STALL_JOB_FAULT st) = s.counted (Reg.STALL_JOB_FAULT st) ∧
    (s.jobFault st cause).reg (Reg.STALL_RESIDENT st) = (if cause = 7 then 0 else s.reg (Reg.STALL_RESIDENT st)) ∧
    (∀ n, n ≠ st → (s.jobFault st cause).stall n = s.stall n) ∧
    (∀ n < 8, n ≠ st → (s.jobFault st cause).reg (Reg.STALL_RESIDENT n) = s.reg (Reg.STALL_RESIDENT n)) := by
  obtain ⟨hslot, hinfo, hmarked, hcount⟩ := jobFaulted_shown (cause := cause) hst hx
  have hstalls := (jobFaulted_context (s := s) st cause x).stall
  have hres {n : Nat} (hn : n < 8) := jobFaulted_resident (s := s) st cause x hn
  rw [jobFault_eq hx]
  generalize jobFaulted s st cause x = u at hslot hinfo hmarked hcount hstalls hres
  split
  · have hinfo' : Reg.STALL_FAULT_INFO st ≠ Reg.STALL_RESIDENT st := header_ne (by decide)
    have hmarked' : Reg.STALL_JOB_FAULTED st ≠ Reg.STALL_RESIDENT st := header_ne (by decide)
    have hcount' : Reg.STALL_JOB_FAULT st ≠ Reg.STALL_RESIDENT st := header_ne (by decide)
    refine ⟨hslot, (reg_setReg_other u hinfo' 0).trans hinfo, fun hjob => ?_, (reg_setReg_other u hcount' 0).trans hcount,
      reg_setReg_same u _ 0, hstalls, fun n hn hne => ?_⟩
    · exact (congrArg (fun w => bit w x.job) (reg_setReg_other u hmarked' 0)).trans (hmarked hjob)
    · have hother : Reg.STALL_RESIDENT n ≠ Reg.STALL_RESIDENT st := stallReg_ne hne (by decide) (by decide)
      exact (reg_setReg_other u hother 0).trans (hres hn)
  · exact ⟨hslot, hinfo, hmarked, hcount, hres hst, hstalls, fun n hn _ => hres hn⟩

end Context

/-! ## A channel that freezes (R45, R304) -/

section Freeze
variable {s : State} {c cause : Nat}

/-- Words loaded below or above a register leave it. -/
theorem reg_loadWords_other {k k' : Nat} {d : List Byte} (h : k' < k ∨ k + d.length ≤ k') : (s.loadWords k d).reg k' = s.reg k' := by
  unfold State.loadWords
  refine List.foldlRecOn (motive := fun a : State => a.reg k' = s.reg k') _ _ rfl fun a ha i hi => ?_
  have hi := List.mem_range.mp hi
  exact (reg_setReg_other a (by omega) _).trans ha

/-- What a freeze has done to a channel when it turns to the stalls. -/
structure FreezeStart (c cause : Nat) (s t : State) : Prop where
  state : t.reg (Reg.DC_STATE c) = 2
  cause : t.reg (Reg.DC_FRZ_CAUSE c) = BitVec.ofNat 32 (cause + 65536 * (s.tick.toNat % 65536))
  count : t.reg (Reg.DC_FREEZE c) = s.counted (Reg.DC_FREEZE c)
  reg : ∀ k, k < 0x300 * 4096 → t.reg k = s.reg k
  stalls : t.stalls = s.stalls
  epoch : t.epoch c = s.epoch c + 1
  byte : ∀ k, flatIsDram k = true → k / 2 ^ 34 ≠ c → t.byte k = s.byte k

/-- A stall in a freeze of channel c (R45). -/
def freezeStall (c : Nat) (s : State) (st : Nat) : State :=
  if (bits (s.reg (Reg.STALL_PITCH st)) 7 0).testBit c ∧ bits (s.reg (Reg.STALL_STATE st)) 1 0 ≠ 0 then
    (s.teardownStall st).setReg (Reg.STALL_STATE st) 2
  else s

/-- The stalls in a freeze of channel c. -/
def freezeStalls (c : Nat) (s : State) : State := (List.range 8).foldl (freezeStall c) s

/-- Registers, stalls, channels and bytes are the same. -/
structure SameStalls (s t : State) : Prop where
  regs : t.regs = s.regs
  stalls : t.stalls = s.stalls
  drams : t.drams = s.drams
  mem : t.mem = s.mem

/-- The channels' pages lie from 0x300 on. -/
theorem le_rkey_channel (c o : Nat) : 0x300 * 4096 ≤ rkey (0x300 + c) o :=
  (Nat.mul_le_mul_right 4096 (Nat.le_add_right 0x300 c)).trans (Nat.le_add_right _ o)

/-- The captured syndrome and burst lie between FRZ_ADDR_HI and the tallies of the channel's page. -/
theorem reg_captureBurst_other {k : Nat} {syn burst : List Byte} (hsyn : syn.length ≤ 16) (hburst : burst.length ≤ 80)
    (h : k < rkey (0x300 + c) 0x120 ∨ rkey (0x300 + c) 0xE00 ≤ k) : (s.captureBurst c syn burst).reg k = s.reg k := by
  obtain ⟨b, hb⟩ : ∃ b, ∀ o, rkey (0x300 + c) o = b + o := ⟨_, fun _ => rfl⟩
  rw [hb, hb] at h
  have h1 : k < Reg.DC_FRZ_BURST0 c ∨ Reg.DC_FRZ_BURST0 c + burst.length ≤ k := by
    rw [Reg.DC_FRZ_BURST0, hb]
    omega
  have h2 : k < Reg.DC_FRZ_SYN0 c ∨ Reg.DC_FRZ_SYN0 c + syn.length ≤ k := by
    rw [Reg.DC_FRZ_SYN0, hb]
    omega
  exact (reg_loadWords_other h1).trans (reg_loadWords_other h2)

theorem loseChannel_byte_other {k : Nat} (hne : k / 2 ^ 34 ≠ c) : (s.loseChannel c).byte k = s.byte k := by
  have hcell : mapGet (s.loseChannel c).mem k = mapGet s.mem k := by
    show mapGet (s.mem.filter _) k = _
    rw [mapGet_filter_key (fun x => flatIsDram x && decide (x / 2 ^ 34 = c)), decide_eq_false hne, Bool.and_false]
    rfl
  have hdrams : (s.loseChannel c).drams = tblSet {} c { mapGetD s.drams c {} with epoch := s.epoch c + 1 } s.drams := rfl
  have hepoch : (s.loseChannel c).epoch (k / 2 ^ 34) = s.epoch (k / 2 ^ 34) := by
    rw [State.epoch, hdrams, mapGetD_tblSet_other _ hne]
    rfl
  unfold State.byte
  rw [hcell, hepoch]

theorem loseChannel_epoch_same (s : State) (c : Nat) : (s.loseChannel c).epoch c = s.epoch c + 1 := by
  have hdrams : (s.loseChannel c).drams = tblSet {} c { mapGetD s.drams c {} with epoch := s.epoch c + 1 } s.drams := rfl
  rw [State.epoch, hdrams, mapGetD_tblSet_same]

/-- Stalls, channels and bytes are the same. -/
structure SameContents (s t : State) : Prop where
  stalls : t.stalls = s.stalls
  drams : t.drams = s.drams
  mem : t.mem = s.mem

theorem loadWords_contents {a : State} (h : SameContents s a) (k : Nat) (d : List Byte) : SameContents s (a.loadWords k d) :=
  foldl_keeps (P := SameContents s) (f := fun (b : State) i => b.setReg (k + 4 * i) (bytesWord d (4 * i)))
    (fun _ _ h => ⟨h.stalls, h.drams, h.mem⟩) _ h

theorem captureBurst_contents {a : State} (h : SameContents s a) (c : Nat) (syn burst : List Byte) :
    SameContents s (a.captureBurst c syn burst) := loadWords_contents (loadWords_contents h _ syn) _ burst

theorem sendAll_same (qs : List DramReq) (f : DramReq → Egress) (s : State) :
    SameStalls s (qs.foldl (fun (a : State) q => a.send (f q)) s) :=
  foldl_keeps (P := SameStalls s) (f := fun (a : State) q => a.send (f q)) (fun _ _ h => ⟨h.regs, h.stalls, h.drams, h.mem⟩) qs
    ⟨rfl, rfl, rfl, rfl⟩

/-- A freeze loses the channel's contents, counts and captures before it turns to the stalls. -/
theorem freeze_start (hserves : s.chanState c ≠ 2) (off : Option Nat) :
    ∃ t, FreezeStart c cause s t ∧ SameStalls (freezeStalls c t) (s.freeze c cause off) := by
  have hfreeze : s.freeze c cause off = _ := if_neg hserves
  rw [hfreeze]
  extract_lets o l k s1 s2 s3 s4 d s5 s6
  refine ⟨s5, ?_, ⟨rfl, rfl, rfl, rfl⟩⟩
  obtain ⟨b, hb⟩ : ∃ b, ∀ o, rkey (0x300 + c) o = b + o := ⟨_, fun _ => rfl⟩
  have h3 (r : Nat) (h : r < b + 0x118 ∨ b + 0xE00 ≤ r) : s3.reg r = s2.reg r := by
    cases off with
    | none => rfl
    | some x =>
      have hlo : r ≠ Reg.DC_FRZ_ADDR_LO c := by rw [Reg.DC_FRZ_ADDR_LO, hb]; omega
      have hhi : r ≠ Reg.DC_FRZ_ADDR_HI c := by rw [Reg.DC_FRZ_ADDR_HI, hb]; omega
      have hburst : r < rkey (0x300 + c) 0x120 ∨ rkey (0x300 + c) 0xE00 ≤ r := by rw [hb, hb]; omega
      refine (reg_captureBurst_other (by simp [rsSyns]) (by simp [rsReceived]) hburst).trans ?_
      rw [reg_setReg_other _ hhi, reg_setReg_other _ hlo]
  have h4 (r : Nat) (hcount : r ≠ Reg.DC_FREEZE c) (hevent : r ≠ Reg.EVT_RAW (pageDc c)) : s4.reg r = s3.reg r :=
    (reg_event_other _ hevent 1).trans (reg_tally_other s3 hcount)
  have hcontents : SameContents s2 s3 := by
    cases off with
    | none => exact ⟨rfl, rfl, rfl⟩
    | some x => exact captureBurst_contents (s := s2) (a := (s2.setReg _ _).setReg _ _) ⟨rfl, rfl, rfl⟩ c _ _
  have hsent := sendAll_same ((s4.dram c).queueA ++ (s4.dram c).queueB)
    (fun q => .dramResponse q.initiator.val [] true false) s4
  have hdrams := congrArg (tblSet ({} : Dram) c
    { s4.dram c with closed := false, away := true, sweepSaved := false, queueA := [], queueB := [], openRows := [] }) hsent.drams
  have hregs : s5.regs = s4.regs := hsent.regs
  have hreg (r : Nat) : s5.reg r = s4.reg r := congrArg (fun l => mapGetD l r (regReset r)) hregs
  have hne (o o' : Nat) (h : o ≠ o') : rkey (0x300 + c) o ≠ rkey (0x300 + c) o' := header_ne h
  have hlow {o : Nat} (ho : o < 0x118) : rkey (0x300 + c) o < b + 0x118 := by rw [hb]; omega
  have hhigh : b + 0xE00 ≤ Reg.DC_FREEZE c := by rw [Reg.DC_FREEZE, hb]; omega
  have hs2 {r : Nat} (hstate : r ≠ Reg.DC_STATE c) (hcause : r ≠ Reg.DC_FRZ_CAUSE c) : s2.reg r = s.reg r :=
    (reg_setReg_other s1 hcause _).trans (reg_setReg_other s hstate 2)
  refine ⟨?_, ?_, ?_, fun r hr => ?_, ?_, ?_, fun r hr hne => ?_⟩
  · have hset : s2.reg (Reg.DC_STATE c) = 2 :=
      (reg_setReg_other s1 (hne 0x104 0x114 (by decide)) _).trans (reg_setReg_same s (Reg.DC_STATE c) 2)
    exact (hreg _).trans ((h4 _ (hne _ _ (by decide)) (hne _ _ (by decide))).trans ((h3 _ (.inl (hlow (by decide)))).trans hset))
  · have hset : s2.reg (Reg.DC_FRZ_CAUSE c) = _ := reg_setReg_same s1 (Reg.DC_FRZ_CAUSE c) _
    exact (hreg _).trans ((h4 _ (hne _ _ (by decide)) (hne _ _ (by decide))).trans ((h3 _ (.inl (hlow (by decide)))).trans hset))
  · have hevent : Reg.DC_FREEZE c ≠ Reg.EVT_RAW (pageDc c) := hne _ _ (by decide)
    have hkept : s3.reg (Reg.DC_FREEZE c) = s.reg (Reg.DC_FREEZE c) :=
      (h3 _ (.inr hhigh)).trans (hs2 (hne _ _ (by decide)) (hne _ _ (by decide)))
    have hcounted : s4.reg (Reg.DC_FREEZE c) = _ := (reg_event_other _ hevent 1).trans (reg_tally_same s3 _)
    rw [hreg, hcounted, hkept]
    rfl
  · have hpage (o : Nat) : r ≠ rkey (0x300 + c) o := by unfold rkey; omega
    have hbase : 0x300 * 4096 ≤ b := (le_rkey_channel c 0).trans_eq (hb 0)
    have hlo : r < b + 0x118 := hr.trans_le (hbase.trans (Nat.le_add_right b _))
    exact (hreg r).trans ((h4 r (hpage _) (hpage _)).trans ((h3 r (.inl hlo)).trans (hs2 (hpage _) (hpage _))))
  · exact hsent.stalls.trans hcontents.stalls
  · have hs5 : s5.epoch c = s4.epoch c := by
      refine (congrArg (fun l => (mapGetD l c ({} : Dram)).epoch) hdrams).trans ?_
      rw [mapGetD_tblSet_same]
      rfl
    have hdrams2 : s2.drams = s1.drams := rfl
    have hs4 : s4.epoch c = s1.epoch c :=
      congrArg (fun l => (mapGetD l c ({} : Dram)).epoch) (hcontents.drams.trans hdrams2)
    have hs1 : s1.epoch c = s.epoch c + 1 := loseChannel_epoch_same (s.setReg (Reg.DC_STATE c) 2) c
    exact hs5.trans (hs4.trans hs1)
  · have hmem2 : s2.mem = s1.mem := rfl
    have hmem4 : s4.mem = s3.mem := rfl
    have hmem5 : s5.mem = s4.mem := hsent.mem
    have hmem : s5.mem = s1.mem := hmem5.trans (hmem4.trans (hcontents.mem.trans hmem2))
    have hepoch : s5.epoch (r / 2 ^ 34) = s1.epoch (r / 2 ^ 34) := by
      refine (congrArg (fun l => (mapGetD l (r / 2 ^ 34) ({} : Dram)).epoch) hdrams).trans ?_
      rw [mapGetD_tblSet_other _ hne]
      exact congrArg (fun l => (mapGetD l (r / 2 ^ 34) ({} : Dram)).epoch) hcontents.drams
    have hlost : s1.byte r = s.byte r := loseChannel_byte_other hne
    rw [← hlost, State.byte, State.byte, hmem, hepoch]

/-- The registers of a stall that a freeze may change. -/
def frozenRegs (st : Nat) : List Nat := [Reg.STALL_JOB_FAULTED st, Reg.STALL_RESIDENT st, Reg.STALL_STATE st]

theorem teardownStall_context (st : Nat) : ContextFrame (frozenRegs st) st s (s.teardownStall st) := by
  have hjobs : ContextFrame (frozenRegs st) st s ((List.range 32).foldl (fun (a : State) j => a.teardownJob st j) s) :=
    foldl_keeps (P := ContextFrame (frozenRegs st) st s) (f := fun (a : State) j => a.teardownJob st j)
      (fun _ j ha => ha.trans ((teardownJob_context st j).mono (by simp [frozenRegs]))) _ (ContextFrame.refl _ _ s)
  unfold State.teardownStall
  generalize List.foldl _ s (List.range 32) = u at hjobs
  exact (hjobs.setStall _).setReg (by simp [frozenRegs]) 0

theorem teardownStall_slot (st : Nat) : ((s.teardownStall st).stall st).slot = none := by
  unfold State.teardownStall
  generalize List.foldl _ s (List.range 32) = u
  have hstall := stall_setStall_same u st { u.stall st with slot := none, loading := none }
  exact congrArg Stall.slot hstall

theorem teardownStall_resident (st : Nat) : (s.teardownStall st).reg (Reg.STALL_RESIDENT st) = 0 := by
  unfold State.teardownStall
  exact reg_setReg_same _ _ 0

theorem freezeStall_context (c st : Nat) : ContextFrame (frozenRegs st) st s (freezeStall c s st) := by
  unfold freezeStall
  split
  · exact (teardownStall_context st).setReg (by simp [frozenRegs]) 2
  · exact ContextFrame.refl _ _ s

/-- What a freeze may change of a stall: its pitch, state and resident model, and its record. -/
def stallView (st : Nat) (s : State) : Word × Word × Word × Stall :=
  (s.reg (Reg.STALL_PITCH st), s.reg (Reg.STALL_STATE st), s.reg (Reg.STALL_RESIDENT st), s.stall st)

/-- A freeze of one stall leaves the others. -/
theorem freezeStall_other {st n : Nat} (hst : st < 8) (hne : n ≠ st) : stallView st (freezeStall c s n) = stallView st s := by
  have h := freezeStall_context (s := s) c n
  have hkey {o : Nat} (ho : o < 4096) : (freezeStall c s n).reg (rkey (0x018 + st) o) = s.reg (rkey (0x018 + st) o) := by
    refine h.reg _ (fun hm => ?_) (stallReg_outsideClusters hst ho)
    simp only [frozenRegs, List.mem_cons, List.not_mem_nil, or_false] at hm
    rcases hm with hm | hm | hm
    · exact stallReg_ne hne.symm ho (by decide) hm
    · exact stallReg_ne hne.symm ho (by decide) hm
    · exact stallReg_ne hne.symm ho (by decide) hm
  unfold stallView
  rw [h.stall st hne.symm]
  exact congrArg₂ Prod.mk (hkey (by decide)) (congrArg₂ Prod.mk (hkey (by decide)) (congrArg₂ Prod.mk (hkey (by decide)) rfl))

/-- Each stall is frozen as it was found. -/
theorem freezeStalls_view {st : Nat} (hst : st < 8) :
    ∃ a, stallView st a = stallView st s ∧ stallView st (freezeStalls c s) = stallView st (freezeStall c a st) := by
  obtain ⟨a, -, ha, hfold⟩ := foldl_at (P := fun _ : State => True) (f := freezeStall c) (g := stallView st) (fun _ _ _ => trivial)
    (fun _ _ hne _ => freezeStall_other hst hne) List.nodup_range (List.mem_range.mpr hst) (s := s) trivial
  exact ⟨a, ha, hfold⟩

/-- An assigned stall whose pitch holds the channel is torn down. -/
theorem freezeStalls_hit {st : Nat} (hst : st < 8) (hpitch : (bits (s.reg (Reg.STALL_PITCH st)) 7 0).testBit c = true)
    (hstate : bits (s.reg (Reg.STALL_STATE st)) 1 0 ≠ 0) :
    (freezeStalls c s).reg (Reg.STALL_STATE st) = 2 ∧ (freezeStalls c s).reg (Reg.STALL_RESIDENT st) = 0 ∧
      ((freezeStalls c s).stall st).slot = none := by
  obtain ⟨a, ha, hview⟩ := freezeStalls_view (s := s) (c := c) hst
  simp only [stallView, Prod.mk.injEq] at ha hview
  obtain ⟨hp, hs, -, -⟩ := ha
  obtain ⟨-, hstate', hres, hstall⟩ := hview
  have heq : freezeStall c a st = (a.teardownStall st).setReg (Reg.STALL_STATE st) 2 := if_pos (by rw [hp, hs]; exact ⟨hpitch, hstate⟩)
  have hne : Reg.STALL_RESIDENT st ≠ Reg.STALL_STATE st := header_ne (by decide)
  have hslot := teardownStall_slot (s := a) st
  have hended := teardownStall_resident (s := a) st
  rw [hstate', hres, hstall, heq]
  generalize a.teardownStall st = u at hslot hended
  exact ⟨reg_setReg_same u _ 2, (reg_setReg_other u hne 2).trans hended, hslot⟩

/-- A stall whose pitch does not hold the channel is left as it was. -/
theorem freezeStalls_miss {st : Nat} (hst : st < 8) (hpitch : (bits (s.reg (Reg.STALL_PITCH st)) 7 0).testBit c = false) :
    (freezeStalls c s).reg (Reg.STALL_STATE st) = s.reg (Reg.STALL_STATE st) ∧
      (freezeStalls c s).reg (Reg.STALL_RESIDENT st) = s.reg (Reg.STALL_RESIDENT st) := by
  obtain ⟨a, ha, hview⟩ := freezeStalls_view (s := s) (c := c) hst
  simp only [stallView, Prod.mk.injEq] at ha hview
  obtain ⟨hp, hs, hr, -⟩ := ha
  obtain ⟨-, hstate', hres, -⟩ := hview
  have heq : freezeStall c a st = a := if_neg (by rw [hp, hpitch]; exact fun h => Bool.false_ne_true h.1)
  rw [hstate', hres, heq]
  exact ⟨hs, hr⟩

/-- The stalls in a freeze leave the other pages and the DRAM. -/
theorem freezeStalls_outside {k : Nat} (hk : 0x300 * 4096 ≤ k) : (freezeStalls c s).reg k = s.reg k := by
  refine List.foldlRecOn (motive := fun a : State => a.reg k = s.reg k) _ _ rfl fun a ha n hn => ?_
  have hn := List.mem_range.mp hn
  have hne {o : Nat} (ho : o < 4096) : k ≠ rkey (0x018 + n) o := by unfold rkey; omega
  have hout : k ∉ frozenRegs n := by
    simp only [frozenRegs, List.mem_cons, List.not_mem_nil, or_false, not_or]
    exact ⟨hne (by decide), hne (by decide), hne (by decide)⟩
  exact ((freezeStall_context c n).reg k hout (.inr (by omega))).trans ha

theorem freezeStalls_dram : (freezeStalls c s).drams = s.drams ∧
    ∀ k, flatIsDram k = true → (freezeStalls c s).byte k = s.byte k := by
  refine foldl_keeps (P := fun a : State => a.drams = s.drams ∧ ∀ k, flatIsDram k = true → a.byte k = s.byte k)
    (f := freezeStall c) (fun a n ha => ?_) _ ⟨rfl, fun _ _ => rfl⟩
  obtain ⟨hdrams, hbyte⟩ := ha
  have h := freezeStall_context (s := a) c n
  exact ⟨h.drams.trans hdrams, fun k hk => (h.byte hk).trans (hbyte k hk)⟩

/-- A channel that freezes shows it, with its cause, and its stalls are torn down; other channels keep their bytes. -/
structure Frozen (c cause : Nat) (s t : State) : Prop where
  state : t.chanState c = 2
  cause : t.reg (Reg.DC_FRZ_CAUSE c) = BitVec.ofNat 32 (cause + 65536 * (s.tick.toNat % 65536))
  count : t.reg (Reg.DC_FREEZE c) = s.counted (Reg.DC_FREEZE c)
  epoch : t.epoch c = s.epoch c + 1
  byte : ∀ k, flatIsDram k = true → k / 2 ^ 34 ≠ c → t.byte k = s.byte k
  hit : ∀ st < 8, (bits (s.reg (Reg.STALL_PITCH st)) 7 0).testBit c = true → bits (s.reg (Reg.STALL_STATE st)) 1 0 ≠ 0 →
    t.reg (Reg.STALL_STATE st) = 2 ∧ t.reg (Reg.STALL_RESIDENT st) = 0 ∧ (t.stall st).slot = none
  miss : ∀ st < 8, (bits (s.reg (Reg.STALL_PITCH st)) 7 0).testBit c = false →
    t.reg (Reg.STALL_STATE st) = s.reg (Reg.STALL_STATE st) ∧ t.reg (Reg.STALL_RESIDENT st) = s.reg (Reg.STALL_RESIDENT st)

theorem SameStalls.reg {a b : State} (h : SameStalls a b) (k : Nat) : b.reg k = a.reg k := by rw [State.reg, State.reg, h.regs]

theorem freeze_frozen (hserves : s.chanState c ≠ 2) (off : Option Nat) : Frozen c cause s (s.freeze c cause off) := by
  obtain ⟨u, hu, hsame⟩ := freeze_start (cause := cause) hserves off
  have hreg := hsame.reg
  have hpage {o : Nat} := le_rkey_channel c o
  have hstall {st o : Nat} (hst : st < 8) (ho : o < 4096) : u.reg (rkey (0x018 + st) o) = s.reg (rkey (0x018 + st) o) :=
    hu.reg _ (by unfold rkey; omega)
  obtain ⟨hdrams, hbytes⟩ := freezeStalls_dram (c := c) (s := u)
  refine ⟨?_, ?_, ?_, ?_, fun k hk hne => ?_, fun st hst hp hs => ?_, fun st hst hp => ?_⟩
  · have hstate := (hreg (Reg.DC_STATE c)).trans ((freezeStalls_outside hpage).trans hu.state)
    rw [State.chanState, hstate]
    decide
  · exact (hreg _).trans ((freezeStalls_outside hpage).trans hu.cause)
  · exact (hreg _).trans ((freezeStalls_outside hpage).trans hu.count)
  · rw [State.epoch, hsame.drams, hdrams]
    exact hu.epoch
  · have hsettled : (s.freeze c cause off).byte k = (freezeStalls c u).byte k := by
      rw [State.byte, State.byte, State.epoch, State.epoch, hsame.drams, hsame.mem]
    exact hsettled.trans ((hbytes k hk).trans (hu.byte k hk hne))
  · have hp' : u.reg (Reg.STALL_PITCH st) = s.reg (Reg.STALL_PITCH st) := hstall hst (by decide)
    have hs' : u.reg (Reg.STALL_STATE st) = s.reg (Reg.STALL_STATE st) := hstall hst (by decide)
    obtain ⟨hstate, hres, hslot⟩ := freezeStalls_hit (s := u) hst (by rw [hp']; exact hp) (by rw [hs']; exact hs)
    refine ⟨(hreg _).trans hstate, (hreg _).trans hres, ?_⟩
    rw [State.stall, hsame.stalls]
    exact hslot
  · have hp' : u.reg (Reg.STALL_PITCH st) = s.reg (Reg.STALL_PITCH st) := hstall hst (by decide)
    obtain ⟨hstate, hres⟩ := freezeStalls_miss (s := u) hst (by rw [hp']; exact hp)
    exact ⟨(hreg _).trans (hstate.trans (hstall hst (by decide))), (hreg _).trans (hres.trans (hstall hst (by decide)))⟩

end Freeze

/-- Settles O24: the fault's record and the end of its slot; the freeze's record and its stalls. -/
theorem jobFaultsAndFrozenChannels : Obligations.JobFaultsAndFrozenChannels := by
  unfold Obligations.JobFaultsAndFrozenChannels
  refine ⟨fun s st cause x hst hx hjob => ?_, fun s c cause off _ hserves => ?_⟩
  · obtain ⟨hslot, hinfo, hmarked, hrest⟩ := jobFault_shown (cause := cause) hst hx
    exact ⟨hslot, hinfo, hmarked hjob, hrest⟩
  have h := freeze_frozen (cause := cause) hserves off
  refine ⟨h.state, h.cause, h.count, fun st hst hp hs => ?_, h.miss⟩
  obtain ⟨hstate, hres, -⟩ := h.hit st hst hp hs
  exact ⟨hstate, hres⟩

end Sys2Proof.Laws
end

section
/-!
SUPPORT. The staging DMA (R42, R412, R430): entries that wait, transfers that begin, and what a completed transfer leaves; the
settling of O25.
-/
namespace Sys2Proof.Laws
open Sys2Proof.Machine

section Staging
variable {s : State}

/-! ## Entries -/

theorem exec_stagingDmaEntry {i : EntryIx} {e : Entry} (he : s.entryFor i.val 0x22 0x22 2 = some e) (x : Transfer) :
    exec (.stagingDmaEntry i x) s = done (if s.ledger.staging.isSome then
      { s with ledger := { s.ledger with stagingWait := s.ledger.stagingWait ++ [x] } } else s.stageStart x) := by
  show execStagingDmaEntry i x s = _
  simp only [execStagingDmaEntry, he]

/-- A source outside the pools needs no check. -/
theorem stageCheck_free {src : Option Ptr} (h : ∀ p, src = some p → s.inPoolRegion p = false) (st : Nat) :
    s.stageCheck st src = (s, true) := by
  cases src with
  | none => rfl
  | some p => exact if_pos (h p rfl)

/-- The record of a transfer that begins: its addresses as the tick's parity relocates them (R430). -/
def stagingOf (s : State) (x : Transfer) : Staging :=
  ⟨x.src.map (s.relocate s.unitOdd), x.dst.map (s.relocate s.unitOdd), x.hostAddr.toNat, x.len, x.stall.val, x.streams.map Fin.val⟩

/-- What a transfer leaves when it has begun: its record; the endpoint may ask for its data. -/
theorem stageStart_begun {x : Transfer}
    (hfree : ∀ p, x.src = some p → (s.ledgerWrites x.regWrites).inPoolRegion (s.relocate s.unitOdd p) = false) :
    (s.stageStart x).ledger.staging = some (stagingOf s x) ∧ (s.stageStart x).regs = (s.ledgerWrites x.regWrites).regs ∧
      (s.stageStart x).mem = (s.ledgerWrites x.regWrites).mem ∧ (s.stageStart x).drams = (s.ledgerWrites x.regWrites).drams := by
  have hcheck := stageCheck_free (s := s.ledgerWrites x.regWrites) (src := x.src.map (s.relocate s.unitOdd)) (by
    rintro p hp
    obtain ⟨p', hp', rfl⟩ := Option.map_eq_some_iff.mp hp
    exact hfree p' hp') x.stall.val
  unfold State.stageStart
  generalize s.ledgerWrites x.regWrites = u at hcheck
  simp only [hcheck, Bool.true_eq_false, if_false]
  split
  · exact ⟨rfl, rfl, rfl, rfl⟩
  · exact ⟨rfl, rfl, rfl, rfl⟩

/-! ## Completion -/

/-- The state in which a transfer's bytes arrive: no transfer runs, and its reads have ended. -/
def stagingEnded (s : State) : State := { s with ledger := { s.ledger with staging := none } }.endReads Egress.isHostRead

theorem stagingEnded_sameAccess (s : State) : SameAccess s (stagingEnded s) := ⟨rfl, rfl, rfl, rfl, rfl, fun _ _ => rfl⟩

theorem exec_stagingDmaDone_idle {d : List Byte} (h : s.ledger.staging = none) : exec (.stagingDmaDone d) s = done s := by
  show execStagingDmaDone d s = _
  simp only [execStagingDmaDone, h]

/-- A transfer that needs the link waits while the endpoint issues no request. -/
theorem exec_stagingDmaDone_held {d : List Byte} {g : Staging} (h : s.ledger.staging = some g) (hlink : g.src = none ∨ g.dst = none)
    (hissue : s.mayIssue = false) : exec (.stagingDmaDone d) s = done s := by
  have hc : (g.src.isNone = true ∨ g.dst.isNone = true) ∧ s.mayIssue = false := by
    simpa only [Option.isNone_iff_eq_none] using And.intro hlink hissue
  show execStagingDmaDone d s = _
  simp only [execStagingDmaDone, h]
  rw [if_pos hc]

theorem exec_stagingDmaDone {d : List Byte} {g : Staging} (h : s.ledger.staging = some g) (hsrc : g.src = none)
    (hissue : s.mayIssue = true) : exec (.stagingDmaDone d) s = done (if d.length < g.len then
      ((stagingEnded s).markUnstaged g.dst g.len g.stall g.streams).stageNext
      else ((stagingEnded s).stageWriteOut g (d.take g.len)).stageNext) := by
  have hc : ¬ ((g.src.isNone = true ∨ g.dst.isNone = true) ∧ s.mayIssue = false) := by simp [hissue]
  show execStagingDmaDone d s = _
  unfold execStagingDmaDone
  simp only [h]
  rw [if_neg hc]
  simp only [State.stagingBytes, hsrc]
  by_cases hlen : d.length < g.len
  · simp only [hlen, if_true]
    rfl
  · simp only [hlen, if_false]
    rfl

theorem stageNext_none {t : State} (h : t.ledger.stagingWait = []) : t.stageNext = t := by
  unfold State.stageNext
  rw [h]

/-- Too few bytes mark the buffer. -/
theorem stagingDmaDone_short {d : List Byte} {g : Staging} {p : Ptr} {k : Nat} (h : s.ledger.staging = some g) (hsrc : g.src = none)
    (hdst : g.dst = some p) (hissue : s.mayIssue = true) (hwait : s.ledger.stagingWait = []) (hk : s.flat p = some k)
    (hlen : d.length < g.len) : ∃ t, exec (.stagingDmaDone d) s = .next t ∧ t.ledger.staging = none ∧
      mapGet t.ledger.unstaged k = some (g.stall, g.len, g.streams) ∧ SameRegs [] s t ∧ SameBytes s t := by
  have hflat : (stagingEnded s).flat p = some k := ((stagingEnded_sameAccess s).flat p).trans hk
  have hmark : (stagingEnded s).markUnstaged g.dst g.len g.stall g.streams = { stagingEnded s with ledger :=
      { (stagingEnded s).ledger with unstaged := mapIns k (g.stall, g.len, g.streams) (stagingEnded s).ledger.unstaged } } := by
    unfold State.markUnstaged
    rw [hdst, Option.bind_some, hflat]
  have hnext := stageNext_none (t := (stagingEnded s).markUnstaged g.dst g.len g.stall g.streams) (by rw [hmark]; exact hwait)
  rw [exec_stagingDmaDone h hsrc hissue, if_pos hlen, hnext, hmark]
  exact ⟨_, rfl, rfl, mapGet_ins_same _ _ _, sameRegs_settle fun _ _ _ => rfl, fun _ => rfl⟩

/-- A write to the buffer that nothing refuses stores the bytes, and the buffer counts as staged. -/
theorem stageWriteOut_served {g : Staging} {p : Ptr} {k : Nat} {d : List Byte} (hdst : g.dst = some p) (hk : s.flat p = some k)
    (hbank : ¬ (p.store = .common ∧ 0x2E00000 < p.addr + d.length)) (hrest : s.AtRest) (hr : s.refusesAccess p d.length = none) :
    s.stageWriteOut g d = { s.pokes p d with ledger := { s.ledger with unstaged := mapDel k s.ledger.unstaged } } := by
  have hflat : (s.pokes p d).flat p = some k := hk
  unfold State.stageWriteOut
  simp only [hdst, if_neg hbank, write_served hrest hr, ne_eq, not_true_eq_false, if_false, hflat]
  rfl

/-- Enough bytes go to the buffer, which counts as staged. -/
theorem stagingDmaDone_written {d : List Byte} {g : Staging} {p : Ptr} {k : Nat} (h : s.ledger.staging = some g) (hsrc : g.src = none)
    (hdst : g.dst = some p) (hissue : s.mayIssue = true) (hwait : s.ledger.stagingWait = []) (hk : s.flat p = some k)
    (hlen : g.len ≤ d.length) (hr : s.refusesAccess p g.len = none) (hrest : s.AtRest)
    (hbank : ¬ (p.store = .common ∧ 0x2E00000 < p.addr + g.len)) : ∃ t, exec (.stagingDmaDone d) s = .next t ∧
      t.ledger.staging = none ∧ mapGet t.ledger.unstaged k = none ∧ t.mem = (s.pokes p (d.take g.len)).mem ∧ SameRegs [] s t := by
  have hacc := stagingEnded_sameAccess s
  have htake : (d.take g.len).length = g.len := List.length_take_of_le hlen
  have hout := stageWriteOut_served (s := stagingEnded s) (d := d.take g.len) hdst ((hacc.flat p).trans hk)
    (by rw [htake]; exact hbank) (hacc.atRest hrest) (by rw [htake]; exact hacc.refusesAccess_eq_none hr)
  have hmem : ((stagingEnded s).pokes p (d.take g.len)).mem = (s.pokes p (d.take g.len)).mem := by
    simp only [State.pokes, hacc.mem, funext hacc.flat]
  have hnext := stageNext_none (t := (stagingEnded s).stageWriteOut g (d.take g.len)) (by rw [hout]; exact hwait)
  rw [exec_stagingDmaDone h hsrc hissue, if_neg (by omega), hnext, hout]
  exact ⟨_, rfl, rfl, mapGet_del_same _ _, hmem, sameRegs_settle fun _ _ _ => rfl⟩

end Staging

/-- Settles O25: an entry waits or begins; a completion writes its bytes, marks its buffer, or waits for the link. -/
theorem stagingTransfers : Obligations.StagingTransfers := by
  unfold Obligations.StagingTransfers
  refine ⟨fun i x s e he => ⟨fun hruns => ?_, fun hnone hfree => ?_⟩, fun d s hnone =>
      ⟨_, exec_stagingDmaDone_idle hnone, rfl, sameRegs_settle fun _ _ _ => rfl, fun _ => rfl⟩,
    fun d s g hg hlink hissue => ⟨_, exec_stagingDmaDone_held hg hlink hissue, rfl, sameRegs_settle fun _ _ _ => rfl, fun _ => rfl⟩,
    fun d s g p k hg hsrc hdst hissue hwait hk =>
      ⟨fun hlen hr hrest hbank => stagingDmaDone_written hg hsrc hdst hissue hwait hk hlen hr hrest hbank,
        fun hlen => stagingDmaDone_short hg hsrc hdst hissue hwait hk hlen⟩⟩
  · rw [exec_stagingDmaEntry he, if_pos hruns]
    exact ⟨_, rfl, rfl, rfl, sameRegs_settle fun _ _ _ => rfl, fun _ => rfl⟩
  · have hidle : ¬ s.ledger.staging.isSome = true := by simp [hnone]
    obtain ⟨hstaging, hregs, hmem, hdrams⟩ := stageStart_begun hfree
    rw [exec_stagingDmaEntry he, if_neg hidle]
    exact ⟨_, rfl, hstaging, sameBytes_of_mem_drams hmem hdrams,
      sameRegs_settle fun k _ _ => congrArg (fun l => mapGetD l k (regReset k)) hregs⟩

end Sys2Proof.Laws
end

section
/-!
SUPPORT. The DRAM channels' batches (R296, R301, R304, R432): which requests a batch takes, the rows that they open, what each is
answered and what bytes each writes.
-/
namespace Sys2Proof.Laws
open Sys2Proof.Machine

/-! ## Registers and rows of a channel -/

theorem channelReg_not_mem_riseTallies {c o : Nat} (hc : c < 8) (ho : o < 4096) : rkey (0x300 + c) o ∉ riseTallies := by
  have hk : keyPage (rkey (0x300 + c) o) = 0x300 + c := keyPage_rkey (by omega) ho
  exact not_mem_riseTallies_of_page (by omega) (by omega) (by omega)

/-- Of a channel only its rows and activations differ, of the registers only the count of refresh management commands; the stores'
bytes and what was sent are not spoken of. -/
structure RowsOpened (c : Nat) (s t : State) : Prop where
  reg : ∀ k, k ≠ Reg.DC_RFM_ISSUED c → t.reg k = s.reg k
  power : t.power = s.power
  upsets : t.upsets = s.upsets
  dram : ∃ x y, t.dram c = { s.dram c with activations := x, openRows := y }
  other : ∀ n, n ≠ c → t.dram n = s.dram n

/-- The rows of a channel, and no byte and nothing that was sent. -/
structure RowsOnly (c : Nat) (s t : State) : Prop extends RowsOpened c s t where
  mem : t.mem = s.mem
  egress : t.egress = s.egress

section Rows
variable {c : Nat} {s a b : State}

theorem RowsOpened.refl (c : Nat) (s : State) : RowsOpened c s s := ⟨fun _ _ => rfl, rfl, rfl, ⟨_, _, rfl⟩, fun _ _ => rfl⟩

theorem RowsOpened.trans (h : RowsOpened c s a) (h' : RowsOpened c a b) : RowsOpened c s b := by
  obtain ⟨x, y, hdram⟩ := h.dram
  obtain ⟨x', y', hdram'⟩ := h'.dram
  refine ⟨fun k hk => (h'.reg k hk).trans (h.reg k hk), h'.power.trans h.power, h'.upsets.trans h.upsets, ⟨x', y', ?_⟩,
    fun n hn => (h'.other n hn).trans (h.other n hn)⟩
  rw [hdram', hdram]

theorem RowsOpened.epoch (h : RowsOpened c s a) (n : Nat) : a.epoch n = s.epoch n := by
  by_cases hn : n = c
  · subst hn
    obtain ⟨x, y, hdram⟩ := h.dram
    have hepoch := congrArg Dram.epoch hdram
    exact hepoch
  · exact congrArg Dram.epoch (h.other n hn)

theorem RowsOpened.queue (h : RowsOpened c s a) (sub : Bool) : (a.dram c).queue sub = (s.dram c).queue sub := by
  obtain ⟨x, y, hdram⟩ := h.dram
  rw [hdram]
  rfl

theorem RowsOpened.chanServes (h : RowsOpened c s a) : a.chanServes c = s.chanServes c := by
  have hne : Reg.DC_STATE c ≠ Reg.DC_RFM_ISSUED c := header_ne (by decide)
  simp only [State.chanServes, State.chanState, State.domOn, State.domState, h.reg _ hne, h.power]

theorem RowsOnly.trans (h : RowsOnly c s a) (h' : RowsOnly c a b) : RowsOnly c s b :=
  ⟨h.toRowsOpened.trans h'.toRowsOpened, h'.mem.trans h.mem, h'.egress.trans h.egress⟩

theorem RowsOnly.byte (h : RowsOnly c s a) (k : Nat) : a.byte k = s.byte k := by
  simp only [State.byte, h.mem, h.epoch]

/-- A channel whose rows and activations are set. -/
theorem rowsOnly_setDram (s : State) (c : Nat) (x y : Tbl Nat) :
    RowsOnly c s (s.setDram c { s.dram c with activations := x, openRows := y }) :=
  ⟨⟨fun _ _ => rfl, rfl, rfl, ⟨x, y, dram_setDram_same s c _⟩, fun _ hn => dram_setDram_other s hn _⟩, rfl, rfl⟩

theorem activate_rowsOnly (s : State) (c offset : Nat) : RowsOnly c s (s.activate c offset) := by
  unfold State.activate
  extract_lets k d n lim s1 n1
  have h1 : RowsOnly c s s1 ∧ s1.dram c = d := by
    by_cases h : lim ≤ n
    · have heq : s1 = s.tally (Reg.DC_RFM_ISSUED c) := if_pos h
      rw [heq]
      exact ⟨⟨⟨fun k hk => reg_tally_other s hk, rfl, rfl, ⟨_, _, rfl⟩, fun _ _ => rfl⟩, rfl, rfl⟩, rfl⟩
    · have heq : s1 = s := if_neg h
      rw [heq]
      exact ⟨⟨RowsOpened.refl c s, rfl, rfl⟩, rfl⟩
  obtain ⟨hrows, hd⟩ := h1
  rw [← hd]
  exact hrows.trans (rowsOnly_setDram s1 c _ (s1.dram c).openRows)

theorem openRow_rowsOnly (s : State) (c offset : Nat) (keep : Bool) : RowsOnly c s (s.openRow c offset keep) := by
  unfold State.openRow
  extract_lets l s1 d
  have h1 : RowsOnly c s s1 := by
    by_cases h : mapGet (s.dram c).openRows l.bankKey = some l.row
    · have heq : s1 = s := if_pos h
      rw [heq]
      exact ⟨RowsOpened.refl c s, rfl, rfl⟩
    · have heq : s1 = s.activate c offset := if_neg h
      rw [heq]
      exact activate_rowsOnly s c offset
  exact h1.trans (rowsOnly_setDram s1 c (s1.dram c).activations _)

theorem closeRows_rowsOnly (s : State) (c : Nat) (p : Nat → Bool) : RowsOnly c s (s.closeRows c p) :=
  rowsOnly_setDram s c (s.dram c).activations _

end Rows

/-! ## The requests that a batch takes (R296) -/

/-- Reads go before writes in a batch. -/
theorem takeBatch_parts (q : List DramReq) (held : BitVec 32) : ∃ rs ws : List DramReq, (takeBatch q held).1 = rs ++ ws ∧
    (∀ x ∈ rs, x.write = none) ∧ (∀ x ∈ ws, x.write ≠ none) ∧ (takeBatch q held).1.filter (fun x => x.write.isSome) = ws := by
  refine ⟨_, _, rfl, fun x hx => ?_, fun x hx => ?_, ?_⟩
  · exact Option.isNone_iff_eq_none.mp (List.mem_filter.mp hx).2
  · exact Option.isSome_iff_ne_none.mp (List.mem_filter.mp hx).2
  · have hreads (l : List DramReq) : (l.filter (fun r => r.write.isNone)).filter (fun x => x.write.isSome) = [] := by
      rw [List.filter_filter, List.filter_eq_nil_iff]
      intro x _
      cases x.write <;> simp
    simp only [takeBatch, List.filter_append, hreads, List.nil_append, List.filter_filter, Bool.and_self]

/-! ## A request's service (R296, R432) -/

/-- The burst of a request. -/
def burstOf (c : Nat) (r : DramReq) : Nat := c * 2 ^ 34 + r.offset.toNat / 64 * 64

/-- Bytes of the DRAM put from a flat number on. -/
def putFlat (s : State) (k : Nat) (d : List Byte) : State :=
  { s with mem := pokeList (fun p => some p.addr) { store := .dram, addr := k } d s.mem }

theorem byte_putFlat (s : State) (k : Nat) (d : List Byte) (j : Nat) :
    (putFlat s k d).byte j = if k ≤ j ∧ j < k + d.length then d.getD (j - k) 0 else s.byte j := by
  induction d generalizing s k with
  | nil =>
    have hno : ¬ (k ≤ j ∧ j < k + ([] : List Byte).length) := by rw [List.length_nil]; omega
    rw [if_neg hno]
    rfl
  | cons b r ih =>
    refine (ih (s.putByte k b) (k + 1)).trans ?_
    rw [byte_putByte, List.length_cons]
    by_cases hj : j = k
    · have h1 : ¬ (k + 1 ≤ j ∧ j < k + 1 + r.length) := by omega
      have h2 : k ≤ j ∧ j < k + (r.length + 1) := by omega
      rw [if_neg h1, if_pos hj, if_pos h2, hj, Nat.sub_self, List.getD_cons_zero]
    · rw [if_neg hj]
      by_cases hin : k + 1 ≤ j ∧ j < k + 1 + r.length
      · have h2 : k ≤ j ∧ j < k + (r.length + 1) := by omega
        have h3 : j - k = (j - (k + 1)) + 1 := by omega
        rw [if_pos hin, if_pos h2, h3, List.getD_cons_succ]
      · have h2 : ¬ (k ≤ j ∧ j < k + (r.length + 1)) := by omega
        rw [if_neg hin, if_neg h2]

/-- The answer to a request of a batch that is served: a read's burst, or no data. -/
def batchAnswer (s : State) (c : Nat) (r : DramReq) : Egress :=
  .dramResponse r.initiator.val (if r.write = none then s.burst (burstOf c r) else []) false false

section Serve
variable {c : Nat} {s : State} {r : DramReq}

/-- A read is answered with its burst and writes nothing. -/
theorem dramServe_read (hserves : s.chanServes c = true) (hup : s.upsets = []) (hw : r.write = none) :
    RowsOpened c s (s.dramServe c r) ∧ (s.dramServe c r).egress = s.egress ++ [batchAnswer s c r] ∧
      ∀ k, (s.dramServe c r).byte k = s.byte k := by
  have hrow := openRow_rowsOnly s c r.offset.toNat r.keepOpen
  have hnot : ¬ s.chanServes c = false := by rw [hserves]; exact Bool.noConfusion
  have heq : s.dramServe c r = (s.openRow c r.offset.toNat r.keepOpen).send (batchAnswer s c r) := by
    unfold State.dramServe
    simp only [if_neg hnot, hw, meetErrors_of_nil (hrow.upsets.trans hup), batchAnswer, State.burst, hrow.byte, burstOf, if_true]
    rfl
  rw [heq]
  generalize s.openRow c r.offset.toNat r.keepOpen = u at hrow
  exact ⟨⟨hrow.reg, hrow.power, hrow.upsets, hrow.dram, hrow.other⟩, congrArg (· ++ [batchAnswer s c r]) hrow.egress, hrow.byte⟩

/-- A write is answered without data; its bytes stand in its burst, and no others change. -/
theorem dramServe_write (hserves : s.chanServes c = true) (hup : s.upsets = []) {o : BitVec 6} {d : List Byte} (hw : r.write = some (o, d)) :
    RowsOpened c s (s.dramServe c r) ∧ (s.dramServe c r).egress = s.egress ++ [batchAnswer s c r] ∧
      ∀ k, (s.dramServe c r).byte k = if burstOf c r + o.toNat ≤ k ∧ k < burstOf c r + o.toNat + (d.take (64 - o.toNat)).length then
        (d.take (64 - o.toNat)).getD (k - (burstOf c r + o.toNat)) 0 else s.byte k := by
  have hrow := openRow_rowsOnly s c r.offset.toNat r.keepOpen
  have hnot : ¬ s.chanServes c = false := by rw [hserves]; exact Bool.noConfusion
  generalize hu : s.openRow c r.offset.toNat r.keepOpen = u at hrow
  have hup' : u.upsets = [] := hrow.upsets.trans hup
  have hdel : mapDel (burstOf c r) u.upsets = u.upsets := by rw [hup']; rfl
  have heq : s.dramServe c r = (putFlat u (burstOf c r + o.toNat) (d.take (64 - o.toNat))).send (batchAnswer s c r) := by
    unfold State.dramServe
    simp only [if_neg hnot, hw, hu, meetErrors_of_nil hup', ite_self, batchAnswer, reduceCtorEq, if_false]
    rw [show mapDel (c * 2 ^ 34 + r.offset.toNat / 64 * 64) u.upsets = u.upsets from hdel]
    rfl
  rw [heq]
  refine ⟨⟨hrow.reg, hrow.power, hrow.upsets, hrow.dram, hrow.other⟩, congrArg (· ++ [batchAnswer s c r]) hrow.egress, fun k => ?_⟩
  rw [← hrow.byte k]
  exact byte_putFlat u _ _ k

theorem batchAnswer_congr {a : State} (h : ∀ k, a.byte k = s.byte k) : batchAnswer a c = batchAnswer s c := by
  funext r
  simp only [batchAnswer, State.burst, h]

/-- A write's bytes lie in its burst. -/
theorem dramServe_outside (hserves : s.chanServes c = true) (hup : s.upsets = []) (hw : r.write ≠ none) {k : Nat}
    (hk : ¬ (burstOf c r ≤ k ∧ k < burstOf c r + 64)) : (s.dramServe c r).byte k = s.byte k := by
  obtain ⟨⟨o, d⟩, hw⟩ := Option.ne_none_iff_exists'.mp hw
  obtain ⟨-, -, hbyte⟩ := dramServe_write hserves hup hw
  have hlen : (d.take (64 - o.toNat)).length ≤ 64 - o.toNat := List.length_take_le _ _
  have ho := o.isLt
  rw [hbyte, if_neg (by omega)]

/-- The reads of a batch are answered with their bursts. -/
theorem serveReads (hserves : s.chanServes c = true) (hup : s.upsets = []) (l : List DramReq) (hl : ∀ x ∈ l, x.write = none) :
    RowsOpened c s (l.foldl (fun (a : State) r => a.dramServe c r) s) ∧
    (l.foldl (fun (a : State) r => a.dramServe c r) s).egress = s.egress ++ l.map (batchAnswer s c) ∧
    ∀ k, (l.foldl (fun (a : State) r => a.dramServe c r) s).byte k = s.byte k := by
  induction l generalizing s with
  | nil => exact ⟨RowsOpened.refl c s, (List.append_nil _).symm, fun _ => rfl⟩
  | cons r l ih =>
    obtain ⟨hrows, hegress, hbyte⟩ := dramServe_read hserves hup (hl r List.mem_cons_self)
    obtain ⟨hrows', hegress', hbyte'⟩ := ih (s := s.dramServe c r) (hrows.chanServes.trans hserves) (hrows.upsets.trans hup)
      (fun x hx => hl x (List.mem_cons_of_mem r hx))
    refine ⟨hrows.trans hrows', ?_, fun k => (hbyte' k).trans (hbyte k)⟩
    rw [List.foldl_cons, hegress', hegress, batchAnswer_congr hbyte, List.append_assoc]
    rfl

/-- The writes of a batch are answered without data, and change bytes of their bursts only. -/
theorem serveWrites (hserves : s.chanServes c = true) (hup : s.upsets = []) (l : List DramReq) (hl : ∀ x ∈ l, x.write ≠ none) (u : State) :
    RowsOpened c s (l.foldl (fun (a : State) r => a.dramServe c r) s) ∧
    (l.foldl (fun (a : State) r => a.dramServe c r) s).egress = s.egress ++ l.map (batchAnswer u c) ∧
    ∀ k, (∀ x ∈ l, ¬ (burstOf c x ≤ k ∧ k < burstOf c x + 64)) →
      (l.foldl (fun (a : State) r => a.dramServe c r) s).byte k = s.byte k := by
  induction l generalizing s with
  | nil => exact ⟨RowsOpened.refl c s, (List.append_nil _).symm, fun _ _ => rfl⟩
  | cons r l ih =>
    have hw := hl r List.mem_cons_self
    obtain ⟨⟨o, d⟩, hw'⟩ := Option.ne_none_iff_exists'.mp hw
    obtain ⟨hrows, hegress, -⟩ := dramServe_write hserves hup hw'
    obtain ⟨hrows', hegress', hbyte'⟩ := ih (s := s.dramServe c r) (hrows.chanServes.trans hserves) (hrows.upsets.trans hup)
      (fun x hx => hl x (List.mem_cons_of_mem r hx))
    have hanswer : batchAnswer s c r = batchAnswer u c r := by simp only [batchAnswer, if_neg hw]
    refine ⟨hrows.trans hrows', ?_, fun k hk => ?_⟩
    · rw [List.foldl_cons, hegress', hegress, hanswer, List.append_assoc]
      rfl
    · exact (hbyte' k fun x hx => hk x (List.mem_cons_of_mem r hx)).trans (dramServe_outside hserves hup hw (hk r List.mem_cons_self))

end Serve

/-! ## DRAM_BATCH -/

section Batch
variable {s : State} {dc : Fin 8} {sub : Bool} {new q : List DramReq} {held : BitVec 32}

/-- What the outputs bring goes out after what a command sent. -/
theorem egress_settle (t : State) : ∃ z, (settle t).egress = t.egress ++ z := ⟨_, rfl⟩

theorem chanServes_congr {t : State} {c : Nat} (hstate : t.reg (Reg.DC_STATE c) = s.reg (Reg.DC_STATE c)) (hpower : t.power = s.power) :
    t.chanServes c = s.chanServes c := by
  simp only [State.chanServes, State.chanState, State.domOn, State.domState, hstate, hpower]

theorem queue_setQueue (d : Dram) (sub : Bool) (q : List DramReq) : (d.setQueue sub q).queue sub = q := by cases sub <;> rfl

theorem epoch_setQueue (d : Dram) (sub : Bool) (q : List DramReq) : (d.setQueue sub q).epoch = d.epoch := by cases sub <;> rfl

/-- A channel whose queue is set keeps its bytes. -/
theorem byte_setDram (c : Nat) {d : Dram} (h : d.epoch = (s.dram c).epoch) (k : Nat) : (s.setDram c d).byte k = s.byte k := by
  have hepoch (n : Nat) : (s.setDram c d).epoch n = s.epoch n := by
    by_cases hn : n = c
    · subst hn
      exact (congrArg Dram.epoch (dram_setDram_same s n d)).trans h
    · exact congrArg Dram.epoch (dram_setDram_other s hn d)
  simp only [State.byte, hepoch, setDram_mem]

/-- The banks that a batch needs. -/
def batchBanks (s : State) (c : Nat) (q : List DramReq) (held : BitVec 32) (k : Nat) : Bool :=
  ((takeBatch q held).1.map (fun r => (dramLoc (s.reg (Reg.DC_CFG c)) r.offset.toNat).bankKey)).contains k

/-- An open channel when the requests of a batch have left its queue. -/
def batchStart (s : State) (c : Nat) (sub : Bool) (q : List DramReq) (held : BitVec 32) : State :=
  ((s.setDram c ((s.dram c).setQueue sub (takeBatch q held).2)).closeRows c (batchBanks s c q held)).count
      (Reg.DC_SPREAD_HOLD c) (q.zipIdx.filter (fun x => held.getLsbD x.2)).length

theorem exec_dramBatch_open (hq : q = (s.dram dc.val).queue sub ++ new) (hserves : s.chanServes dc.val = true)
    (hopen : (s.dram dc.val).closed = false) : exec (.dramBatch dc sub new held []) s =
      done ((takeBatch q held).1.foldl (fun (a : State) r => a.dramServe dc.val r) (batchStart s dc.val sub q held)) := by
  show execDramBatch dc sub new held [] s = _
  unfold execDramBatch
  rw [show s.addSoft [] = s from rfl]
  simp only [hserves, hopen, Bool.true_eq_false, Bool.false_eq_true, if_false, ← hq]
  rfl

/-- The requests leave the queue; nothing else but the count of held ones changes. -/
theorem batchStart_frame (s : State) (c : Nat) (sub : Bool) (q : List DramReq) (held : BitVec 32) :
    (∀ k, k ≠ Reg.DC_SPREAD_HOLD c → (batchStart s c sub q held).reg k = s.reg k) ∧
    (batchStart s c sub q held).chanServes c = s.chanServes c ∧ (batchStart s c sub q held).upsets = s.upsets ∧
    ((batchStart s c sub q held).dram c).queue sub = (takeBatch q held).2 ∧
    (batchStart s c sub q held).egress = s.egress ∧ ∀ k, (batchStart s c sub q held).byte k = s.byte k := by
  unfold batchStart
  generalize batchBanks s c q held = p
  generalize hd : (s.dram c).setQueue sub (takeBatch q held).2 = d
  have hrows := closeRows_rowsOnly (s.setDram c d) c p
  have hepoch : d.epoch = (s.dram c).epoch := by rw [← hd, epoch_setQueue]
  have hqueue : ((s.setDram c d).dram c).queue sub = (takeBatch q held).2 := by rw [dram_setDram_same, ← hd, queue_setQueue]
  have hstate : Reg.DC_STATE c ≠ Reg.DC_SPREAD_HOLD c := header_ne (by decide)
  have hkept : ∀ k, ((s.setDram c d).closeRows c p).reg k = s.reg k := fun _ => rfl
  refine ⟨fun k hk => (reg_count_other _ hk _).trans (hkept k), chanServes_congr ((reg_count_other _ hstate _).trans (hkept _)) rfl,
    rfl, (hrows.queue sub).trans hqueue, rfl, fun k => (hrows.byte k).trans (byte_setDram c hepoch k)⟩

/-- A batch of an open channel that serves (R296, R432). -/
theorem dramBatch_open (hup : s.upsets = []) (hq : q = (s.dram dc.val).queue sub ++ new) (hserves : s.chanServes dc.val = true)
    (hopen : (s.dram dc.val).closed = false) :
    ∃ t, exec (.dramBatch dc sub new held []) s = .next t ∧ (t.dram dc.val).queue sub = (takeBatch q held).2 ∧
      (∃ r, t.egress = s.egress ++ (takeBatch q held).1.map (batchAnswer s dc.val) ++ r) ∧
      (∀ k, (∀ x ∈ (takeBatch q held).1, x.write ≠ none → ¬ (burstOf dc.val x ≤ k ∧ k < burstOf dc.val x + 64)) → t.byte k = s.byte k) ∧
      (∀ w o d, (takeBatch q held).1.filter (fun x => x.write.isSome) = [w] → w.write = some (o, d) →
        ∀ i < d.length, o.toNat + i < 64 → t.byte (burstOf dc.val w + o.toNat + i) = d.getD i 0) ∧
      SameRegs [Reg.DC_SPREAD_HOLD dc.val, Reg.DC_RFM_ISSUED dc.val] s t := by
  obtain ⟨hregs0, hserves0, hup0, hqueue0, hegress0, hbyte0⟩ := batchStart_frame s dc.val sub q held
  have hserves0 := hserves0.trans hserves
  have hup0 := hup0.trans hup
  obtain ⟨rs, ws, hparts, hrs, hws, hfilter⟩ := takeBatch_parts q held
  rw [exec_dramBatch_open hq hserves hopen, hparts, List.foldl_append]
  generalize batchStart s dc.val sub q held = a at *
  obtain ⟨hrows1, hegress1, hbyte1⟩ := serveReads hserves0 hup0 rs hrs
  generalize rs.foldl (fun (a : State) r => a.dramServe dc.val r) a = b at *
  have hserves1 := hrows1.chanServes.trans hserves0
  have hup1 := hrows1.upsets.trans hup0
  obtain ⟨hrows2, hegress2, hbyte2⟩ := serveWrites hserves1 hup1 ws hws s
  have hrows := hrows1.trans hrows2
  have hsame (k : Nat) : b.byte k = s.byte k := (hbyte1 k).trans (hbyte0 k)
  refine ⟨_, rfl, (hrows.queue sub).trans hqueue0, ?_, fun k hk => ?_, fun w o d hw hwr i hi hfit => ?_, sameRegs_settle fun k hk _ => ?_⟩
  · obtain ⟨z, hz⟩ := egress_settle (ws.foldl (fun (a : State) r => a.dramServe dc.val r) b)
    exact ⟨z, by rw [hz, hegress2, hegress1, hegress0, batchAnswer_congr hbyte0, List.map_append, ← List.append_assoc]⟩
  · exact (hbyte2 k fun x hx => hk x (List.mem_append_right rs hx) (hws x hx)).trans (hsame k)
  · rw [hparts] at hfilter
    obtain rfl : ws = [w] := hfilter.symm.trans hw
    obtain ⟨-, -, hbyte⟩ := dramServe_write hserves1 hup1 hwr
    have hlen : (d.take (64 - o.toNat)).length = min (64 - o.toNat) d.length := List.length_take
    have hin : burstOf dc.val w + o.toNat ≤ burstOf dc.val w + o.toNat + i ∧
        burstOf dc.val w + o.toNat + i < burstOf dc.val w + o.toNat + (d.take (64 - o.toNat)).length := by omega
    refine (hbyte _).trans ?_
    rw [if_pos hin, Nat.add_sub_cancel_left, List.getD_eq_getElem _ _ (by omega), List.getElem_take, List.getD_eq_getElem _ _ hi]
  · simp only [List.mem_cons, List.not_mem_nil, or_false, not_or] at hk
    exact (hrows.reg k hk.2).trans (hregs0 k hk.1)

/-- A batch of a closed channel waits and counts (R301). -/
theorem dramBatch_closed (hq : q = (s.dram dc.val).queue sub ++ new) (hserves : s.chanServes dc.val = true)
    (hclosed : (s.dram dc.val).closed = true) :
    ∃ t, exec (.dramBatch dc sub new held []) s = .next t ∧ (t.dram dc.val).queue sub = q ∧
      SameRegs [Reg.DC_MAINT_HOLD dc.val] s t ∧ SameBytes s t := by
  have hexec : exec (.dramBatch dc sub new held []) s =
      done ((s.setDram dc.val ((s.dram dc.val).setQueue sub q)).count (Reg.DC_MAINT_HOLD dc.val) new.length) := by
    show execDramBatch dc sub new held [] s = _
    unfold execDramBatch
    rw [show s.addSoft [] = s from rfl]
    simp only [hserves, hclosed, Bool.true_eq_false, if_false, if_true, ← hq]
  have hdram : (s.setDram dc.val ((s.dram dc.val).setQueue sub q)).dram dc.val = _ := dram_setDram_same s dc.val _
  refine ⟨_, hexec, (congrArg (fun d => Dram.queue d sub) hdram).trans (queue_setQueue _ sub q), sameRegs_settle fun k hk _ => ?_,
    fun k => byte_setDram dc.val (epoch_setQueue (s.dram dc.val) sub q) k⟩
  exact reg_count_other (s.setDram dc.val _) (List.ne_of_not_mem_cons hk) _

/-- What requests to a channel that does not serve leave. -/
structure Unserved (c : Nat) (s t : State) : Prop where
  reg : ∀ k, k ≠ Reg.DC_DOWN_ACCESS c ∨ s.chanState c = 2 → t.reg k = s.reg k
  power : t.power = s.power
  drams : t.drams = s.drams
  mem : t.mem = s.mem

theorem Unserved.chanServes {c : Nat} {t : State} (h : Unserved c s t) : t.chanServes c = s.chanServes c :=
  chanServes_congr (h.reg _ (.inl (header_ne (by decide)))) h.power

theorem Unserved.chanState {c : Nat} {t : State} (h : Unserved c s t) : t.chanState c = s.chanState c := by
  have hne : Reg.DC_STATE c ≠ Reg.DC_DOWN_ACCESS c := header_ne (by decide)
  rw [State.chanState, State.chanState, h.reg _ (.inl hne)]

theorem countDown_unserved (s : State) (c : Nat) : Unserved c s (s.countDown c) ∧ (s.countDown c).egress = s.egress := by
  unfold State.countDown
  split
  · exact ⟨⟨fun _ _ => rfl, rfl, rfl, rfl⟩, rfl⟩
  · next h => exact ⟨⟨fun k hk => reg_tally_other s (hk.resolve_right h), rfl, rfl, rfl⟩, rfl⟩

/-- Each request to a channel that does not serve is answered with an error. -/
theorem serveDown {c : Nat} (hdown : s.chanServes c = false) (l : List DramReq) :
    Unserved c s (l.foldl (fun (a : State) r => (a.countDown c).dramServe c r) s) ∧
    (l.foldl (fun (a : State) r => (a.countDown c).dramServe c r) s).egress =
      s.egress ++ l.map (fun x => Egress.dramResponse x.initiator.val [] true false) := by
  induction l generalizing s with
  | nil => exact ⟨⟨fun _ _ => rfl, rfl, rfl, rfl⟩, (List.append_nil _).symm⟩
  | cons r l ih =>
    obtain ⟨hcount, hegress⟩ := countDown_unserved s c
    have heq : (s.countDown c).dramServe c r = (s.countDown c).send (.dramResponse r.initiator.val [] true false) :=
      if_pos (hcount.chanServes.trans hdown)
    rw [List.foldl_cons, heq]
    generalize s.countDown c = u at hcount hegress
    have hsend : Unserved c s (u.send (.dramResponse r.initiator.val [] true false)) := ⟨hcount.reg, hcount.power, hcount.drams, hcount.mem⟩
    obtain ⟨h, hegress'⟩ := ih (s := u.send (.dramResponse r.initiator.val [] true false)) (hsend.chanServes.trans hdown)
    refine ⟨⟨fun k hk => (h.reg k (hk.imp_right fun h2 => hsend.chanState.trans h2)).trans (hsend.reg k hk), h.power.trans hsend.power,
      h.drams.trans hsend.drams, h.mem.trans hsend.mem⟩, hegress'.trans ?_⟩
    show u.egress ++ [_] ++ _ = _
    rw [hegress, List.append_assoc]
    rfl

/-- A channel that is down, or in retention, answers with errors (R294, R304, R358). -/
theorem dramBatch_down (hdown : s.chanServes dc.val = false) :
    ∃ t, exec (.dramBatch dc sub new held []) s = .next t ∧ t.dram dc.val = s.dram dc.val ∧
      (∃ r, t.egress = s.egress ++ new.map (fun x => Egress.dramResponse x.initiator.val [] true false) ++ r) ∧
      (s.chanState dc.val = 2 → SameRegs [] s t) ∧ SameRegs [Reg.DC_DOWN_ACCESS dc.val] s t ∧ SameBytes s t := by
  have hexec : exec (.dramBatch dc sub new held []) s =
      done (new.foldl (fun (a : State) r => (a.countDown dc.val).dramServe dc.val r) s) := by
    show execDramBatch dc sub new held [] s = _
    unfold execDramBatch
    rw [show s.addSoft [] = s from rfl]
    simp only [hdown, if_true]
  obtain ⟨h, hegress⟩ := serveDown hdown new
  rw [hexec]
  generalize new.foldl (fun (a : State) r => (a.countDown dc.val).dramServe dc.val r) s = u at h hegress
  obtain ⟨z, hz⟩ := egress_settle u
  refine ⟨_, rfl, ?_, ⟨z, by rw [hz, hegress]⟩, fun h2 => sameRegs_settle fun k _ _ => h.reg k (.inr h2),
    sameRegs_settle fun k hk _ => h.reg k (.inl (List.ne_of_not_mem_cons hk)), sameBytes_of_mem_drams h.mem h.drams⟩
  exact congrArg (fun l => mapGetD l dc.val ({} : Dram)) h.drams

end Batch
end Sys2Proof.Laws
end

section
/-!
SUPPORT. The DRAM channels' refresh with its scrub (R297, R303), maintenance and re-centring (R301) and ALERT_n (R304); the settling
of O47.
-/
namespace Sys2Proof.Laws
open Sys2Proof.Machine

/-! ## The patrol scrub (R303) -/

/-- The next burst that a subchannel's scrub reads. -/
def scrubIndex (s : State) (c : Nat) (sub : Bool) : Nat := if sub then (s.dram c).scrubB else (s.dram c).scrubA

/-- The flat number of a scrub burst. -/
def scrubFlat (c n : Nat) (sub : Bool) : Nat := c * 2 ^ 34 + (n * 128 + (if sub then 64 else 0))

/-- The index of a subchannel's scrub set. -/
def setScrubIndex (s : State) (c : Nat) (sub : Bool) (n : Nat) : State :=
  s.setDram c (if sub then { s.dram c with scrubB := n } else { s.dram c with scrubA := n })

/-- What the scrub of a burst does once its row has been read: offset o, flat number k. -/
def scrubEnd (s : State) (c o k : Nat) : State :=
  match mapGet s.upsets k with
  | none => s
  | some u => if upsetBad u then s.freeze c 2 (some o) else ({ s with upsets := mapDel k s.upsets }).tally (Reg.DC_SCRUB_CE c)

/-- The registers that a scrub may change. -/
def scrubRegs (c : Nat) : List Nat := [Reg.DC_SCRUB_PASS c, Reg.DC_SCRUB_CE c, Reg.DC_RFM_ISSUED c]

/-- What a scrub read leaves: bytes, latent errors and registers but its own; its index moves on. -/
structure ScrubFrame (c n : Nat) (sub : Bool) (s t : State) : Prop where
  reg : ∀ k, k ≠ Reg.DC_SCRUB_PASS c → k ≠ Reg.DC_RFM_ISSUED c → t.reg k = s.reg k
  pass : t.reg (Reg.DC_SCRUB_PASS c) =
    if s.scrubBursts c ≤ n + 1 then s.counted (Reg.DC_SCRUB_PASS c) else s.reg (Reg.DC_SCRUB_PASS c)
  upsets : t.upsets = s.upsets
  byte : ∀ k, t.byte k = s.byte k
  index : scrubIndex t c sub = if s.scrubBursts c ≤ n + 1 then 0 else n + 1
  other : scrubIndex t c (!sub) = scrubIndex s c (!sub)

section Scrub
variable {s : State} {c n : Nat} {sub : Bool}

theorem RowsOpened.scrubIndex {a : State} (h : RowsOpened c s a) (sub : Bool) : scrubIndex a c sub = scrubIndex s c sub := by
  obtain ⟨x, y, hdram⟩ := h.dram
  unfold Laws.scrubIndex
  rw [hdram]

theorem setScrubIndex_dram (s : State) (c : Nat) (sub : Bool) (n : Nat) : scrubIndex (setScrubIndex s c sub n) c sub = n ∧
    scrubIndex (setScrubIndex s c sub n) c (!sub) = scrubIndex s c (!sub) ∧ ∀ k, (setScrubIndex s c sub n).byte k = s.byte k := by
  have hepoch : (if sub then { s.dram c with scrubB := n } else { s.dram c with scrubA := n }).epoch = (s.dram c).epoch := by
    cases sub <;> rfl
  refine ⟨?_, ?_, byte_setDram c hepoch⟩
  · unfold scrubIndex setScrubIndex
    rw [dram_setDram_same]
    cases sub <;> rfl
  · unfold scrubIndex setScrubIndex
    rw [dram_setDram_same]
    cases sub <;> rfl

/-- A scrub read of the last burst counts a pass and starts again. -/
theorem scrubFrame_wrap (hwrap : s.scrubBursts c ≤ n + 1) (o : Nat) :
    ScrubFrame c n sub s (((setScrubIndex s c sub 0).tally (Reg.DC_SCRUB_PASS c)).openRow c o false) := by
  have hpass : Reg.DC_SCRUB_PASS c ≠ Reg.DC_RFM_ISSUED c := header_ne (by decide)
  obtain ⟨hindex, hother, hbyte⟩ := setScrubIndex_dram s c sub 0
  have hregs : (setScrubIndex s c sub 0).regs = s.regs := rfl
  have hup : (setScrubIndex s c sub 0).upsets = s.upsets := rfl
  generalize setScrubIndex s c sub 0 = u at hindex hother hbyte hregs hup
  have hreg (k : Nat) : u.reg k = s.reg k := congrArg (fun l => mapGetD l k (regReset k)) hregs
  have hrows := openRow_rowsOnly (u.tally (Reg.DC_SCRUB_PASS c)) c o false
  refine ⟨fun k hk hk' => (hrows.reg k hk').trans ((reg_tally_other u hk).trans (hreg k)), ?_, hrows.upsets.trans hup,
    fun k => (hrows.byte k).trans (hbyte k), ?_, (hrows.scrubIndex _).trans hother⟩
  · rw [if_pos hwrap, hrows.reg _ hpass, reg_tally_same, hreg]
    rfl
  · rw [if_pos hwrap]
    exact (hrows.scrubIndex _).trans hindex

/-- A scrub read of another burst moves on to the next. -/
theorem scrubFrame_next (hwrap : ¬ s.scrubBursts c ≤ n + 1) (o : Nat) :
    ScrubFrame c n sub s ((setScrubIndex s c sub (n + 1)).openRow c o false) := by
  have hpass : Reg.DC_SCRUB_PASS c ≠ Reg.DC_RFM_ISSUED c := header_ne (by decide)
  obtain ⟨hindex, hother, hbyte⟩ := setScrubIndex_dram s c sub (n + 1)
  have hregs : (setScrubIndex s c sub (n + 1)).regs = s.regs := rfl
  have hup : (setScrubIndex s c sub (n + 1)).upsets = s.upsets := rfl
  generalize setScrubIndex s c sub (n + 1) = u at hindex hother hbyte hregs hup
  have hreg (k : Nat) : u.reg k = s.reg k := congrArg (fun l => mapGetD l k (regReset k)) hregs
  have hrows := openRow_rowsOnly u c o false
  refine ⟨fun k _ hk' => (hrows.reg k hk').trans (hreg k), ?_, hrows.upsets.trans hup, fun k => (hrows.byte k).trans (hbyte k), ?_,
    (hrows.scrubIndex _).trans hother⟩
  · rw [if_neg hwrap, hrows.reg _ hpass, hreg]
  · rw [if_neg hwrap]
    exact (hrows.scrubIndex _).trans hindex

/-- The state x ends a scrub: from a state in which its burst has been read. -/
def EndsScrub (s : State) (c : Nat) (sub : Bool) (x : State) : Prop := ∃ u, ScrubFrame c (scrubIndex s c sub) sub s u ∧
  x = scrubEnd u c (scrubIndex s c sub * 128 + (if sub then 64 else 0)) (scrubFlat c (scrubIndex s c sub) sub)

/-- A scrub's function. `patrolScrub` is unfolded under this predicate only, as a function: to compare it, applied, with its body, the
kernel would evaluate its match on the state after the read. -/
def ScrubFunction (F : State → Nat → Bool → State) : Prop := ∀ s c sub, EndsScrub s c sub (F s c sub)

theorem scrubFunction_of {F : State → Nat → Bool → State} (h : ∀ s c sub, EndsScrub s c sub (F s c sub)) : ScrubFunction F := h

/-- A state with a property may be generalized under it. -/
theorem forall_read {P : State → Prop} (h : ∀ u, P u) : ∀ u, P u := h

theorem patrolScrub_scrubFunction : ScrubFunction State.patrolScrub := by
  delta State.patrolScrub
  refine scrubFunction_of fun s c sub => ?_
  extract_lets d n o k wrap n1 s1 s2 s3
  have hframe : ScrubFrame c n sub s s3 := by
    have hs1 : s1 = setScrubIndex s c sub n1 := rfl
    by_cases h : s.scrubBursts c ≤ n + 1
    · have hwrap : wrap = true := decide_eq_true h
      have hn1 : n1 = 0 := if_pos hwrap
      have hs2 : s2 = s1.tally (Reg.DC_SCRUB_PASS c) := if_pos hwrap
      have hs3 : s3 = (s1.tally (Reg.DC_SCRUB_PASS c)).openRow c o false := congrArg (fun a => State.openRow a c o false) hs2
      rw [hs3, hs1, hn1]
      exact scrubFrame_wrap h o
    · have hwrap : ¬ wrap = true := by rw [Bool.not_eq_true]; exact decide_eq_false h
      have hn1 : n1 = n + 1 := if_neg hwrap
      have hs2 : s2 = s1 := if_neg hwrap
      have hs3 : s3 = s1.openRow c o false := congrArg (fun a => State.openRow a c o false) hs2
      rw [hs3, hs1, hn1]
      exact scrubFrame_next h o
  clear_value s3
  revert s3
  refine forall_read fun s3 hframe => ?_
  exact ⟨s3, hframe, rfl⟩

theorem scrubEnd_clean {u : State} {k : Nat} (h : mapGet u.upsets k = none) (c o : Nat) : scrubEnd u c o k = u := by
  unfold scrubEnd
  rw [h]

theorem scrubEnd_error {u : State} {k : Nat} {e : Upset} (h : mapGet u.upsets k = some e) (c o : Nat) : scrubEnd u c o k =
    if upsetBad e then u.freeze c 2 (some o) else ({ u with upsets := mapDel k u.upsets }).tally (Reg.DC_SCRUB_CE c) := by
  unfold scrubEnd
  rw [h]

/-- What a scrub leaves that does not freeze its channel. -/
structure Scrubbed (c n : Nat) (sub : Bool) (s t : State) : Prop where
  byte : ∀ k, t.byte k = s.byte k
  index : scrubIndex t c sub = if s.scrubBursts c ≤ n + 1 then 0 else n + 1
  other : scrubIndex t c (!sub) = scrubIndex s c (!sub)
  clean : mapGet t.upsets (scrubFlat c n sub) = none
  pass : t.reg (Reg.DC_SCRUB_PASS c) =
    if s.scrubBursts c ≤ n + 1 then s.counted (Reg.DC_SCRUB_PASS c) else s.reg (Reg.DC_SCRUB_PASS c)
  corrected : t.reg (Reg.DC_SCRUB_CE c) =
    if mapGet s.upsets (scrubFlat c n sub) = none then s.reg (Reg.DC_SCRUB_CE c) else s.counted (Reg.DC_SCRUB_CE c)
  reg : ∀ k, k ∉ scrubRegs c → t.reg k = s.reg k

/-- A scrub that meets no error, or one that can be corrected: the error is gone and counted. -/
theorem patrolScrub_good (hn : n = scrubIndex s c sub) (hgood : (mapGet s.upsets (scrubFlat c n sub)).any upsetBad = false) :
    Scrubbed c n sub s (s.patrolScrub c sub) := by
  obtain ⟨u, h, heq⟩ := patrolScrub_scrubFunction s c sub
  rw [← hn] at h heq
  rw [heq]
  have hne1 : Reg.DC_SCRUB_CE c ≠ Reg.DC_SCRUB_PASS c := header_ne (by decide)
  have hne2 : Reg.DC_SCRUB_CE c ≠ Reg.DC_RFM_ISSUED c := header_ne (by decide)
  have hother (k : Nat) (hk : k ∉ scrubRegs c) : k ≠ Reg.DC_SCRUB_CE c ∧ u.reg k = s.reg k := by
    simp only [scrubRegs, List.mem_cons, List.not_mem_nil, or_false, not_or] at hk
    obtain ⟨hpass, hce, hrfm⟩ := hk
    exact ⟨hce, h.reg k hpass hrfm⟩
  cases he : mapGet s.upsets (scrubFlat c n sub) with
  | none =>
    have he' : mapGet u.upsets (scrubFlat c n sub) = none := by rw [h.upsets, he]
    rw [scrubEnd_clean he']
    exact ⟨h.byte, h.index, h.other, he', h.pass, by rw [if_pos he, h.reg _ hne1 hne2], fun k hk => (hother k hk).2⟩
  | some e =>
    have hbad : ¬ upsetBad e = true := by rw [he] at hgood; simpa using hgood
    have hce : mapGet s.upsets (scrubFlat c n sub) ≠ none := by rw [he]; exact Option.some_ne_none e
    rw [scrubEnd_error (by rw [h.upsets, he]), if_neg hbad]
    refine ⟨h.byte, h.index, h.other, mapGet_del_same (scrubFlat c n sub) u.upsets, (reg_tally_other u hne1.symm).trans h.pass, ?_,
      fun k hk => (reg_tally_other u (hother k hk).1).trans (hother k hk).2⟩
    refine (reg_tally_same u (Reg.DC_SCRUB_CE c)).trans ?_
    rw [h.reg _ hne1 hne2, if_neg hce]
    rfl

/-- A scrub that meets an error past correction freezes the channel with cause 2. -/
theorem patrolScrub_bad (hn : n = scrubIndex s c sub) (hbad : (mapGet s.upsets (scrubFlat c n sub)).any upsetBad = true)
    (hstate : s.chanState c = 1) : (s.patrolScrub c sub).chanState c = 2 ∧
      (s.patrolScrub c sub).reg (Reg.DC_FRZ_CAUSE c) = BitVec.ofNat 32 (2 + 65536 * (s.tick.toNat % 65536)) := by
  obtain ⟨u, h, heq⟩ := patrolScrub_scrubFunction s c sub
  rw [← hn] at h heq
  rw [heq]
  obtain ⟨e, he, hupset⟩ := (Option.any_eq_true _ _).mp hbad
  have hkept : u.reg (Reg.DC_STATE c) = s.reg (Reg.DC_STATE c) := h.reg _ (header_ne (by decide)) (header_ne (by decide))
  have hserves : u.chanState c ≠ 2 := by
    rw [State.chanState, hkept]
    exact fun h2 => by rw [State.chanState] at hstate; omega
  have htick : u.tick = s.tick := by
    have hpage (o : Nat) : Reg.TICK_SEQ ≠ rkey (0x300 + c) o := by
      have hhigh := le_rkey_channel c o
      have hlow : Reg.TICK_SEQ < 0x300 * 4096 := by decide
      omega
    exact h.reg _ (hpage _) (hpage _)
  have hfrozen := freeze_frozen (cause := 2) hserves (some (n * 128 + (if sub then 64 else 0)))
  rw [scrubEnd_error (by rw [h.upsets, he]), if_pos hupset]
  exact ⟨hfrozen.state, by rw [hfrozen.cause, htick]⟩

end Scrub
/-! ## REFAB (R297, R303) -/

section Refresh
variable {s : State} {dc : Fin 8} {sub same : Bool} {n : Nat}

/-- A refresh of an open channel changes its activations and rows, and scrubs. -/
theorem exec_refab (hserves : s.chanServes dc.val = true) (hopen : (s.dram dc.val).closed = false) :
    ∃ u, RowsOnly dc.val s u ∧ u.regs = s.regs ∧ exec (.refab dc sub same) s = done (u.patrolScrub dc.val sub) := by
  show ∃ u, _ ∧ _ ∧ execRefab dc sub s same = _
  have hnot : ¬ (s.dram dc.val).closed = true := by rw [hopen]; exact Bool.false_ne_true
  simp only [execRefab, hserves, Bool.true_eq_false, if_false]
  rw [if_neg hnot]
  cases same with
  | true => exact ⟨s, ⟨RowsOpened.refl _ s, rfl, rfl⟩, rfl, rfl⟩
  | false =>
    simp only [Bool.false_eq_true, if_false]
    refine ⟨_, ?_, ?_, rfl⟩
    · exact (rowsOnly_setDram s dc.val _ (s.dram dc.val).openRows).trans (closeRows_rowsOnly _ dc.val _)
    · rfl

theorem Scrubbed.of_rows {c : Nat} {u t : State} (hrows : RowsOnly c s u) (hregs : u.regs = s.regs) (h : Scrubbed c n sub u t) :
    Scrubbed c n sub s t := by
  have hreg (k : Nat) : u.reg k = s.reg k := congrArg (fun l => mapGetD l k (regReset k)) hregs
  have hbursts : u.scrubBursts c = s.scrubBursts c := by rw [State.scrubBursts, State.scrubBursts, hreg]
  have hcounted (k : Nat) : u.counted k = s.counted k := by rw [State.counted, State.counted, hreg]
  obtain ⟨hbyte, hindex, hother, hclean, hpass, hce, hregs'⟩ := h
  rw [hbursts] at hindex
  rw [hbursts, hcounted, hreg] at hpass
  rw [hrows.upsets, hcounted, hreg] at hce
  exact ⟨fun k => (hbyte k).trans (hrows.byte k), hindex, hother.trans (hrows.scrubIndex _), hclean, hpass, hce,
    fun k hk => (hregs' k hk).trans (hreg k)⟩

theorem refab_good (hserves : s.chanServes dc.val = true) (hopen : (s.dram dc.val).closed = false) (hn : n = scrubIndex s dc.val sub)
    (hgood : (mapGet s.upsets (scrubFlat dc.val n sub)).any upsetBad = false) :
    ∃ t, exec (.refab dc sub same) s = .next (settle t) ∧ Scrubbed dc.val n sub s t := by
  obtain ⟨u, hrows, hregs, hexec⟩ := exec_refab (sub := sub) (same := same) hserves hopen
  have h := patrolScrub_good (s := u) (n := n) (hn.trans (hrows.scrubIndex sub).symm) (by rw [hrows.upsets]; exact hgood)
  exact ⟨_, hexec, h.of_rows hrows hregs⟩

theorem refab_bad (hserves : s.chanServes dc.val = true) (hopen : (s.dram dc.val).closed = false) (hn : n = scrubIndex s dc.val sub)
    (hbad : (mapGet s.upsets (scrubFlat dc.val n sub)).any upsetBad = true) (hstate : s.chanState dc.val = 1) :
    ∃ t, exec (.refab dc sub same) s = .next (settle t) ∧ t.chanState dc.val = 2 ∧
      t.reg (Reg.DC_FRZ_CAUSE dc.val) = BitVec.ofNat 32 (2 + 65536 * (s.tick.toNat % 65536)) := by
  obtain ⟨u, hrows, hregs, hexec⟩ := exec_refab (sub := sub) (same := same) hserves hopen
  have hreg (k : Nat) : u.reg k = s.reg k := congrArg (fun l => mapGetD l k (regReset k)) hregs
  have hstate' : u.chanState dc.val = 1 := by rw [State.chanState, hreg]; exact hstate
  have htick : u.tick = s.tick := hreg _
  obtain ⟨h2, hcause⟩ := patrolScrub_bad (s := u) (n := n) (hn.trans (hrows.scrubIndex sub).symm)
    (by rw [hrows.upsets]; exact hbad) hstate'
  exact ⟨_, hexec, h2, by rw [hcause, htick]⟩

end Refresh

/-! ## Maintenance and re-centring (R301) -/

section Maintenance
variable {s : State} {dc : Fin 8}

/-- A MAINT entry closes a channel whose sweep row has no error. -/
theorem dcMaintEntry_closes {i : EntryIx} {e : Entry} (he : s.entryFor i.val 0x28 0x2F 8 = some e)
    (hserves : s.chanServes (e.unit - 0x28) = true) (hclean : s.sweepErrors (e.unit - 0x28) = []) :
    ∃ t, exec (.dcMaintEntry i) s = .next t ∧ (t.dram (e.unit - 0x28)).closed = true ∧ SameRegs [] s t ∧ SameBytes s t := by
  have hexec : exec (.dcMaintEntry i) s = done (s.setDram (e.unit - 0x28)
      { s.dram (e.unit - 0x28) with closed := true, sweepSaved := true, openRows := [] }) := by
    show execDcMaintEntry i s = _
    have hnot : ¬ s.chanServes (e.unit - 0x28) = false := by rw [hserves]; exact Bool.noConfusion
    have hsweep (d : Dram) : (s.setDram (e.unit - 0x28) d).sweepErrors (e.unit - 0x28) = [] := hclean
    simp only [execDcMaintEntry, he]
    rw [State.dcMaintStart, if_neg hnot, State.sweepRow, hsweep]
    rfl
  have hdram := dram_setDram_same s (e.unit - 0x28)
    { s.dram (e.unit - 0x28) with closed := true, sweepSaved := true, openRows := [] }
  have hbyte := byte_setDram (s := s) (e.unit - 0x28)
    (d := { s.dram (e.unit - 0x28) with closed := true, sweepSaved := true, openRows := [] }) rfl
  exact ⟨_, hexec, congrArg Dram.closed hdram, sameRegs_settle fun _ _ _ => rfl, hbyte⟩

theorem laneVal_inj {c i j : Nat} (h : Reg.DC_LANE_VAL c i = Reg.DC_LANE_VAL c j) : i = j := by
  simp only [Reg.DC_LANE_VAL, bkey] at h
  omega

theorem applyLanes_other {k c : Nat} (ls : List (Nat × LaneVal)) (h : ∀ x ∈ ls, k ≠ Reg.DC_LANE_VAL c x.1) :
    (s.applyLanes c ls).reg k = s.reg k :=
  List.foldlRecOn (motive := fun a : State => a.reg k = s.reg k) ls _ rfl
    fun a ha x hx => (reg_setReg_other a (h x hx) _).trans ha

/-- Lanes with indices of their own show what they are set to. -/
theorem applyLanes_same {c : Nat} {ls : List (Nat × LaneVal)} (hnodup : (ls.map Prod.fst).Nodup) {x : Nat × LaneVal} (hx : x ∈ ls) :
    (s.applyLanes c ls).reg (Reg.DC_LANE_VAL c x.1) = laneWord x.2 := by
  induction ls generalizing s with
  | nil => cases hx
  | cons y r ih =>
    rw [List.map_cons, List.nodup_cons] at hnodup
    obtain ⟨hy, hr⟩ := hnodup
    have hcons : s.applyLanes c (y :: r) = (s.setReg (Reg.DC_LANE_VAL c y.1) (laneWord y.2)).applyLanes c r := rfl
    rw [hcons]
    rcases List.mem_cons.mp hx with rfl | hx
    · rw [applyLanes_other r fun z hz hk => hy (by rw [laneVal_inj hk]; exact List.mem_map_of_mem hz), reg_setReg_same]
    · exact ih hr hx

theorem applyLanes_dram (c : Nat) (ls : List (Nat × LaneVal)) :
    (s.applyLanes c ls).mem = s.mem ∧ (s.applyLanes c ls).drams = s.drams := by
  refine foldl_keeps (P := fun a : State => a.mem = s.mem ∧ a.drams = s.drams)
    (f := fun (a : State) (x : Nat × LaneVal) => a.setReg (Reg.DC_LANE_VAL c x.1) (laneWord x.2)) (fun _ _ ha => ha) ls ⟨rfl, rfl⟩

/-- Nothing counted leaves a tally. -/
theorem reg_count_zero (k k' : Nat) : (s.count k 0).reg k' = s.reg k' := by
  by_cases hk : k' = k
  · subst hk
    have hlt := (s.reg k').isLt
    have hmin : min ((s.reg k').toNat + 0) 0xFFFFFFFF = (s.reg k').toNat := by omega
    rw [State.count, reg_setReg_same, State.regN, hmin, BitVec.ofNat_toNat, BitVec.setWidth_eq]
  · exact reg_count_other s hk 0

end Maintenance

/-! ## Runs of passing taps (R300, R301) -/

/-- What the scan of the first n taps has found: its widest run and the run that ends at tap n pass. -/
structure RunsFound (m : BitVec 128) (n : Nat) (x : (Nat × Nat) × Nat) : Prop where
  ends : x.2 ≤ n
  endsPass : ∀ i, n - x.2 ≤ i → i < n → m.getLsbD i = true
  fits : x.1.1 + x.1.2 ≤ n
  pass : ∀ i, x.1.1 ≤ i → i < x.1.1 + x.1.2 → m.getLsbD i = true
  widest : x.2 ≤ x.1.2

theorem runs_found (m : BitVec 128) (n : Nat) : RunsFound m n (runs m n) := by
  induction n with
  | zero => exact ⟨le_rfl, fun i _ hi => absurd hi (Nat.not_lt_zero i), le_rfl, fun i _ hi => absurd hi (Nat.not_lt_zero i), le_rfl⟩
  | succ n ih =>
    obtain ⟨hends, hendsPass, hfits, hpass, hwidest⟩ := ih
    unfold runs
    generalize runs m n = x at *
    obtain ⟨⟨a, l⟩, e⟩ := x
    dsimp only at *
    have hrun : (if m.getLsbD n then e + 1 else 0) ≤ n + 1 ∧
        ∀ i, n + 1 - (if m.getLsbD n then e + 1 else 0) ≤ i → i < n + 1 → m.getLsbD i = true := by
      split
      · next hbit =>
        refine ⟨by omega, fun i hlo hhi => ?_⟩
        rcases Nat.lt_succ_iff_lt_or_eq.mp hhi with hi | rfl
        · exact hendsPass i (by omega) hi
        · exact hbit
      · exact ⟨Nat.zero_le _, fun i hlo hhi => absurd hhi (by omega)⟩
    generalize (if m.getLsbD n then e + 1 else 0) = len at *
    obtain ⟨hlen, hlenPass⟩ := hrun
    by_cases hlt : l < len
    · rw [if_pos hlt]
      exact ⟨hlen, hlenPass, by dsimp only; omega, fun i hlo hhi => hlenPass i hlo (by dsimp only at hhi; omega), le_rfl⟩
    · rw [if_neg hlt]
      exact ⟨hlen, hlenPass, by dsimp only; omega, hpass, by dsimp only; omega⟩

/-- A tap that passes makes the widest run one tap long at least. -/
theorem runs_pos {m : BitVec 128} {n i : Nat} (hi : i < n) (hbit : m.getLsbD i = true) : 0 < (runs m n).1.2 := by
  induction n with
  | zero => omega
  | succ n ih =>
    have hwidest := (runs_found m (n + 1)).widest
    have hgrows : (runs m n).1.2 ≤ (runs m (n + 1)).1.2 := by
      rw [runs]
      dsimp only
      generalize (if m.getLsbD n then (runs m n).2 + 1 else 0) = len
      split
      · next hlt => exact Nat.le_of_lt hlt
      · exact le_rfl
    rcases Nat.lt_succ_iff_lt_or_eq.mp hi with hlt | rfl
    · exact (ih hlt).trans_le hgrows
    · have hlast : (runs m (i + 1)).2 = (runs m i).2 + 1 := by
        rw [runs]
        simp only [hbit, if_true]
      omega

/-- The middle of the widest run passes. -/
theorem middle_widest_pass {m : BitVec 128} (h : m ≠ 0) : m.getLsbD (middle (widest m)) = true := by
  obtain ⟨i, hi⟩ : ∃ i, m.getLsbD i = true := by
    by_contra hnone
    refine h (BitVec.eq_of_getLsbD_eq fun i _ => ?_)
    exact (Bool.eq_false_of_not_eq_true (not_exists.mp hnone i)).trans BitVec.getLsbD_zero.symm
  have hlt : i < 128 := by
    by_contra hge
    rw [BitVec.getLsbD_of_ge m i (by omega)] at hi
    exact Bool.false_ne_true hi
  have hpos := runs_pos hlt hi
  exact (runs_found m 128).pass _ (by unfold middle widest; omega) (by unfold middle widest; omega)

/-- A tap that is near another lies within 8 of it. -/
theorem nearTaps_near {m : BitVec 128} {tap i : Nat} (h : (nearTaps m tap).getLsbD i = true) : tap ≤ i + 8 ∧ i ≤ tap + 8 := by
  unfold nearTaps at h
  rw [BitVec.getLsbD_and, Bool.and_eq_true, BitVec.getLsbD_ofNat, Bool.and_eq_true] at h
  obtain ⟨-, -, hbit⟩ := h
  have hsplit : 2 ^ (tap + 9) - 2 ^ (tap - 8) = 2 ^ (tap - 8) * (2 ^ (tap + 9 - (tap - 8)) - 1) := by
    rw [Nat.mul_sub, ← Nat.pow_add, Nat.mul_one]
    congr 2
    omega
  rw [hsplit, Nat.testBit_two_pow_mul, Bool.and_eq_true, Nat.testBit_two_pow_sub_one] at hbit
  obtain ⟨hlo, hhi⟩ := hbit
  have hlo := of_decide_eq_true hlo
  have hhi := of_decide_eq_true hhi
  omega

/-- Re-centring moves a tap by 8 at most (R301). -/
theorem middleOr_near (m : BitVec 128) (now : Nat) :
    now ≤ middleOr (nearTaps m now) now + 8 ∧ middleOr (nearTaps m now) now ≤ now + 8 := by
  unfold middleOr
  split
  · omega
  · next h => exact nearTaps_near (middle_widest_pass h)

section Commands
variable {s : State} {dc : Fin 8}

/-- The lanes that a MAINT entry's end sets. -/
def recentredLanes (s : State) (c : Nat) (ls : List LaneSweep) : List (Nat × LaneVal) := ls.map (fun x => (laneIx x, s.recentred c ls x))

theorem exec_dcMaintEnd (hclosed : (s.dram dc.val).closed = true) (ls : List LaneSweep) : ∃ n, (ls = [] → n = 0) ∧
    exec (.dcMaintEnd dc ls) s = done (((s.applyLanes dc.val (recentredLanes s dc.val ls)).count (Reg.DC_RECENTRE_MOVE dc.val) n).setDram dc.val
      { s.dram dc.val with closed := false, sweepSaved := false }) := by
  have hnot : ¬ (s.dram dc.val).closed = false := by rw [hclosed]; exact Bool.noConfusion
  refine ⟨((recentredLanes s dc.val ls).filter (fun x => decide (s.reg (Reg.DC_LANE_VAL dc.val x.1) ≠ laneWord x.2))).length,
    fun h => by subst h; rfl, ?_⟩
  show execDcMaintEnd dc ls s = _
  simp only [execDcMaintEnd]
  rw [if_neg hnot]
  rfl

/-- The end of a MAINT entry sets its lanes and opens the channel. -/
theorem dcMaintEnd_opens (hclosed : (s.dram dc.val).closed = true) {ls : List LaneSweep} (hnodup : (ls.map laneIx).Nodup) :
    ∃ t, exec (.dcMaintEnd dc ls) s = .next t ∧ (t.dram dc.val).closed = false ∧ SameBytes s t ∧
      (∀ x ∈ ls, t.reg (Reg.DC_LANE_VAL dc.val (laneIx x)) = laneWord (s.recentred dc.val ls x)) ∧ (ls = [] → SameRegs [] s t) := by
  obtain ⟨n, hn, hexec⟩ := exec_dcMaintEnd hclosed ls
  obtain ⟨hmem, hdrams⟩ := applyLanes_dram (s := s) dc.val (recentredLanes s dc.val ls)
  have hkeys : ((recentredLanes s dc.val ls).map Prod.fst).Nodup := by simpa [recentredLanes, Function.comp_def] using hnodup
  have hlanes (x : LaneSweep) (hx : x ∈ ls) := applyLanes_same (s := s) (c := dc.val) hkeys
    (x := (laneIx x, s.recentred dc.val ls x)) (List.mem_map_of_mem hx)
  have hnone (h : ls = []) : s.applyLanes dc.val (recentredLanes s dc.val ls) = s := by subst h; rfl
  generalize s.applyLanes dc.val (recentredLanes s dc.val ls) = u at *
  generalize hd : ({ s.dram dc.val with closed := false, sweepSaved := false } : Dram) = d at hexec
  have hepoch : d.epoch = (u.dram dc.val).epoch := by
    rw [← hd, State.dram, State.dram, hdrams]
  refine ⟨_, hexec, ?_, fun k => (byte_setDram (s := u.count _ n) dc.val hepoch k).trans (sameBytes_of_mem_drams hmem hdrams k),
    fun x hx => ?_, fun h => sameRegs_settle fun k _ _ => ?_⟩
  · have hdram := congrArg Dram.closed (dram_setDram_same (u.count (Reg.DC_RECENTRE_MOVE dc.val) n) dc.val d)
    rw [← hd] at hdram
    rw [← hd]
    exact hdram
  · have hne : Reg.DC_LANE_VAL dc.val (laneIx x) ≠ Reg.DC_RECENTRE_MOVE dc.val :=
      ne_of_keyOff (by simp [Reg.DC_LANE_VAL, Reg.DC_RECENTRE_MOVE, keyOff_bkey, keyOff_rkey])
    exact (reg_settle (bkey_not_mem_riseTallies (by decide) (by decide) (by decide)) _).trans
      ((reg_count_other u hne n).trans (hlanes x hx))
  · rw [hn h]
    exact (reg_count_zero _ k).trans (by rw [hnone h])

theorem recentreLate_counted (hstate : s.chanState dc.val = 1) : ∃ t, exec (.recentreLate dc) s = .next t ∧
    t.reg (Reg.DC_RECENTRE_LATE dc.val) = s.counted (Reg.DC_RECENTRE_LATE dc.val) ∧
    t.reg (Reg.EVT_RAW (pageDc dc.val)) = s.reg (Reg.EVT_RAW (pageDc dc.val)) ||| 4 ∧
    OnlyRegs [Reg.DC_RECENTRE_LATE dc.val, Reg.EVT_RAW (pageDc dc.val)] s t := by
  have hne : Reg.DC_RECENTRE_LATE dc.val ≠ Reg.EVT_RAW (pageDc dc.val) := header_ne (by decide)
  have hrise : Reg.DC_RECENTRE_LATE dc.val ∉ riseTallies := channelReg_not_mem_riseTallies dc.isLt (by decide)
  have hexec : exec (.recentreLate dc) s = done ((s.tally (Reg.DC_RECENTRE_LATE dc.val)).event (pageDc dc.val) 4) := by
    show execRecentreLate dc s = _
    rw [execRecentreLate, if_pos hstate]
  refine ⟨_, hexec, ?_, ?_, onlyRegs_settle (onlyRegs_event (onlyRegs_tally (onlyRegs_refl _ s) List.mem_cons_self) (by simp) 4)⟩
  · rw [reg_settle hrise, reg_event_other _ hne, reg_tally_same]
    rfl
  · rw [reg_settle (evtRaw_not_mem_riseTallies _), reg_event_same, reg_tally_other _ hne.symm]

theorem exec_alertN (hstate : s.chanState dc.val = 1) : exec (.alertN dc) s = done (s.freeze dc.val 3 none) := by
  show execAlertN dc s = _
  rw [execAlertN, if_pos hstate]

end Commands

/-- Settles O47: batches of a channel that serves, waits or is down; refresh with scrub; maintenance; re-centring; ALERT_n. -/
theorem channelsServeBatchesAndMaintenance : Obligations.ChannelsServeBatchesAndMaintenance := by
  unfold Obligations.ChannelsServeBatchesAndMaintenance
  refine ⟨?_, ?_, fun i e s he hserves hclean => dcMaintEntry_closes he hserves hclean, ?_, fun dc s hstate => ?_, fun dc s hstate => ?_⟩
  · rintro dc sub new held s q burst hup hq rfl
    exact ⟨fun hserves hopen => dramBatch_open hup hq hserves hopen, fun hserves hclosed => dramBatch_closed hq hserves hclosed,
      fun hdown => dramBatch_down hdown⟩
  · rintro dc sub same s n o hserves hopen hn rfl
    have hrise {k : Nat} (hk : k < 4096) : rkey (0x300 + dc.val) k ∉ riseTallies := channelReg_not_mem_riseTallies dc.isLt hk
    refine ⟨fun hgood => ?_, fun hbad hstate => ?_⟩
    · obtain ⟨t, hexec, h⟩ := refab_good (same := same) hserves hopen hn hgood
      refine ⟨_, hexec, h.byte, h.index, ?_, h.clean, (reg_settle (hrise (by decide)) t).trans h.pass,
        (reg_settle (hrise (by decide)) t).trans h.corrected, sameRegs_settle fun k hk _ => h.reg k hk⟩
      have hother := h.other
      unfold scrubIndex at hother
      cases sub <;> exact hother
    · obtain ⟨t, hexec, hfrozen, hcause⟩ := refab_bad (same := same) hserves hopen hn hbad hstate
      refine ⟨_, hexec, ?_, (reg_settle (hrise (by decide)) t).trans hcause⟩
      have hkept : (settle t).reg (Reg.DC_STATE dc.val) = t.reg (Reg.DC_STATE dc.val) := reg_settle (hrise (by decide)) t
      rw [State.chanState, hkept]
      exact hfrozen
  · intro dc ls s hclosed hnodup
    obtain ⟨t, hexec, hopen, hbytes, hlanes, hnone⟩ := dcMaintEnd_opens hclosed hnodup
    refine ⟨t, hexec, hopen, hbytes, fun x hx => ⟨hlanes x hx, fun now hnow => ?_⟩, hnone⟩
    subst hnow
    exact middleOr_near x.read _
  · exact recentreLate_counted hstate
  · have hserves : s.chanState dc.val ≠ 2 := by rw [hstate]; decide
    have h := freeze_frozen (cause := 3) hserves none
    have hrise {k : Nat} (hk : k < 4096) : rkey (0x300 + dc.val) k ∉ riseTallies := channelReg_not_mem_riseTallies dc.isLt hk
    rw [exec_alertN hstate]
    generalize s.freeze dc.val 3 none = t at h
    have hkept : (settle t).reg (Reg.DC_STATE dc.val) = t.reg (Reg.DC_STATE dc.val) := reg_settle (hrise (by decide)) t
    refine ⟨_, rfl, ?_, (reg_settle (hrise (by decide)) t).trans h.cause, (reg_settle (hrise (by decide)) t).trans h.count, h.epoch, h.byte,
      fun st hst hp hs => ?_⟩
    · rw [State.chanState, hkept]
      exact h.state
    · obtain ⟨hstate, hres, hslot⟩ := h.hit st hst hp hs
      exact ⟨(reg_settle (stallReg_not_mem_riseTallies hst (by decide)) t).trans hstate,
        (reg_settle (stallReg_not_mem_riseTallies hst (by decide)) t).trans hres, hslot⟩

end Sys2Proof.Laws
end

section
/-!
SUPPORT. The loader (R33, R58 to R69): the states of the banks, what the registers and the power unit's queues have no part in, the
load command and its refusals, DISCARD, and the ends of a load's phases; the settling of O54.
-/
namespace Sys2Proof.Laws
open Sys2Proof.Machine

/-! ## The banks' states and bundles -/

section Banks
variable {s t : State}

theorem bankState_congr (h : t.reg Reg.LEDGER_BANK_STATE = s.reg Reg.LEDGER_BANK_STATE) (b : Bool) : t.bankState b = s.bankState b := by
  simp only [State.bankState, h]

theorem setBankState_reg (s : State) (b : Bool) (v : Nat) {k : Nat} (hk : k ≠ Reg.LEDGER_BANK_STATE) :
    (s.setBankState b v).reg k = s.reg k := by
  cases b <;> exact reg_setReg_other s hk _

theorem bankState_setBankState_same (s : State) (b : Bool) {v : Nat} (hv : v < 16) : (s.setBankState b v).bankState b = v := by
  cases b
  · exact bits_setField_same s Reg.LEDGER_BANK_STATE (hi := 3) (lo := 0) (by decide) hv
  · exact bits_setField_same s Reg.LEDGER_BANK_STATE (hi := 7) (lo := 4) (by decide) hv

theorem bankState_setBankState_other (s : State) (b : Bool) (v : Nat) : (s.setBankState b v).bankState (!b) = s.bankState (!b) := by
  cases b
  · exact bits_setField_other s Reg.LEDGER_BANK_STATE v (hi := 3) (lo := 0) (hi' := 7) (lo' := 4) (Or.inr (by decide))
  · exact bits_setField_other s Reg.LEDGER_BANK_STATE v (hi := 7) (lo := 4) (hi' := 3) (lo' := 0) (Or.inl (by decide))

theorem bankState_setReg (s : State) {k : Nat} (hk : k ≠ Reg.LEDGER_BANK_STATE) (v : Word) (b : Bool) :
    (s.setReg k v).bankState b = s.bankState b :=
  bankState_congr (reg_setReg_other s hk.symm v) b

theorem setBankState_loader (s : State) (b : Bool) (v : Nat) : (s.setBankState b v).loader = s.loader := by cases b <;> rfl
theorem setBankState_mem (s : State) (b : Bool) (v : Nat) : (s.setBankState b v).mem = s.mem := by cases b <;> rfl
theorem setBankState_drams (s : State) (b : Bool) (v : Nat) : (s.setBankState b v).drams = s.drams := by cases b <;> rfl

theorem setBundle_reg (s : State) (b : Bool) (x : Bundle) (k : Nat) : (s.setBundle b x).reg k = s.reg k := by cases b <;> rfl
theorem setBundle_mem (s : State) (b : Bool) (x : Bundle) : (s.setBundle b x).mem = s.mem := by cases b <;> rfl
theorem setBundle_drams (s : State) (b : Bool) (x : Bundle) : (s.setBundle b x).drams = s.drams := by cases b <;> rfl
theorem bundle_setBundle_same (s : State) (b : Bool) (x : Bundle) : (s.setBundle b x).bundle b = x := by cases b <;> rfl

theorem bundle_congr (h : t.loader = s.loader) (b : Bool) : t.bundle b = s.bundle b := by
  simp only [State.bundle, h]

theorem bundleIdReg_ne_bankState (b : Bool) : bundleIdReg b ≠ Reg.LEDGER_BANK_STATE := by cases b <;> decide
theorem bundleIdReg_ne_status (b : Bool) : bundleIdReg b ≠ Reg.LOADER_STATUS := by cases b <;> decide
theorem bundleIdReg_not_mem_riseTallies (b : Bool) : bundleIdReg b ∉ riseTallies := by cases b <;> decide

end Banks

/-! ## Accesses leave the bundles' records -/

/-- The loader keeps of the bundles what it kept; a channel that freezes is recorded with the load alone (R68). -/
def SameBundles (s t : State) : Prop := t.loader.bundleA = s.loader.bundleA ∧ t.loader.bundleB = s.loader.bundleB

section Bundles
variable {s a : State}

theorem sameBundles_refl (s : State) : SameBundles s s := ⟨rfl, rfl⟩

theorem SameBundles.bundle (h : SameBundles s a) (b : Bool) : a.bundle b = s.bundle b := by
  obtain ⟨hA, hB⟩ := h
  cases b
  · exact hA
  · exact hB

theorem sameBundles_setReg (h : SameBundles s a) (k : Nat) (v : Word) : SameBundles s (a.setReg k v) := h

theorem sameBundles_abandonWork (h : SameBundles s a) (e : Nat) : SameBundles s (a.abandonWork e) := by
  unfold State.abandonWork
  dsimp only
  split <;> exact h

theorem sameBundles_teardownJob (h : SameBundles s a) (st j : Nat) : SameBundles s (a.teardownJob st j) := by
  unfold State.teardownJob
  extract_lets runs s1 s2 s3
  have hclusters : SameBundles s s1 := by
    refine foldl_keeps (P := SameBundles s) (fun b c hb => ?_) _ h
    dsimp only
    split
    · exact foldl_keeps (P := SameBundles s) (fun b e hb => sameBundles_abandonWork hb e) _ hb
    · exact hb
  have hregions : SameBundles s s2 :=
    foldl_keeps (P := SameBundles s) (f := fun (b : State) (r : Region) => b.clearRange r.ptr r.size) (fun _ _ hb => hb) _ hclusters
  split <;> exact hregions

theorem sameBundles_teardownStall (h : SameBundles s a) (st : Nat) : SameBundles s (a.teardownStall st) := by
  have hjobs := foldl_keeps (P := SameBundles s) (f := fun b j => b.teardownJob st j)
    (fun _ j hb => sameBundles_teardownJob hb st j) (List.range 32) h
  generalize hl : List.range 32 = l at hjobs
  unfold State.teardownStall
  rw [hl]
  exact hjobs

theorem sameBundles_loadWords (h : SameBundles s a) (k : Nat) (d : List Byte) : SameBundles s (a.loadWords k d) :=
  foldl_keeps (P := SameBundles s) (f := fun (b : State) i => b.setReg (k + 4 * i) (bytesWord d (4 * i))) (fun _ _ hb => hb) _ h

theorem sameBundles_freeze (h : SameBundles s a) (c cause : Nat) (o : Option Nat) : SameBundles s (a.freeze c cause o) := by
  unfold State.freeze
  split
  · exact h
  · extract_lets off l k s1 s2 s3 s4 d s5 s6
    have hcapture : SameBundles s s3 := by
      cases o with
      | none => exact h
      | some x => exact sameBundles_loadWords (sameBundles_loadWords (a := (s2.setReg _ _).setReg _ _) h _ _) _ _
    have hanswers : SameBundles s s5 :=
      foldl_keeps (P := SameBundles s) (f := fun (b : State) (q : DramReq) => b.send (.dramResponse q.initiator.val [] true false))
        (fun _ _ hb => hb) _ (a := s4) hcapture
    have hstalls : SameBundles s s6 := by
      refine foldl_keeps (P := SameBundles s) (fun b st hb => ?_) _ hanswers
      split
      · exact sameBundles_setReg (sameBundles_teardownStall hb st) _ _
      · exact hb
    exact hstalls

theorem sameBundles_storeTally (h : SameBundles s a) (st : Store) (o : Nat) : SameBundles s (a.storeTally st o) := by
  unfold State.storeTally
  split <;> exact h

theorem sameBundles_storeError (h : SameBundles s a) (st : Store) (k : Nat) (ue : Bool) : SameBundles s (a.storeError st k ue) := by
  unfold State.storeError
  split
  · exact h
  · dsimp only
    split <;> exact h

theorem sameBundles_meetErrors (h : SameBundles s a) (st : Store) (ks : List Nat) : SameBundles s (a.meetErrors st ks).1 := by
  refine foldl_keeps (P := fun b : State × Nat => SameBundles s b.1) (fun b k hb => ?_) ks (a := (a, 0)) h
  split
  · exact hb
  · split
    · split
      · exact sameBundles_freeze hb (k / 2 ^ 34) 1 (some (k % 2 ^ 34))
      · exact hb
    · exact sameBundles_storeError hb _ _ _

theorem sameBundles_holdRequests (h : SameBundles s a) (p : Ptr) (n : Nat) : SameBundles s (a.holdRequests p n) := by
  unfold State.holdRequests
  split
  · refine foldl_keeps (P := SameBundles s) (fun b q hb => ?_) _ h
    split
    · split <;> exact hb
    · exact hb
  · split
    · exact foldl_keeps (P := SameBundles s) (fun b q hb => sameBundles_storeTally hb _ _) _ h
    · exact h

theorem sameBundles_write (h : SameBundles s a) (p : Ptr) (d : List Byte) : SameBundles s (a.write p d).st := by
  unfold State.write
  split
  · exact h
  · split
    · next ht =>
      have hloader := congrArg State.loader (refusesAccess_frame ht)
      exact ⟨(congrArg Loader.bundleA hloader).trans h.1, (congrArg Loader.bundleB hloader).trans h.2⟩
    · have hmet := sameBundles_meetErrors (sameBundles_holdRequests h p d.length) p.store
        ((a.holdRequests p d.length).partialUnits p d.length)
      dsimp only
      split <;> exact hmet

/-- The ledger's way to its bank changes no bundle (R28). -/
theorem sameBundles_writeBank (s : State) (l : Load) : SameBundles s (s.writeBank l) := by
  unfold State.writeBank
  extract_lets r s1
  exact foldl_keeps (P := SameBundles s) (fun b v hb => sameBundles_write hb _ _) _ (sameBundles_write (sameBundles_refl s) _ _)

end Bundles

/-! ## Requests for power domains -/

section Domains
variable {s a : State}

/-- A request for a domain changes the power unit's queues alone. -/
theorem requestDomain_eq (s : State) (d r : Nat) : ∃ w, s.requestDomain d r = { s with power := w } := by
  unfold State.requestDomain
  split_ifs
  exacts [⟨_, rfl⟩, ⟨s.power, rfl⟩, ⟨_, rfl⟩]

theorem clustersOff_eq (s : State) : ∃ w, s.clustersOff = { s with power := w } := by
  refine foldl_keeps (P := fun a : State => ∃ w, a = { s with power := w }) (fun a c ha => ?_) _ ⟨s.power, rfl⟩
  obtain ⟨w, rfl⟩ := ha
  split
  · exact ⟨w, rfl⟩
  · exact requestDomain_eq { s with power := w } c 0

/-- The wake of the domains that a bank names counts, and leaves the loader and the other registers (R359). -/
theorem autoWake_keeps (s : State) (b : Bool) :
    (s.autoWake b).loader = s.loader ∧ ∀ k, k ≠ Reg.POWER_AUTO_WAKE → (s.autoWake b).reg k = s.reg k := by
  refine foldl_keeps (P := fun a : State => a.loader = s.loader ∧ ∀ k, k ≠ Reg.POWER_AUTO_WAKE → a.reg k = s.reg k)
    (fun a d ha => ?_) _ ⟨rfl, fun _ _ => rfl⟩
  split
  · obtain ⟨w, hw⟩ := requestDomain_eq a d 2
    rw [hw]
    exact ⟨ha.1, fun k hk => (reg_tally_other { a with power := w } hk).trans (ha.2 k hk)⟩
  · exact ha

end Domains

end Sys2Proof.Laws
end

section
/-!
SUPPORT. The load command with its refusals, DISCARD, and the ends of a load's phases (R60 to R69); the settling of O54.
-/
namespace Sys2Proof.Laws
open Sys2Proof.Machine

/-! ## What a bundle's records are read from -/

/-- Nothing differs that the bytes of a store, and where an address of DRAM lies, depend on. -/
structure SameMemory (s t : State) : Prop where
  mem : t.mem = s.mem
  drams : t.drams = s.drams
  mapBase : ∀ i, t.reg (Reg.MAP_SET_BASE i) = s.reg (Reg.MAP_SET_BASE i)
  mapCfg : ∀ i, t.reg (Reg.MAP_SET_CFG i) = s.reg (Reg.MAP_SET_CFG i)
  dcCfg : ∀ c, t.reg (Reg.DC_CFG c) = s.reg (Reg.DC_CFG c)

section Memory
variable {s t : State}

theorem SameMemory.mapSet (h : SameMemory s t) : t.mapSet = s.mapSet := by
  funext i
  simp only [State.mapSet, h.mapBase, h.mapCfg]

theorem SameMemory.dramPlace (h : SameMemory s t) (a : Nat) : t.dramPlace a = s.dramPlace a := by
  have hvalid : t.setValid = s.setValid := by
    funext i
    simp only [State.setValid, State.setIgnored, h.mapSet, State.setBad, h.dcCfg]
  unfold State.dramPlace
  rw [hvalid, h.mapSet]

theorem SameMemory.flat (h : SameMemory s t) (p : Ptr) : t.flat p = s.flat p := by
  simp only [State.flat, h.dramPlace]

theorem SameMemory.sameBytes (h : SameMemory s t) : SameBytes s t := sameBytes_of_mem_drams h.mem h.drams

theorem SameMemory.peek (h : SameMemory s t) : t.peek = s.peek := by
  funext p
  have hbyte : t.byte = s.byte := funext h.sameBytes
  simp only [State.peek, h.flat, hbyte]

theorem SameMemory.bundleAt (h : SameMemory s t) (base : Nat) : t.bundleAt base = s.bundleAt base := by
  simp only [State.bundleAt, State.words, State.word, State.peeks, h.peek]

end Memory

/-! ## EMPTY banks -/

section Empty
variable {s : State} {b : Bool}

/-- A bank without its contents, before the power unit is asked. -/
def emptied (s : State) (b : Bool) : State := ((s.setBundle b {}).setBankState b 0).setReg (bundleIdReg b) 0

theorem emptyBank_eq (s : State) (b : Bool) : ∃ w, s.emptyBank b = { emptied s b with power := w } := by
  unfold State.emptyBank
  dsimp only
  split
  · exact clustersOff_eq (emptied s b)
  · exact ⟨(emptied s b).power, rfl⟩

/-- The registers that the emptying of a bank changes. -/
def bankRegs (b : Bool) : List Nat := [Reg.LEDGER_BANK_STATE, bundleIdReg b]

/-- What the emptying of a bank leaves (R33, R66). -/
structure Emptied (b : Bool) (s t : State) : Prop where
  state : t.bankState b = 0
  other : t.bankState (!b) = s.bankState (!b)
  bundleId : t.reg (bundleIdReg b) = 0
  bundle : t.bundle b = {}
  reg : ∀ k, k ∉ bankRegs b → t.reg k = s.reg k
  mem : t.mem = s.mem
  drams : t.drams = s.drams

theorem emptied_reg {k : Nat} (hk : k ∉ bankRegs b) : (emptied s b).reg k = s.reg k := by
  simp only [bankRegs, List.mem_cons, List.not_mem_nil, or_false, not_or] at hk
  obtain ⟨hstate, hid⟩ := hk
  simp only [emptied, reg_setReg_other _ hid, setBankState_reg _ _ _ hstate, setBundle_reg]

theorem emptied_emptied (s : State) (b : Bool) : Emptied b s (emptied s b) where
  state := by rw [emptied, bankState_setReg _ (bundleIdReg_ne_bankState b), bankState_setBankState_same _ _ (by decide)]
  other := by
    rw [emptied, bankState_setReg _ (bundleIdReg_ne_bankState b), bankState_setBankState_other]
    exact bankState_congr (setBundle_reg s b {} _) (!b)
  bundleId := reg_setReg_same _ _ _
  bundle := (bundle_congr (setBankState_loader (s.setBundle b {}) b 0) b).trans (bundle_setBundle_same s b {})
  reg _ hk := emptied_reg hk
  mem := (setBankState_mem (s.setBundle b {}) b 0).trans (setBundle_mem s b {})
  drams := (setBankState_drams (s.setBundle b {}) b 0).trans (setBundle_drams s b {})

theorem emptyBank_emptied (s : State) (b : Bool) : Emptied b s (s.emptyBank b) := by
  obtain ⟨w, hw⟩ := emptyBank_eq s b
  rw [hw]
  obtain ⟨hstate, hother, hid, hbundle, hreg, hmem, hdrams⟩ := emptied_emptied s b
  exact ⟨hstate, hother, hid, hbundle, hreg, hmem, hdrams⟩

theorem mapSet_not_mem_bankRegs (i o : Nat) (ho : o < 4096) : bkey i 0x310 o ∉ bankRegs b := by
  have hpage : keyPage (bkey i 0x310 o) = 0x310 := keyPage_bkey (by decide) ho
  have hregs : ∀ k ∈ bankRegs b, keyPage k ≠ 0x310 := by cases b <;> decide
  exact fun h => hregs _ h hpage

theorem dcCfg_not_mem_bankRegs (c : Nat) : Reg.DC_CFG c ∉ bankRegs b := by
  have hoff : keyOff (Reg.DC_CFG c) = 0x100 := keyOff_rkey (by decide)
  have hregs : ∀ k ∈ bankRegs b, keyOff k ≠ 0x100 := by cases b <;> decide
  exact fun h => hregs _ h hoff

theorem Emptied.sameMemory {t : State} (h : Emptied b s t) : SameMemory s t where
  mem := h.mem
  drams := h.drams
  mapBase i := h.reg _ (mapSet_not_mem_bankRegs i _ (by decide))
  mapCfg i := h.reg _ (mapSet_not_mem_bankRegs i _ (by decide))
  dcCfg c := h.reg _ (dcCfg_not_mem_bankRegs c)

end Empty

/-! ## Refusals of a load (R62, R69) -/

section Refusal
variable {s : State}

/-- The code of the first condition of a LOAD write that fails; 0 where none does (R60, R65). -/
def loadCode (s : State) (b : Bool) (base len : Nat) : Nat :=
  if s.bankState b = 3 then 0x0101 else if s.bankState (!b) = 1 then 0x0102
  else if s.stageInDram base len = false then 0x0103
  else if s.bankActive = true ∧ regionMeets s.active.recs .dram base len = true then 0x0104
  else 0

theorem firstFail_failIf (c : Bool) (code sect item : Nat) (r : List (List Fail)) :
    firstFail (failIf c code sect item :: r) = if c then some ⟨code, sect, item⟩ else firstFail r := by
  cases c <;> rfl

/-- The conditions of a LOAD write fail with the code of the first that does. -/
theorem firstFail_loadFails (s : State) (b : Bool) (base len : Nat) :
    firstFail (s.loadFails b base len) =
      if loadCode s b base len = 0 then none else some ⟨loadCode s b base len, 0xFF, 0⟩ := by
  have hnil : firstFail [] = none := rfl
  simp only [State.loadFails, firstFail_failIf, hnil, loadCode, decide_eq_true_eq, Bool.not_eq_true', Bool.and_eq_true]
  by_cases hactive : s.bankState b = 3
  · simp [hactive]
  by_cases hother : s.bankState (!b) = 1
  · simp [hactive, hother]
  by_cases hstage : s.stageInDram base len = false
  · simp [hactive, hother, hstage]
  by_cases hmeets : s.bankActive = true ∧ regionMeets s.active.recs .dram base len = true
  · simp [hactive, hother, hstage, hmeets]
  · simp [hactive, hother, hstage, hmeets]

/-- The registers in which a refusal shows. -/
def refusalRegs : List Nat :=
  [Reg.LEDGER_REFUSE_CODE, Reg.LOADER_REFUSE_SECT, Reg.LOADER_REFUSE_ITEM, Reg.LOADER_LOAD_REFUSED, Reg.EVT_RAW 0x002]

theorem refuseLoad_onlyRegs (s : State) (f : Fail) : OnlyRegs refusalRegs s (s.refuseLoad f) :=
  onlyRegs_event (onlyRegs_tally (onlyRegs_setReg (onlyRegs_setReg (onlyRegs_setReg (onlyRegs_refl _ s) (by decide) _) (by decide) _)
    (by decide) _) (by decide)) (by decide) 2

/-- What a refusal shows: its code, its count and its event. -/
structure Refused (code : Nat) (s t : State) : Prop where
  code : t.reg Reg.LEDGER_REFUSE_CODE = BitVec.ofNat 32 code
  count : t.reg Reg.LOADER_LOAD_REFUSED = s.counted Reg.LOADER_LOAD_REFUSED
  event : t.reg (Reg.EVT_RAW 0x002) = s.reg (Reg.EVT_RAW 0x002) ||| 2

theorem refuseLoad_refused (s : State) (f : Fail) : Refused f.code s (s.refuseLoad f) where
  code := by
    rw [State.refuseLoad, reg_event_other _ (by decide), reg_tally_other _ (by decide), reg_setReg_other _ (by decide),
      reg_setReg_other _ (by decide), reg_setReg_same]
  count := by
    rw [State.refuseLoad, reg_event_other _ (by decide), reg_tally_same, reg_setReg_other _ (by decide),
      reg_setReg_other _ (by decide), reg_setReg_other _ (by decide)]
    rfl
  event := by
    rw [State.refuseLoad, reg_event_same, reg_tally_other _ (by decide), reg_setReg_other _ (by decide),
      reg_setReg_other _ (by decide), reg_setReg_other _ (by decide)]

end Refusal

/-! ## The load command (R60, R66) -/

section Command
variable {s e : State} {b : Bool}

/-- A load of a bundle begins in a bank. -/
def loadBegun (e : State) (b : Bool) (x : Bundle) (l : Load) : State :=
  let t := ((e.setBundle b x).setBankState b 1).setPhase b 1
  { t with loader := { t.loader with load := some l } }

theorem startLoad_eq (s : State) (b : Bool) :
    s.startLoad b =
      if loadCode s b s.loadStage (s.regN Reg.LOADER_STAGE_LEN) = 0 then
        loadBegun (s.emptyBank b) b (s.bundleAt s.loadStage) { phase := 1, bank := b, base := s.loadStage, len := s.regN Reg.LOADER_STAGE_LEN }
      else s.refuseLoad ⟨loadCode s b s.loadStage (s.regN Reg.LOADER_STAGE_LEN), 0xFF, 0⟩ := by
  unfold State.startLoad
  dsimp only
  rw [firstFail_loadFails]
  split_ifs
  · rw [(emptyBank_emptied s b).sameMemory.bundleAt]
    rfl
  · rfl

/-- STATUS of a phase (R69). -/
theorem setPhase_status (s : State) (b : Bool) {p : Nat} (hp : p ≠ 0) :
    (s.setPhase b p).reg Reg.LOADER_STATUS = BitVec.ofNat 32 (p + (if b then 16 else 0) + 32) := by
  rw [State.setPhase, reg_setReg_same, if_neg hp]
  cases b <;> rfl

/-- What a load that begins leaves (R60). -/
structure Loading (b : Bool) (x : Bundle) (l : Load) (s t : State) : Prop where
  state : t.bankState b = 1
  other : t.bankState (!b) = s.bankState (!b)
  status : t.reg Reg.LOADER_STATUS = BitVec.ofNat 32 (1 + (if b then 16 else 0) + 32)
  load : t.loader.load = some l
  bundle : t.bundle b = x
  regs : SameRegs (bankRegs b ++ [Reg.LOADER_STATUS]) s t
  bytes : SameBytes s t

theorem loadBegun_loading (h : Emptied b s e) (x : Bundle) (l : Load) : Loading b x l s (loadBegun e b x l) where
  state := by
    have hphase : (((e.setBundle b x).setBankState b 1).setPhase b 1).bankState b = 1 := by
      rw [State.setPhase, bankState_setReg _ (by decide), bankState_setBankState_same _ _ (by decide)]
    exact hphase
  other := by
    have hphase : (((e.setBundle b x).setBankState b 1).setPhase b 1).bankState (!b) = s.bankState (!b) := by
      rw [State.setPhase, bankState_setReg _ (by decide), bankState_setBankState_other, bankState_congr (setBundle_reg e b x _), h.other]
    exact hphase
  status := setPhase_status ((e.setBundle b x).setBankState b 1) b (by decide)
  load := rfl
  bundle := by cases b <;> rfl
  regs k hk _ := by
    simp only [List.mem_append, List.mem_singleton, not_or] at hk
    obtain ⟨hbank, hstatus⟩ := hk
    have hne : k ≠ Reg.LEDGER_BANK_STATE := fun he => hbank (he ▸ List.mem_cons_self)
    have hphase : (((e.setBundle b x).setBankState b 1).setPhase b 1).reg k = s.reg k := by
      rw [State.setPhase, reg_setReg_other _ hstatus, setBankState_reg _ _ _ hne, setBundle_reg, h.reg k hbank]
    exact hphase
  bytes := sameBytes_of_mem_drams
    ((setBankState_mem (e.setBundle b x) b 1).trans ((setBundle_mem e b x).trans h.mem))
    ((setBankState_drams (e.setBundle b x) b 1).trans ((setBundle_drams e b x).trans h.drams))

theorem Loading.settle {x : Bundle} {l : Load} {t : State} (h : Loading b x l s t) : Loading b x l s (settle t) where
  state := (bankState_congr (reg_settle (by decide) t) b).trans h.state
  other := (bankState_congr (reg_settle (by decide) t) (!b)).trans h.other
  status := (reg_settle (by decide) t).trans h.status
  load := h.load
  bundle := h.bundle
  regs := sameRegs_settle h.regs
  bytes := h.bytes

/-- The regions of the bundle that is loaded are protected (R59). -/
theorem Loading.protected_ {x : Bundle} {l : Load} {t : State} (h : Loading b x l s t) {a n : Nat}
    (hmeets : regionMeets x.recs .dram a n = true) : t.protected_ a n = true := by
  have hbank : ((t.bankState b == 1 || t.bankState b == 2 || t.bankState b == 3) && regionMeets (t.bundle b).recs .dram a n) = true := by
    rw [h.state, h.bundle, hmeets]
    rfl
  unfold State.protected_
  rw [Bool.or_eq_true, List.any_eq_true]
  exact Or.inr ⟨b, by cases b <;> decide, hbank⟩

theorem exec_loaderCmd {m : Master} (h : s.admits m 0x002 = true) (v : Word) {c : Instr} (hc : c ∈ [Instr.load m v, .discard m v]) :
    exec c s = done (s.loaderCmd v) := by
  simp only [List.mem_cons, List.not_mem_nil, or_false] at hc
  rcases hc with rfl | rfl
  · show execLoad m v s = _
    rw [execLoad, gate_admits s h]
  · show execDiscard m v s = _
    rw [execDiscard, gate_admits s h]

theorem loaderCmd_none {v : Word} (h4 : bit v 4 = false) (h0 : bit v 0 = false) : s.loaderCmd v = s := by
  simp only [State.loaderCmd, h4, h0, Bool.false_eq_true, if_false]

theorem loaderCmd_discard {v : Word} (h4 : bit v 4 = true) (h0 : bit v 0 = false) : s.loaderCmd v = s.discardBank (bit v 5) := by
  simp only [State.loaderCmd, h4, h0, Bool.false_eq_true, if_false, if_true]

theorem loaderCmd_load {v : Word} (h4 : bit v 4 = false) (h0 : bit v 0 = true) : s.loaderCmd v = s.startLoad (bit v 1) := by
  simp only [State.loaderCmd, h4, h0, Bool.false_eq_true, if_false, if_true]

theorem discardBank_dropped (h : s.bankState b = 3 ∨ s.bankState b = 1) : s.discardBank b = s.drop 0x002 := if_pos h

/-- DISCARD empties a bank that is neither ACTIVE nor LOADING (R66). -/
theorem discardBank_emptied (h3 : s.bankState b ≠ 3) (h1 : s.bankState b ≠ 1) :
    (s.discardBank b).bankState b = 0 ∧ (s.discardBank b).bankState (!b) = s.bankState (!b) ∧
    (∀ k, k ∉ bankRegs b → (s.discardBank b).reg k = s.reg k) ∧ SameBytes s (s.discardBank b) ∧
    (s.bankState b ≠ 0 → (s.discardBank b).reg (bundleIdReg b) = 0 ∧ (s.discardBank b).bundle b = {}) := by
  have hbusy : ¬ (s.bankState b = 3 ∨ s.bankState b = 1) := not_or.mpr ⟨h3, h1⟩
  unfold State.discardBank
  rw [if_neg hbusy]
  by_cases h0 : s.bankState b = 0
  · rw [if_pos h0]
    exact ⟨h0, rfl, fun _ _ => rfl, fun _ => rfl, fun h => absurd h0 h⟩
  · rw [if_neg h0]
    obtain ⟨hstate, hother, hid, hbundle, hreg, hmem, hdrams⟩ := emptyBank_emptied s b
    exact ⟨hstate, hother, hreg, sameBytes_of_mem_drams hmem hdrams, fun _ => ⟨hid, hbundle⟩⟩

end Command

/-! ## The ends of the phases (R60, R62, R68) -/

section Phases
variable {s : State} {l : Load}

/-- The load as the end of a phase takes it on: with the second, the caps in force are kept (R64). -/
def carriedOn (s : State) (l : Load) : Load :=
  if l.phase = 2 then { l with caps := s.capsNow, corr := bits (s.reg Reg.TICK_CORR_S) 9 0 } else l

/-- The first failure of a phase that only checks. -/
def phaseFail (s : State) (l : Load) : Option Fail :=
  if l.phase = 1 then firstFail (s.signatureFails (s.peeks { store := .dram, addr := l.base } 0xC80)
      (s.peeks { store := .dram, addr := l.base + 0xC80 } 16224) l.len)
  else if l.phase = 2 then firstFail (s.hashFails (s.bundle l.bank) l.base)
  else s.weigh (stageSrc (s.bundle l.bank) l.base) ⟨l.caps⟩ l.corr l.frozen.toNat

theorem exec_loadPhaseEnd_none (h : s.loader.load = none) : exec .loadPhaseEnd s = done s := by
  show execLoadPhaseEnd s = _
  simp only [execLoadPhaseEnd, h]

theorem exec_loadPhaseEnd (h : s.loader.load = some l) : exec .loadPhaseEnd s = done (s.endPhase l) := by
  show execLoadPhaseEnd s = _
  simp only [execLoadPhaseEnd, h]

theorem endPhase_check (hp : l.phase ∈ [1, 2, 3]) : s.endPhase l = s.phaseEnd l (phaseFail s l) (s.nextPhase (carriedOn s l)) := by
  simp only [List.mem_cons, List.not_mem_nil, or_false] at hp
  unfold State.endPhase phaseFail carriedOn
  rcases hp with hp | hp | hp <;> simp [hp]

theorem endPhase_last (hp : 5 ≤ l.phase) (hlost : firstFail (s.lostFails (stageSrc (s.bundle l.bank) l.base) l.frozen.toNat) = none) :
    s.endPhase l = (s.writeBank l).endAccepted l := by
  have h1 : l.phase ≠ 1 := by omega
  have h2 : l.phase ≠ 2 := by omega
  have h3 : l.phase ≠ 3 := by omega
  have h4 : l.phase ≠ 4 := by omega
  simp only [State.endPhase, h1, h2, h3, h4, if_false, hlost, State.phaseEnd]

/-- What a refusal at the end of a phase leaves (R59, R62). -/
structure LoadRefused (l : Load) (code : Nat) (s t : State) : Prop where
  state : t.bankState l.bank = 4
  code : t.reg Reg.LEDGER_REFUSE_CODE = BitVec.ofNat 32 code
  load : t.loader.load = none
  status : t.reg Reg.LOADER_STATUS = 0
  count : t.reg Reg.LOADER_LOAD_REFUSED = s.counted Reg.LOADER_LOAD_REFUSED
  bytes : SameBytes s t

theorem endRefused_refused (s : State) (l : Load) (f : Fail) : LoadRefused l f.code s (s.endRefused l f) := by
  obtain ⟨u, hu⟩ : ∃ u, u = (s.setBundle l.bank {}).setBankState l.bank 4 := ⟨_, rfl⟩
  have hstate : u.bankState l.bank = 4 := by rw [hu, bankState_setBankState_same _ _ (by decide)]
  have hcount : u.reg Reg.LOADER_LOAD_REFUSED = s.reg Reg.LOADER_LOAD_REFUSED := by
    rw [hu, setBankState_reg _ _ _ (by decide), setBundle_reg]
  have hbytes : SameBytes s u := by
    rw [hu]
    exact sameBytes_of_mem_drams ((setBankState_mem _ _ _).trans (setBundle_mem _ _ _))
      ((setBankState_drams _ _ _).trans (setBundle_drams _ _ _))
  obtain ⟨hregs, hsame, -⟩ := refuseLoad_onlyRegs u f
  obtain ⟨hcode, htally, -⟩ := refuseLoad_refused u f
  have hend : s.endRefused l f =
      ({ u.refuseLoad f with loader := { (u.refuseLoad f).loader with load := none } }).setPhase l.bank 0 := by rw [hu]; rfl
  rw [hend]
  generalize u.refuseLoad f = r at hregs hsame hcode htally
  exact
    { state := (bankState_setReg _ (by decide) _ _).trans ((bankState_congr (hregs _ (by decide) (by decide)) _).trans hstate)
      code := (reg_setReg_other _ (by decide) _).trans hcode
      load := rfl
      status := reg_setReg_same _ _ _
      count := by
        refine ((reg_setReg_other _ (by decide) _).trans htally).trans ?_
        simp only [State.counted, hcount]
      bytes := fun k => (hsame k).trans (hbytes k) }

theorem LoadRefused.settle {code : Nat} {t : State} (h : LoadRefused l code s t) : LoadRefused l code s (settle t) where
  state := (bankState_congr (reg_settle (by decide) t) _).trans h.state
  code := (reg_settle (by decide) t).trans h.code
  load := h.load
  status := (reg_settle (by decide) t).trans h.status
  count := (reg_settle (by decide) t).trans h.count
  bytes := h.bytes

/-- The next phase shows in STATUS and in the load that runs. -/
theorem nextPhase_shown (s : State) (l : Load) :
    (s.nextPhase l).loader.load.map Load.phase = some (l.phase + 1) ∧ (s.nextPhase l).loader.load.map Load.bank = some l.bank ∧
    (s.nextPhase l).loader.load.map Load.caps = some l.caps ∧
    (s.nextPhase l).reg Reg.LOADER_STATUS = BitVec.ofNat 32 (l.phase + 1 + (if l.bank then 16 else 0) + 32) ∧
    (∀ b, (s.nextPhase l).bundle b = s.bundle b) ∧ SameRegs [Reg.LOADER_STATUS] s (s.nextPhase l) ∧ SameBytes s (s.nextPhase l) := by
  refine ⟨rfl, rfl, rfl, setPhase_status _ _ (by omega), fun b => by cases b <;> rfl, fun k hk _ => ?_, fun _ => rfl⟩
  exact reg_setReg_other _ (fun he => hk (List.mem_singleton.mpr he)) _

theorem carriedOn_shown (s : State) (l : Load) :
    (carriedOn s l).phase = l.phase ∧ (carriedOn s l).bank = l.bank ∧ (l.phase = 2 → (carriedOn s l).caps = s.capsNow) := by
  unfold carriedOn
  split
  · exact ⟨rfl, rfl, fun _ => rfl⟩
  · next h => exact ⟨rfl, rfl, fun h2 => absurd h2 h⟩

/-- An accepted bundle leaves its bank WEIGHED under its number (R33, R69). -/
theorem endAccepted_shown (s : State) (l : Load) :
    (s.endAccepted l).bankState l.bank = 2 ∧ (s.endAccepted l).loader.load = none ∧
    (s.endAccepted l).reg (bundleIdReg l.bank) = bytesWord (s.bundle l.bank).header 0x014 ∧ (s.endAccepted l).reg Reg.LOADER_STATUS = 0 := by
  obtain ⟨u, hu⟩ : ∃ u, u = (((s.setBankState l.bank 2).setReg (bundleIdReg l.bank) (bytesWord (s.bundle l.bank).header 0x014)).setReg
      Reg.LOADER_KEY_USED (BitVec.ofNat 32 (bits (bytesWord (s.bundle l.bank).header 0x010) 1 0))).event 0x002 1 := ⟨_, rfl⟩
  have hstate : u.bankState l.bank = 2 := by
    rw [hu, State.event, bankState_setReg _ (by decide), bankState_setReg _ (by decide), bankState_setReg _ (bundleIdReg_ne_bankState _),
      bankState_setBankState_same _ _ (by decide)]
  have hne : bundleIdReg l.bank ≠ Reg.LOADER_KEY_USED ∧ bundleIdReg l.bank ≠ Reg.EVT_RAW 0x002 ∧ bundleIdReg l.bank ≠ Reg.POWER_AUTO_WAKE := by
    cases l.bank <;> decide
  obtain ⟨hkey, hevt, hwake⟩ := hne
  have hid : u.reg (bundleIdReg l.bank) = bytesWord (s.bundle l.bank).header 0x014 := by
    rw [hu, reg_event_other _ hevt, reg_setReg_other _ hkey, reg_setReg_same]
  have hend : s.endAccepted l = (({ u with loader := { u.loader with load := none } }).setPhase l.bank 0).autoWake l.bank := by rw [hu]; rfl
  rw [hend]
  obtain ⟨hloader, hreg⟩ := autoWake_keeps (({ u with loader := { u.loader with load := none } }).setPhase l.bank 0) l.bank
  refine ⟨?_, ?_, ?_, ?_⟩
  · exact (bankState_congr (hreg _ (by decide)) _).trans ((bankState_setReg _ (by decide) _ _).trans hstate)
  · rw [hloader]
    rfl
  · exact (hreg _ hwake).trans ((reg_setReg_other _ (bundleIdReg_ne_status _) _).trans hid)
  · exact (hreg _ (by decide)).trans (reg_setReg_same _ _ _)

end Phases

/-- Settles O54: a LOAD is refused with the first of its conditions that fails and else begins; DISCARD empties; the end of a phase
refuses or goes on. -/
theorem loadsPassTheirPhases : Obligations.LoadsPassTheirPhases := by
  refine ⟨?_, ?_, ?_, ?_⟩
  · intro m v s b hadm c hc
    rw [exec_loaderCmd hadm v hc]
    refine ⟨fun h4 h0 => ?_, fun h4 h0 hb => ?_, fun h4 h0 hb code hcode => ?_⟩
    · rw [loaderCmd_none h4 h0]
      exact ⟨_, rfl, onlyRegs_settle (onlyRegs_refl [] s)⟩
    · rw [loaderCmd_discard h4 h0, ← hb]
      by_cases hbusy : s.bankState b = 3 ∨ s.bankState b = 1
      · rw [discardBank_dropped hbusy]
        obtain ⟨t, ht, hcount, hregs, hbytes, hrest⟩ := done_drop 0x002 s
        exact ⟨t, ht, hbytes, fun _ => ⟨hcount, hregs, hrest⟩, fun h3 h1 => absurd hbusy (not_or.mpr ⟨h3, h1⟩)⟩
      · obtain ⟨h3, h1⟩ := not_or.mp hbusy
        obtain ⟨hstate, hother, hreg, hbytes, hheld⟩ := discardBank_emptied h3 h1
        refine ⟨_, rfl, hbytes, fun h => absurd h hbusy, fun _ _ => ⟨?_, ?_, ?_, fun h => ?_⟩⟩
        · exact (bankState_congr (reg_settle (by decide) _) b).trans hstate
        · exact (bankState_congr (reg_settle (by decide) _) (!b)).trans hother
        · exact sameRegs_settle fun k hk _ => hreg k hk
        · exact ⟨(reg_settle (bundleIdReg_not_mem_riseTallies b) _).trans (hheld h).1, (hheld h).2⟩
    · replace hcode : code = loadCode s b s.loadStage (s.regN Reg.LOADER_STAGE_LEN) := hcode
      rw [loaderCmd_load h4 h0, ← hb, startLoad_eq, ← hcode]
      by_cases hz : code = 0
      · rw [if_pos hz]
        have hload := (loadBegun_loading (emptyBank_emptied s b) (s.bundleAt s.loadStage)
          { phase := 1, bank := b, base := s.loadStage, len := s.regN Reg.LOADER_STAGE_LEN }).settle
        refine ⟨_, rfl, hload.bytes, fun h => absurd hz h, fun _ => ⟨hload.state, hload.other, ?_, hload.load, hload.bundle,
          fun a n hmeets => hload.protected_ hmeets, hload.regs⟩⟩
        rw [hload.status]
        cases b <;> rfl
      · rw [if_neg hz]
        obtain ⟨hregs, hbytes, hrest⟩ := onlyRegs_settle (refuseLoad_onlyRegs s ⟨code, 0xFF, 0⟩)
        obtain ⟨hcode', hcount, hevent⟩ := refuseLoad_refused s ⟨code, 0xFF, 0⟩
        exact ⟨_, rfl, hbytes, fun _ => ⟨(reg_settle (by decide) _).trans hcode', rfl, (reg_settle (by decide) _).trans hcount,
          (reg_settle (by decide) _).trans hevent, hregs⟩, fun h => absurd h hz⟩
  · intro s hnone
    rw [exec_loadPhaseEnd_none hnone]
    exact ⟨_, rfl, onlyRegs_settle (onlyRegs_refl [] s)⟩
  · intro s l f hl hp hf
    replace hf : f = phaseFail s l := hf
    rw [exec_loadPhaseEnd hl, endPhase_check hp, ← hf]
    cases f with
    | some x =>
      have href := (endRefused_refused s l x).settle
      refine ⟨_, rfl, href.bytes, fun y hy => ?_, fun h => absurd h (Option.some_ne_none x)⟩
      obtain rfl : x = y := Option.some.inj hy
      exact ⟨href.state, href.code, href.load, href.status, href.count⟩
    | none =>
      obtain ⟨hphase, hbank, hcaps, hstatus, hbundle, hregs, hbytes⟩ := nextPhase_shown s (carriedOn s l)
      obtain ⟨hp', hb', hc'⟩ := carriedOn_shown s l
      rw [hp'] at hphase hstatus
      rw [hb'] at hbank hstatus
      exact ⟨_, rfl, hbytes, fun x hx => absurd hx.symm (Option.some_ne_none x), fun _ => ⟨hphase, hbank,
        (reg_settle (by decide) _).trans hstatus, hbundle, fun h2 => hcaps.trans (congrArg some (hc' h2)), sameRegs_settle hregs⟩⟩
  · intro s l hl hp hlost
    rw [exec_loadPhaseEnd hl, endPhase_last hp hlost]
    obtain ⟨hstate, hload, hid, hstatus⟩ := endAccepted_shown (s.writeBank l) l
    rw [(sameBundles_writeBank s l).bundle] at hid
    exact ⟨_, rfl, (bankState_congr (reg_settle (by decide) _) _).trans hstate, hload,
      (reg_settle (bundleIdReg_not_mem_riseTallies _) _).trans hid, (reg_settle (by decide) _).trans hstatus⟩

end Sys2Proof.Laws
end

section
/-!
SUPPORT. Device addresses and their places in the DRAM channels (R293, R294): the sets share no place, so that the bytes of an
access that nothing refuses read back as they were written, in DRAM as in an on-chip store.
-/
namespace Sys2Proof.Laws
open Sys2Proof.Machine

/-! ## The place of an address in its set -/

section Sets
variable {s : State} {m m' : MapSet} {a a' : Nat}

theorem mem_maskChannels {n c : Nat} : c ∈ maskChannels n ↔ c < 8 ∧ n.testBit c = true := by
  simp only [maskChannels, List.mem_filter, List.mem_range]

theorem maskChannels_nodup (n : Nat) : (maskChannels n).Nodup := List.nodup_range.filter _

/-- An address of a set lies on one of its channels, within the set's part of it. -/
theorem place_bounds (h : m.holds a = true) :
    (m.place a).1 ∈ maskChannels m.mask ∧ m.off * 2 ^ 30 ≤ (m.place a).2 ∧ (m.place a).2 < (m.off + m.size) * 2 ^ 30 := by
  obtain ⟨g, hg⟩ : ∃ g : Nat, 2 ^ 30 = 256 * g := ⟨2 ^ 22, rfl⟩
  simp only [MapSet.holds, Bool.and_eq_true, decide_eq_true_eq, hg] at h
  obtain ⟨⟨hlo, hhi⟩, -⟩ := h
  simp only [MapSet.place, hg]
  have hd : a - m.base * (256 * g) < m.p * (m.size * (256 * g)) := by
    have htop : (m.base + m.p * m.size) * (256 * g) = m.base * (256 * g) + m.p * (m.size * (256 * g)) := by ring
    omega
  have hp : 0 < m.p := Nat.pos_of_ne_zero fun h0 => by simp [h0] at hd
  have hu : (a - m.base * (256 * g)) / 256 / m.p < m.size * g := by
    rw [Nat.div_div_eq_div_mul, Nat.div_lt_iff_lt_mul (by omega)]
    calc a - m.base * (256 * g) < m.p * (m.size * (256 * g)) := hd
      _ = m.size * g * (256 * m.p) := by ring
  have htop : (m.off + m.size) * (256 * g) = m.off * (256 * g) + 256 * (m.size * g) := by ring
  have hlt : (a - m.base * (256 * g)) / 256 % m.p < (maskChannels m.mask).length := Nat.mod_lt _ hp
  refine ⟨?_, by omega, ?_⟩
  · rw [List.getD_eq_getElem _ _ hlt]
    exact List.getElem_mem hlt
  · generalize (a - m.base * (256 * g)) / 256 / m.p = q at hu
    omega

/-- Two addresses of a set have different places. -/
theorem place_injective (h : m.holds a = true) (h' : m.holds a' = true) (he : m.place a = m.place a') : a = a' := by
  simp only [MapSet.holds, Bool.and_eq_true, decide_eq_true_eq] at h h'
  obtain ⟨⟨hlo, hhi⟩, -⟩ := h
  obtain ⟨⟨hlo', -⟩, -⟩ := h'
  have hp : 0 < m.p := Nat.pos_of_ne_zero fun h0 => by simp [h0] at hhi; omega
  simp only [MapSet.place, Prod.mk.injEq] at he
  obtain ⟨hchan, hoff⟩ := he
  generalize hd : a - m.base * 2 ^ 30 = d at hchan hoff
  generalize hd' : a' - m.base * 2 ^ 30 = d' at hchan hoff
  have hlt (u : Nat) : u % m.p < (maskChannels m.mask).length := Nat.mod_lt u hp
  rw [List.getD_eq_getElem _ _ (hlt (d / 256)), List.getD_eq_getElem _ _ (hlt (d' / 256)),
    (maskChannels_nodup m.mask).getElem_inj_iff] at hchan
  have hdiv : d / 256 / m.p = d' / 256 / m.p := by omega
  have hmod : d % 256 = d' % 256 := by omega
  have hblock : d / 256 = d' / 256 := by rw [← Nat.div_add_mod (d / 256) m.p, ← Nat.div_add_mod (d' / 256) m.p, hdiv, hchan]
  omega

/-- Sets that do not overlap share no place. -/
theorem place_ne (h : m.holds a = true) (h' : m'.holds a' = true) (hover : setsOverlap m m' = false) : m.place a ≠ m'.place a' := by
  intro he
  obtain ⟨hchan, hlo, hhi⟩ := place_bounds h
  obtain ⟨hchan', hlo', hhi'⟩ := place_bounds h'
  rw [← he] at hchan' hlo' hhi'
  have hshare : m.mask &&& m'.mask ≠ 0 := by
    intro h0
    have hbit := congrArg (fun x => Nat.testBit x (m.place a).1) h0
    simp [(mem_maskChannels.mp hchan).2, (mem_maskChannels.mp hchan').2] at hbit
  simp only [setsOverlap, Bool.or_eq_false_iff, Bool.and_eq_false_iff, decide_eq_false_iff_not] at hover
  have hoff := hover.2
  generalize m.mask &&& m'.mask = b at hshare hoff
  generalize (m.place a).2 = o at *
  omega

end Sets

/-! ## Device addresses -/

section Addresses
variable {s : State} {a a' c c' o : Nat}

/-- The set that an address lies in, with what makes it valid (R294). -/
theorem dramPlace_some {x : Nat × Nat} (h : s.dramPlace a = some x) :
    ∃ i, i < 8 ∧ s.setValid i = true ∧ (s.mapSet i).holds a = true ∧ (s.mapSet i).place a = x := by
  unfold State.dramPlace at h
  split at h
  · next i hi =>
    have hset := List.find?_some hi
    rw [Bool.and_eq_true] at hset
    exact ⟨i, List.mem_range.mp (List.mem_of_find?_eq_some hi), hset.1, hset.2, Option.some.inj h⟩
  · cases h

theorem setValid_iff {i : Nat} : s.setValid i = true ↔ (s.mapSet i).size ≠ 0 ∧ s.setBad (s.mapSet i) = false ∧
    ∀ j < 8, j ≠ i → (s.mapSet j).size ≠ 0 → setsOverlap (s.mapSet i) (s.mapSet j) = false := by
  simp [State.setValid, State.setIgnored]
  tauto

/-- Two device addresses that lie in sets have different places (R294). -/
theorem dramPlace_injective {x : Nat × Nat} (h : s.dramPlace a = some x) (h' : s.dramPlace a' = some x) : a = a' := by
  obtain ⟨i, hi, hvalid, hholds, hplace⟩ := dramPlace_some h
  obtain ⟨j, hj, hvalid', hholds', hplace'⟩ := dramPlace_some h'
  by_cases hij : j = i
  · subst hij
    exact place_injective hholds hholds' (hplace.trans hplace'.symm)
  · obtain ⟨-, -, hapart⟩ := setValid_iff.mp hvalid
    obtain ⟨hsize', -, -⟩ := setValid_iff.mp hvalid'
    exact absurd (hplace.trans hplace'.symm) (place_ne hholds hholds' (hapart j hj hij hsize'))

theorem dcCapacity_le (cfg : Word) : dcCapacity cfg ≤ 16 := by
  unfold dcCapacity
  split_ifs <;> decide

/-- A place lies on a channel, below its capacity (R293). -/
theorem dramPlace_bounds (h : s.dramPlace a = some (c, o)) : c < 8 ∧ o < dcCapacity (s.reg (Reg.DC_CFG c)) * 2 ^ 30 := by
  obtain ⟨i, -, hvalid, hholds, hplace⟩ := dramPlace_some h
  obtain ⟨-, hbad, -⟩ := setValid_iff.mp hvalid
  obtain ⟨hchan, -, hhi⟩ := place_bounds hholds
  rw [hplace] at hchan hhi
  have hcap : (s.mapSet i).off + (s.mapSet i).size ≤ dcCapacity (s.reg (Reg.DC_CFG c)) := by
    simp only [State.setBad, Bool.or_eq_false_iff, List.any_eq_false, decide_eq_true_eq, not_lt] at hbad
    exact hbad.2 c hchan
  exact ⟨(mem_maskChannels.mp hchan).1, lt_of_lt_of_le hhi (Nat.mul_le_mul_right _ hcap)⟩

/-- The addresses of a block of 256 bytes lie in sets together. -/
theorem dramPlace_block (h : (s.dramPlace (a / 256 * 256)).isSome = true) : (s.dramPlace a).isSome = true := by
  obtain ⟨x, hx⟩ := Option.isSome_iff_exists.mp h
  obtain ⟨i, hi, hvalid, hholds, -⟩ := dramPlace_some hx
  have hin : (s.mapSet i).holds a = true := by
    simp only [MapSet.holds, Bool.and_eq_true, decide_eq_true_eq] at hholds ⊢
    generalize (s.mapSet i).base + (s.mapSet i).p * (s.mapSet i).size = top at *
    omega
  unfold State.dramPlace
  split
  · rfl
  · next hnone =>
    have hno := List.find?_eq_none.mp hnone i (List.mem_range.mpr hi)
    rw [hvalid, hin] at hno
    exact absurd rfl hno

end Addresses

/-! ## Bytes of an access that nothing refuses -/

section Flat
variable {s : State} {p : Ptr} {n : Nat}

/-- Two addresses of a store have different flat numbers. -/
theorem flat_injective {q : Ptr} {k : Nat} (hst : p.store = q.store) (hp : s.flat p = some k) (hq : s.flat q = some k) :
    p.addr = q.addr := by
  by_cases hd : p.store = .dram
  · simp only [State.flat, hd, hst ▸ hd, Option.map_eq_some_iff] at hp hq
    obtain ⟨⟨c, o⟩, hx, hk⟩ := hp
    obtain ⟨⟨c', o'⟩, hy, hk'⟩ := hq
    have ho := (dramPlace_bounds hx).2
    have ho' := (dramPlace_bounds hy).2
    have hcap := dcCapacity_le (s.reg (Reg.DC_CFG c))
    have hcap' := dcCapacity_le (s.reg (Reg.DC_CFG c'))
    generalize dcCapacity (s.reg (Reg.DC_CFG c)) = cap at ho hcap
    generalize dcCapacity (s.reg (Reg.DC_CFG c')) = cap' at ho' hcap'
    dsimp only at hk hk'
    obtain ⟨rfl, rfl⟩ : c = c' ∧ o = o' := by omega
    exact dramPlace_injective hx hy
  · rw [flat_onChip s hd] at hp
    rw [flat_onChip s (hst ▸ hd), ← hst] at hq
    split_ifs at hp hq
    have := (Option.some.inj hp).trans (Option.some.inj hq).symm
    omega

/-- Every byte of an access that nothing refuses has a flat number. -/
theorem flat_isSome (h : s.refusesAccess p n = none) {i : Nat} (hi : i < n) : ∃ k, s.flat (ptrAdd p i) = some k := by
  by_cases hd : p.store = .dram
  · have hall : ∀ j < (p.addr % 256 + n + 255) / 256, (s.dramPlace (p.addr / 256 * 256 + 256 * j)).isSome = true := by
      unfold State.refusesAccess at h
      simp only [hd, State.touched] at h
      split at h
      · cases h
      · next cs hcs =>
        split_ifs at hcs with hblocks
        intro j hj
        exact List.all_eq_true.mp hblocks _ (List.mem_map_of_mem (List.mem_range.mpr hj))
    have hblock := hall ((p.addr + i) / 256 - p.addr / 256) (by omega)
    have haddr : p.addr / 256 * 256 + 256 * ((p.addr + i) / 256 - p.addr / 256) = (p.addr + i) / 256 * 256 := by omega
    rw [haddr] at hblock
    obtain ⟨x, hx⟩ := Option.isSome_iff_exists.mp (dramPlace_block hblock)
    exact ⟨x.1 * 2 ^ 34 + x.2, by simp only [State.flat, ptrAdd, hd, hx, Option.map_some]⟩
  · exact ⟨_, flat_ptrAdd_onChip s hd (fits_of_refusesAccess s hd h) hi⟩

/-- The bytes of a write that nothing refuses read back. -/
theorem peeks_pokes {d : List Byte} (h : s.refusesAccess p d.length = none) : (s.pokes p d).peeks p d.length = d := by
  refine List.ext_getElem (by simp [State.peeks]) fun i hi hi' => ?_
  obtain ⟨k, hk⟩ := flat_isSome h hi'
  have hflat : (s.pokes p d).flat (ptrAdd p i) = some k := hk
  simp only [State.peeks, List.getElem_map, List.getElem_range, State.peek, hflat]
  rw [byte_pokes_inside s p d hi' hk fun j hij hj hk' => ?_, List.getD_eq_getElem _ _ hi']
  have := flat_injective (p := ptrAdd p i) (q := ptrAdd p j) rfl hk hk'
  simp only [ptrAdd] at this
  omega

end Flat

end Sys2Proof.Laws
end

section
/-!
SUPPORT. The cluster sequencers (R97 to R100, R107, R112, R120): what the start of an instruction leaves alone, the outcomes of a
command that names the next instruction, and NOP, LDLEN and MOVE; the settling of O56.
-/
namespace Sys2Proof.Laws
open Sys2Proof.Machine

/-! ## What a program's accesses depend on -/

/-- Nothing differs that the accesses of a cluster's program depend on: only records of clusters and registers of their pages. -/
structure SameProgram (s t : State) : Prop where
  mem : t.mem = s.mem
  drams : t.drams = s.drams
  upsets : t.upsets = s.upsets
  power : t.power = s.power
  sec : t.sec = s.sec
  loader : t.loader = s.loader
  pools : t.pools = s.pools
  reg : ∀ k, OutsideClusters k → t.reg k = s.reg k

theorem outsideClusters_header {p o : Nat} (hp : p < 0x100) (ho : o < 4096) : OutsideClusters (rkey p o) := by
  unfold OutsideClusters rkey
  omega

theorem outsideClusters_channel (c o : Nat) : OutsideClusters (rkey (0x300 + c) o) :=
  Or.inr (le_trans (by decide) (le_rkey_channel c o))

theorem outsideClusters_map (i o : Nat) : OutsideClusters (bkey i 0x310 o) := by
  unfold OutsideClusters bkey
  omega

section Congr
variable {s t : State}

theorem active_congr (hact : t.reg Reg.LEDGER_ACTIVE = s.reg Reg.LEDGER_ACTIVE) (hload : t.loader = s.loader) : t.active = s.active := by
  have hbank : t.actBank = s.actBank := by simp only [State.actBank, hact]
  rw [State.active, State.active, hbank]
  exact bundle_congr hload _

theorem relocated_congr (htick : t.reg Reg.TICK_SEQ = s.reg Reg.TICK_SEQ) (hact : t.active = s.active) (p : Ptr) :
    t.relocate t.unitOdd p = s.relocate s.unitOdd p := by
  have hodd : t.unitOdd = s.unitOdd := by simp only [State.unitOdd, State.tick, htick]
  unfold State.relocate
  rw [hodd, hact]

theorem settle_shows (t : State) (p : Ptr) (n : Nat) : (settle t).shows p n = t.shows p n := by
  have hact : (settle t).active = t.active := active_congr (reg_settle (by decide) t) rfl
  rw [State.shows, State.shows, settle_peeks, relocated_congr (reg_settle (by decide) t) hact]

end Congr

namespace SameProgram
variable {s t : State}

theorem sameMemory (h : SameProgram s t) : SameMemory s t where
  mem := h.mem
  drams := h.drams
  mapBase i := h.reg _ (outsideClusters_map i _)
  mapCfg i := h.reg _ (outsideClusters_map i _)
  dcCfg c := h.reg _ (outsideClusters_channel c _)

theorem atRest (h : SameProgram s t) (hs : s.AtRest) : t.AtRest := by
  obtain ⟨hup, hclear, hopen⟩ := hs
  exact ⟨h.upsets.trans hup, by rw [h.power, hclear], fun c => by simpa only [State.dram, h.drams] using hopen c⟩

theorem touched (h : SameProgram s t) (p : Ptr) (n : Nat) : t.touched p n = s.touched p n := by
  simp only [State.touched, h.sameMemory.dramPlace]

theorem refusesAccess_eq_none (h : SameProgram s t) {p : Ptr} {n : Nat} (hs : s.refusesAccess p n = none) :
    t.refusesAccess p n = none := by
  have hdom : t.domOn = s.domOn := by
    funext d
    simp only [State.domOn, State.domState, h.power]
  have hserves : t.chanServes = s.chanServes := by
    funext c
    have hstate : t.reg (Reg.DC_STATE c) = s.reg (Reg.DC_STATE c) := h.reg _ (outsideClusters_channel c _)
    simp only [State.chanServes, State.chanState, hstate, hdom]
  unfold State.refusesAccess at hs ⊢
  simp only [h.touched, hserves, hdom, h.sec]
  cases hp : p.store with
  | dram =>
    simp only [hp] at hs ⊢
    split at hs
    · cases hs
    · split at hs
      · rfl
      · cases hs
  | secure =>
    simp only [hp] at hs ⊢
    split_ifs at hs ⊢
    rfl
  | _ =>
    simp only [hp] at hs ⊢
    split_ifs at hs ⊢
    all_goals rfl

theorem active (h : SameProgram s t) : t.active = s.active :=
  active_congr (h.reg _ (outsideClusters_header (by decide) (by decide))) h.loader

/-- Parity relocates a job's addresses alike (R430). -/
theorem relocated (h : SameProgram s t) (p : Ptr) : t.relocate t.unitOdd p = s.relocate s.unitOdd p :=
  relocated_congr (h.reg _ (outsideClusters_header (by decide) (by decide))) h.active p

theorem elem32 (h : SameProgram s t) (p : Ptr) (k : Nat) : t.elem32 p k = s.elem32 p k := by
  simp only [State.elem32, State.elem, State.fetch, h.relocated, h.sameMemory.peek]

theorem peeks (h : SameProgram s t) (p : Ptr) (n : Nat) : t.peeks p n = s.peeks p n := by
  simp only [State.peeks, h.sameMemory.peek]

theorem inPoolRegion (h : SameProgram s t) (p : Ptr) : t.inPoolRegion p = s.inPoolRegion p := by
  simp only [State.inPoolRegion, h.active]

theorem bpmFind (h : SameProgram s t) (p : Ptr) : t.bpmFind p = s.bpmFind p := by
  have hpool : t.pool = s.pool := by
    funext n
    simp only [State.pool, h.pools]
  unfold State.bpmFind State.poolOf
  rw [hpool]

theorem moveOutside (h : SameProgram s t) {st : Nat} (hst : st < 8) (p : Ptr) (n : Nat) : t.moveOutside st p n = s.moveOutside st p n := by
  have hpitch : t.reg (Reg.STALL_PITCH st) = s.reg (Reg.STALL_PITCH st) := h.reg _ (stallReg_outsideClusters hst (by decide))
  simp only [State.moveOutside, State.pitch, h.touched, hpitch]

theorem canRead (h : SameProgram s t) {rs : List (Ptr × Nat)} (hs : s.CanRead rs) : t.CanRead rs := fun r hr => by
  rw [h.relocated]
  exact h.refusesAccess_eq_none (hs r hr)

theorem canWrite (h : SameProgram s t) {rs : List (Ptr × Nat)} (hs : s.CanWrite rs) : t.CanWrite rs := fun r hr => by
  rw [h.relocated]
  exact ⟨h.refusesAccess_eq_none (hs r hr).1, (hs r hr).2⟩

end SameProgram

/-- A job's reads that nothing refuses leave the state as it is. -/
theorem readAll_atRest {s : State} (hs : s.AtRest) (st : Nat) {rs : List (Ptr × Nat)} (hr : s.CanRead rs) :
    s.readAll st rs = (s, none) := by
  induction rs with
  | nil => rfl
  | cons r rs ih =>
    obtain ⟨p, n⟩ := r
    have hread := read_atRest hs (hr (p, n) List.mem_cons_self)
    have htail := ih fun q hq => hr q (List.mem_cons_of_mem _ hq)
    simp only [State.readAll]
    rw [hread]
    exact htail

/-- A job's write that nothing refuses stores its bytes. -/
theorem writeAll_atRest {s : State} (hs : s.AtRest) (st : Nat) {p : Ptr} {d : List Byte} (hw : s.CanWrite [(p, d.length)]) :
    s.writeAll st [(p, d)] = (s.pokes (s.relocate s.unitOdd p) d, none) := by
  obtain ⟨hserved, hbank⟩ := hw _ List.mem_cons_self
  simp only [State.writeAll]
  rw [if_neg hbank, write_served hs hserved]
  rfl

/-! ## What a command to the sequencer does -/

section Issue
variable {s : State} {c : Fin 8} {pc op : Nat} {x : Issue} {run : State → Issue → State}

theorem issue_none (h : s.nextInstr c pc = none) : s.issue c pc op run = s := by
  simp only [State.issue, h]

/-- The outcomes for the next instruction, its words read (R97 to R100). -/
theorem issue_eq (h : s.NextIs c pc op x) : s.issue c pc op run =
    if instrBad x.ws = true then s.refuseInstr x
    else if s.predicate x = false then (s.markStarted x pc).tally (Reg.CLUSTER_PRED_SKIP c.val)
    else if s.held x = true then s.setField (Reg.CLUSTER_SEQ_STATE c.val) 2 0 2
    else run (s.markStarted x pc) x := by
  obtain ⟨st, job, c', ws⟩ := x
  obtain ⟨sl, hnext, hjob, hc, hws, hread, hrest, hop⟩ := h
  dsimp only at hnext hjob hc hws
  subst hjob hc hws
  unfold State.issue
  simp only [hnext, read_atRest hrest hread]
  rw [if_neg (by decide : ¬ (0 : Nat) ≠ 0), if_neg (not_not.mpr hop)]

/-- The stall and slot of the next instruction. -/
theorem nextIs_slot (h : s.NextIs c pc op x) : x.c = c ∧ x.st < 8 ∧ ∃ sl, (s.stall x.st).slot = some sl ∧ sl.job = x.job := by
  obtain ⟨sl, hnext, hjob, hc, -⟩ := h
  unfold State.nextInstr at hnext
  split at hnext
  · cases hnext
  · next st hst =>
    split at hnext
    · cases hnext
    · next y hy =>
      dsimp only at hnext
      split_ifs at hnext
      obtain ⟨rfl, rfl⟩ := Prod.mk.injEq .. ▸ Option.some.inj hnext
      exact ⟨hc, List.mem_range.mp (List.mem_of_find?_eq_some hst), _, hy, hjob.symm⟩

theorem issue_runs (h : s.Runs c pc op x) : s.issue c pc op run = run (s.markStarted x pc) x := by
  obtain ⟨hnext, hgood, hpred, hfree⟩ := h
  simp only [issue_eq hnext, hgood, hpred, hfree, Bool.false_eq_true, Bool.true_eq_false, if_false]

/-- The commands of the cluster sequencer with their opcodes. -/
def sequenced (c : Fin 8) (pc : BitVec 23) (par : Option (BitVec 20)) : List (Nat × Instr) :=
  [(0x00, Instr.nop c pc), (0x01, .matmul c pc), (0x02, .expand c pc), (0x03, .s2d c pc), (0x04, .pool c pc), (0x05, .ldlen c pc),
    (0x06, .move c pc), (0x40, .cvt c pc par), (0x41, .ew c pc par), (0x42, .red c pc par), (0x43, .softmax c pc par),
    (0x44, .qscale c pc par), (0x45, .quant c pc par), (0x46, .wht c pc par), (0x47, .select c pc par), (0x48, .kpred c pc par),
    (0x49, .cbload c pc par)]

/-- Each command of the sequencer comes to its instruction in the same way; only what it then runs differs. -/
theorem exec_sequenced {c : Fin 8} {pc : BitVec 23} {par : Option (BitVec 20)} {p : Nat × Instr} (hp : p ∈ sequenced c pc par) :
    ∃ run, exec p.2 s = done (s.issue c pc.toNat p.1 run) := by
  simp only [sequenced, List.mem_cons, List.not_mem_nil, or_false] at hp
  rcases hp with rfl | rfl | rfl | rfl | rfl | rfl | rfl | rfl | rfl | rfl | rfl | rfl | rfl | rfl | rfl | rfl | rfl
  all_goals exact ⟨_, rfl⟩

end Issue

/-! ## The start of an instruction (R120) -/

section Start
variable {s t : State} {x : Issue} {pc : Nat}

/-- The registers in which a sequencer shows what it does. -/
def sequencerRegs (c : Nat) : List Nat := [Reg.CLUSTER_SEQ_STATE c, Reg.CLUSTER_SEQ_PC c]

theorem sequencerReg_not_outside (c : Fin 8) {o : Nat} (ho : o < 4096) : ¬ OutsideClusters (rkey (0x100 + 16 * c.val) o) := by
  have hc := c.isLt
  unfold OutsideClusters rkey
  omega

theorem markStarted_reg (s : State) (x : Issue) (pc : Nat) {k : Nat} (hk : k ∉ sequencerRegs x.c.val) :
    (s.markStarted x pc).reg k = s.reg k := by
  simp only [sequencerRegs, List.mem_cons, List.not_mem_nil, or_false, not_or] at hk
  obtain ⟨hstate, hpc⟩ := hk
  exact (reg_setReg_other _ hpc _).trans (reg_setReg_other _ hstate _)

theorem markStarted_program (s : State) (x : Issue) (pc : Nat) : SameProgram s (s.markStarted x pc) where
  mem := rfl
  drams := rfl
  upsets := rfl
  power := rfl
  sec := rfl
  loader := rfl
  pools := rfl
  reg k hk := by
    refine markStarted_reg s x pc fun hm => ?_
    simp only [sequencerRegs, List.mem_cons, List.not_mem_nil, or_false] at hm
    rcases hm with rfl | rfl
    · exact sequencerReg_not_outside x.c (by decide) hk
    · exact sequencerReg_not_outside x.c (by decide) hk

theorem markStarted_cluster (s : State) (x : Issue) (pc : Nat) :
    (s.markStarted x pc).cluster x.c.val = { s.cluster x.c.val with started := (s.cluster x.c.val).started + 1 } :=
  cluster_setCluster_same _ _ _

theorem markStarted_started (s : State) (x : Issue) (pc : Nat) : s.Started (s.markStarted x pc) x.c pc :=
  ⟨congrArg Cluster.started (markStarted_cluster s x pc), reg_setReg_same _ _ _⟩

theorem markStarted_len (s : State) (x : Issue) (pc j r : Nat) : (s.markStarted x pc).len x.c.val j r = s.len x.c.val j r := by
  simp only [State.len, markStarted_cluster]

theorem seqPc_not_mem_riseTallies (c : Nat) : Reg.CLUSTER_SEQ_PC c ∉ riseTallies :=
  rkey_not_mem_riseTallies (by decide) (by decide) (by decide)

/-! What follows a start and leaves the sequencer's count and SEQ_PC shows it still. -/

theorem started_settle {c : Fin 8} (h : s.Started t c pc) : s.Started (settle t) c pc :=
  ⟨h.1, (reg_settle (seqPc_not_mem_riseTallies _) t).trans h.2⟩

theorem started_tally {c : Fin 8} (h : s.Started t c pc) {k : Nat} (hk : Reg.CLUSTER_SEQ_PC c.val ≠ k) : s.Started (t.tally k) c pc :=
  ⟨h.1, (reg_tally_other t hk).trans h.2⟩

theorem started_setLen {c : Fin 8} (h : s.Started t c pc) (j r : Nat) (v : Word) : s.Started (t.setLen c.val j r v) c pc :=
  ⟨(congrArg Cluster.started (cluster_setCluster_same t _ _)).trans h.1, h.2⟩

theorem started_pokes {c : Fin 8} (h : s.Started t c pc) (p : Ptr) (d : List Byte) : s.Started (t.pokes p d) c pc := ⟨h.1, h.2⟩

end Start

/-! ## Refused instructions (R99) -/

section Refused
variable {s : State}

/-- What a job's faults and the tags' end leave of a sequencer's registers. -/
theorem sequencerReg_ne_engine {c e o o' : Nat} (ho : o < 4096) (ho' : o' < 4096) :
    rkey (0x100 + 16 * c) o ≠ rkey (0x101 + 16 * (e / 8) + e % 8) o' := by
  have he : e % 8 < 8 := Nat.mod_lt e (by decide)
  unfold rkey
  omega

theorem sequencerReg_ne_stall {c st o o' : Nat} (hst : st < 8) (ho : o < 4096) (ho' : o' < 4096) :
    rkey (0x100 + 16 * c) o ≠ rkey (0x018 + st) o' := by
  unfold rkey
  omega

theorem abandonWork_sequencerReg (s : State) (e : Nat) {c o : Nat} (ho : o < 4096) :
    (s.abandonWork e).reg (rkey (0x100 + 16 * c) o) = s.reg (rkey (0x100 + 16 * c) o) := by
  unfold State.abandonWork
  extract_lets t
  have ht : t.reg (rkey (0x100 + 16 * c) o) = s.reg (rkey (0x100 + 16 * c) o) := by
    by_cases hw : ((s.engine e).work.any EngWork.isPass) = true
    · have heq : t = (s.tally (Reg.MX_PASS_ABANDONED e)).event (pageMx e) 2 := if_pos hw
      rw [heq]
      exact (reg_event_other _ (sequencerReg_ne_engine ho (by decide)) _).trans
        (reg_tally_other s (sequencerReg_ne_engine ho (by decide)))
    · have heq : t = s := if_neg hw
      rw [heq]
  exact ht

theorem teardownJob_sequencerReg (s : State) {st c o : Nat} (j : Nat) (hst : st < 8) (ho : o < 4096) :
    (s.teardownJob st j).reg (rkey (0x100 + 16 * c) o) = s.reg (rkey (0x100 + 16 * c) o) := by
  obtain ⟨k, hk⟩ : ∃ k, k = rkey (0x100 + 16 * c) o := ⟨_, rfl⟩
  have hwork (a : State) (e : Nat) : (a.abandonWork e).reg k = a.reg k := by rw [hk]; exact abandonWork_sequencerReg a e ho
  have hmark : k ≠ Reg.STALL_JOB_FAULTED st := by rw [hk]; exact sequencerReg_ne_stall hst ho (by decide)
  rw [← hk]
  unfold State.teardownJob
  extract_lets runs s1 s2 s3
  have hclusters : s1.reg k = s.reg k := by
    refine foldl_keeps (P := fun a : State => a.reg k = s.reg k) (fun a c' ha => ?_) _ rfl
    dsimp only
    split
    · exact foldl_keeps (P := fun a : State => a.reg k = s.reg k) (fun b e hb => (hwork b e).trans hb) _ ha
    · exact ha
  have hregions : s2.reg k = s.reg k :=
    foldl_keeps (P := fun a : State => a.reg k = s.reg k) (f := fun (b : State) (r : Region) => b.clearRange r.ptr r.size)
      (fun _ _ hb => hb) _ hclusters
  have hmarked : s3.reg k = s.reg k := (reg_setReg_other s2 hmark _).trans hregions
  split
  · exact hmarked
  · exact hmarked

/-- A job's fault leaves the sequencers' registers. -/
theorem jobFaulted_sequencerReg (s : State) {st c o : Nat} (cause : Nat) (y : Slot) (hst : st < 8) (ho : o < 4096) :
    (jobFaulted s st cause y).reg (rkey (0x100 + 16 * c) o) = s.reg (rkey (0x100 + 16 * c) o) :=
  ((reg_tally_other _ (sequencerReg_ne_stall hst ho (by decide))).trans
    (reg_setReg_other _ (sequencerReg_ne_stall hst ho (by decide)) _)).trans (teardownJob_sequencerReg s y.job hst ho)

/-- The end of the tags changes tables of the clusters and engines alone (R161). -/
theorem dropTags_keeps (s : State) (st : Nat) : (s.dropTags st).regs = s.regs ∧ (s.dropTags st).stalls = s.stalls := by
  refine foldl_keeps (P := fun a : State => a.regs = s.regs ∧ a.stalls = s.stalls) (fun a c ha => ?_) _ ⟨rfl, rfl⟩
  refine foldl_keeps (P := fun a : State => a.regs = s.regs ∧ a.stalls = s.stalls) (fun b e hb => ?_) _ ?_
  · exact hb
  · exact ha

/-- What a refusal shows of an instruction before its job faults. -/
def refusalShown (s : State) (c : Nat) : State :=
  ((s.tally (Reg.CLUSTER_INSTR_REFUSED c)).event (pageCluster c) 1).setField (Reg.CLUSTER_SEQ_STATE c) 2 0 4

theorem refusalShown_sequencer (s : State) (c : Nat) :
    (refusalShown s c).reg (Reg.CLUSTER_INSTR_REFUSED c) = s.counted (Reg.CLUSTER_INSTR_REFUSED c) ∧
    (refusalShown s c).reg (Reg.EVT_RAW (pageCluster c)) = s.reg (Reg.EVT_RAW (pageCluster c)) ||| 1 ∧
    bits ((refusalShown s c).reg (Reg.CLUSTER_SEQ_STATE c)) 2 0 = 4 := by
  have hstate : Reg.CLUSTER_SEQ_STATE c ≠ Reg.CLUSTER_INSTR_REFUSED c := header_ne (by decide)
  have hevent : Reg.EVT_RAW (pageCluster c) ≠ Reg.CLUSTER_INSTR_REFUSED c := header_ne (by decide)
  have hboth : Reg.CLUSTER_SEQ_STATE c ≠ Reg.EVT_RAW (pageCluster c) := header_ne (by decide)
  refine ⟨?_, ?_, bits_setField_same _ _ (by decide) (by decide)⟩
  · rw [refusalShown, State.setField, reg_setReg_other _ hstate.symm, reg_event_other _ hevent.symm, reg_tally_same]
    rfl
  · rw [refusalShown, State.setField, reg_setReg_other _ hboth.symm, reg_event_same, reg_tally_other _ hevent]

/-- Registers of the pages below the clusters' stay. -/
theorem refusalShown_reg (s : State) (c : Nat) {p o : Nat} (hp : p < 0x100) (ho : o < 4096) :
    (refusalShown s c).reg (rkey p o) = s.reg (rkey p o) := by
  have hne {o' : Nat} (ho' : o' < 4096) : rkey p o ≠ rkey (0x100 + 16 * c) o' := by
    unfold rkey
    omega
  exact ((reg_setReg_other _ (hne (by decide)) _).trans (reg_event_other _ (hne (by decide)) _)).trans
    (reg_tally_other _ (hne (by decide)))

/-- A refusal is what it shows and the fault of the job, the tags' end apart. -/
theorem refuseInstr_eq {x : Issue} {y : Slot} (hslot : (s.stall x.st).slot = some y) :
    ∃ w, s.refuseInstr x = jobFaulted w x.st 1 y ∧ w.regs = (refusalShown s x.c.val).regs ∧ w.stalls = s.stalls := by
  obtain ⟨hregs, hstalls⟩ := dropTags_keeps (refusalShown s x.c.val) x.st
  have hfault : s.refuseInstr x = ((refusalShown s x.c.val).dropTags x.st).jobFault x.st 1 := rfl
  generalize (refusalShown s x.c.val).dropTags x.st = w at hregs hstalls hfault
  have hwslot : (w.stall x.st).slot = some y := by
    rw [State.stall, hstalls]
    exact hslot
  refine ⟨w, ?_, hregs, hstalls⟩
  rw [hfault, jobFault_eq hwslot, if_neg (by decide)]

/-- A refused instruction counts, raises its event, shows as faulted, and faults its job with cause 1. -/
theorem refuseInstr_shown {x : Issue} {y : Slot} (hst : x.st < 8) (hslot : (s.stall x.st).slot = some y) (hjob : y.job = x.job) :
    (s.refuseInstr x).reg (Reg.CLUSTER_INSTR_REFUSED x.c.val) = s.counted (Reg.CLUSTER_INSTR_REFUSED x.c.val) ∧
    (s.refuseInstr x).reg (Reg.EVT_RAW (pageCluster x.c.val)) = s.reg (Reg.EVT_RAW (pageCluster x.c.val)) ||| 1 ∧
    bits ((s.refuseInstr x).reg (Reg.CLUSTER_SEQ_STATE x.c.val)) 2 0 = 4 ∧ ((s.refuseInstr x).stall x.st).slot = none ∧
    (s.refuseInstr x).reg (Reg.STALL_JOB_FAULT x.st) = s.counted (Reg.STALL_JOB_FAULT x.st) ∧
    (s.refuseInstr x).reg (Reg.STALL_FAULT_INFO x.st) = BitVec.ofNat 32 (x.job + 256 + 65536 * (s.tick.toNat % 65536)) := by
  obtain ⟨hcount, hevent, hstate⟩ := refusalShown_sequencer s x.c.val
  obtain ⟨w, hend, hregs, hstalls⟩ := refuseInstr_eq hslot
  have hreg (k : Nat) : w.reg k = (refusalShown s x.c.val).reg k := congrArg (fun r => mapGetD r k (regReset k)) hregs
  have hwslot : (w.stall x.st).slot = some y := by rw [State.stall, hstalls]; exact hslot
  obtain ⟨hnone, hinfo, -, htally⟩ := jobFaulted_shown (cause := 1) hst hwslot
  have hseq {o : Nat} (ho : o < 4096) := (jobFaulted_sequencerReg w (c := x.c.val) 1 y hst ho).trans (hreg _)
  rw [hend]
  refine ⟨(hseq (by decide)).trans hcount, (hseq (by decide)).trans hevent, ?_, hnone, ?_, ?_⟩
  · exact (congrArg (fun u => bits u 2 0) (hseq (by decide))).trans hstate
  · have hbefore : w.reg (Reg.STALL_JOB_FAULT x.st) = s.reg (Reg.STALL_JOB_FAULT x.st) :=
      (hreg _).trans (refusalShown_reg s _ (by omega) (by decide))
    rw [htally]
    simp only [State.counted, hbefore]
  · have htick : w.tick = s.tick := (hreg _).trans (refusalShown_reg s _ (by decide) (by decide))
    rw [hinfo, hjob, htick]

end Refused

/-! ## NOP, LDLEN and MOVE (R99, R107, R112) -/

section Run
variable {s : State} {c : Fin 8} {pc : BitVec 23} {x : Issue}

/-- What every instruction that runs shows and keeps of the sequencer's side. -/
theorem runs_slot {op : Nat} (h : s.Runs c pc.toNat op x) : x.c = c ∧ x.st < 8 := by
  obtain ⟨hc, hst, -⟩ := nextIs_slot h.1
  exact ⟨hc, hst⟩

theorem exec_nop (h : s.Runs c pc.toNat 0x00 x) : exec (.nop c pc) s = done (s.markStarted x pc.toNat) := by
  show execNop c pc s = _
  rw [execNop, issue_runs h]

theorem runs_atRest {op : Nat} (h : s.Runs c pc.toNat op x) : s.AtRest := by
  obtain ⟨⟨sl, -, -, -, -, -, hrest, -⟩, -⟩ := h
  exact hrest

theorem exec_ldlen (h : s.Runs c pc.toNat 0x05 x) (hr : s.CanRead [(descPtr c (x.w 2), 4)]) :
    exec (.ldlen c pc) s =
      done ((s.markStarted x pc.toNat).setLen c.val x.job (bits (x.w 1) 3 0) (s.elem32 (descPtr c (x.w 2)) 0)) := by
  have hprog := markStarted_program s x pc.toNat
  have hread := readAll_atRest (hprog.atRest (runs_atRest h)) x.st (hprog.canRead hr)
  show execLdlen c pc s = _
  rw [execLdlen, issue_runs h]
  simp only [hread, hprog.elem32]

theorem len_setLen (t : State) (c j r : Nat) (v : Word) {r' : Nat} :
    (t.setLen c j r v).len c j r' = if r' = r then v else t.len c j r' := by
  unfold State.len State.setLen
  rw [cluster_setCluster_same]
  by_cases hr : r' = r
  · rw [hr, if_pos rfl, mapGetD_tblSet_same]
  · have hne : j * 16 + r' ≠ j * 16 + r := by omega
    rw [if_neg hr, mapGetD_tblSet_other _ hne]

/-- A MOVE whose checks all pass copies the bytes as they stood. -/
theorem exec_move {src dst : Ptr} {n : Nat} (h : s.Runs c pc.toNat 0x06 x) (hsrc : src = movePtr c (x.w 2) (x.w 3))
    (hdst : dst = movePtr c (x.w 4) (x.w 5)) (hn : n = (x.w 1).toNat)
    (hpool : s.inPoolRegion src = true → ∃ y, s.bpmFind src = .ok y)
    (houtS : s.moveOutside x.st (s.relocate s.unitOdd src) n = false) (houtD : s.moveOutside x.st (s.relocate s.unitOdd dst) n = false)
    (hr : s.CanRead [(src, n)]) (hw : s.CanWrite [(dst, n)]) :
    exec (.move c pc) s = done ((s.markStarted x pc.toNat).pokes (s.relocate s.unitOdd dst) (s.shows src n)) := by
  obtain ⟨t, ht⟩ : ∃ t, t = s.markStarted x pc.toNat := ⟨_, rfl⟩
  have hprog : SameProgram s t := ht ▸ markStarted_program s x pc.toNat
  have hrest := hprog.atRest (runs_atRest h)
  have hst := (runs_slot h).2
  have hcheck : (if t.inPoolRegion src = true then t.bpmCheck (15 + c.val) src else (t, true)) = (t, true) := by
    split
    · next hin =>
      obtain ⟨y, hy⟩ := hpool ((hprog.inPoolRegion src).symm.trans hin)
      simp only [State.bpmCheck, hprog.bpmFind, hy]
    · rfl
  have hbytes : t.peeks (t.relocate t.unitOdd src) n = s.shows src n := by rw [hprog.relocated, hprog.peeks, State.shows]
  have hlen : (s.shows src n).length = n := by simp [State.shows, State.peeks]
  have hread := readAll_atRest hrest x.st (hprog.canRead hr)
  have hwrite : t.writeAll x.st [(dst, s.shows src n)] = (t.pokes (s.relocate s.unitOdd dst) (s.shows src n), none) := by
    rw [writeAll_atRest hrest x.st (by rw [hlen]; exact hprog.canWrite hw), hprog.relocated]
  have hpass : (t.moveOutside x.st (t.relocate t.unitOdd src) n || t.moveOutside x.st (t.relocate t.unitOdd dst) n) = false := by
    rw [hprog.relocated, hprog.relocated, hprog.moveOutside hst, hprog.moveOutside hst, houtS, houtD]
    rfl
  show execMove c pc s = _
  rw [execMove, issue_runs h, ← ht]
  dsimp only
  rw [← hsrc, ← hdst, ← hn, hcheck]
  simp only [Bool.true_eq_false, if_false, hpass, Bool.false_eq_true, hread, hbytes, hwrite]

/-- What a copy to a range that may be written leaves there and elsewhere. -/
theorem moved_shown {t : State} (h : SameProgram s t) {src dst : Ptr} {n : Nat} (hw : s.CanWrite [(dst, n)]) :
    (t.pokes (s.relocate s.unitOdd dst) (s.shows src n)).shows dst n = s.shows src n ∧
    s.SameOutside (t.pokes (s.relocate s.unitOdd dst) (s.shows src n)) [(dst, n)] := by
  have hlen : (s.shows src n).length = n := by simp [State.shows, State.peeks]
  generalize s.shows src n = d at hlen
  obtain ⟨p, hp⟩ : ∃ p, p = s.relocate s.unitOdd dst := ⟨_, rfl⟩
  have hserved : t.refusesAccess p d.length = none := by
    rw [hlen, hp]
    exact h.refusesAccess_eq_none (hw _ List.mem_cons_self).1
  rw [← hp]
  refine ⟨?_, fun k hk => ?_⟩
  · have hplace : (t.pokes p d).relocate (t.pokes p d).unitOdd dst = p := (h.relocated dst).trans hp.symm
    rw [State.shows, hplace, ← hlen]
    exact peeks_pokes hserved
  · refine (byte_pokes_outside t p d fun i hi => ?_).trans (sameBytes_of_mem_drams h.mem h.drams k)
    rw [h.sameMemory.flat, hp]
    exact hk _ List.mem_cons_self i (hlen ▸ hi)

end Run

/-! ## The outcomes of a command for the next instruction -/

section Outcomes
variable {s : State} {c : Fin 8} {pc op : Nat} {x : Issue} {run : State → Issue → State}

theorem seqReg_settle (t : State) {p o : Nat} (ho : o < 4096 ∧ o ≠ 0xE08 ∧ o ≠ 0xE20) : (settle t).reg (rkey p o) = t.reg (rkey p o) :=
  reg_settle (rkey_not_mem_riseTallies ho.1 ho.2.1 ho.2.2) t

theorem issue_refused (hx : s.NextIs c pc op x) (hbad : instrBad x.ws = true) :
    ∃ t, done (s.issue c pc op run) = .next t ∧
      t.reg (Reg.CLUSTER_INSTR_REFUSED c.val) = s.counted (Reg.CLUSTER_INSTR_REFUSED c.val) ∧
      t.reg (Reg.EVT_RAW (pageCluster c.val)) = s.reg (Reg.EVT_RAW (pageCluster c.val)) ||| 1 ∧
      bits (t.reg (Reg.CLUSTER_SEQ_STATE c.val)) 2 0 = 4 ∧ (t.stall x.st).slot = none ∧
      t.reg (Reg.STALL_JOB_FAULT x.st) = s.counted (Reg.STALL_JOB_FAULT x.st) ∧
      t.reg (Reg.STALL_FAULT_INFO x.st) = BitVec.ofNat 32 (x.job + 256 + 65536 * (s.tick.toNat % 65536)) := by
  obtain ⟨rfl, hst, y, hslot, hjob⟩ := nextIs_slot hx
  have hshown := refuseInstr_shown hst hslot hjob
  rw [issue_eq hx, if_pos hbad]
  generalize s.refuseInstr x = t at hshown
  obtain ⟨hcount, hevent, hstate, hnone, htally, hinfo⟩ := hshown
  exact ⟨_, rfl, (seqReg_settle t (by decide)).trans hcount, (seqReg_settle t (by decide)).trans hevent,
    (congrArg (fun u => bits u 2 0) (seqReg_settle t (by decide))).trans hstate, hnone,
    (seqReg_settle t (by decide)).trans htally, (seqReg_settle t (by decide)).trans hinfo⟩

theorem issue_waits (hx : s.NextIs c pc op x) (hgood : instrBad x.ws = false) (hpred : s.predicate x = true) (hheld : s.held x = true) :
    ∃ t, done (s.issue c pc op run) = .next t ∧ bits (t.reg (Reg.CLUSTER_SEQ_STATE c.val)) 2 0 = 2 ∧
      OnlyRegs [Reg.CLUSTER_SEQ_STATE c.val] s t := by
  have hshown := bits_setField_same s (Reg.CLUSTER_SEQ_STATE c.val) (hi := 2) (lo := 0) (v := 2) (by decide) (by decide)
  have honly : OnlyRegs [Reg.CLUSTER_SEQ_STATE c.val] s (s.setField (Reg.CLUSTER_SEQ_STATE c.val) 2 0 2) :=
    onlyRegs_setReg (onlyRegs_refl _ s) List.mem_cons_self _
  rw [issue_eq hx, hgood, hpred, hheld, if_neg (by decide), if_neg (by decide), if_pos rfl]
  generalize s.setField (Reg.CLUSTER_SEQ_STATE c.val) 2 0 2 = t at hshown honly
  exact ⟨_, rfl, (congrArg (fun u => bits u 2 0) (seqReg_settle t (by decide))).trans hshown, onlyRegs_settle honly⟩

theorem issue_skipped (hx : s.NextIs c pc op x) (hgood : instrBad x.ws = false) (hpred : s.predicate x = false) :
    ∃ t, done (s.issue c pc op run) = .next t ∧ s.Started t c pc ∧
      t.reg (Reg.CLUSTER_PRED_SKIP c.val) = s.counted (Reg.CLUSTER_PRED_SKIP c.val) ∧
      SameRegs (Reg.CLUSTER_PRED_SKIP c.val :: sequencerRegs c.val) s t ∧ SameBytes s t := by
  obtain ⟨rfl, -⟩ := nextIs_slot hx
  have hskip : Reg.CLUSTER_PRED_SKIP x.c.val ∉ sequencerRegs x.c.val := by
    simp only [sequencerRegs, List.mem_cons, List.not_mem_nil, or_false, not_or]
    exact ⟨header_ne (by decide), header_ne (by decide)⟩
  have hpc : Reg.CLUSTER_SEQ_PC x.c.val ≠ Reg.CLUSTER_PRED_SKIP x.c.val := header_ne (by decide)
  have hstarted := markStarted_started s x pc
  have hreg {k : Nat} := markStarted_reg s x pc (k := k)
  have hbytes := (markStarted_program s x pc).sameMemory.sameBytes
  rw [issue_eq hx, hgood, hpred, if_neg (by decide), if_pos rfl]
  generalize s.markStarted x pc = t at hstarted hreg hbytes
  refine ⟨_, rfl, started_settle (started_tally hstarted hpc), ?_, sameRegs_settle fun k hk _ => ?_, hbytes⟩
  · rw [Reg.CLUSTER_PRED_SKIP, seqReg_settle _ (by decide), reg_tally_same]
    exact congrArg (fun w : Word => BitVec.ofNat 32 (min (w.toNat + 1) 0xFFFFFFFF)) (hreg hskip)
  · obtain ⟨hne, hseq⟩ := not_or.mp (List.mem_cons.not.mp hk)
    exact (reg_tally_other _ hne).trans (hreg hseq)

end Outcomes

/-- Settles O56: the outcomes of a command for the next instruction, and what NOP, LDLEN and MOVE do. -/
theorem sequencerRefusesSkipsAndStarts : Obligations.SequencerRefusesSkipsAndStarts := by
  refine ⟨?_, ?_, ?_, ?_⟩
  · intro c pc par s p hp
    obtain ⟨run, hrun⟩ := exec_sequenced (s := s) hp
    rw [hrun]
    refine ⟨fun hnone => ?_, fun x hx hbad => issue_refused hx hbad, fun x hx hgood hpred hheld => issue_waits hx hgood hpred hheld,
      fun x hx hgood hpred => issue_skipped hx hgood hpred⟩
    rw [issue_none hnone]
    exact ⟨_, rfl, onlyRegs_settle (onlyRegs_refl [] s)⟩
  · intro c pc s x h
    obtain ⟨rfl, -⟩ := runs_slot h
    rw [exec_nop h]
    exact ⟨_, rfl, started_settle (markStarted_started s x pc.toNat), markStarted_len s x pc.toNat x.job,
      sameRegs_settle fun k hk _ => markStarted_reg s x _ hk, (markStarted_program s x pc.toNat).sameMemory.sameBytes⟩
  · intro c pc s x h hr
    obtain ⟨rfl, -⟩ := runs_slot h
    rw [exec_ldlen h hr]
    have hstarted := markStarted_started s x pc.toNat
    have hlen := markStarted_len s x pc.toNat x.job
    have hreg {k : Nat} := markStarted_reg s x pc.toNat (k := k)
    have hbytes := (markStarted_program s x pc.toNat).sameMemory.sameBytes
    generalize s.markStarted x pc.toNat = t at hstarted hlen hreg hbytes
    generalize s.elem32 (descPtr x.c (x.w 2)) 0 = v
    have hset (r : Nat) := len_setLen t x.c.val x.job (bits (x.w 1) 3 0) v (r' := r)
    simp only [hlen] at hset
    exact ⟨_, rfl, started_settle (started_setLen hstarted x.job _ v), fun r _ => hset r, sameRegs_settle fun k hk _ => hreg hk, hbytes⟩
  · intro c pc s x src dst n h hsrc hdst hn hpool houtS houtD hr hw
    obtain ⟨rfl, -⟩ := runs_slot h
    rw [exec_move h hsrc hdst hn hpool houtS houtD hr hw]
    obtain ⟨hshows, hbytes⟩ := moved_shown (src := src) (n := n) (markStarted_program s x pc.toNat) hw
    exact ⟨_, rfl, started_settle (started_pokes (markStarted_started s x pc.toNat) _ _), (settle_shows _ _ _).trans hshows, hbytes, rfl,
      sameRegs_settle fun k hk _ => markStarted_reg s x _ hk⟩

end Sys2Proof.Laws
end

section
/-!
SUPPORT. Reads and writes through BAR 2 (R312, R313): the pieces of a request, what a piece does when it is served, and what one that
its set or channel refuses leaves alone.
-/
namespace Sys2Proof.Laws
open Sys2Proof.Machine

/-! ## The pieces of a request -/

/-- A piece lies within the bytes of its request. -/
theorem cutsAt_within {a n : Nat} {p : Nat × Nat} (h : p ∈ cutsAt 256 a n) : p.1 - a + p.2 ≤ n := by
  simp only [cutsAt, List.mem_map, List.mem_range] at h
  obtain ⟨i, hi, rfl⟩ := h
  dsimp only
  split <;> omega

/-- The first byte of a piece in DRAM. -/
def dramPtr (a : Nat) : Ptr := { store := .dram, addr := a }

/-- The bytes that a write of `d` from address a on brings to a piece. -/
def pieceBytes (a : Nat) (d : List Byte) (p : Nat × Nat) : List Byte := (d.drop (p.1 - a)).take p.2

theorem pieceBytes_length {a : Nat} {d : List Byte} {p : Nat × Nat} (h : p ∈ cutsAt 256 a d.length) :
    (pieceBytes a d p).length = p.2 := by
  have hfit := cutsAt_within h
  rw [pieceBytes, List.length_take, List.length_drop]
  omega

/-- The host-DMA regulator's part of a piece of a read: the state, and whether a piece has waited for tokens. -/
def takePiece (b : State × Bool) (p : Nat × Nat) : State × Bool :=
  ((b.1.takeHdma false p.1 p.2).1, b.2 || (b.1.takeHdma false p.1 p.2).2)

/-- What a piece of a read adds to what the read has come to. -/
def readPiece (x : Aperture) (p : Nat × Nat) : Aperture :=
  x.join (x.st.takeHdma false p.1 p.2).2 ((x.st.takeHdma false p.1 p.2).1.read (dramPtr p.1) p.2)

/-- What a piece of a write of `d` from address a on adds to what the write has come to. -/
def writePiece (a : Nat) (d : List Byte) (x : Aperture) (p : Nat × Nat) : Aperture :=
  x.join (x.st.takeHdma true p.1 p.2).2 ((x.st.takeHdma true p.1 p.2).1.write (dramPtr p.1) (pieceBytes a d p))

/-- The bytes of a piece of a write go to their addresses. -/
def pokePiece (a : Nat) (d : List Byte) (u : State) (p : Nat × Nat) : State := u.pokes (dramPtr p.1) (pieceBytes a d p)

/-- What the read of BAR 2 has come to after all its pieces. -/
def bar2Got (o : Word) (n : BitVec 13) (g : BitVec 18) (s : State) : Aperture :=
  (cutsAt 256 (s.apAddr o) n.toNat).foldl readPiece { st := s, held := !s.apAdmits g.toNat }

/-- What the write of BAR 2 has come to after all its pieces. -/
def bar2Put (o : Word) (d : List Byte) (g : BitVec 18) (s : State) : Aperture :=
  (cutsAt 256 (s.apAddr o) d.length).foldl (writePiece (s.apAddr o) d) { st := s, held := !s.apAdmits g.toNat }

section Commands
variable {o : Word} {n : BitVec 13} {d : List Byte} {g : BitVec 18} {s : State}

theorem exec_bar2Read (h : s.hostReadBlocked = none) : exec (.bar2Read o n g) s =
    done (if (bar2Got o n g s).status = 1 then
      (((bar2Got o n g s).st.apHeld (bar2Got o n g s).held).tally Reg.APERTURE_AP_ERR).send .completerAbort
    else ((bar2Got o n g s).st.apHeld (bar2Got o n g s).held).send
      (.memCompletion (bar2Got o n g s).data ((bar2Got o n g s).status == 2))) := by
  show execBar2Read o n g s = _
  simp only [execBar2Read, h]
  rfl

theorem exec_bar2Write_protected (h : s.hostBlocked 0 = none) (hp : s.protected_ (s.apAddr o) d.length = true) :
    exec (.bar2Write o d g) s = done (s.tally Reg.LOADER_STAGE_WRITE_DROP) := by
  show execBar2Write o d g s = _
  simp only [execBar2Write, h, hp, if_true]

theorem exec_bar2Write (h : s.hostBlocked 0 = none) (hp : s.protected_ (s.apAddr o) d.length = false)
    (hsec : s.secProtected (s.apAddr o) d.length = false) : exec (.bar2Write o d g) s =
    done (if (bar2Put o d g s).status = 1 then
      ((bar2Put o d g s).st.apHeld (bar2Put o d g s).held).tally Reg.APERTURE_AP_ERR
    else (bar2Put o d g s).st.apHeld (bar2Put o d g s).held) := by
  show execBar2Write o d g s = _
  simp only [execBar2Write, h, hp, hsec, Bool.false_eq_true, if_false]
  rfl

end Commands

/-! ## What the commands' last steps leave alone -/

/-- INTA and PME follow the outputs; nothing else of the endpoint differs after a command that leaves it as it was. -/
theorem sameEp_settle {s a : State} (h : a.ep = s.ep) : SameEp s (settle a) := by
  unfold SameEp
  rw [← h]
  rfl

/-- AP_HELD counts a held request and no other (R313). -/
theorem reg_apHeld_same (a : State) (held : Bool) : (a.apHeld held).reg Reg.APERTURE_AP_HELD =
    if held then a.counted Reg.APERTURE_AP_HELD else a.reg Reg.APERTURE_AP_HELD := by
  cases held
  · rfl
  · exact reg_tally_same a _

theorem reg_apHeld_other (a : State) (held : Bool) {k : Nat} (h : k ≠ Reg.APERTURE_AP_HELD) : (a.apHeld held).reg k = a.reg k := by
  cases held
  · rfl
  · exact reg_tally_other a h

theorem apHeld_byte (a : State) (held : Bool) (k : Nat) : (a.apHeld held).byte k = a.byte k := by
  cases held <;> rfl

theorem apHeld_ep (a : State) (held : Bool) : (a.apHeld held).ep = a.ep := by
  cases held <;> rfl

theorem apHeld_egress (a : State) (held : Bool) : (a.apHeld held).egress = a.egress := by
  cases held <;> rfl

/-! ## Pieces that are served -/

/-- Tokens of the regulators come and go on their own: nothing else of the state differs. -/
def OnlyTokens (s a : State) : Prop := ∃ f, a = { s with fabric := f }

theorem takeHdma_onlyTokens (s : State) (write : Bool) (a n : Nat) : OnlyTokens s (s.takeHdma write a n).1 := ⟨_, rfl⟩

theorem OnlyTokens.sameAccess {s a : State} (h : OnlyTokens s a) : SameAccess s a := by
  obtain ⟨f, rfl⟩ := h
  exact ⟨rfl, rfl, rfl, rfl, rfl, fun _ _ => rfl⟩

/-- A request to DRAM is served where every 256-byte piece that it touches lies in a set and every channel serves (R294). -/
theorem dram_served_iff {s : State} {a n : Nat} : s.refusesAccess (dramPtr a) n = none ↔
    ∃ cs, s.touched (dramPtr a) n = some cs ∧ ∀ c ∈ cs, s.chanServes c = true := by
  simp only [State.refusesAccess, dramPtr]
  cases s.touched { store := .dram, addr := a } n with
  | none => simp
  | some cs =>
    simp only [Option.some_inj, exists_eq_left']
    cases hfind : cs.find? (fun c => !s.chanServes c) with
    | none => simpa using hfind
    | some c =>
      have hdown := List.find?_some hfind
      have hmem := List.mem_of_find?_eq_some hfind
      simp only [reduceCtorEq, false_iff, not_forall]
      exact ⟨c, hmem, by simpa using hdown⟩

/-- Bytes do not decide what is refused. -/
theorem dram_served_pokes {s : State} {a n : Nat} (q : Ptr) (d : List Byte) (h : s.refusesAccess (dramPtr a) n = none) :
    (s.pokes q d).refusesAccess (dramPtr a) n = none :=
  dram_served_iff.mpr (dram_served_iff (s := s).mp h)

/-- Pieces of a read that are all served: their bytes in order, and what the regulator has held. -/
theorem foldl_readPiece_served {l : List (Nat × Nat)} {u : State} (hrest : u.AtRest)
    (hl : ∀ p ∈ l, u.refusesAccess (dramPtr p.1) p.2 = none) (h b : Bool) (data : List Byte) :
    l.foldl readPiece ⟨u, h || b, data, 0⟩ = ⟨(l.foldl takePiece (u, b)).1, h || (l.foldl takePiece (u, b)).2,
      data ++ l.flatMap (fun p => u.peeks (dramPtr p.1) p.2), 0⟩ := by
  induction l generalizing u b data with
  | nil => simp
  | cons p r ih =>
    have hacc := (takeHdma_onlyTokens u false p.1 p.2).sameAccess
    have hread := read_atRest (hacc.atRest hrest) (hacc.refusesAccess_eq_none (hl p List.mem_cons_self))
    have hpiece : readPiece ⟨u, h || b, data, 0⟩ p =
        ⟨(takePiece (u, b) p).1, h || (takePiece (u, b) p).2, data ++ u.peeks (dramPtr p.1) p.2, 0⟩ := by
      simp [readPiece, hread, Aperture.join, hacc.peeks, takePiece, Bool.or_assoc]
    have hr : ∀ q ∈ r, (takePiece (u, b) p).1.refusesAccess (dramPtr q.1) q.2 = none :=
      fun q hq => hacc.refusesAccess_eq_none (hl q (List.mem_cons_of_mem _ hq))
    have hpeeks (q : Ptr) (n : Nat) : (takePiece (u, b) p).1.peeks q n = u.peeks q n := hacc.peeks q n
    have hfold := ih (u := (takePiece (u, b) p).1) (hacc.atRest hrest) hr (takePiece (u, b) p).2
    rw [List.foldl_cons, hpiece, hfold]
    simp only [List.foldl_cons, List.flatMap_cons, List.append_assoc, hpeeks]

theorem foldl_takePiece_onlyTokens (l : List (Nat × Nat)) (s : State) (b : Bool) : OnlyTokens s (l.foldl takePiece (s, b)).1 := by
  refine foldl_keeps (P := fun a : State × Bool => OnlyTokens s a.1) (fun a p ha => ?_) l ⟨s.fabric, rfl⟩
  obtain ⟨f, hf⟩ := ha
  obtain ⟨f', hf'⟩ := takeHdma_onlyTokens a.1 false p.1 p.2
  exact ⟨f', by rw [takePiece, hf', hf]⟩

/-- Pieces of a write that are all served store their bytes one after another. -/
theorem foldl_writePiece_served {a : Nat} {d : List Byte} {l : List (Nat × Nat)} {u v : State} (hrest : u.AtRest)
    (hl : ∀ p ∈ l, u.refusesAccess (dramPtr p.1) (pieceBytes a d p).length = none) (hv : OnlyTokens u v) (h : Bool) :
    ∃ w h', l.foldl (writePiece a d) ⟨v, h, [], 0⟩ = ⟨w, h', [], 0⟩ ∧ OnlyTokens (l.foldl (pokePiece a d) u) w := by
  induction l generalizing u v h with
  | nil => exact ⟨v, h, rfl, hv⟩
  | cons p r ih =>
    obtain ⟨f, rfl⟩ := hv
    have htokens : OnlyTokens u (State.takeHdma { u with fabric := f } true p.1 p.2).1 := ⟨_, rfl⟩
    have hwrite := write_served (htokens.sameAccess.atRest hrest)
      (htokens.sameAccess.refusesAccess_eq_none (hl p List.mem_cons_self))
    have hpiece : writePiece a d ⟨{ u with fabric := f }, h, [], 0⟩ p =
        ⟨pokePiece a d (State.takeHdma { u with fabric := f } true p.1 p.2).1 p,
          h || (State.takeHdma { u with fabric := f } true p.1 p.2).2, [], 0⟩ := by
      simp [writePiece, hwrite, Aperture.join, pokePiece]
    rw [List.foldl_cons, List.foldl_cons, hpiece]
    exact ih (u := pokePiece a d u p) hrest (fun q hq => dram_served_pokes _ _ (hl q (List.mem_cons_of_mem _ hq))) ⟨_, rfl⟩ _

/-! ## Pieces that are refused -/

/-- What no piece of an access through BAR 2 changes: besides bytes, tokens and tallies of sets and channels, nothing differs. -/
structure PiecesFrame (s a : State) : Prop where
  access : SameAccess s { a with mem := s.mem }
  ep : a.ep = s.ep
  egress : a.egress = s.egress
  err : a.reg Reg.APERTURE_AP_ERR = s.reg Reg.APERTURE_AP_ERR

namespace PiecesFrame
variable {s a : State}

theorem refl (s : State) : PiecesFrame s s := ⟨SameAccess.refl s, rfl, rfl, rfl⟩

theorem atRest (h : PiecesFrame s a) (hs : s.AtRest) : a.AtRest := h.access.atRest hs

theorem served_iff (h : PiecesFrame s a) {x n : Nat} :
    a.refusesAccess (dramPtr x) n = none ↔ s.refusesAccess (dramPtr x) n = none := by
  have htouched : a.touched (dramPtr x) n = s.touched (dramPtr x) n := h.access.touched _ _
  have hserves (c : Nat) : a.chanServes c = s.chanServes c := h.access.chanServes c
  simp only [dram_served_iff, htouched, hserves]

theorem tally (h : PiecesFrame s a) {k : Nat} (hk : isTally k = true) (hne : Reg.APERTURE_AP_ERR ≠ k) : PiecesFrame s (a.tally k) :=
  ⟨h.access.tally hk, h.ep, h.egress, (reg_tally_other a hne).trans h.err⟩

/-- A refused piece counts at most in a tally of the map page or of its channel (R294, R304). -/
theorem refused (h : PiecesFrame s a) {x n : Nat} {t : State} (ht : a.refusesAccess (dramPtr x) n = some t) : PiecesFrame s t := by
  simp only [State.refusesAccess, dramPtr] at ht
  split at ht
  · cases ht
    exact h.tally (by decide) (by decide)
  · split at ht
    · cases ht
    · next c _ =>
      cases ht
      unfold State.countDown
      split
      · exact h
      · exact h.tally (isTally_rkey (by decide) (by decide)) (by unfold Reg.APERTURE_AP_ERR Reg.DC_DOWN_ACCESS rkey; omega)

theorem takeHdma (h : PiecesFrame s a) (write : Bool) (x n : Nat) : PiecesFrame s (a.takeHdma write x n).1 :=
  ⟨⟨h.access.mem, h.access.drams, h.access.upsets, h.access.power, h.access.sec, h.access.reg⟩, h.ep, h.egress, h.err⟩

theorem pokes (h : PiecesFrame s a) (p : Ptr) (d : List Byte) : PiecesFrame s (a.pokes p d) := ⟨h.access, h.ep, h.egress, h.err⟩

theorem read (h : PiecesFrame s a) (hs : s.AtRest) (x n : Nat) : PiecesFrame s (a.read (dramPtr x) n).st := by
  cases hr : a.refusesAccess (dramPtr x) n with
  | none => rw [read_atRest (h.atRest hs) hr]; exact h
  | some t => rw [read_refused hr]; exact h.refused hr

theorem write (h : PiecesFrame s a) (hs : s.AtRest) (x : Nat) (d : List Byte) : PiecesFrame s (a.write (dramPtr x) d).st := by
  by_cases hd : d = []
  · subst hd
    exact h
  · cases hr : a.refusesAccess (dramPtr x) d.length with
    | none => rw [write_atRest (h.atRest hs) hd hr]; exact h.pokes _ d
    | some t => rw [write_refused hd hr]; exact h.refused hr

end PiecesFrame

/-- An error response outlasts the answers of other pieces. -/
theorem join_status {x : Aperture} {r : Resp} (held : Bool) (h : x.status = 1 ∨ r.status = 1) : (x.join held r).status = 1 := if_pos h

/-- A fold over pieces one of which is answered with an error response comes to one. -/
theorem foldl_refused {P : State → Prop} {f : Aperture → Nat × Nat → Aperture} {bad : Nat × Nat → Prop}
    (hP : ∀ x p, P x.st → P (f x p).st) (hstay : ∀ x p, x.status = 1 → (f x p).status = 1)
    (hbad : ∀ x p, P x.st → bad p → (f x p).status = 1) {l : List (Nat × Nat)} (hl : ∃ p ∈ l, bad p) {x : Aperture} (hx : P x.st) :
    (l.foldl f x).status = 1 := by
  induction l generalizing x with
  | nil => simp at hl
  | cons p r ih =>
    rw [List.exists_mem_cons_iff] at hl
    rcases hl with hp | hr
    · exact foldl_keeps (P := fun y : Aperture => y.status = 1) hstay r (hbad x p hx hp)
    · exact ih hr (hP x p hx)

section Refused
variable {o : Word} {n : BitVec 13} {d : List Byte} {g : BitVec 18} {s : State}

theorem readPiece_frame (hs : s.AtRest) (x : Aperture) (p : Nat × Nat) (h : PiecesFrame s x.st) : PiecesFrame s (readPiece x p).st :=
  (h.takeHdma false p.1 p.2).read hs p.1 p.2

theorem writePiece_frame (hs : s.AtRest) (a : Nat) (x : Aperture) (p : Nat × Nat) (h : PiecesFrame s x.st) :
    PiecesFrame s (writePiece a d x p).st :=
  (h.takeHdma true p.1 p.2).write hs p.1 (pieceBytes a d p)

theorem bar2Got_frame (hs : s.AtRest) : PiecesFrame s (bar2Got o n g s).st :=
  foldl_keeps (P := fun x : Aperture => PiecesFrame s x.st) (readPiece_frame hs) _ (PiecesFrame.refl s)

theorem bar2Put_frame (hs : s.AtRest) : PiecesFrame s (bar2Put o d g s).st :=
  foldl_keeps (P := fun x : Aperture => PiecesFrame s x.st) (writePiece_frame hs _) _ (PiecesFrame.refl s)

/-- A read changes no byte, whatever its pieces meet at rest. -/
theorem bar2Got_mem (hs : s.AtRest) : (bar2Got o n g s).st.mem = s.mem := by
  refine (foldl_keeps (P := fun x : Aperture => PiecesFrame s x.st ∧ x.st.mem = s.mem) (fun x p hx => ?_) _
    ⟨PiecesFrame.refl s, rfl⟩).2
  obtain ⟨hframe, hmem⟩ := hx
  refine ⟨readPiece_frame hs x p hframe, ?_⟩
  have hrest := (hframe.takeHdma false p.1 p.2).atRest hs
  show ((x.st.takeHdma false p.1 p.2).1.read (dramPtr p.1) p.2).st.mem = s.mem
  cases hr : (x.st.takeHdma false p.1 p.2).1.refusesAccess (dramPtr p.1) p.2 with
  | none => rw [read_atRest hrest hr]; exact hmem
  | some t => rw [read_refused hr]; exact (refusesAccess_mem hr).trans hmem

theorem bar2Got_refused (hs : s.AtRest) (h : ∃ p ∈ cutsAt 256 (s.apAddr o) n.toNat, s.refusesAccess (dramPtr p.1) p.2 ≠ none) :
    (bar2Got o n g s).status = 1 := by
  refine foldl_refused (P := PiecesFrame s) (readPiece_frame hs) (fun x p hx => join_status _ (.inl hx)) (fun x p hx hp => ?_) h
    (PiecesFrame.refl s)
  obtain ⟨t, ht⟩ := Option.ne_none_iff_exists'.mp ((hx.takeHdma false p.1 p.2).served_iff.not.mpr hp)
  exact join_status _ (.inr (by rw [read_refused ht]))

theorem bar2Put_refused (hs : s.AtRest)
    (h : ∃ p ∈ cutsAt 256 (s.apAddr o) d.length, 0 < p.2 ∧ s.refusesAccess (dramPtr p.1) p.2 ≠ none) :
    (bar2Put o d g s).status = 1 := by
  obtain ⟨q, hq, hpos, href⟩ := h
  refine foldl_refused (P := PiecesFrame s) (bad := (· = q)) (writePiece_frame hs _) (fun x p hx => join_status _ (.inl hx))
    (fun x p hx hp => ?_) ⟨q, hq, rfl⟩ (PiecesFrame.refl s)
  subst hp
  have hlen := pieceBytes_length hq
  have hne : pieceBytes (s.apAddr o) d p ≠ [] := List.ne_nil_of_length_pos (by omega)
  rw [← hlen] at href
  obtain ⟨t, ht⟩ := Option.ne_none_iff_exists'.mp ((hx.takeHdma true p.1 p.2).served_iff.not.mpr href)
  exact join_status _ (.inr (by rw [write_refused hne ht]))

end Refused

/-! ## The outcomes -/

section Outcomes
variable {o : Word} {n : BitVec 13} {d : List Byte} {g : BitVec 18} {s : State}

/-- A read is held for its grain or by the regulator (R313). -/
def bar2ReadHeld (o : Word) (n : BitVec 13) (g : BitVec 18) (s : State) : Bool :=
  !s.apAdmits g.toNat || ((cutsAt 256 (s.apAddr o) n.toNat).foldl takePiece (s, false)).2

/-- What a read comes to when every piece is served. -/
theorem bar2Got_served (hs : s.AtRest) (hl : ∀ p ∈ cutsAt 256 (s.apAddr o) n.toNat, s.refusesAccess (dramPtr p.1) p.2 = none) :
    ∃ w, OnlyTokens s w ∧ bar2Got o n g s = ⟨w, bar2ReadHeld o n g s,
      (cutsAt 256 (s.apAddr o) n.toNat).flatMap (fun p => s.peeks (dramPtr p.1) p.2), 0⟩ := by
  have hfold := foldl_readPiece_served hs hl (!s.apAdmits g.toNat) false []
  rw [Bool.or_false, List.nil_append] at hfold
  exact ⟨_, foldl_takePiece_onlyTokens _ s false, hfold⟩

theorem bar2Read_served (hb : s.hostReadBlocked = none) (hs : s.AtRest)
    (hl : ∀ p ∈ cutsAt 256 (s.apAddr o) n.toNat, s.refusesAccess (dramPtr p.1) p.2 = none) :
    ∃ t, exec (.bar2Read o n g) s = .next t ∧
      (∃ r, t.egress = s.egress ++ Egress.memCompletion
        ((cutsAt 256 (s.apAddr o) n.toNat).flatMap (fun p => s.peeks (dramPtr p.1) p.2)) false :: r) ∧
      t.reg Reg.APERTURE_AP_HELD =
        (if bar2ReadHeld o n g s then s.counted Reg.APERTURE_AP_HELD else s.reg Reg.APERTURE_AP_HELD) ∧
      SameRegs [Reg.APERTURE_AP_HELD] s t ∧ SameBytes s t ∧ SameEp s t := by
  obtain ⟨w, ⟨f, rfl⟩, hgot⟩ := bar2Got_served (g := g) hs hl
  rw [exec_bar2Read hb, hgot]
  refine ⟨_, rfl, egress_send_settle ?_, ?_, sameRegs_settle fun k hk _ => ?_, fun k => ?_, sameEp_settle ?_⟩
  · exact congrArg (· ++ _) (apHeld_egress _ _)
  · exact (reg_settle (by decide) _).trans (reg_apHeld_same _ _)
  · exact reg_apHeld_other _ _ (List.ne_of_not_mem_cons hk)
  · exact apHeld_byte _ _ k
  · exact apHeld_ep _ _

/-- An access that has come to an error response counts in AP_ERR. -/
theorem apErr_counted {x : Aperture} (h : PiecesFrame s x.st) :
    ((x.st.apHeld x.held).tally Reg.APERTURE_AP_ERR).reg Reg.APERTURE_AP_ERR = s.counted Reg.APERTURE_AP_ERR := by
  rw [reg_tally_same, reg_apHeld_other _ _ (by decide), h.err, State.counted]

theorem exec_bar2Read_refused (hb : s.hostReadBlocked = none) (hs : s.AtRest)
    (h : ∃ p ∈ cutsAt 256 (s.apAddr o) n.toNat, s.refusesAccess (dramPtr p.1) p.2 ≠ none) : exec (.bar2Read o n g) s =
    done ((((bar2Got o n g s).st.apHeld (bar2Got o n g s).held).tally Reg.APERTURE_AP_ERR).send .completerAbort) := by
  rw [exec_bar2Read hb, if_pos (bar2Got_refused hs h)]

/-- Completer Abort: AP_ERR counts, and no byte differs (R312). -/
theorem completerAbort_shown {x : Aperture} (h : PiecesFrame s x.st) (hmem : x.st.mem = s.mem) :
    ∃ t, done (((x.st.apHeld x.held).tally Reg.APERTURE_AP_ERR).send .completerAbort) = .next t ∧
      (∃ r, t.egress = s.egress ++ Egress.completerAbort :: r) ∧
      t.reg Reg.APERTURE_AP_ERR = s.counted Reg.APERTURE_AP_ERR ∧ SameBytes s t ∧ SameEp s t := by
  refine ⟨_, rfl, egress_send_settle ?_, (reg_settle (by decide) _).trans (apErr_counted h), fun k => ?_, sameEp_settle ?_⟩
  · rw [State.send, tally_egress, apHeld_egress, h.egress]
  · rw [← sameBytes_of_mem_drams hmem h.access.drams k, ← apHeld_byte x.st x.held]
    rfl
  · rw [send_ep, tally_ep, apHeld_ep, h.ep]

theorem bar2Read_refused (hb : s.hostReadBlocked = none) (hs : s.AtRest)
    (h : ∃ p ∈ cutsAt 256 (s.apAddr o) n.toNat, s.refusesAccess (dramPtr p.1) p.2 ≠ none) :
    ∃ t, exec (.bar2Read o n g) s = .next t ∧ (∃ r, t.egress = s.egress ++ Egress.completerAbort :: r) ∧
      t.reg Reg.APERTURE_AP_ERR = s.counted Reg.APERTURE_AP_ERR ∧ SameBytes s t ∧ SameEp s t := by
  rw [exec_bar2Read_refused hb hs h]
  exact completerAbort_shown (bar2Got_frame hs) (bar2Got_mem hs)

theorem foldl_pokePiece_frame (l : List (Nat × Nat)) (a : Nat) :
    (l.foldl (pokePiece a d) s).regs = s.regs ∧ (l.foldl (pokePiece a d) s).ep = s.ep :=
  foldl_keeps (P := fun u : State => u.regs = s.regs ∧ u.ep = s.ep) (f := pokePiece a d) (fun _ _ hu => hu) l ⟨rfl, rfl⟩

/-- What a write comes to when every piece is served. -/
theorem bar2Put_served (hs : s.AtRest) (hl : ∀ p ∈ cutsAt 256 (s.apAddr o) d.length, s.refusesAccess (dramPtr p.1) p.2 = none) :
    ∃ w held, OnlyTokens ((cutsAt 256 (s.apAddr o) d.length).foldl (pokePiece (s.apAddr o) d) s) w ∧
      bar2Put o d g s = ⟨w, held, [], 0⟩ := by
  have hpieces : ∀ p ∈ cutsAt 256 (s.apAddr o) d.length,
      s.refusesAccess (dramPtr p.1) (pieceBytes (s.apAddr o) d p).length = none := fun p hp => by
    rw [pieceBytes_length hp]
    exact hl p hp
  obtain ⟨w, held, hput, hw⟩ := foldl_writePiece_served hs hpieces ⟨s.fabric, rfl⟩ (!s.apAdmits g.toNat)
  exact ⟨w, held, hw, hput⟩

theorem exec_bar2Write_served (hb : s.hostBlocked 0 = none) (hs : s.AtRest) (hp : s.protected_ (s.apAddr o) d.length = false)
    (hsec : s.secProtected (s.apAddr o) d.length = false)
    (hl : ∀ p ∈ cutsAt 256 (s.apAddr o) d.length, s.refusesAccess (dramPtr p.1) p.2 = none) :
    ∃ w held, OnlyTokens ((cutsAt 256 (s.apAddr o) d.length).foldl (pokePiece (s.apAddr o) d) s) w ∧
      exec (.bar2Write o d g) s = done (w.apHeld held) := by
  obtain ⟨w, held, hw, hput⟩ := bar2Put_served (g := g) hs hl
  exact ⟨w, held, hw, by rw [exec_bar2Write hb hp hsec, hput, if_neg Nat.zero_ne_one]⟩

/-- A write that is served leaves its bytes, and counts at most in AP_HELD. -/
theorem stored_shown {u w : State} (hregs : u.regs = s.regs) (hep : u.ep = s.ep) (hw : OnlyTokens u w) (held : Bool) :
    ∃ t, done (w.apHeld held) = .next t ∧ (∀ k, t.byte k = u.byte k) ∧ SameRegs [Reg.APERTURE_AP_HELD] s t ∧ SameEp s t := by
  obtain ⟨f, rfl⟩ := hw
  refine ⟨_, rfl, fun k => apHeld_byte _ _ k, sameRegs_settle fun k hk _ => ?_, sameEp_settle ((apHeld_ep _ _).trans hep)⟩
  exact (reg_apHeld_other _ _ (List.ne_of_not_mem_cons hk)).trans (congrArg (fun m => mapGetD m k (regReset k)) hregs)

theorem bar2Write_served (hb : s.hostBlocked 0 = none) (hs : s.AtRest) (hp : s.protected_ (s.apAddr o) d.length = false)
    (hsec : s.secProtected (s.apAddr o) d.length = false)
    (hl : ∀ p ∈ cutsAt 256 (s.apAddr o) d.length, s.refusesAccess (dramPtr p.1) p.2 = none) :
    ∃ t, exec (.bar2Write o d g) s = .next t ∧
      (∀ k, t.byte k = ((cutsAt 256 (s.apAddr o) d.length).foldl (pokePiece (s.apAddr o) d) s).byte k) ∧
      SameRegs [Reg.APERTURE_AP_HELD] s t ∧ SameEp s t := by
  obtain ⟨w, held, hw, hexec⟩ := exec_bar2Write_served (g := g) hb hs hp hsec hl
  obtain ⟨hregs, hep⟩ := foldl_pokePiece_frame (d := d) (s := s) (cutsAt 256 (s.apAddr o) d.length) (s.apAddr o)
  rw [hexec]
  exact stored_shown hregs hep hw held

theorem exec_bar2Write_refused (hb : s.hostBlocked 0 = none) (hs : s.AtRest) (hp : s.protected_ (s.apAddr o) d.length = false)
    (hsec : s.secProtected (s.apAddr o) d.length = false)
    (h : ∃ p ∈ cutsAt 256 (s.apAddr o) d.length, 0 < p.2 ∧ s.refusesAccess (dramPtr p.1) p.2 ≠ none) :
    exec (.bar2Write o d g) s = done (((bar2Put o d g s).st.apHeld (bar2Put o d g s).held).tally Reg.APERTURE_AP_ERR) := by
  rw [exec_bar2Write hb hp hsec, if_pos (bar2Put_refused hs h)]

theorem errorResponse_shown {x : Aperture} (h : PiecesFrame s x.st) :
    ∃ t, done ((x.st.apHeld x.held).tally Reg.APERTURE_AP_ERR) = .next t ∧
      t.reg Reg.APERTURE_AP_ERR = s.counted Reg.APERTURE_AP_ERR ∧ SameEp s t :=
  ⟨_, rfl, (reg_settle (by decide) _).trans (apErr_counted h), sameEp_settle (by rw [tally_ep, apHeld_ep, h.ep])⟩

theorem bar2Write_refused (hb : s.hostBlocked 0 = none) (hs : s.AtRest) (hp : s.protected_ (s.apAddr o) d.length = false)
    (hsec : s.secProtected (s.apAddr o) d.length = false)
    (h : ∃ p ∈ cutsAt 256 (s.apAddr o) d.length, 0 < p.2 ∧ s.refusesAccess (dramPtr p.1) p.2 ≠ none) :
    ∃ t, exec (.bar2Write o d g) s = .next t ∧ t.reg Reg.APERTURE_AP_ERR = s.counted Reg.APERTURE_AP_ERR ∧ SameEp s t := by
  rw [exec_bar2Write_refused hb hs hp hsec h]
  exact errorResponse_shown (bar2Put_frame hs)

end Outcomes

end Sys2Proof.Laws
end

section
/-!
SUPPORT. Bad accesses of BAR 0 and requests without support (R311, R316); the settling of O41.
-/
namespace Sys2Proof.Laws
open Sys2Proof.Machine

section Unsupported
variable {s : State}

theorem onlyRegs_send {ks : List Nat} {t : State} (h : OnlyRegs ks s t) (e : Egress) : OnlyRegs ks s (t.send e) := h

theorem bar0Bad_read (h : s.hostReadBlocked = none) :
    ∃ t, exec (.bar0Bad true) s = .next t ∧ t.reg Reg.ENDPOINT_BAR0_BAD = s.counted Reg.ENDPOINT_BAR0_BAD ∧
      t.reg Reg.ENDPOINT_UR_SENT = s.counted Reg.ENDPOINT_UR_SENT ∧
      OnlyRegs [Reg.ENDPOINT_BAR0_BAD, Reg.ENDPOINT_UR_SENT] s t ∧ SameEp s t := by
  have hexec : exec (.bar0Bad true) s =
      done ((((s.tally Reg.ENDPOINT_BAR0_BAD).tally Reg.ENDPOINT_UR_SENT).send .unsupportedRequest).send .aerUnsupported) := by
    show execBar0Bad true s = _
    simp only [execBar0Bad, if_true, h]
  have hregs : OnlyRegs [Reg.ENDPOINT_BAR0_BAD, Reg.ENDPOINT_UR_SENT] s
      ((s.tally Reg.ENDPOINT_BAR0_BAD).tally Reg.ENDPOINT_UR_SENT) :=
    onlyRegs_tally (onlyRegs_tally (onlyRegs_refl _ s) (by simp)) (by simp)
  refine ⟨_, hexec, ?_, ?_, onlyRegs_settle (onlyRegs_send (onlyRegs_send hregs _) _), sameEp_settle rfl⟩
  · rw [reg_settle (by decide), send_reg, send_reg, reg_tally_other _ (by decide), reg_tally_same, State.counted]
  · rw [reg_settle (by decide), send_reg, send_reg, reg_tally_same, reg_tally_other _ (by decide), State.counted]

theorem bar0Bad_write (h : s.hostBlocked 0 = none) :
    ∃ t, exec (.bar0Bad false) s = .next t ∧ t.reg Reg.ENDPOINT_BAR0_BAD = s.counted Reg.ENDPOINT_BAR0_BAD ∧
      OnlyRegs [Reg.ENDPOINT_BAR0_BAD] s t ∧ SameEp s t := by
  have hexec : exec (.bar0Bad false) s = done ((s.tally Reg.ENDPOINT_BAR0_BAD).send .aerUnsupported) := by
    show execBar0Bad false s = _
    simp only [execBar0Bad, Bool.false_eq_true, if_false, h]
  have hregs : OnlyRegs [Reg.ENDPOINT_BAR0_BAD] s (s.tally Reg.ENDPOINT_BAR0_BAD) :=
    onlyRegs_tally (onlyRegs_refl _ s) List.mem_cons_self
  exact ⟨_, hexec, (reg_settle (by decide) _).trans (reg_tally_same s _), onlyRegs_settle (onlyRegs_send hregs _), sameEp_settle rfl⟩

/-- A request of kind k gets the answer of an Unsupported Request (R316). -/
def answersUr (s : State) : UrKind → Bool
  | .io | .lockedRead | .atomic => true
  | .type1Config => !s.ep.flr
  | .d3hotMemory posted => s.ep.d3hot && !posted
  | .vendorType1 => false

theorem exec_inboundUr_answered {k : UrKind} (hperst : s.ep.perst = false) (h : answersUr s k = true) :
    exec (.inboundUr k) s = done s.sendUr := by
  show execInboundUr k s = _
  unfold execInboundUr
  rw [hperst]
  cases k with
  | io => rfl
  | lockedRead => rfl
  | atomic => rfl
  | type1Config =>
    have hflr : s.ep.flr = false := by simpa [answersUr] using h
    simp [hflr]
  | d3hotMemory posted =>
    obtain ⟨hd3, hposted⟩ : s.ep.d3hot = true ∧ posted = false := by simpa [answersUr] using h
    simp [hd3, hposted]
  | vendorType1 => cases h

/-- Without that answer nothing but messages leaves the device. -/
theorem exec_inboundUr_unanswered {k : UrKind} (hperst : s.ep.perst = false) (h : answersUr s k = false) :
    ∃ es, exec (.inboundUr k) s = done { s with egress := s.egress ++ es } := by
  show ∃ es, execInboundUr k s = _
  unfold execInboundUr
  rw [hperst]
  cases k with
  | io => cases h
  | lockedRead => cases h
  | atomic => cases h
  | type1Config =>
    have hflr : s.ep.flr = true := by simpa [answersUr] using h
    exact ⟨[.crs], by simp [hflr, State.send]⟩
  | d3hotMemory posted =>
    cases hd3 : s.ep.d3hot with
    | true =>
      have hposted : posted = true := by simpa [answersUr, hd3] using h
      exact ⟨[.aerUnsupported], by simp [hposted, State.send]⟩
    | false => exact ⟨[], by simp⟩
  | vendorType1 => exact ⟨[], by simp⟩

theorem sendUr_onlyRegs (s : State) : OnlyRegs [Reg.ENDPOINT_UR_SENT] s s.sendUr :=
  onlyRegs_send (onlyRegs_tally (onlyRegs_refl _ s) List.mem_cons_self) _

theorem answersUr_of_kind {k : UrKind} (h : k ∈ [UrKind.io, .lockedRead, .atomic] ∨ (k = .type1Config ∧ s.ep.flr = false) ∨
    (k = .d3hotMemory false ∧ s.ep.d3hot = true)) : answersUr s k = true := by
  rcases h with hk | ⟨rfl, hflr⟩ | ⟨rfl, hd3⟩
  · simp only [List.mem_cons, List.not_mem_nil, or_false] at hk
    rcases hk with rfl | rfl | rfl <;> rfl
  · simp [answersUr, hflr]
  · simp [answersUr, hd3]

theorem answersUr_posted {k : UrKind} (h : k = .vendorType1 ∨ k = .d3hotMemory true) : answersUr s k = false := by
  rcases h with rfl | rfl <;> simp [answersUr]

end Unsupported

/-- Settles O41: pieces served or refused one by one, protected writes, and the answers to what has no support. -/
theorem barAccesses : Obligations.BarAccesses := by
  refine ⟨fun o n g s hb hs => ⟨?_, fun href => bar2Read_refused hb hs href⟩,
    fun o d g s hb hs hp hsec => ⟨fun hl => bar2Write_served hb hs hp hsec hl, fun href => bar2Write_refused hb hs hp hsec href⟩,
    fun o d g s hb hp => ?_, fun s hb => ?_, fun s hb => ?_, fun k s hperst => ?_⟩
  · rintro held hl rfl
    exact bar2Read_served hb hs hl
  · rw [exec_bar2Write_protected hb hp]
    have hregs := onlyRegs_tally (onlyRegs_refl [Reg.LOADER_STAGE_WRITE_DROP] s) List.mem_cons_self
    obtain ⟨hsame, hbytes, hrest⟩ := onlyRegs_settle hregs
    exact ⟨_, rfl, (reg_settle (by decide) _).trans (reg_tally_same s _), hsame, hbytes, sameEp_settle rfl, hrest⟩
  · obtain ⟨t, ht, hbad, hur, ⟨hsame, hbytes, hrest⟩, hep⟩ := bar0Bad_read hb
    exact ⟨t, ht, hbad, hur, hsame, hbytes, hep, hrest⟩
  · obtain ⟨t, ht, hbad, ⟨hsame, hbytes, hrest⟩, hep⟩ := bar0Bad_write hb
    exact ⟨t, ht, hbad, hsame, hbytes, hep, hrest⟩
  · cases hk : answersUr s k with
    | true =>
      obtain ⟨hsame, hbytes, hrest⟩ := onlyRegs_settle (sendUr_onlyRegs s)
      refine ⟨_, exec_inboundUr_answered hperst hk, hbytes, sameEp_settle rfl, hrest,
        fun _ => ⟨(reg_settle (by decide) _).trans (reg_tally_same s _), egress_send_settle rfl, hsame⟩, fun h => ?_⟩
      rw [answersUr_posted h] at hk
      cases hk
    | false =>
      obtain ⟨es, hexec⟩ := exec_inboundUr_unanswered hperst hk
      refine ⟨_, hexec, fun _ => rfl, sameEp_settle rfl, rfl, fun h => ?_, fun _ => sameRegs_settle fun _ _ _ => rfl⟩
      rw [answersUr_of_kind h] at hk
      cases hk

end Sys2Proof.Laws
end

section
/-!
SUPPORT. The thermal and power monitors (R87, R360 to R362) and deep idle (R331, R365): what a cluster's sample sets, what the trip
leaves alone, and the settling of O43.
-/
namespace Sys2Proof.Laws
open Sys2Proof.Machine

section Monitors
variable {s a t : State}

/-! ## Readings (R360) -/

/-- The word of two readings that a register of the thermal page shows. -/
def tempWord (temps : List (BitVec 16)) (w : Nat) : Word :=
  BitVec.ofNat 32 ((reading temps (2 * w)).toNat + 65536 * (reading temps (2 * w + 1)).toNat)

/-- The readings and the power estimate are shown. -/
def readingsShown (s : State) (temps : List (BitVec 16)) (mw : Word) : State :=
  ((List.range 8).foldl (fun (a : State) w => a.setReg (Reg.THERMAL_TEMP0 + 4 * w) (tempWord temps w)) s).setReg Reg.THERMAL_PWR_EST mw

/-- The registers that show the readings. -/
def tempRegs : List Nat := (List.range 8).map (fun w => Reg.THERMAL_TEMP0 + 4 * w)

theorem readingsShown_onlyRegs (s : State) (temps : List (BitVec 16)) (mw : Word) :
    OnlyRegs (Reg.THERMAL_PWR_EST :: tempRegs) s (readingsShown s temps mw) := by
  refine onlyRegs_setReg ?_ List.mem_cons_self _
  have hsteps (l : List Nat) (hl : l ⊆ List.range 8) (a : State) (ha : OnlyRegs (Reg.THERMAL_PWR_EST :: tempRegs) s a) :
      OnlyRegs (Reg.THERMAL_PWR_EST :: tempRegs) s
        (l.foldl (fun (a : State) w => a.setReg (Reg.THERMAL_TEMP0 + 4 * w) (tempWord temps w)) a) := by
    induction l generalizing a with
    | nil => exact ha
    | cons w r ih =>
      obtain ⟨hw, hr⟩ := List.cons_subset.mp hl
      exact ih hr _ (onlyRegs_setReg ha (List.mem_cons_of_mem _ (List.mem_map_of_mem hw)) _)
  exact hsteps _ (List.Subset.refl _) s (onlyRegs_refl _ s)

theorem readingsShown_temp (s : State) (temps : List (BitVec 16)) (mw : Word) {w : Nat} (hw : w < 8) :
    (readingsShown s temps mw).reg (Reg.THERMAL_TEMP0 + 4 * w) = tempWord temps w := by
  have hest : Reg.THERMAL_TEMP0 + 4 * w ≠ Reg.THERMAL_PWR_EST := by
    unfold Reg.THERMAL_TEMP0 Reg.THERMAL_PWR_EST rkey
    omega
  obtain ⟨u, -, -, hfold⟩ := foldl_at (P := fun _ : State => True) (g := fun a : State => a.reg (Reg.THERMAL_TEMP0 + 4 * w)) (n := w)
    (f := fun (a : State) w => a.setReg (Reg.THERMAL_TEMP0 + 4 * w) (tempWord temps w)) (fun _ _ _ => trivial)
    (fun a x hx _ => reg_setReg_other a (by omega) _) List.nodup_range (List.mem_range.mpr hw) (s := s) trivial
  exact ((reg_setReg_other _ hest _).trans hfold).trans (reg_setReg_same _ _ _)

/-! ## Clamp levels (R361) -/

/-- The monitors' work on the clamp levels leaves all but clusters and registers, and of the registers below the clusters' pages all
but those listed. -/
structure ClampFrame (ks : List Nat) (s t : State) : Prop where
  rest : { t with regs := s.regs, clusters := s.clusters } = s
  reg : ∀ k, BelowClusters k → k ∉ ks → t.reg k = s.reg k

namespace ClampFrame
variable {ks : List Nat}

theorem refl (ks : List Nat) (s : State) : ClampFrame ks s s := ⟨rfl, fun _ _ _ => rfl⟩

theorem setReg (h : ClampFrame ks s a) {k : Nat} (hk : k ∈ ks) (v : Word) : ClampFrame ks s (a.setReg k v) where
  rest := h.rest
  reg k' hb hk' := (reg_setReg_other a (ne_of_mem_of_not_mem hk hk').symm v).trans (h.reg k' hb hk')

theorem setEngineReg (h : ClampFrame ks s a) (e : Nat) {o : Nat} (v : Word) : ClampFrame ks s (a.setReg (rkey (pageMx e) o) v) where
  rest := h.rest
  reg k hb hk := by
    have hne : k ≠ rkey (pageMx e) o := by
      unfold BelowClusters at hb
      unfold rkey pageMx
      omega
    exact (reg_setReg_other a hne v).trans (h.reg k hb hk)

theorem setCluster (h : ClampFrame ks s a) (c : Nat) (v : Cluster) : ClampFrame ks s (a.setCluster c v) := ⟨h.rest, h.reg⟩

theorem power (h : ClampFrame ks s t) : t.power = s.power := by
  have h' := congrArg State.power h.rest
  exact h'

theorem sameBytes (h : ClampFrame ks s t) : SameBytes s t := by
  have hmem := congrArg State.mem h.rest
  have hdrams := congrArg State.drams h.rest
  exact sameBytes_of_mem_drams hmem hdrams

end ClampFrame

/-- The registers of the thermal page that a sample of the clamp levels sets. -/
def clampRegs : List Nat := [Reg.THERMAL_CLAMP, Reg.THERMAL_CLAMP_RISE]

/-- The pages of a cluster's engines show a clamp level (R96). -/
def clampShown (s : State) (c l : Nat) : State :=
  (clusterEngines c).foldl (fun (a : State) e =>
    let high := max (bits (a.reg (Reg.MX_CLAMP e)) 5 4) l
    let b := a.setReg (Reg.MX_CLAMP e) (BitVec.ofNat 32 (l + 16 * high))
    if s.clampLevel c = 0 ∧ 0 < l then b.event (pageMx e) 4 else b) s

theorem clampShown_frame (s : State) (c l : Nat) : ClampFrame [] s (clampShown s c l) ∧ (clampShown s c l).clusters = s.clusters := by
  refine foldl_keeps (P := fun a : State => ClampFrame [] s a ∧ a.clusters = s.clusters) (fun a e ⟨ha, hcl⟩ => ?_) _
    ⟨ClampFrame.refl _ s, rfl⟩
  have hlevel := ha.setEngineReg e (o := 0x10C) (BitVec.ofNat 32 (l + 16 * max (bits (a.reg (Reg.MX_CLAMP e)) 5 4) l))
  dsimp only
  split
  · exact ⟨hlevel.setEngineReg e (o := 0x010) _, hcl⟩
  · exact ⟨hlevel, hcl⟩

/-- A new level, once the engines' pages show it. -/
theorem setClamp_eq (s : State) (c l : Nat) : s.setClamp c l =
    ((clampShown s c l).setField Reg.THERMAL_CLAMP (2 * c + 1) (2 * c) l).setCluster c
      { s.cluster c with
        clampNext := BitVec.ofNat 2 l, clampBelow := 0
        clampHigh := if (s.cluster c).clampHigh.toNat < l then BitVec.ofNat 2 l else (s.cluster c).clampHigh } := rfl

theorem thermal_belowClusters {o : Nat} (ho : o < 4096) : BelowClusters (rkey 0x005 o) := by
  unfold BelowClusters rkey
  omega

/-- A cluster's clamp level, and the samples in a row below it. -/
def clampOf (c : Nat) (s : State) : Nat × Nat := (s.clampLevel c, (s.cluster c).clampBelow)

theorem clampLevel_congr (h : t.reg Reg.THERMAL_CLAMP = s.reg Reg.THERMAL_CLAMP) (c : Nat) : t.clampLevel c = s.clampLevel c := by
  simp only [State.clampLevel, h]

theorem clampOf_setCluster (s : State) (c : Nat) (v : Cluster) : clampOf c (s.setCluster c v) = (s.clampLevel c, v.clampBelow) := by
  rw [clampOf, cluster_setCluster_same]
  rfl

theorem setClamp_clampOf (s : State) {c l : Nat} (hc : c < 8) (hl : l < 4) : clampOf c (s.setClamp c l) = (l, 0) := by
  rw [setClamp_eq, clampOf_setCluster, State.clampLevel, bits_setField_same _ _ (by omega)]
  rw [show 2 * c + 1 + 1 - 2 * c = 2 by omega]
  exact hl

theorem setClamp_clampOf_other (s : State) {c c' : Nat} (hne : c' ≠ c) (l : Nat) : clampOf c' (s.setClamp c l) = clampOf c' s := by
  obtain ⟨hframe, hclusters⟩ := clampShown_frame s c l
  have hshown : (clampShown s c l).clampLevel c' = s.clampLevel c' :=
    clampLevel_congr (hframe.reg _ (thermal_belowClusters (by decide)) (List.not_mem_nil)) c'
  have hlevel : (s.setClamp c l).clampLevel c' = s.clampLevel c' :=
    (bits_setField_other _ _ _ (by omega)).trans hshown
  have hcluster : (s.setClamp c l).cluster c' = s.cluster c' := by
    rw [setClamp_eq, cluster_setCluster_other _ hne]
    simp only [State.cluster, setField_clusters, hclusters]
  rw [clampOf, clampOf, hlevel, hcluster]

theorem ClampFrame.mono {ks ks' : List Nat} (h : ClampFrame ks s t) (hsub : ks ⊆ ks') : ClampFrame ks' s t :=
  ⟨h.rest, fun k hb hk => h.reg k hb fun hin => hk (hsub hin)⟩

theorem setClamp_frame (s : State) (c l : Nat) : ClampFrame clampRegs s (s.setClamp c l) := by
  rw [setClamp_eq]
  exact (((clampShown_frame s c l).1.mono (List.nil_subset _)).setReg List.mem_cons_self _).setCluster _ _

theorem ClampFrame.trans {ks : List Nat} (h : ClampFrame ks s a) (h' : ClampFrame ks a t) : ClampFrame ks s t where
  rest := by
    have hrest := congrArg (fun x : State => { x with regs := s.regs, clusters := s.clusters }) h'.rest
    exact hrest.trans h.rest
  reg k hb hk := (h'.reg k hb hk).trans (h.reg k hb hk)

/-! ## A cluster's sample (R361) -/

/-- The clamp level after a sample that gives x, and the samples in a row below the level. -/
def clampAfter (x : Nat) (p : Nat × Nat) : Nat × Nat :=
  (if p.1 < x then x else if x < p.1 ∧ 63 ≤ p.2 then p.1 - 1 else p.1, if x < p.1 ∧ p.2 < 63 then p.2 + 1 else 0)

theorem clampLevel_lt (s : State) (c : Nat) : s.clampLevel c < 4 := by
  have h : s.clampLevel c < 2 ^ (2 * c + 1 + 1 - 2 * c) := Nat.mod_lt _ (Nat.two_pow_pos _)
  rwa [show 2 * c + 1 + 1 - 2 * c = 2 by omega] at h

theorem clampSample_frame (s : State) (c x : Nat) : ClampFrame clampRegs s (s.clampSample c x) := by
  unfold State.clampSample
  dsimp only
  split
  · exact (setClamp_frame s c x).setReg (by decide) _
  · split
    · split
      · exact setClamp_frame s c _
      · exact (ClampFrame.refl _ s).setCluster _ _
    · exact (ClampFrame.refl _ s).setCluster _ _

theorem clampOf_tally (s : State) (c : Nat) : clampOf c (s.tally Reg.THERMAL_CLAMP_RISE) = clampOf c s := by
  rw [clampOf, clampLevel_congr (reg_tally_other s (by decide))]
  rfl

theorem clampSample_clampOf (s : State) {c x : Nat} (hc : c < 8) (hx : x < 4) :
    clampOf c (s.clampSample c x) = clampAfter x (clampOf c s) := by
  have hlt := clampLevel_lt s c
  unfold State.clampSample clampAfter clampOf
  dsimp only
  by_cases hrise : s.clampLevel c < x
  · rw [if_pos hrise, if_pos hrise, if_neg (by omega)]
    exact (clampOf_tally _ c).trans (setClamp_clampOf s hc hx)
  · rw [if_neg hrise, if_neg hrise]
    by_cases hbelow : x < s.clampLevel c
    · rw [if_pos hbelow]
      by_cases hlong : 63 ≤ (s.cluster c).clampBelow
      · rw [if_pos hlong, if_pos ⟨hbelow, hlong⟩, if_neg (by omega)]
        exact setClamp_clampOf s hc (by omega)
      · rw [if_neg hlong, if_neg (by omega), if_pos ⟨hbelow, by omega⟩]
        exact clampOf_setCluster s c _
    · rw [if_neg hbelow, if_neg (by omega), if_neg (by omega)]
      exact clampOf_setCluster s c _

theorem clampSample_clampOf_other (s : State) {c c' : Nat} (hne : c' ≠ c) (x : Nat) : clampOf c' (s.clampSample c x) = clampOf c' s := by
  have hset (v : Cluster) : clampOf c' (s.setCluster c v) = clampOf c' s := by
    rw [clampOf, cluster_setCluster_other s hne]
    rfl
  unfold State.clampSample
  dsimp only
  split
  · exact (clampOf_tally _ c').trans (setClamp_clampOf_other s hne x)
  · split
    · split
      · exact setClamp_clampOf_other s hne _
      · exact hset _
    · exact hset _

/-- The samples of all clusters, at a power level. -/
def clampsSampled (s : State) (temps : List (BitVec 16)) (p : Nat) : State :=
  (List.range 8).foldl (fun (a : State) c => a.clampSample c (a.clampX (temp16 (reading temps c)) p)) s

theorem clampsSampled_frame (s : State) (temps : List (BitVec 16)) (p : Nat) : ClampFrame clampRegs s (clampsSampled s temps p) :=
  foldl_keeps (P := ClampFrame clampRegs s) (fun a c ha => ha.trans (clampSample_frame a c _)) _ (ClampFrame.refl _ s)

theorem threshold_congr {k : Nat} (h : t.reg k = s.reg k) (hi lo : Nat) : t.threshold k hi lo = s.threshold k hi lo := by
  simp only [State.threshold, h]

theorem clampX_congr (h1 : t.reg Reg.THERMAL_T_CLAMP1 = s.reg Reg.THERMAL_T_CLAMP1) (h3 : t.reg Reg.THERMAL_T_CLAMP3 = s.reg Reg.THERMAL_T_CLAMP3)
    (x : Int) (p : Nat) : t.clampX x p = s.clampX x p := by
  simp only [State.clampX, threshold_congr h1, threshold_congr h3]

theorem powerLevel_lt (est lim : Nat) : powerLevel est lim < 4 := by
  unfold powerLevel
  split_ifs <;> decide

theorem clampX_lt (s : State) (x : Int) {p : Nat} (hp : p < 4) : s.clampX x p < 4 := by
  unfold State.clampX
  dsimp only
  split_ifs <;> omega

theorem clampsSampled_clampOf (s : State) (temps : List (BitVec 16)) {p c : Nat} (hp : p < 4) (hc : c < 8) :
    clampOf c (clampsSampled s temps p) = clampAfter (s.clampX (temp16 (reading temps c)) p) (clampOf c s) := by
  obtain ⟨u, hu, hshown, hfold⟩ := foldl_at (P := ClampFrame clampRegs s) (g := clampOf c) (n := c)
    (f := fun (a : State) c => a.clampSample c (a.clampX (temp16 (reading temps c)) p))
    (fun a c ha => ha.trans (clampSample_frame a c _)) (fun a x hx _ => clampSample_clampOf_other a (Ne.symm hx) _)
    List.nodup_range (List.mem_range.mpr hc) (ClampFrame.refl _ s)
  have hx : u.clampX (temp16 (reading temps c)) p = s.clampX (temp16 (reading temps c)) p :=
    clampX_congr (hu.reg _ (thermal_belowClusters (by decide)) (by decide)) (hu.reg _ (thermal_belowClusters (by decide)) (by decide)) _ p
  rw [clampsSampled, hfold, clampSample_clampOf u hc (clampX_lt u _ hp), hx, hshown]

/-! ## The trip (R362) -/

/-- A domain that goes off leaves the registers below the clusters' pages, the clamp counts, the interrupt sources and the alarm. -/
structure TripFrame (s t : State) : Prop where
  reg : ∀ k, BelowClusters k → t.reg k = s.reg k
  clampBelow : ∀ c, (t.cluster c).clampBelow = (s.cluster c).clampBelow
  icu : t.icu = s.icu
  power : { t.power with state := s.power.state, clearing := s.power.clearing } = s.power

namespace TripFrame

theorem refl (s : State) : TripFrame s s := ⟨fun _ _ => rfl, fun _ => rfl, rfl, rfl⟩

theorem setReg (h : TripFrame s a) {k : Nat} (hk : ¬ BelowClusters k) (v : Word) : TripFrame s (a.setReg k v) where
  reg k' hb := (reg_setReg_other a (by rintro rfl; exact hk hb) v).trans (h.reg k' hb)
  clampBelow := h.clampBelow
  icu := h.icu
  power := h.power

theorem clampOf (h : TripFrame s t) (c : Nat) : clampOf c t = clampOf c s := by
  rw [Laws.clampOf, Laws.clampOf, clampLevel_congr (h.reg _ (thermal_belowClusters (by decide))), h.clampBelow]

theorem trans (h : TripFrame s a) (h' : TripFrame a t) : TripFrame s t where
  reg k hb := (h'.reg k hb).trans (h.reg k hb)
  clampBelow c := (h'.clampBelow c).trans (h.clampBelow c)
  icu := h'.icu.trans h.icu
  power := by
    have hpower := congrArg (fun x : Power => { x with state := s.power.state, clearing := s.power.clearing }) h'.power
    exact hpower.trans h.power

end TripFrame

theorem not_belowClusters {p o : Nat} (hp : 0x100 ≤ p) : ¬ BelowClusters (rkey p o) := by
  unfold BelowClusters rkey
  omega

theorem TripFrame.setCluster (h : TripFrame s a) (c : Nat) {v : Cluster} (hv : v.clampBelow = (s.cluster c).clampBelow) :
    TripFrame s (a.setCluster c v) where
  reg := h.reg
  clampBelow c' := by
    by_cases hc : c' = c
    · rw [hc, cluster_setCluster_same, hv]
    · rw [cluster_setCluster_other _ hc, h.clampBelow]
  icu := h.icu
  power := h.power

theorem TripFrame.setEngine (h : TripFrame s a) (e : Nat) (v : Engine) : TripFrame s (a.setEngine e v) :=
  ⟨h.reg, h.clampBelow, h.icu, h.power⟩

theorem TripFrame.clearAcc (h : TripFrame s a) (c : Nat) : TripFrame s (a.clearAcc c) := ⟨h.reg, h.clampBelow, h.icu, h.power⟩

theorem TripFrame.clearRange (h : TripFrame s a) (p : Ptr) (n : Nat) : TripFrame s (a.clearRange p n) :=
  ⟨h.reg, h.clampBelow, h.icu, h.power⟩

/-- What a cluster keeps of its monitors when it is cleared. -/
def monitorsOf (v : Cluster) : Cluster :=
  { lastRot := v.lastRot, clampHigh := v.clampHigh, clampNext := v.clampNext, clampNow := v.clampNext, clampBelow := v.clampBelow }

/-- A cluster's record and its engines cleared. -/
def clusterReset (s : State) (c : Nat) : State :=
  (clusterEngines c).foldl (fun (a : State) e => a.setEngine e {}) ((s.clearAcc c).setCluster c (monitorsOf (s.cluster c)))

theorem clearCluster_eq (s : State) (c : Nat) :
    s.clearCluster c = (clusterReset s c).clearRange { store := .spad (Fin.ofNat 8 c), addr := 0 } 0x800000 := rfl

theorem clusterReset_frame (s : State) (c : Nat) : TripFrame s (clusterReset s c) ∧ (clusterReset s c).power = s.power := by
  have hstart : TripFrame s ((s.clearAcc c).setCluster c (monitorsOf (s.cluster c))) := ((TripFrame.refl s).clearAcc c).setCluster c rfl
  unfold clusterReset
  exact foldl_keeps (P := fun a : State => TripFrame s a ∧ a.power = s.power) (fun a e ⟨ha, hp⟩ => ⟨ha.setEngine e {}, hp⟩) _ ⟨hstart, rfl⟩

theorem clearCluster_frame (s : State) (c : Nat) : TripFrame s (s.clearCluster c) ∧ (s.clearCluster c).power = s.power := by
  obtain ⟨hframe, hpower⟩ := clusterReset_frame s c
  rw [clearCluster_eq]
  generalize clusterReset s c = u at hframe hpower
  exact ⟨hframe.clearRange _ _, hpower⟩

theorem setClearState_frame {p : Nat} (hp : 0x100 ≤ p) (h : TripFrame s a ∧ a.power = s.power) (x y : Bool) :
    TripFrame s (a.setClearState p x y) ∧ (a.setClearState p x y).power = s.power :=
  ⟨h.1.setReg (not_belowClusters hp) _, h.2⟩

theorem mediaUnitPage_ge {d p : Nat} (h : mediaUnitPage d = some p) : 0x100 ≤ p := by
  unfold mediaUnitPage pageVd pageVe pagePp at h
  split_ifs at h <;> cases h <;> omega

theorem unitRests_frame (h : TripFrame s a ∧ a.power = s.power) (d : Nat) (on : Bool) :
    TripFrame s (a.unitRests d on) ∧ (a.unitRests d on).power = s.power := by
  unfold State.unitRests
  split
  · next p hp =>
    have hpage := mediaUnitPage_ge hp
    exact ⟨((h.1.setReg (not_belowClusters hpage) _).setReg (not_belowClusters hpage) _).setReg (not_belowClusters hpage) _, h.2⟩
  · exact h

/-- What the blocks of a domain lose, domain by domain (R357). -/
theorem blocksLost_frame (s : State) (d : Nat) : TripFrame s (s.blocksLost d) ∧ (s.blocksLost d).power = s.power := by
  have hrefl : TripFrame s s := TripFrame.refl s
  have hsame : ∀ t : State, t.regs = s.regs → t.clusters = s.clusters → t.icu = s.icu → t.power = s.power →
      TripFrame s t ∧ t.power = s.power := by
    intro t hregs hclusters hicu hpower
    refine ⟨⟨fun k _ => ?_, fun c => ?_, hicu, ?_⟩, hpower⟩
    · rw [State.reg, State.reg, hregs]
    · rw [State.cluster, State.cluster, hclusters]
    · rw [hpower]
  unfold State.blocksLost
  split
  · exact setClearState_frame (by unfold pageSpad; omega) (clearCluster_frame s d) _ _
  split
  · exact unitRests_frame (hsame (s.setVd (d - 8) {}) rfl rfl rfl rfl) d _
  split
  · exact unitRests_frame (hsame (s.setVe (d - 16) {}) rfl rfl rfl rfl) d _
  split
  · exact unitRests_frame (hsame (s.setPp (d - 18) {}) rfl rfl rfl rfl) d _
  split
  · exact hsame _ rfl rfl rfl rfl
  split
  · exact hsame _ rfl rfl rfl rfl
  split
  · exact setClearState_frame (by decide) (hsame (s.clearRange { store := .common, addr := 0 } 0x3000000) rfl rfl rfl rfl) _ _
  · refine foldl_keeps (P := fun a : State => TripFrame s a ∧ a.power = s.power) (fun a c ⟨ha, hp⟩ => ?_) _ ⟨hrefl, rfl⟩
    have hstate := ha.setReg (k := Reg.DC_STATE c) (not_belowClusters (p := 0x300 + c) (by omega)) 0
    exact ⟨⟨hstate.reg, hstate.clampBelow, hstate.icu, hstate.power⟩, hp⟩

theorem domainOff_frame (s : State) (d : Nat) : TripFrame s (s.domainOff d) := by
  have h := (blocksLost_frame (({ s with power := { s.power with clearing := s.power.clearing.erase d } }.putDomain d 0).dropScrub d) d).1
  exact TripFrame.trans (a := ({ s with power := { s.power with clearing := s.power.clearing.erase d } }.putDomain d 0).dropScrub d)
    ⟨fun _ _ => rfl, fun _ => rfl, rfl, rfl⟩ h

theorem domainOff_domState (s : State) (d d' : Nat) : (s.domainOff d).domState d' = if d' = d then 0 else s.domState d' := by
  have h := (blocksLost_frame (({ s with power := { s.power with clearing := s.power.clearing.erase d } }.putDomain d 0).dropScrub d) d).2
  have hstate : (s.domainOff d).power.state = tblSet 0 d 0 s.power.state := congrArg Power.state h
  rw [State.domState, hstate]
  split
  · next hd => rw [hd, mapGetD_tblSet_same]
  · next hd => exact mapGetD_tblSet_other _ hd _ _

/-- One step of the trip. -/
def tripDomain (a : State) (d : Nat) : State := if a.domState d = 0 then a else a.domainOff d

theorem tripDomain_frame (s : State) (d : Nat) : TripFrame s (tripDomain s d) := by
  unfold tripDomain
  split
  · exact TripFrame.refl s
  · exact domainOff_frame s d

theorem tripDomain_off (s : State) (d : Nat) : (tripDomain s d).domState d = 0 := by
  unfold tripDomain
  split
  · assumption
  · rw [domainOff_domState, if_pos rfl]

theorem tripDomain_keeps_off (s : State) (d d' : Nat) (h : s.domState d' = 0) : (tripDomain s d).domState d' = 0 := by
  unfold tripDomain
  split
  · exact h
  · rw [domainOff_domState, h, ite_self]

/-- Every switchable domain goes off. -/
def domainsTripped (s : State) : State := (List.range 29).foldl tripDomain s

theorem domainsTripped_frame (s : State) : TripFrame s (domainsTripped s) :=
  foldl_keeps (P := TripFrame s) (fun a d ha => ha.trans (tripDomain_frame a d)) _ (TripFrame.refl s)

theorem domainsTripped_off (s : State) {d : Nat} (hd : d < 29) : (domainsTripped s).domState d = 0 :=
  foldl_establishes (Φ := fun d (a : State) => a.domState d = 0) tripDomain_off (fun a x y => tripDomain_keeps_off a x y)
    (List.mem_range.mpr hd) s

theorem trip_eq (h : s.power.tripped = false) : s.trip = { (domainsTripped s).tally Reg.THERMAL_TRIP with
    power := { (domainsTripped s).power with tripped := true, tripLow := true, moving := [], queued := [], clearing := [] } } := by
  unfold State.trip
  rw [h, if_neg (by decide)]
  unfold domainsTripped
  generalize List.range 29 = l
  rfl

/-! ## THERMAL_SAMPLE (R360 to R362) -/

/-- Some reading lies at a limit or above it. -/
def hot (temps : List (BitVec 16)) (lim : Int) : Bool := (List.range 16).any (fun n => decide (lim ≤ temp16 (reading temps n)))

/-- The power level that a sample finds. -/
def sampleLevel (s : State) (mw : Word) : Nat := powerLevel mw.toNat (s.regN Reg.THERMAL_PWR_LIMIT)

/-- A power level above 0 counts (R361). -/
def powerCounted (s : State) (p : Nat) : State := if p = 0 then s else (s.tally Reg.THERMAL_POWER_OVER).event 0x005 2

/-- The alarm, raised with its count and edge where it stood not yet (R362). -/
def alarmSet (s : State) (alarm : Bool) : State :=
  let t := if alarm = true ∧ s.power.alarm = false then ((s.tally Reg.THERMAL_ALARM).event 0x005 1).edge 4 else s
  { t with power := { t.power with alarm := alarm } }

/-- A sample up to its alarm: readings, power estimate, clamp levels. -/
def sampledClamps (s : State) (temps : List (BitVec 16)) (mw : Word) : State :=
  let s2 := readingsShown s temps mw
  clampsSampled (powerCounted s2 (sampleLevel s2 mw)) temps (sampleLevel s2 mw)

/-- A sample up to its trip. -/
def sampledAlarm (s : State) (temps : List (BitVec 16)) (mw : Word) : State :=
  let s4 := sampledClamps s temps mw
  alarmSet s4 (hot temps (s4.threshold Reg.THERMAL_T_CLAMP3 31 16))

theorem exec_thermalSample (temps : List (BitVec 16)) (mw : Word) (s : State) : exec (.thermalSample temps mw) s =
    done (let s6 := sampledAlarm s temps mw
      (if hot temps (s6.threshold Reg.THERMAL_T_TRIP 15 0) then s6.trip else s6).syncThermal) := by
  show execThermalSample temps mw s = _
  unfold execThermalSample sampledAlarm sampledClamps clampsSampled readingsShown
  generalize List.range 8 = l
  rfl

/-- The registers that a sample sets before the clamp levels. -/
def sampleRegs : List Nat := [Reg.THERMAL_POWER_OVER, Reg.EVT_RAW 0x005, Reg.THERMAL_PWR_EST] ++ tempRegs


theorem powerCounted_onlyRegs (s : State) (p : Nat) : OnlyRegs [Reg.THERMAL_POWER_OVER, Reg.EVT_RAW 0x005] s (powerCounted s p) := by
  unfold powerCounted
  split
  · exact onlyRegs_refl _ s
  · exact onlyRegs_event (onlyRegs_tally (onlyRegs_refl _ s) List.mem_cons_self) (List.mem_cons_of_mem _ List.mem_cons_self) _

theorem power_of_onlyRegs {ks : List Nat} (h : OnlyRegs ks s t) : t.power = s.power := by
  obtain ⟨-, -, hrest⟩ := h
  have hpower := congrArg State.power hrest
  exact hpower

theorem clampOf_of_onlyRegs {ks : List Nat} (h : OnlyRegs ks s t) (hk : Reg.THERMAL_CLAMP ∉ ks) (c : Nat) : clampOf c t = clampOf c s := by
  obtain ⟨hregs, -, hrest⟩ := h
  have hclusters := congrArg State.clusters hrest
  have hclusters' : t.clusters = s.clusters := hclusters
  simp only [clampOf, clampLevel_congr (hregs _ hk (by decide)), State.cluster, hclusters']

/-- What the sample reads of the registers, once the power level has counted. -/
def levelCounted (s : State) (temps : List (BitVec 16)) (mw : Word) : State :=
  powerCounted (readingsShown s temps mw) (sampleLevel (readingsShown s temps mw) mw)

theorem onlyRegs_trans {ks ks' : List Nat} (h : OnlyRegs ks s a) (h' : OnlyRegs ks' a t) : OnlyRegs (ks ++ ks') s t := by
  obtain ⟨hregs, hbytes, hrest⟩ := h
  obtain ⟨hregs', hbytes', hrest'⟩ := h'
  refine ⟨fun k hk hr => ?_, fun k => (hbytes' k).trans (hbytes k), ?_⟩
  · rw [List.mem_append, not_or] at hk
    exact (hregs' k hk.2 hr).trans (hregs k hk.1 hr)
  · have hall := congrArg (fun x : State => { x with regs := s.regs, icu := s.icu, ep := s.ep, egress := s.egress }) hrest'
    exact hall.trans hrest

theorem levelCounted_onlyRegs (s : State) (temps : List (BitVec 16)) (mw : Word) : OnlyRegs sampleRegs s (levelCounted s temps mw) :=
  onlyRegs_mono (onlyRegs_trans (readingsShown_onlyRegs s temps mw) (powerCounted_onlyRegs _ _)) (by decide)

theorem sampledClamps_eq (s : State) (temps : List (BitVec 16)) (mw : Word) :
    sampledClamps s temps mw = clampsSampled (levelCounted s temps mw) temps (sampleLevel s mw) := by
  have hlim : (readingsShown s temps mw).reg Reg.THERMAL_PWR_LIMIT = s.reg Reg.THERMAL_PWR_LIMIT :=
    (readingsShown_onlyRegs s temps mw).1 _ (by decide) (by decide)
  have hlevel : sampleLevel (readingsShown s temps mw) mw = sampleLevel s mw := by
    simp only [sampleLevel, State.regN, hlim]
  rw [sampledClamps, levelCounted, hlevel]

theorem sampledClamps_reg (s : State) (temps : List (BitVec 16)) (mw : Word) {k : Nat} (hb : BelowClusters k)
    (hk : k ∉ clampRegs ++ sampleRegs) (hr : k ∉ riseTallies) : (sampledClamps s temps mw).reg k = s.reg k := by
  rw [List.mem_append, not_or] at hk
  rw [sampledClamps_eq]
  exact ((clampsSampled_frame _ temps _).reg k hb hk.1).trans ((levelCounted_onlyRegs s temps mw).1 k hk.2 hr)

theorem sampledClamps_power (s : State) (temps : List (BitVec 16)) (mw : Word) : (sampledClamps s temps mw).power = s.power := by
  rw [sampledClamps_eq]
  exact (clampsSampled_frame _ temps _).power.trans (power_of_onlyRegs (levelCounted_onlyRegs s temps mw))

theorem sampledClamps_sameBytes (s : State) (temps : List (BitVec 16)) (mw : Word) : SameBytes s (sampledClamps s temps mw) := by
  rw [sampledClamps_eq]
  exact fun k => ((clampsSampled_frame _ temps _).sameBytes k).trans ((levelCounted_onlyRegs s temps mw).2.1 k)

/-- The readings stay shown while the clamp levels are sampled. -/
theorem sampledClamps_shown (s : State) (temps : List (BitVec 16)) (mw : Word) {k : Nat} (hb : BelowClusters k)
    (hk : k ∉ clampRegs ++ [Reg.THERMAL_POWER_OVER, Reg.EVT_RAW 0x005]) (hr : k ∉ riseTallies) :
    (sampledClamps s temps mw).reg k = (readingsShown s temps mw).reg k := by
  rw [List.mem_append, not_or] at hk
  rw [sampledClamps_eq]
  exact ((clampsSampled_frame _ temps _).reg k hb hk.1).trans ((powerCounted_onlyRegs _ _).1 k hk.2 hr)

theorem sampledClamps_clampOf (s : State) (temps : List (BitVec 16)) (mw : Word) {c : Nat} (hc : c < 8) :
    clampOf c (sampledClamps s temps mw) = clampAfter (s.clampX (temp16 (reading temps c)) (sampleLevel s mw)) (clampOf c s) := by
  have h := levelCounted_onlyRegs s temps mw
  have hx := clampX_congr (h.1 Reg.THERMAL_T_CLAMP1 (by decide) (by decide)) (h.1 Reg.THERMAL_T_CLAMP3 (by decide) (by decide))
    (temp16 (reading temps c)) (sampleLevel s mw)
  rw [sampledClamps_eq, clampsSampled_clampOf _ temps (p := sampleLevel s mw) (powerLevel_lt _ _) hc, hx, clampOf_of_onlyRegs h (by decide)]

/-! ## The alarm (R362) -/

theorem alarmSet_reg (s : State) (alarm : Bool) {k : Nat} (hk : k ∉ [Reg.THERMAL_ALARM, Reg.EVT_RAW 0x005]) :
    (alarmSet s alarm).reg k = s.reg k := by
  simp only [List.mem_cons, List.not_mem_nil, or_false, not_or] at hk
  unfold alarmSet
  dsimp only
  split
  · exact (reg_event_other _ hk.2 _).trans (reg_tally_other s hk.1)
  · rfl

theorem alarmSet_power (s : State) (alarm : Bool) : (alarmSet s alarm).power = { s.power with alarm := alarm } := by
  unfold alarmSet
  dsimp only
  split <;> rfl

theorem alarmSet_clampOf (s : State) (alarm : Bool) (c : Nat) : clampOf c (alarmSet s alarm) = clampOf c s := by
  have hclusters : (alarmSet s alarm).clusters = s.clusters := by
    unfold alarmSet
    dsimp only
    split <;> rfl
  simp only [clampOf, clampLevel_congr (alarmSet_reg s alarm (by decide)), State.cluster, hclusters]

theorem alarmSet_sameBytes (s : State) (alarm : Bool) : SameBytes s (alarmSet s alarm) := by
  refine sameBytes_of_mem_drams ?_ ?_ <;>
  · unfold alarmSet
    dsimp only
    split <;> rfl

/-- A new alarm counts and latches its edge. -/
theorem alarmSet_rise (h : s.power.alarm = false) :
    (alarmSet s true).reg Reg.THERMAL_ALARM = s.counted Reg.THERMAL_ALARM ∧ (alarmSet s true).icu.edges.getLsbD 4 = true := by
  unfold alarmSet
  dsimp only
  rw [if_pos ⟨rfl, h⟩]
  constructor
  · exact (reg_event_other (s.tally Reg.THERMAL_ALARM) (by decide) 1).trans (reg_tally_same (s := s) _)
  · show (s.icu.edges ||| BitVec.ofNat 8 (2 ^ 4)).getLsbD 4 = true
    rw [BitVec.getLsbD_or]
    exact Bool.or_true _

/-! ## The trip's effect (R362) -/

theorem trip_keeps (s : State) : (∀ k, BelowClusters k → k ≠ Reg.THERMAL_TRIP → s.trip.reg k = s.reg k) ∧
    (∀ c, clampOf c s.trip = clampOf c s) ∧ s.trip.icu = s.icu ∧ s.trip.power.alarm = s.power.alarm := by
  cases h : s.power.tripped with
  | true =>
    have htrip : s.trip = s := if_pos h
    rw [htrip]
    exact ⟨fun _ _ _ => rfl, fun _ => rfl, rfl, rfl⟩
  | false =>
    have hframe := domainsTripped_frame s
    rw [trip_eq h]
    generalize domainsTripped s = u at hframe
    have halarm := congrArg Power.alarm hframe.power
    refine ⟨fun k hb hk => (reg_tally_other u hk).trans (hframe.reg k hb), fun c => Eq.trans ?_ (hframe.clampOf c), hframe.icu, halarm⟩
    exact congrArg (·, (u.cluster c).clampBelow) (clampLevel_congr (reg_tally_other u (by decide)) c)

theorem trip_trips (h : s.power.tripped = false) : s.trip.power.tripped = true ∧ s.trip.power.tripLow = true ∧
    s.trip.reg Reg.THERMAL_TRIP = s.counted Reg.THERMAL_TRIP ∧
    ∀ d < 29, s.trip.domState d = 0 ∧ mapGet s.trip.power.moving d = none := by
  have hreg := (domainsTripped_frame s).reg Reg.THERMAL_TRIP (thermal_belowClusters (by decide))
  have hoff := fun d (hd : d < 29) => domainsTripped_off s hd
  rw [trip_eq h]
  generalize domainsTripped s = u at hreg hoff
  refine ⟨rfl, rfl, (reg_tally_same (s := u) _).trans ?_, fun d hd => ⟨hoff d hd, rfl⟩⟩
  rw [hreg]
  rfl

/-- A sample before the page's STATUS follows. -/
def sampledTrip (s : State) (temps : List (BitVec 16)) (mw : Word) : State :=
  if hot temps ((sampledAlarm s temps mw).threshold Reg.THERMAL_T_TRIP 15 0) then (sampledAlarm s temps mw).trip else sampledAlarm s temps mw

theorem sampledTrip_keeps (s : State) (temps : List (BitVec 16)) (mw : Word) :
    (∀ k, BelowClusters k → k ≠ Reg.THERMAL_TRIP → (sampledTrip s temps mw).reg k = (sampledAlarm s temps mw).reg k) ∧
    (∀ c, clampOf c (sampledTrip s temps mw) = clampOf c (sampledAlarm s temps mw)) ∧
    (sampledTrip s temps mw).icu = (sampledAlarm s temps mw).icu ∧
    (sampledTrip s temps mw).power.alarm = (sampledAlarm s temps mw).power.alarm := by
  unfold sampledTrip
  split
  · exact trip_keeps _
  · exact ⟨fun _ _ _ => rfl, fun _ => rfl, rfl, rfl⟩

theorem syncThermal_reg (s : State) {k : Nat} (hk : k ≠ Reg.STATUS 0x005) : s.syncThermal.reg k = s.reg k := reg_setReg_other s hk _

theorem syncThermal_clampOf (s : State) (c : Nat) : clampOf c s.syncThermal = clampOf c s :=
  congrArg (·, (s.cluster c).clampBelow) (clampLevel_congr (syncThermal_reg s (by decide)) c)

theorem settle_clampOf (s : State) (c : Nat) : clampOf c (settle s) = clampOf c s :=
  congrArg (·, (s.cluster c).clampBelow) (clampLevel_congr (reg_settle (by decide) s) c)

/-- What a sample leaves. -/
def sampleDone (s : State) (temps : List (BitVec 16)) (mw : Word) : State := settle (sampledTrip s temps mw).syncThermal

theorem sampleDone_reg (s : State) (temps : List (BitVec 16)) (mw : Word) {k : Nat} (hb : BelowClusters k) (hr : k ∉ riseTallies)
    (hk : k ∉ [Reg.THERMAL_TRIP, Reg.STATUS 0x005]) : (sampleDone s temps mw).reg k = (sampledAlarm s temps mw).reg k := by
  simp only [List.mem_cons, List.not_mem_nil, or_false, not_or] at hk
  obtain ⟨htrip, hstatus⟩ := hk
  rw [sampleDone, reg_settle hr, syncThermal_reg _ hstatus]
  exact (sampledTrip_keeps s temps mw).1 k hb htrip

theorem sampleDone_shown (s : State) (temps : List (BitVec 16)) (mw : Word) {k : Nat} (hb : BelowClusters k) (hr : k ∉ riseTallies)
    (hk : k ∉ [Reg.THERMAL_TRIP, Reg.STATUS 0x005, Reg.THERMAL_ALARM, Reg.EVT_RAW 0x005, Reg.THERMAL_POWER_OVER] ++ clampRegs) :
    (sampleDone s temps mw).reg k = (readingsShown s temps mw).reg k := by
  simp only [clampRegs, List.cons_append, List.nil_append, List.mem_cons, List.not_mem_nil, or_false, not_or] at hk
  obtain ⟨htrip, hstatus, halarm, hevent, hover, hclamp, hrise⟩ := hk
  rw [sampleDone_reg s temps mw hb hr (by simp [htrip, hstatus]), sampledAlarm, alarmSet_reg _ _ (by simp [halarm, hevent])]
  exact sampledClamps_shown s temps mw hb (by simp [clampRegs, hclamp, hrise, hover, hevent]) hr

theorem sampleDone_temp (s : State) (temps : List (BitVec 16)) (mw : Word) {w : Nat} (hw : w < 8) :
    (sampleDone s temps mw).reg (Reg.THERMAL_TEMP0 + 4 * w) = tempWord temps w := by
  have hr : Reg.THERMAL_TEMP0 + 4 * w ∉ riseTallies := by revert w; decide
  have hb : BelowClusters (Reg.THERMAL_TEMP0 + 4 * w) := by
    unfold BelowClusters Reg.THERMAL_TEMP0 rkey
    omega
  refine (sampleDone_shown s temps mw hb hr ?_).trans (readingsShown_temp s temps mw hw)
  clear hb hr
  revert w
  decide

theorem sampleDone_est (s : State) (temps : List (BitVec 16)) (mw : Word) : (sampleDone s temps mw).reg Reg.THERMAL_PWR_EST = mw :=
  (sampleDone_shown s temps mw (thermal_belowClusters (by decide)) (by decide) (by decide)).trans (reg_setReg_same _ _ _)

theorem sampleDone_clampOf (s : State) (temps : List (BitVec 16)) (mw : Word) {c : Nat} (hc : c < 8) :
    clampOf c (sampleDone s temps mw) = clampAfter (s.clampX (temp16 (reading temps c)) (sampleLevel s mw)) (clampOf c s) := by
  obtain ⟨-, hclamp, -, -⟩ := sampledTrip_keeps s temps mw
  rw [sampleDone, settle_clampOf, syncThermal_clampOf, hclamp, sampledAlarm, alarmSet_clampOf, sampledClamps_clampOf s temps mw hc]

theorem sampledAlarm_power (s : State) (temps : List (BitVec 16)) (mw : Word) :
    (sampledAlarm s temps mw).power = { s.power with alarm := hot temps (s.threshold Reg.THERMAL_T_CLAMP3 31 16) } := by
  have hthreshold := threshold_congr (sampledClamps_reg s temps mw (k := Reg.THERMAL_T_CLAMP3) (thermal_belowClusters (by decide))
    (by decide) (by decide)) 31 16
  rw [sampledAlarm, alarmSet_power, sampledClamps_power, hthreshold]

theorem sampleDone_alarm (s : State) (temps : List (BitVec 16)) (mw : Word) :
    (sampleDone s temps mw).power.alarm = hot temps (s.threshold Reg.THERMAL_T_CLAMP3 31 16) := by
  obtain ⟨-, -, -, halarm⟩ := sampledTrip_keeps s temps mw
  exact halarm.trans (congrArg Power.alarm (sampledAlarm_power s temps mw))

/-- An alarm that stood not yet counts and is pending. -/
theorem sampleDone_alarm_rise (s : State) (temps : List (BitVec 16)) (mw : Word) (hnow : (sampleDone s temps mw).power.alarm = true)
    (hold : s.power.alarm = false) :
    (sampleDone s temps mw).reg Reg.THERMAL_ALARM = s.counted Reg.THERMAL_ALARM ∧ (sampleDone s temps mw).pendingSrc 244 = true := by
  obtain ⟨-, -, hicu, -⟩ := sampledTrip_keeps s temps mw
  have hpower := sampledClamps_power s temps mw
  have hrise := alarmSet_rise (s := sampledClamps s temps mw) (by rw [hpower, hold])
  have halarm : sampledAlarm s temps mw = alarmSet (sampledClamps s temps mw) true := by
    have hset := congrArg Power.alarm (sampledAlarm_power s temps mw)
    rw [sampleDone_alarm] at hnow
    rw [hnow] at hset
    have hhot : hot temps ((sampledClamps s temps mw).threshold Reg.THERMAL_T_CLAMP3 31 16) = true := by
      rw [sampledAlarm, alarmSet_power] at hset
      exact hset
    rw [sampledAlarm, hhot]
  have hcount : (sampledClamps s temps mw).counted Reg.THERMAL_ALARM = s.counted Reg.THERMAL_ALARM := by
    rw [State.counted, sampledClamps_reg s temps mw (k := Reg.THERMAL_ALARM) (thermal_belowClusters (by decide)) (by decide) (by decide)]
    rfl
  constructor
  · rw [sampleDone_reg s temps mw (k := Reg.THERMAL_ALARM) (thermal_belowClusters (by decide)) (by decide) (by decide), halarm, hrise.1, hcount]
  · show (sampledTrip s temps mw).icu.edges.getLsbD 4 = true
    rw [hicu, halarm, hrise.2]

theorem sampledAlarm_trip_threshold (s : State) (temps : List (BitVec 16)) (mw : Word) :
    (sampledAlarm s temps mw).threshold Reg.THERMAL_T_TRIP 15 0 = s.threshold Reg.THERMAL_T_TRIP 15 0 := by
  refine threshold_congr ?_ 15 0
  rw [sampledAlarm, alarmSet_reg _ _ (by decide)]
  exact sampledClamps_reg s temps mw (thermal_belowClusters (by decide)) (by decide) (by decide)

theorem hot_iff (temps : List (BitVec 16)) (lim : Int) : hot temps lim = true ↔ ∃ n < 16, lim ≤ temp16 (reading temps n) := by
  simp only [hot, List.any_eq_true, List.mem_range, decide_eq_true_eq]

/-- A reading at the trip threshold trips the device, unless it has tripped. -/
theorem sampleDone_trips (s : State) (temps : List (BitVec 16)) (mw : Word)
    (h : hot temps (s.threshold Reg.THERMAL_T_TRIP 15 0) = true) (hnot : s.power.tripped = false) :
    (sampleDone s temps mw).power.tripped = true ∧ (sampleDone s temps mw).power.tripLow = true ∧
      (sampleDone s temps mw).reg Reg.THERMAL_TRIP = s.counted Reg.THERMAL_TRIP ∧
      ∀ d < 29, (sampleDone s temps mw).domState d = 0 ∧ mapGet (sampleDone s temps mw).power.moving d = none := by
  have htrip : sampledTrip s temps mw = (sampledAlarm s temps mw).trip := by
    rw [sampledTrip, sampledAlarm_trip_threshold, if_pos h]
  have hkeep : (sampledAlarm s temps mw).power.tripped = false := by rw [sampledAlarm_power]; exact hnot
  have hreg : (sampledAlarm s temps mw).reg Reg.THERMAL_TRIP = s.reg Reg.THERMAL_TRIP := by
    rw [sampledAlarm, alarmSet_reg _ _ (by decide)]
    exact sampledClamps_reg s temps mw (thermal_belowClusters (by decide)) (by decide) (by decide)
  obtain ⟨htripped, hlow, hcount, hoff⟩ := trip_trips hkeep
  rw [← htrip] at htripped hlow hcount hoff
  refine ⟨htripped, hlow, ?_, hoff⟩
  rw [sampleDone, reg_settle (by decide), syncThermal_reg _ (by decide), hcount, State.counted, hreg]
  rfl

/-- A sample that is cold for the trip leaves the power state and every byte. -/
theorem sampleDone_cold (s : State) (temps : List (BitVec 16)) (mw : Word) (h : hot temps (s.threshold Reg.THERMAL_T_TRIP 15 0) = false) :
    { (sampleDone s temps mw).power with alarm := s.power.alarm } = s.power ∧ SameBytes s (sampleDone s temps mw) := by
  have htrip : sampledTrip s temps mw = sampledAlarm s temps mw := by
    rw [sampledTrip, sampledAlarm_trip_threshold, h]
    rfl
  have hbytes (k : Nat) : (sampledAlarm s temps mw).byte k = s.byte k :=
    (alarmSet_sameBytes (sampledClamps s temps mw) _ k).trans (sampledClamps_sameBytes s temps mw k)
  have hpower := sampledAlarm_power s temps mw
  rw [sampleDone, htrip]
  generalize sampledAlarm s temps mw = u at hpower hbytes
  refine ⟨?_, hbytes⟩
  show { u.power with alarm := s.power.alarm } = s.power
  rw [hpower]

/-! ## CLAMP_WINDOW_START (R87) -/

theorem clampWindowStart_takes (c : Fin 8) (s : State) : ∃ t, exec (.clampWindowStart c) s = .next t ∧
    (t.cluster c.val).clampNow = (s.cluster c.val).clampNext ∧ (∀ x, x ≠ c.val → t.cluster x = s.cluster x) ∧
    SameRegs [] s t ∧ SameBytes s t := by
  refine ⟨settle (s.setCluster c.val { s.cluster c.val with clampNow := (s.cluster c.val).clampNext, window := 0 }), rfl, ?_,
    fun x hx => cluster_setCluster_other s hx _, fun k _ hr => reg_settle hr _, fun _ => rfl⟩
  exact congrArg Cluster.clampNow (cluster_setCluster_same s c.val _)

/-! ## PWR_LIMIT (R361, R374) -/

section PowerLimit
variable {m : Master} {v : Word}

theorem exec_pwrLimit (h : s.admits m 0x005 = true) : exec (.pwrLimit m v) s =
    done (if s.locked 0x005 1 ∨ 65000 < bits v 16 0 then s.drop 0x005
      else s.setReg Reg.THERMAL_PWR_LIMIT (BitVec.ofNat 32 (bits v 16 0))) := by
  show execPwrLimit m v s = _
  rw [execPwrLimit, gate_admits s h]

theorem pwrLimit_taken (h : s.admits m 0x005 = true) (hv : ¬ (s.locked 0x005 1 = true ∨ 65000 < bits v 16 0)) :
    ∃ t, exec (.pwrLimit m v) s = .next t ∧ t.reg Reg.THERMAL_PWR_LIMIT = BitVec.ofNat 32 (bits v 16 0) ∧
      OnlyRegs [Reg.THERMAL_PWR_LIMIT] s t := by
  rw [exec_pwrLimit h, if_neg hv]
  exact done_setReg (by decide) _ s

theorem pwrLimit_dropped (h : s.admits m 0x005 = true) (hv : s.locked 0x005 1 = true ∨ 65000 < bits v 16 0) :
    ∃ t, exec (.pwrLimit m v) s = .next t ∧ t.reg (Reg.DROP_TALLY 0x005) = s.counted (Reg.DROP_TALLY 0x005) ∧
      OnlyRegs [Reg.DROP_TALLY 0x005] s t := by
  rw [exec_pwrLimit h, if_pos hv]
  exact done_drop 0x005 s

theorem pwrLimit_checked (h : s.admits m 0x005 = true) : ∃ t, exec (.pwrLimit m v) s = .next t ∧ SameBytes s t ∧ SameRest s t ∧
    (s.locked 0x005 1 = false ∧ bits v 16 0 ≤ 65000 → t.reg Reg.THERMAL_PWR_LIMIT = BitVec.ofNat 32 (bits v 16 0) ∧
      SameRegs [Reg.THERMAL_PWR_LIMIT] s t) ∧
    (s.locked 0x005 1 = true ∨ 65000 < bits v 16 0 → t.reg (Reg.DROP_TALLY 0x005) = s.counted (Reg.DROP_TALLY 0x005) ∧
      SameRegs [Reg.DROP_TALLY 0x005] s t) := by
  by_cases hv : s.locked 0x005 1 = true ∨ 65000 < bits v 16 0
  · obtain ⟨t, hexec, hcount, hregs, hbytes, hrest⟩ := pwrLimit_dropped h hv
    refine ⟨t, hexec, hbytes, hrest, fun ⟨hopen, hsmall⟩ => ?_, fun _ => ⟨hcount, hregs⟩⟩
    rw [hopen] at hv
    exact absurd hv (by simp only [Bool.false_eq_true, false_or]; omega)
  · obtain ⟨t, hexec, hset, hregs, hbytes, hrest⟩ := pwrLimit_taken h hv
    exact ⟨t, hexec, hbytes, hrest, fun _ => ⟨hset, hregs⟩, fun hdrop => absurd hdrop hv⟩

end PowerLimit

/-! ## Deep idle (R331, R332, R365) -/

theorem deepIdleEntry_checked (w : Bool) (s : State) : ∃ t, exec (.deepIdleEntry w) s = .next t ∧ SameRegs [] s t ∧ SameBytes s t ∧
    (w = true ∧ s.deepIdleOk = true → t.power.deepIdle = true ∧ t.icu.onFclk = false) ∧
    (w = false ∨ s.deepIdleOk = false → t.power = s.power ∧ SameRest s t) := by
  by_cases h : w = true ∧ s.deepIdleOk = true
  · refine ⟨_, (congrArg done (if_pos h) :), fun k _ hr => reg_settle hr _, fun _ => rfl, fun _ => ⟨rfl, rfl⟩, fun hno => ?_⟩
    rw [h.1, h.2] at hno
    simp at hno
  · exact ⟨_, (congrArg done (if_neg h) :), fun k _ hr => reg_settle hr _, fun _ => rfl, fun hok => absurd hok h, fun _ => ⟨rfl, rfl⟩⟩

/-- The edges of the deep idle, counted on both pages. -/
theorem count_edges_reg (s : State) (n : Nat) {i : Nat} (hi : i < 2) :
    ((s.count (Reg.ICU_EDGE_LATCHED 0) n).count (Reg.ICU_EDGE_LATCHED 1) n).reg (Reg.ICU_EDGE_LATCHED i) =
      BitVec.ofNat 32 (min ((s.reg (Reg.ICU_EDGE_LATCHED i)).toNat + n) 0xFFFFFFFF) := by
  match i, hi with
  | 0, _ => exact (reg_count_other _ (by decide) n).trans (reg_setReg_same _ _ _)
  | 1, _ =>
    refine (reg_setReg_same _ _ _).trans ?_
    rw [State.regN, reg_count_other s (by decide)]

theorem deepIdleWake_checked (s : State) : ∃ t, exec .deepIdleWake s = .next t ∧ SameBytes s t ∧
    SameRegs [Reg.ICU_EDGE_LATCHED 0, Reg.ICU_EDGE_LATCHED 1] s t ∧
    (s.power.deepIdle = true ∧ s.wakeEdge = true → t.power.deepIdle = false ∧ t.icu.uncounted = 0 ∧ ∀ i < 2, t.reg (Reg.ICU_EDGE_LATCHED i) =
      BitVec.ofNat 32 (min ((s.reg (Reg.ICU_EDGE_LATCHED i)).toNat + s.icu.uncounted) 0xFFFFFFFF)) ∧
    (s.power.deepIdle = false ∨ s.wakeEdge = false → SameRegs [] s t ∧ SameRest s t) := by
  by_cases h : s.power.deepIdle = true ∧ s.wakeEdge = true
  · refine ⟨_, (congrArg done (if_pos h) :), fun _ => rfl, fun k hk hr => ?_, fun _ => ⟨rfl, rfl, fun i hi => ?_⟩, fun hno => ?_⟩
    · simp only [List.mem_cons, List.not_mem_nil, or_false, not_or] at hk
      exact (reg_settle hr _).trans ((reg_count_other _ hk.2 _).trans (reg_count_other _ hk.1 _))
    · have hr : Reg.ICU_EDGE_LATCHED i ∉ riseTallies := by revert i; decide
      exact (reg_settle hr _).trans (count_edges_reg _ _ hi)
    · rw [h.1, h.2] at hno
      simp at hno
  · exact ⟨_, (congrArg done (if_neg h) :), fun _ => rfl, fun k _ hr => reg_settle hr _, fun hok => absurd hok h,
      fun _ => ⟨fun k _ hr => reg_settle hr _, rfl⟩⟩

end Monitors

/-- Settles O43: a sample's readings, clamp levels, alarm and trip are those of `sampleDone`, and each of the other commands has two
cases. -/
theorem thermalSamplesClampAlarmAndTrip : Obligations.ThermalSamplesClampAlarmAndTrip := by
  unfold Obligations.ThermalSamplesClampAlarmAndTrip
  refine ⟨fun temps mw s => ⟨sampleDone s temps mw, exec_thermalSample temps mw s, fun w hw => sampleDone_temp s temps mw hw,
    sampleDone_est s temps mw, fun c hc x hx => ?_, sampleDone_alarm s temps mw, sampleDone_alarm_rise s temps mw, fun hhot hnot => ?_,
    fun hcold => ?_⟩, clampWindowStart_takes, fun m v s h => pwrLimit_checked h, deepIdleEntry_checked, deepIdleWake_checked⟩
  · subst hx
    exact Prod.mk.inj (sampleDone_clampOf s temps mw hc)
  · exact sampleDone_trips s temps mw ((hot_iff temps _).mpr hhot) hnot
  · refine sampleDone_cold s temps mw (Bool.eq_false_iff.mpr fun hhot => ?_)
    obtain ⟨n, hn, hle⟩ := (hot_iff temps _).mp hhot
    exact absurd hle (not_le.mpr (hcold n hn))

end Sys2Proof.Laws
end

section
/-!
SUPPORT. Effective lengths and the engines of a mask (R95, R103, R108), and MATMUL's work (R105, R109, R110): what taking a length leaves
alone, and what each engine of the mask has to do.
-/
namespace Sys2Proof.Laws
open Sys2Proof.Machine

/-! ## Effective lengths (R108) -/

section Lengths
variable {s t u : State}

/-- Registers of the list and the ledger's flags are all that differs. -/
structure LengthFrame (ks : List Nat) (s t : State) : Prop where
  rest : { t with regs := s.regs, ledger := s.ledger } = s
  reg : ∀ k, k ∉ ks → t.reg k = s.reg k

/-- The registers that a clipped length sets. -/
def lengthRegs (c : Nat) : List Nat := [Reg.CLUSTER_LEN_CLIPPED c, Reg.EVT_RAW (pageCluster c), Reg.CLUSTER_CLIP_INFO c]

namespace LengthFrame
variable {ks : List Nat}

theorem refl (ks : List Nat) (s : State) : LengthFrame ks s s := ⟨rfl, fun _ _ => rfl⟩

theorem trans (h : LengthFrame ks s t) (h' : LengthFrame ks t u) : LengthFrame ks s u where
  rest := by
    have hall := congrArg (fun a : State => { a with regs := s.regs, ledger := s.ledger }) h'.rest
    exact hall.trans h.rest
  reg k hk := (h'.reg k hk).trans (h.reg k hk)

theorem setReg (h : LengthFrame ks s t) {k : Nat} (hk : k ∈ ks) (v : Word) : LengthFrame ks s (t.setReg k v) where
  rest := h.rest
  reg k' hk' := (reg_setReg_other t (ne_of_mem_of_not_mem hk hk').symm v).trans (h.reg k' hk')

theorem tally (h : LengthFrame ks s t) {k : Nat} (hk : k ∈ ks) : LengthFrame ks s (t.tally k) := h.setReg hk _

theorem event (h : LengthFrame ks s t) {p : Nat} (hk : Reg.EVT_RAW p ∈ ks) (w : Word) : LengthFrame ks s (t.event p w) := h.setReg hk _

theorem clip (h : LengthFrame ks s t) (st : Nat) (w : Word) : LengthFrame ks s (t.clip st w) := ⟨h.rest, h.reg⟩

theorem engines (h : LengthFrame ks s t) : t.engines = s.engines := by
  have hall := congrArg State.engines h.rest
  exact hall

theorem clusters (h : LengthFrame ks s t) : t.clusters = s.clusters := by
  have hall := congrArg State.clusters h.rest
  exact hall

theorem stalls (h : LengthFrame ks s t) : t.stalls = s.stalls := by
  have hall := congrArg State.stalls h.rest
  exact hall

theorem cluster (h : LengthFrame ks s t) (c : Nat) : t.cluster c = s.cluster c := by rw [State.cluster, State.cluster, h.clusters]

theorem len (h : LengthFrame ks s t) (c j r : Nat) : t.len c j r = s.len c j r := by rw [State.len, State.len, h.cluster]

/-- A program's accesses see no difference where the registers of the list lie on the clusters' pages. -/
theorem program (h : LengthFrame ks s t) (hks : ∀ k ∈ ks, ¬ OutsideClusters k) : SameProgram s t where
  mem := by
    have hall := congrArg State.mem h.rest
    exact hall
  drams := by
    have hall := congrArg State.drams h.rest
    exact hall
  upsets := by
    have hall := congrArg State.upsets h.rest
    exact hall
  power := by
    have hall := congrArg State.power h.rest
    exact hall
  sec := by
    have hall := congrArg State.sec h.rest
    exact hall
  loader := by
    have hall := congrArg State.loader h.rest
    exact hall
  pools := by
    have hall := congrArg State.pools h.rest
    exact hall
  reg k hk := h.reg k fun hm => hks k hm hk

theorem started {c : Fin 8} {pc : Nat} {ks : List Nat} (h : LengthFrame ks t u) (hpc : Reg.CLUSTER_SEQ_PC c.val ∉ ks)
    (hs : s.Started t c pc) : s.Started u c pc :=
  ⟨(congrArg Cluster.started (h.cluster c.val)).trans hs.1, (h.reg _ hpc).trans hs.2⟩

end LengthFrame

theorem effLen_frame (s : State) (x : Issue) (en : Bool) (r mx dim : Nat) : LengthFrame (lengthRegs x.c.val) s (s.effLen x en r mx dim).1 := by
  unfold State.effLen
  split
  · dsimp only
    split
    · exact ((((LengthFrame.refl _ s).tally (by simp [lengthRegs])).event (by simp [lengthRegs]) 2).setReg (by simp [lengthRegs]) _).clip _ _
    · exact LengthFrame.refl _ s
  · exact LengthFrame.refl _ s

theorem effLen_length (s : State) (x : Issue) (en : Bool) (r mx dim : Nat) :
    (s.effLen x en r mx dim).2 = if en = true then min (s.len x.c.val x.job r).toNat mx else mx := by
  unfold State.effLen
  split
  · dsimp only
    split
    · next hlt => exact (min_eq_right hlt.le).symm
    · next hge => exact (min_eq_left (not_lt.mp hge)).symm
  · rfl

/-- No register that a clipped length sets is another of the cluster's page. -/
theorem not_mem_lengthRegs {c o : Nat} (h : o ∉ [0xE00, 0x010, 0x110]) : rkey (0x100 + 16 * c) o ∉ lengthRegs c := by
  intro hm
  simp only [lengthRegs, List.mem_cons, List.not_mem_nil, or_false, Reg.CLUSTER_LEN_CLIPPED, Reg.EVT_RAW, Reg.CLUSTER_CLIP_INFO, pageCluster,
    rkey, Nat.add_left_cancel_iff] at hm
  simp only [List.mem_cons, List.not_mem_nil, or_false] at h
  exact h hm

end Lengths

/-! ## The engines of a mask (R95, R103) -/

section Engines
variable {s t : State} {c : Nat}

theorem logicalEngine_spec {l e : Nat} (h : s.logicalEngine c l = some e) :
    e ∈ clusterEngines c ∧ bits (s.reg (Reg.MX_MAP e)) 10 8 = l := by
  have hfound := List.find?_some h
  rw [Bool.and_eq_true, beq_iff_eq] at hfound
  exact ⟨List.mem_of_find?_eq_some h, hfound.2⟩

theorem maskEngines_nodup (s : State) (c m : Nat) : (s.maskEngines c m).Nodup := by
  refine (maskChannels_nodup m).filterMap fun l l' e he he' => ?_
  exact (logicalEngine_spec he).2.symm.trans (logicalEngine_spec he').2

theorem maskEngines_congr (hsvc : t.svc = s.svc) (hmap : ∀ e, t.reg (Reg.MX_MAP e) = s.reg (Reg.MX_MAP e)) (m : Nat) :
    t.maskEngines c m = s.maskEngines c m := by
  have hlogical : t.logicalEngine c = s.logicalEngine c := by
    funext l
    simp only [State.logicalEngine, hsvc, hmap]
  rw [State.maskEngines, State.maskEngines, hlogical]

theorem markStarted_maskEngines (s : State) (x : Issue) (pc m : Nat) : (s.markStarted x pc).maskEngines c m = s.maskEngines c m := by
  refine maskEngines_congr (s := s) (t := s.markStarted x pc) rfl (fun e => markStarted_reg s x pc ?_) m
  simp only [sequencerRegs, List.mem_cons, List.not_mem_nil, or_false, not_or]
  exact ⟨(sequencerReg_ne_engine (by decide) (by decide)).symm, (sequencerReg_ne_engine (by decide) (by decide)).symm⟩

end Engines

/-! ## Steps over the engines of a mask -/

section Steps
variable {σ β ι κ : Type} {P : σ → Prop} {f : σ → ι → σ} {g : σ → β} {key : ι → κ} {n : ι}

/-- What no step of a list changes, its fold leaves. -/
theorem foldl_unchanged (hP : ∀ a x, P a → P (f a x)) {l : List ι} (h : ∀ x ∈ l, ∀ a, P a → g (f a x) = g a) {s : σ} (hs : P s) :
    g (l.foldl f s) = g s := by
  induction l generalizing s with
  | nil => rfl
  | cons x r ih => exact (ih (fun y hy => h y (List.mem_cons_of_mem _ hy)) (hP s x hs)).trans (h x List.mem_cons_self s hs)

/-- What only the step with index n's key changes, a fold over indices with distinct keys changes as that step does. -/
theorem foldl_at_key (hP : ∀ a x, P a → P (f a x)) {l : List ι} (hother : ∀ x ∈ l, key x ≠ key n → ∀ a, P a → g (f a x) = g a)
    (hl : (l.map key).Nodup) (hn : n ∈ l) {s : σ} (hs : P s) : ∃ a, P a ∧ g a = g s ∧ g (l.foldl f s) = g (f a n) := by
  induction l generalizing s with
  | nil => cases hn
  | cons x r ih =>
    rw [List.map_cons] at hl
    obtain ⟨hxr, hr⟩ := List.nodup_cons.mp hl
    have hrest {y : ι} (hy : y ∈ r) : key y ≠ key x := fun he => hxr (he ▸ List.mem_map_of_mem hy)
    rcases List.mem_cons.mp hn with rfl | hn
    · exact ⟨s, hs, rfl, foldl_unchanged hP (fun y hy => hother y (List.mem_cons_of_mem _ hy) (hrest hy)) (hP s n hs)⟩
    · obtain ⟨a, ha, hga, hfold⟩ := ih (fun y hy => hother y (List.mem_cons_of_mem _ hy)) hr hn (hP s x hs)
      exact ⟨a, ha, hga.trans (hother x List.mem_cons_self (hrest hn).symm s hs), hfold⟩

/-- The step of one engine of a list, where no other engine's step changes what it sets. -/
theorem foldl_zipIdx_at {f : σ → Nat × Nat → σ} {e i : Nat} {v : β} (hother : ∀ a x, x.1 ≠ e → g (f a x) = g a)
    (hset : ∀ a, g (f a (e, i)) = v) {es : List Nat} (hes : es.Nodup) (hi : es[i]? = some e) (s : σ) : g (es.zipIdx.foldl f s) = v := by
  obtain ⟨a, -, -, hfold⟩ := foldl_at_key (P := fun _ : σ => True) (key := Prod.fst) (g := g) (n := (e, i)) (l := es.zipIdx) (s := s)
    (fun _ _ _ => trivial) (fun x _ hx a _ => hother a x hx) (by rwa [List.zipIdx_map_fst]) (List.mk_mem_zipIdx_iff_getElem?.mpr hi) trivial
  exact hfold.trans (hset a)

end Steps

/-! ## MATMUL (R105, R109, R110) -/

section Plans
variable {q : Mm} {x : Issue} {e i m n k : Nat} {t : Tile}

/-- A tile that is not skipped adds one pass, and drains only. -/
theorem walkTile_work (h : q.skipped e i m n k t = false) (a : WalkAcc) :
    ∃ p d, (q.walkTile x e i m n k a t).work = a.work ++ .pass p :: d ∧ d.filter EngWork.isPass = [] := by
  unfold Mm.walkTile
  rw [h, if_neg (by decide)]
  refine ⟨_, _, rfl, ?_⟩
  split <;> rfl

theorem walkTile_passes (a : WalkAcc) (t : Tile) : ((q.walkTile x e i m n k a t).work.filter EngWork.isPass).length =
    (a.work.filter EngWork.isPass).length + ([t].filter (fun w => !q.skipped e i m n k w)).length := by
  cases hskip : q.skipped e i m n k t with
  | true =>
    have hsame : (q.walkTile x e i m n k a t).work = a.work := by
      unfold Mm.walkTile
      rw [hskip, if_pos rfl]
    simp [hsame, hskip]
  | false =>
    obtain ⟨p, d, hwork, hdrains⟩ := walkTile_work (x := x) hskip a
    have hpass : (EngWork.pass p).isPass = true := rfl
    simp [hwork, hdrains, hskip, hpass]

theorem walk_passes (l : List Tile) (a : WalkAcc) : ((l.foldl (q.walkTile x e i m n k) a).work.filter EngWork.isPass).length =
    (a.work.filter EngWork.isPass).length + (l.filter (fun w => !q.skipped e i m n k w)).length := by
  induction l generalizing a with
  | nil => rfl
  | cons t r ih =>
    rw [List.foldl_cons, ih, walkTile_passes, Nat.add_assoc, ← List.length_append, ← List.filter_append, List.singleton_append]

theorem plan_passes : ((q.plan x e i m n k).work.filter EngWork.isPass).length =
    ((q.walk e).filter (fun w => !q.skipped e i m n k w)).length :=
  (walk_passes (q.walk e) {}).trans (Nat.zero_add _)

/-- With K of 0 only drains remain (R109). -/
theorem emptyPlan_drains {w : EngWork} (h : w ∈ q.emptyPlan x e i m n) : w.isPass = false := by
  obtain ⟨t, -, ht⟩ := List.mem_filterMap.mp h
  dsimp only at ht
  split_ifs at ht
  rw [← Option.some.inj ht]
  rfl

end Plans

section Matmul
variable {s t : State} {c : Fin 8} {pc : BitVec 23} {x : Issue} {es : List Nat} {q : Mm} {m n k : Nat}

/-- Every engine of the list has the drains of an empty sum (R109). -/
def drainsPlanned (t : State) (q : Mm) (x : Issue) (es : List Nat) (m n : Nat) : State :=
  es.zipIdx.foldl (fun (a : State) e => a.setEngine e.1 { a.engine e.1 with work := q.emptyPlan x es.length e.2 m n, instr := x.ws }) t

/-- Every engine of the list has the work of its walk (R105, R110). -/
def workPlanned (t : State) (c : Nat) (q : Mm) (x : Issue) (es : List Nat) (m n k : Nat) : State :=
  es.zipIdx.foldl (fun (a : State) e =>
    (a.setEngine e.1 { a.engine e.1 with work := (q.plan x es.length e.2 m n k).work, instr := x.ws }).count (Reg.CLUSTER_TILE_SKIP c)
      (q.plan x es.length e.2 m n k).skips) t

theorem drainsPlanned_work (t : State) (hes : es.Nodup) {e i : Nat} (hi : es[i]? = some e) :
    ((drainsPlanned t q x es m n).engine e).work = q.emptyPlan x es.length i m n := by
  refine foldl_zipIdx_at (g := fun a : State => (a.engine e).work) (fun a y hy => ?_) (fun a => ?_) hes hi t
  · exact congrArg Engine.work (engine_setEngine_other a (Ne.symm hy) _)
  · exact congrArg Engine.work (engine_setEngine_same a e _)

theorem workPlanned_work (t : State) (c : Nat) (hes : es.Nodup) {e i : Nat} (hi : es[i]? = some e) :
    ((workPlanned t c q x es m n k).engine e).work = (q.plan x es.length i m n k).work := by
  refine foldl_zipIdx_at (g := fun a : State => (a.engine e).work) (fun a y hy => ?_) (fun a => ?_) hes hi t
  · exact congrArg Engine.work (engine_setEngine_other a (Ne.symm hy) _)
  · exact congrArg Engine.work (engine_setEngine_same a e _)

/-- What a MATMUL keeps from its start on: the sequencer's record, every byte, and the count of empty shapes. -/
structure MatmulFrame (c : Fin 8) (pc : Nat) (s t : State) : Prop where
  started : s.Started t c pc
  mem : t.mem = s.mem
  drams : t.drams = s.drams
  zero : t.reg (Reg.CLUSTER_ZERO_SHAPE c.val) = s.reg (Reg.CLUSTER_ZERO_SHAPE c.val)

theorem MatmulFrame.setEngine {pc : Nat} (h : MatmulFrame c pc s t) (e : Nat) (v : Engine) : MatmulFrame c pc s (t.setEngine e v) :=
  ⟨h.started, h.mem, h.drams, h.zero⟩

theorem MatmulFrame.countSkips {pc : Nat} (h : MatmulFrame c pc s t) (v : Nat) :
    MatmulFrame c pc s (t.count (Reg.CLUSTER_TILE_SKIP c.val) v) where
  started := ⟨h.started.1, (reg_count_other t (header_ne (by decide)) v).trans h.started.2⟩
  mem := h.mem
  drams := h.drams
  zero := (reg_count_other t (header_ne (by decide)) v).trans h.zero

theorem drainsPlanned_frame {pc : Nat} (h : MatmulFrame c pc s t) : MatmulFrame c pc s (drainsPlanned t q x es m n) := by
  unfold drainsPlanned
  exact foldl_keeps (P := MatmulFrame c pc s) (fun a y ha => ha.setEngine y.1 _) _ h

theorem workPlanned_frame {pc : Nat} (h : MatmulFrame c pc s t) : MatmulFrame c pc s (workPlanned t c.val q x es m n k) := by
  unfold workPlanned
  exact foldl_keeps (P := MatmulFrame c pc s) (fun a y ha => (ha.setEngine y.1 _).countSkips _) _ h

/-- The three lengths of a MATMUL (R108): the state that has taken them, and their values. -/
def matmulLengths (s : State) (x : Issue) (q : Mm) : State × Nat × Nat × Nat :=
  let r1 := s.effLen x (bit (x.w 3) 16) (bits (x.w 3) 7 4) q.mMax 0
  let r2 := r1.1.effLen x (bit (x.w 3) 17) (bits (x.w 3) 11 8) q.nMax 1
  let r3 := r2.1.effLen x (bit (x.w 3) 18) (bits (x.w 3) 15 12) q.kMax 2
  (r3.1, r1.2, r2.2, r3.2)

theorem matmulLengths_frame (s : State) (x : Issue) (q : Mm) : LengthFrame (lengthRegs x.c.val) s (matmulLengths s x q).1 :=
  ((effLen_frame s x _ _ _ _).trans (effLen_frame _ x _ _ _ _)).trans (effLen_frame _ x _ _ _ _)

theorem matmulLengths_values (s : State) (x : Issue) (q : Mm) : (matmulLengths s x q).2 =
    (if bit (x.w 3) 16 then min (s.len x.c.val x.job (bits (x.w 3) 7 4)).toNat q.mMax else q.mMax,
      if bit (x.w 3) 17 then min (s.len x.c.val x.job (bits (x.w 3) 11 8)).toNat q.nMax else q.nMax,
      if bit (x.w 3) 18 then min (s.len x.c.val x.job (bits (x.w 3) 15 12)).toNat q.kMax else q.kMax) := by
  have h1 := effLen_frame s x (bit (x.w 3) 16) (bits (x.w 3) 7 4) q.mMax 0
  have h2 := h1.trans (effLen_frame _ x (bit (x.w 3) 17) (bits (x.w 3) 11 8) q.nMax 1)
  simp only [matmulLengths, effLen_length, h1.len, h2.len]

/-- A MATMUL that has started, before its lengths. -/
def matmulBegun (s : State) (x : Issue) (pc : Nat) : State :=
  (s.markStarted x pc).setCluster x.c.val { (s.markStarted x pc).cluster x.c.val with matWord := x.w 15 }

theorem matmulBegun_len (s : State) (x : Issue) (pc j r : Nat) : (matmulBegun s x pc).len x.c.val j r = s.len x.c.val j r := by
  rw [← markStarted_len s x pc, State.len, matmulBegun, cluster_setCluster_same]
  rfl

theorem matmulBegun_frame (s : State) (x : Issue) (pc : Nat) : MatmulFrame x.c pc s (matmulBegun s x pc) := by
  have hstarted := markStarted_started s x pc
  have hzero : (s.markStarted x pc).reg (Reg.CLUSTER_ZERO_SHAPE x.c.val) = s.reg (Reg.CLUSTER_ZERO_SHAPE x.c.val) := by
    refine markStarted_reg s x pc ?_
    simp only [sequencerRegs, List.mem_cons, List.not_mem_nil, or_false, not_or]
    exact ⟨header_ne (by decide), header_ne (by decide)⟩
  exact ⟨⟨(congrArg Cluster.started (cluster_setCluster_same _ _ _)).trans hstarted.1, hstarted.2⟩, rfl, rfl, hzero⟩

/-- Counting an empty shape is all that the end of a MATMUL without passes adds. -/
theorem MatmulFrame.zeroShape {pc : Nat} (h : MatmulFrame c pc s t) :
    s.Started (settle (t.tally (Reg.CLUSTER_ZERO_SHAPE c.val))) c pc ∧ SameBytes s (settle (t.tally (Reg.CLUSTER_ZERO_SHAPE c.val))) ∧
      (settle (t.tally (Reg.CLUSTER_ZERO_SHAPE c.val))).reg (Reg.CLUSTER_ZERO_SHAPE c.val) = s.counted (Reg.CLUSTER_ZERO_SHAPE c.val) := by
  refine ⟨started_settle (started_tally h.started (header_ne (by decide))), sameBytes_of_mem_drams h.mem h.drams, ?_⟩
  rw [Reg.CLUSTER_ZERO_SHAPE, seqReg_settle _ (by decide), reg_tally_same]
  exact congrArg (fun w : Word => BitVec.ofNat 32 (min (w.toNat + 1) 0xFFFFFFFF)) h.zero

/-- The state in which a MATMUL's work is laid out. -/
def matmulReady (s : State) (x : Issue) (pc : Nat) (q : Mm) : State := (matmulLengths (matmulBegun s x pc) x q).1

theorem matmulReady_frame (s : State) (x : Issue) (pc : Nat) (q : Mm) :
    MatmulFrame x.c pc s (matmulReady s x pc q) ∧ (matmulReady s x pc q).engines = s.engines := by
  have hbegun := matmulBegun_frame s x pc
  have hlen := matmulLengths_frame (matmulBegun s x pc) x q
  have hkeep : SameProgram (matmulBegun s x pc) ((matmulLengths (matmulBegun s x pc) x q).1) := by
    refine hlen.program fun k hk => ?_
    simp only [lengthRegs, List.mem_cons, List.not_mem_nil, or_false] at hk
    rcases hk with rfl | rfl | rfl <;> exact sequencerReg_not_outside x.c (by decide)
  exact ⟨⟨hlen.started (not_mem_lengthRegs (by decide)) hbegun.started, hkeep.mem.trans hbegun.mem, hkeep.drams.trans hbegun.drams,
    (hlen.reg _ (not_mem_lengthRegs (by decide))).trans hbegun.zero⟩, hlen.engines⟩

/-- The work of a MATMUL with its lengths taken. -/
def matmulPlanned (r : State × Nat × Nat × Nat) (q : Mm) (x : Issue) (es : List Nat) : State :=
  if r.2.1 = 0 ∨ r.2.2.1 = 0 then r.1.tally (Reg.CLUSTER_ZERO_SHAPE x.c.val)
  else if r.2.2.2 = 0 then (drainsPlanned r.1 q x es r.2.1 r.2.2.1).tally (Reg.CLUSTER_ZERO_SHAPE x.c.val)
  else workPlanned r.1 x.c.val q x es r.2.1 r.2.2.1 r.2.2.2

/-- The outcomes of a MATMUL whose tables are loaded. -/
theorem exec_matmul (h : s.Runs x.c pc.toNat 0x01 x) (hes : es = s.maskEngines x.c.val (bits (x.w 1) 7 0))
    (htags : ∀ e ∈ es, (bits (x.w 1) 19 16 = 10 ∨ bits (x.w 1) 19 16 = 11 → tagOk (s.engine e).aTable (bits (x.w 2) 23 16) = true) ∧
      (bits (x.w 1) 23 20 = 10 ∨ bits (x.w 1) 23 20 = 11 → tagOk (s.engine e).bTable (bits (x.w 2) 31 24) = true))
    (hq : q = mmOf x (operandFmt (bits (x.w 1) 19 16) (s.engine (es.headD 0)).aTable)
      (operandFmt (bits (x.w 1) 23 20) (s.engine (es.headD 0)).bTable))
    (hm : m = (if bit (x.w 3) 16 then min (s.len x.c.val x.job (bits (x.w 3) 7 4)).toNat q.mMax else q.mMax))
    (hn : n = (if bit (x.w 3) 17 then min (s.len x.c.val x.job (bits (x.w 3) 11 8)).toNat q.nMax else q.nMax))
    (hk : k = (if bit (x.w 3) 18 then min (s.len x.c.val x.job (bits (x.w 3) 15 12)).toNat q.kMax else q.kMax)) :
    exec (.matmul x.c pc) s = done (
      if m = 0 ∨ n = 0 then (matmulReady s x pc.toNat q).tally (Reg.CLUSTER_ZERO_SHAPE x.c.val)
      else if k = 0 then (drainsPlanned (matmulReady s x pc.toNat q) q x es m n).tally (Reg.CLUSTER_ZERO_SHAPE x.c.val)
      else workPlanned (matmulReady s x pc.toNat q) x.c.val q x es m n k) := by
  have hengine (e : Nat) : (s.markStarted x pc.toNat).engine e = s.engine e := rfl
  have hno (p : Bool) (f : Nat → Bool) (hp : ∀ e ∈ es, p = true → f e = true) : (p && es.any fun e => !f e) = false := by
    rw [Bool.and_eq_false_iff, or_iff_not_imp_left, Bool.not_eq_false, List.any_eq_false]
    exact fun hfmt e he => by simp [hp e he hfmt]
  have hmiss := hno (decide (bits (x.w 1) 19 16 = 10) || decide (bits (x.w 1) 19 16 = 11))
    (fun e => tagOk (s.engine e).aTable (bits (x.w 2) 23 16)) fun e he hfmt => (htags e he).1 (by simpa using hfmt)
  have hmissB := hno (decide (bits (x.w 1) 23 20 = 10) || decide (bits (x.w 1) 23 20 = 11))
    (fun e => tagOk (s.engine e).bTable (bits (x.w 2) 31 24)) fun e he hfmt => (htags e he).2 (by simpa using hfmt)
  have hvalues := matmulLengths_values (matmulBegun s x pc.toNat) x q
  simp only [matmulBegun_len, ← hm, ← hn, ← hk] at hvalues
  show execMatmul x.c pc s = _
  rw [execMatmul, issue_runs h]
  dsimp only
  rw [markStarted_maskEngines, ← hes]
  simp only [hengine, hmiss, hmissB, Bool.or_self, Bool.false_eq_true, if_false]
  rw [← hq]
  show done (matmulPlanned (matmulLengths (matmulBegun s x pc.toNat) x q) q x es) = _
  rw [matmulPlanned, hvalues]
  rfl

/-- What a MATMUL with its tables loaded leaves: the count of empty shapes, the drains of an empty sum, or the work of every walk. -/
theorem matmul_plans (h : s.Runs x.c pc.toNat 0x01 x) (hes : es = s.maskEngines x.c.val (bits (x.w 1) 7 0))
    (htags : ∀ e ∈ es, (bits (x.w 1) 19 16 = 10 ∨ bits (x.w 1) 19 16 = 11 → tagOk (s.engine e).aTable (bits (x.w 2) 23 16) = true) ∧
      (bits (x.w 1) 23 20 = 10 ∨ bits (x.w 1) 23 20 = 11 → tagOk (s.engine e).bTable (bits (x.w 2) 31 24) = true))
    (hq : q = mmOf x (operandFmt (bits (x.w 1) 19 16) (s.engine (es.headD 0)).aTable)
      (operandFmt (bits (x.w 1) 23 20) (s.engine (es.headD 0)).bTable))
    (hm : m = (if bit (x.w 3) 16 then min (s.len x.c.val x.job (bits (x.w 3) 7 4)).toNat q.mMax else q.mMax))
    (hn : n = (if bit (x.w 3) 17 then min (s.len x.c.val x.job (bits (x.w 3) 11 8)).toNat q.nMax else q.nMax))
    (hk : k = (if bit (x.w 3) 18 then min (s.len x.c.val x.job (bits (x.w 3) 15 12)).toNat q.kMax else q.kMax)) :
    ∃ t, exec (.matmul x.c pc) s = .next t ∧ s.Started t x.c pc.toNat ∧ SameBytes s t ∧
      (m = 0 ∨ n = 0 → t.engines = s.engines ∧
        t.reg (Reg.CLUSTER_ZERO_SHAPE x.c.val) = s.counted (Reg.CLUSTER_ZERO_SHAPE x.c.val)) ∧
      (m ≠ 0 → n ≠ 0 → k = 0 → (∀ e ∈ es, ∀ w ∈ (t.engine e).work, w.isPass = false) ∧
        t.reg (Reg.CLUSTER_ZERO_SHAPE x.c.val) = s.counted (Reg.CLUSTER_ZERO_SHAPE x.c.val)) ∧
      (m ≠ 0 → n ≠ 0 → k ≠ 0 → ∀ e i, es[i]? = some e →
        (t.engine e).work = (q.plan x es.length i m n k).work ∧
        ((t.engine e).work.filter EngWork.isPass).length =
          ((q.walk es.length).filter (fun w => !q.skipped es.length i m n k w)).length) := by
  have hnodup : es.Nodup := hes ▸ maskEngines_nodup s x.c.val _
  obtain ⟨hready, hengines⟩ := matmulReady_frame s x pc.toNat q
  rw [exec_matmul h hes htags hq hm hn hk]
  clear htags hq hm hn hk
  generalize matmulReady s x pc.toNat q = u at hready hengines
  by_cases hshape : m = 0 ∨ n = 0
  · rw [if_pos hshape]
    obtain ⟨hstarted, hbytes, hzero⟩ := hready.zeroShape
    exact ⟨_, rfl, hstarted, hbytes, fun _ => ⟨hengines, hzero⟩, fun hm hn => absurd hshape (by simp [hm, hn]),
      fun hm hn => absurd hshape (by simp [hm, hn])⟩
  rw [if_neg hshape]
  by_cases hsum : k = 0
  · rw [if_pos hsum]
    have hwork {e i : Nat} (hi : es[i]? = some e) := drainsPlanned_work (q := q) (x := x) (m := m) (n := n) u hnodup hi
    obtain ⟨hstarted, hbytes, hzero⟩ := (drainsPlanned_frame (q := q) (x := x) (es := es) (m := m) (n := n) hready).zeroShape
    generalize drainsPlanned u q x es m n = v at hwork hstarted hbytes hzero
    refine ⟨_, rfl, hstarted, hbytes, fun hs => absurd hs hshape, fun _ _ _ => ⟨fun e he w hw => ?_, hzero⟩, fun _ _ hk => absurd hsum hk⟩
    obtain ⟨i, hi⟩ := List.mem_iff_getElem?.mp he
    have hv : w ∈ (v.engine e).work := hw
    rw [hwork hi] at hv
    exact emptyPlan_drains hv
  · rw [if_neg hsum]
    have hwork {e i : Nat} (hi : es[i]? = some e) := workPlanned_work (q := q) (x := x) (m := m) (n := n) (k := k) u x.c.val hnodup hi
    have hframe := workPlanned_frame (q := q) (x := x) (es := es) (m := m) (n := n) (k := k) hready
    generalize workPlanned u x.c.val q x es m n k = v at hwork hframe
    refine ⟨settle v, rfl, started_settle hframe.started, sameBytes_of_mem_drams hframe.mem hframe.drams, fun hs => absurd hs hshape,
      fun _ _ hk => absurd hk hsum, fun _ _ _ e i hi => ⟨hwork hi, ?_⟩⟩
    show ((v.engine e).work.filter EngWork.isPass).length = _
    rw [hwork hi, plan_passes]

end Matmul

end Sys2Proof.Laws
end

section
/-!
SUPPORT. Lists of a job's writes (R275, R279), and block drains (R86, R106): what the writes leave at their ranges and elsewhere, and that a
drain writes the accumulators of its columns.
-/
namespace Sys2Proof.Laws
open Sys2Proof.Machine

/-! ## Writes do not change what is served -/

section Writes
variable {s t u : State}

/-- Bytes do not decide what is refused. -/
theorem refusesAccess_withMem (s : State) (m : Tbl Byte) (p : Ptr) (n : Nat) :
    (State.refusesAccess { s with mem := m } p n).isNone = (s.refusesAccess p n).isNone := by
  have htouched : State.touched { s with mem := m } p n = s.touched p n := rfl
  have hserves : State.chanServes { s with mem := m } = s.chanServes := rfl
  have hdom : State.domOn { s with mem := m } = s.domOn := rfl
  unfold State.refusesAccess
  rw [htouched, hserves, hdom]
  cases p.store with
  | dram =>
    dsimp only
    split
    · rfl
    · split <;> rfl
  | secure =>
    dsimp only
    split_ifs <;> rfl
  | _ =>
    dsimp only
    split_ifs <;> rfl

/-- Of what a program's accesses depend on only bytes differ. -/
def BytesOnly (s t : State) : Prop := SameProgram { s with mem := t.mem } t

theorem SameProgram.bytesOnly (h : SameProgram s t) : BytesOnly s t :=
  ⟨rfl, h.drams, h.upsets, h.power, h.sec, h.loader, h.pools, h.reg⟩

theorem SameProgram.shows (h : SameProgram s t) (p : Ptr) (n : Nat) : t.shows p n = s.shows p n := by
  rw [State.shows, State.shows, h.relocated, h.peeks]

namespace BytesOnly

theorem refl (s : State) : BytesOnly s s := ⟨rfl, rfl, rfl, rfl, rfl, rfl, rfl, fun _ _ => rfl⟩

theorem trans (h : BytesOnly s t) (h' : BytesOnly t u) : BytesOnly s u :=
  ⟨rfl, h'.drams.trans h.drams, h'.upsets.trans h.upsets, h'.power.trans h.power, h'.sec.trans h.sec, h'.loader.trans h.loader,
    h'.pools.trans h.pools, fun k hk => (h'.reg k hk).trans (h.reg k hk)⟩

theorem pokes (s : State) (p : Ptr) (d : List Byte) : BytesOnly s (s.pokes p d) := ⟨rfl, rfl, rfl, rfl, rfl, rfl, rfl, fun _ _ => rfl⟩

theorem served (h : BytesOnly s t) {p : Ptr} {n : Nat} (hs : s.refusesAccess p n = none) : t.refusesAccess p n = none := by
  refine SameProgram.refusesAccess_eq_none h ?_
  have hnone := refusesAccess_withMem s t.mem p n
  rwa [hs, Option.isNone_none, Option.isNone_iff_eq_none] at hnone

theorem atRest (h : BytesOnly s t) (hs : s.AtRest) : t.AtRest := SameProgram.atRest h hs

theorem relocated (h : BytesOnly s t) (p : Ptr) : t.relocate t.unitOdd p = s.relocate s.unitOdd p := SameProgram.relocated h p

theorem flat (h : BytesOnly s t) (p : Ptr) : t.flat p = s.flat p := (SameProgram.sameMemory h).flat p

theorem canRead (h : BytesOnly s t) {rs : List (Ptr × Nat)} (hs : s.CanRead rs) : t.CanRead rs := fun r hr => by
  rw [h.relocated]
  exact h.served (hs r hr)

theorem canWrite (h : BytesOnly s t) {rs : List (Ptr × Nat)} (hs : s.CanWrite rs) : t.CanWrite rs := fun r hr => by
  rw [h.relocated]
  exact ⟨h.served (hs r hr).1, (hs r hr).2⟩

/-- What is the same outside some ranges after a first and a second change is so after both. -/
theorem sameOutside (h : BytesOnly s t) {rs rs' : List (Ptr × Nat)} (h1 : s.SameOutside t rs) (h2 : t.SameOutside u rs') :
    s.SameOutside u (rs ++ rs') := fun k hk => by
  refine (h2 k fun r hr i hi => ?_).trans (h1 k fun r hr => hk r (List.mem_append_left _ hr))
  rw [h.relocated, h.flat]
  exact hk r (List.mem_append_right _ hr) i hi

end BytesOnly

theorem sameOutside_of_sameBytes (h : SameBytes s t) (rs : List (Ptr × Nat)) : s.SameOutside t rs := fun k _ => h k

/-- A job's write changes the bytes of its range alone. -/
theorem pokes_sameOutside (s : State) (p : Ptr) (d : List Byte) : s.SameOutside (s.pokes (s.relocate s.unitOdd p) d) [(p, d.length)] :=
  fun _ hk => byte_pokes_outside s _ d fun i hi => hk _ List.mem_cons_self i hi

/-- What a job's write stores reads back. -/
theorem pokes_shows {p : Ptr} {d : List Byte} (h : s.CanWrite [(p, d.length)]) :
    (s.pokes (s.relocate s.unitOdd p) d).shows p d.length = d := by
  have hplace : (s.pokes (s.relocate s.unitOdd p) d).relocate (s.pokes (s.relocate s.unitOdd p) d).unitOdd p = s.relocate s.unitOdd p := rfl
  rw [State.shows, hplace]
  exact peeks_pokes (h _ List.mem_cons_self).1

/-! ## Writes in order -/

/-- The state after a job's writes. -/
def written (s : State) (ws : List (Ptr × List Byte)) : State := ws.foldl (fun a w => a.pokes (a.relocate a.unitOdd w.1) w.2) s

/-- The ranges of writes. -/
def writeRanges (ws : List (Ptr × List Byte)) : List (Ptr × Nat) := ws.map (fun w => (w.1, w.2.length))

theorem written_rest (s : State) (ws : List (Ptr × List Byte)) : { written s ws with mem := s.mem } = s :=
  foldl_keeps (P := fun a : State => { a with mem := s.mem } = s)
    (f := fun (a : State) (w : Ptr × List Byte) => a.pokes (a.relocate a.unitOdd w.1) w.2) (fun _ _ ha => ha) ws rfl

theorem written_bytesOnly (s : State) (ws : List (Ptr × List Byte)) : BytesOnly s (written s ws) :=
  foldl_keeps (P := BytesOnly s) (fun a _ ha => ha.trans (BytesOnly.pokes a _ _)) ws (BytesOnly.refl s)

theorem written_sameOutside (s : State) (ws : List (Ptr × List Byte)) : s.SameOutside (written s ws) (writeRanges ws) := by
  induction ws generalizing s with
  | nil => exact fun _ _ => rfl
  | cons w r ih =>
    exact (BytesOnly.pokes s _ w.2).sameOutside (pokes_sameOutside s w.1 w.2) (ih (s.pokes (s.relocate s.unitOdd w.1) w.2))

/-- A job's writes that nothing refuses store their bytes. -/
theorem writeAll_written (hs : s.AtRest) (st : Nat) {ws : List (Ptr × List Byte)} (hw : s.CanWrite (writeRanges ws)) :
    s.writeAll st ws = (written s ws, none) := by
  induction ws generalizing s with
  | nil => rfl
  | cons w r ih =>
    have hfirst := writeAll_atRest hs st (p := w.1) (d := w.2) fun q hq => hw q (List.mem_singleton.mp hq ▸ List.mem_cons_self)
    obtain ⟨hserved, hbank⟩ := hw _ List.mem_cons_self
    have hkeep := BytesOnly.pokes s (s.relocate s.unitOdd w.1) w.2
    have hrest := ih (hkeep.atRest hs) (hkeep.canWrite fun q hq => hw q (List.mem_cons_of_mem _ hq))
    obtain ⟨p, d⟩ := w
    rw [State.writeAll, if_neg hbank, write_served hs hserved]
    exact hrest

end Writes

/-! ## Words as bytes -/

theorem leBytes_length (n x : Nat) : (leBytes n x).length = n := by
  induction n generalizing x with
  | zero => rfl
  | succ n ih => exact congrArg Nat.succ (ih _)

theorem wordBytes_length (ws : List Word) : (wordBytes ws).length = 4 * ws.length := by
  simp only [wordBytes, List.length_flatMap, leBytes_length, List.map_const', List.sum_replicate, smul_eq_mul, Nat.mul_comm]

/-! ## BLOCK_DRAIN (R86, R106) -/

section Drain
variable {s : State} {e st : Nat} {x : Slot} {d : DrainWork} {rest : List EngWork}

/-- The values of column j of a facet, as the words of its rows. -/
def drainColumn (s : State) (e : Nat) (d : DrainWork) (f : Nat) (bias : Ptr) (j : Nat) : List Word :=
  (List.range d.rows).map (fun r =>
    (drainValue d (s.accVal e (accEntry f d.facets d.accBase j) r) (if d.biasEn then s.elem32 bias j else 0)).1)

theorem drainWrites_eq (s : State) (e : Nat) (d : DrainWork) : (s.drainWrites e d).1 = d.parts.zipIdx.flatMap (fun q =>
    (List.range q.1.2.1).map (fun j => (ptrAdd q.1.1 (128 * j), wordBytes (drainColumn s e d q.2 q.1.2.2 j)))) := by
  simp only [State.drainWrites, List.map_flatMap, List.map_map, drainColumn]
  rfl

theorem drainWrites_ranges (s : State) (e : Nat) (d : DrainWork) : writeRanges (s.drainWrites e d).1 =
    d.parts.flatMap (fun q => (List.range q.2.1).map (fun j => (ptrAdd q.1 (128 * j), 4 * d.rows))) := by
  have hcolumn (f : Nat) (b : Ptr) (j : Nat) : (wordBytes (drainColumn s e d f b j)).length = 4 * d.rows := by
    rw [wordBytes_length, drainColumn, List.length_map, List.length_range]
  calc writeRanges (s.drainWrites e d).1
      = d.parts.zipIdx.flatMap (fun q => (List.range q.1.2.1).map (fun j => (ptrAdd q.1.1 (128 * j), 4 * d.rows))) := by
        rw [writeRanges, drainWrites_eq]
        simp only [List.map_flatMap, List.map_map, Function.comp_def, hcolumn]
    _ = (d.parts.zipIdx.map Prod.fst).flatMap (fun q => (List.range q.2.1).map (fun j => (ptrAdd q.1 (128 * j), 4 * d.rows))) := by
        rw [List.flatMap_map]
    _ = _ := by rw [List.zipIdx_map_fst]

/-- No write of a drain with rows is empty. -/
theorem drainWrites_nonempty (hrows : d.rows ≠ 0) : (s.drainWrites e d).1.filter (fun q => !q.2.isEmpty) = (s.drainWrites e d).1 := by
  refine List.filter_eq_self.mpr fun w hw => ?_
  have hrange : (w.1, w.2.length) ∈ writeRanges (s.drainWrites e d).1 := List.mem_map_of_mem hw
  rw [drainWrites_ranges] at hrange
  obtain ⟨q, -, hq⟩ := List.mem_flatMap.mp hrange
  obtain ⟨j, -, hj⟩ := List.mem_map.mp hq
  have hlen : 4 * d.rows = w.2.length := congrArg Prod.snd hj
  rw [Bool.not_eq_true', List.isEmpty_eq_false_iff, ← List.length_pos_iff]
  omega

/-- What a drain leaves that nothing refuses. -/
def drained (s : State) (e : Nat) (d : DrainWork) (rest : List EngWork) : State :=
  ((written s (s.drainWrites e d).1).setEngine e { (written s (s.drainWrites e d).1).engine e with work := rest }).count
    (Reg.CLUSTER_BIAS_SAT (e / 8)) (s.drainWrites e d).2

theorem runDrain_served (hs : s.AtRest) (hrows : d.rows ≠ 0)
    (hr : d.biasEn = true → s.CanRead (d.parts.map (fun q => (q.2.2, 4 * q.2.1)))) (hw : s.CanWrite (writeRanges (s.drainWrites e d).1)) :
    s.runDrain e st x d rest = drained s e d rest := by
  have hread : s.readAll st (if d.biasEn then d.parts.map (fun q => (q.2.2, 4 * q.2.1)) else []) = (s, none) := by
    split
    · next hbias => exact readAll_atRest hs st (hr hbias)
    · rfl
  unfold State.runDrain
  rw [hread]
  dsimp only
  rw [drainWrites_nonempty hrows, writeAll_written hs st hw]
  rfl

/-- A drain at the head of an engine's work, no word of it bad, runs (R86, R93). -/
theorem exec_blockDrain {e : Fin 64} (hstall : s.engineStall e.val = some (st, x)) (hwork : (s.engine e.val).work = .drain d :: rest)
    (hbad : ∀ b ∈ (s.engine e.val).bad, ¬ (b.1 = 2 ∧ d.reads b.2 = true)) :
    exec (.blockDrain e [] none) s = done (s.runDrain e.val st x d rest) := by
  have hfind : (s.engine e.val).bad.find? (fun b => decide (b.1 = 2) && d.reads b.2) = none := by
    refine List.find?_eq_none.mpr fun b hb => ?_
    rw [Bool.and_eq_true, decide_eq_true_eq]
    exact hbad b hb
  show execBlockDrain e [] none s = _
  simp only [execBlockDrain, hstall, hwork, hfind]
  rfl

theorem drained_shows {a b : Ptr} (he : e < 64) (hparts : d.parts = [(a, 1, b)]) (hw : s.CanWrite (writeRanges (s.drainWrites e d).1)) :
    (settle (drained s e d rest)).shows a (4 * d.rows) = wordBytes (drainColumn s e d 0 b 0) := by
  have hwrites : (s.drainWrites e d).1 = [(a, wordBytes (drainColumn s e d 0 b 0))] := by
    rw [drainWrites_eq, hparts]
    rfl
  have hlen : (wordBytes (drainColumn s e d 0 b 0)).length = 4 * d.rows := by
    rw [wordBytes_length, drainColumn, List.length_map, List.length_range]
  have hcount : ∀ k, OutsideClusters k → k ≠ Reg.CLUSTER_BIAS_SAT (e / 8) := by
    rintro k hk rfl
    unfold OutsideClusters Reg.CLUSTER_BIAS_SAT rkey at hk
    omega
  have hkeep (u : State) (v : Engine) (n : Nat) : SameProgram u ((u.setEngine e v).count (Reg.CLUSTER_BIAS_SAT (e / 8)) n) :=
    ⟨rfl, rfl, rfl, rfl, rfl, rfl, rfl, fun k hk => reg_count_other _ (hcount k hk) n⟩
  rw [hwrites] at hw
  have hwritten : (written s (s.drainWrites e d).1).shows a (4 * d.rows) = wordBytes (drainColumn s e d 0 b 0) := by
    rw [hwrites, ← hlen]
    exact pokes_shows hw
  rw [settle_shows, drained, (hkeep _ _ _).shows, hwritten]

/-- What a drain leaves of the rest of the state. -/
theorem drained_frame (s : State) (e : Nat) (d : DrainWork) (rest : List EngWork) :
    ((drained s e d rest).engine e).work = rest ∧ (drained s e d rest).acc = s.acc ∧
      (∀ k, k ≠ Reg.CLUSTER_BIAS_SAT (e / 8) → (drained s e d rest).reg k = s.reg k) ∧
      s.SameOutside (drained s e d rest) (writeRanges (s.drainWrites e d).1) := by
  have hrest := written_rest s (s.drainWrites e d).1
  have houtside := written_sameOutside s (s.drainWrites e d).1
  unfold drained
  generalize written s (s.drainWrites e d).1 = w at hrest houtside
  have hregs := congrArg State.regs hrest
  have hacc := congrArg State.acc hrest
  have hregs' : w.regs = s.regs := hregs
  refine ⟨congrArg Engine.work (engine_setEngine_same w e _), hacc, fun k hk => ?_, houtside⟩
  refine (reg_count_other _ hk _).trans ?_
  show mapGetD w.regs k (regReset k) = s.reg k
  rw [hregs']
  rfl

/-- The drain at the head of an engine's work, nothing refused. -/
theorem blockDrain_drains {e : Fin 64} {ws : List (Ptr × Nat)} (hstall : s.engineStall e.val = some (st, x))
    (hwork : (s.engine e.val).work = .drain d :: rest) (hs : s.AtRest) (hrows : d.rows ≠ 0)
    (hbad : ∀ b ∈ (s.engine e.val).bad, ¬ (b.1 = 2 ∧ d.reads b.2 = true))
    (hr : d.biasEn = true → s.CanRead (d.parts.map (fun q => (q.2.2, 4 * q.2.1))))
    (hws : ws = d.parts.flatMap (fun q => (List.range q.2.1).map (fun j => (ptrAdd q.1 (128 * j), 4 * d.rows)))) (hw : s.CanWrite ws) :
    ∃ t, exec (.blockDrain e [] none) s = .next t ∧ (t.engine e.val).work = rest ∧ s.SameOutside t ws ∧ t.acc = s.acc ∧
      SameRegs [Reg.CLUSTER_BIAS_SAT (e.val / 8)] s t ∧
      ∀ a b, d.parts = [(a, 1, b)] → t.shows a (4 * d.rows) = wordBytes ((List.range d.rows).map (fun r =>
        (drainValue d (s.accVal e.val (accEntry 0 d.facets d.accBase 0) r) (if d.biasEn then s.elem32 b 0 else 0)).1)) := by
  rw [← drainWrites_ranges s e.val] at hws
  subst hws
  obtain ⟨hrest, hacc, hregs, houtside⟩ := drained_frame s e.val d rest
  have hshows {a b : Ptr} (hparts : d.parts = [(a, 1, b)]) := drained_shows (rest := rest) e.isLt hparts hw
  rw [exec_blockDrain hstall hwork hbad, runDrain_served hs hrows hr hw]
  generalize drained s e.val d rest = t at hrest hacc hregs houtside hshows
  exact ⟨settle t, rfl, hrest, houtside, hacc, sameRegs_settle fun k hk _ => hregs k (List.ne_of_not_mem_cons hk),
    fun a b hparts => hshows hparts⟩

end Drain

end Sys2Proof.Laws
end

section
/-!
SUPPORT. The instructions of the vector engine that give no tensor (R145, R160, R161, R165, R166): SELECT's rows, KPRED's records and the
tables of CBLOAD.
-/
namespace Sys2Proof.Laws
open Sys2Proof.Machine

/-! ## What an instruction that ran shows (R100, R120) -/

section Ran
variable {s t u : State} {c : Fin 8} {pc : Nat} {ws : List (Ptr × Nat)}

/-- An instruction of cluster c has started and run: it wrote at most the ranges, and no stall differs. -/
structure Ran (c : Fin 8) (pc : Nat) (ws : List (Ptr × Nat)) (s t : State) : Prop where
  started : s.Started t c pc
  outside : s.SameOutside t ws
  stalls : t.stalls = s.stalls

namespace Ran

theorem settle (h : Ran c pc ws s t) : Ran c pc ws s (Machine.settle t) := ⟨started_settle h.started, h.outside, h.stalls⟩

theorem setReg (h : Ran c pc ws s t) {k : Nat} (hk : Reg.CLUSTER_SEQ_PC c.val ≠ k) (v : Word) : Ran c pc ws s (t.setReg k v) :=
  ⟨⟨h.started.1, (reg_setReg_other t hk v).trans h.started.2⟩, h.outside, h.stalls⟩

theorem tally (h : Ran c pc ws s t) {k : Nat} (hk : Reg.CLUSTER_SEQ_PC c.val ≠ k) : Ran c pc ws s (t.tally k) := h.setReg hk _

theorem event (h : Ran c pc ws s t) {p : Nat} (hk : Reg.CLUSTER_SEQ_PC c.val ≠ Reg.EVT_RAW p) (w : Word) : Ran c pc ws s (t.event p w) :=
  h.setReg hk _

theorem setLen (h : Ran c pc ws s t) (j r : Nat) (v : Word) : Ran c pc ws s (t.setLen c.val j r v) :=
  ⟨started_setLen h.started j r v, h.outside, h.stalls⟩

theorem clip (h : Ran c pc ws s t) (st : Nat) (w : Word) : Ran c pc ws s (t.clip st w) := ⟨h.started, h.outside, h.stalls⟩

theorem setEngine (h : Ran c pc ws s t) (e : Nat) (v : Engine) : Ran c pc ws s (t.setEngine e v) := ⟨h.started, h.outside, h.stalls⟩

theorem sameBytes (h : Ran c pc [] s t) : SameBytes s t := fun k => h.outside k fun _ hr => absurd hr List.not_mem_nil

theorem slot (h : Ran c pc ws s t) (n : Nat) : (t.stall n).slot = (s.stall n).slot := by rw [State.stall, State.stall, h.stalls]

/-- Writes widen the ranges. -/
theorem written (h : Ran c pc [] s t) (hkeep : SameProgram s t) (ds : List (Ptr × List Byte)) :
    Ran c pc (writeRanges ds) s (written t ds) := by
  have hrest := written_rest t ds
  have houtside := hkeep.bytesOnly.sameOutside h.outside (written_sameOutside t ds)
  generalize Laws.written t ds = w at hrest houtside
  have hclusters := congrArg State.clusters hrest
  have hregs := congrArg State.regs hrest
  have hstalls := congrArg State.stalls hrest
  have hclusters' : w.clusters = t.clusters := hclusters
  have hregs' : w.regs = t.regs := hregs
  refine ⟨⟨?_, ?_⟩, houtside, Eq.trans hstalls h.stalls⟩
  · rw [State.cluster, hclusters']
    exact h.started.1
  · rw [State.reg, hregs']
    exact h.started.2

end Ran

theorem SameProgram.trans (h : SameProgram s t) (h' : SameProgram t u) : SameProgram s u :=
  ⟨h'.mem.trans h.mem, h'.drams.trans h.drams, h'.upsets.trans h.upsets, h'.power.trans h.power, h'.sec.trans h.sec,
    h'.loader.trans h.loader, h'.pools.trans h.pools, fun k hk => (h'.reg k hk).trans (h.reg k hk)⟩

theorem SameProgram.elem (h : SameProgram s t) (p : Ptr) (b k : Nat) : t.elem p b k = s.elem p b k := by
  simp only [State.elem, State.fetch, h.relocated, h.sameMemory.peek]

theorem SameProgram.tensorElem (h : SameProgram s t) (x : Tensor) (i j : Nat) : t.tensorElem x i j = s.tensorElem x i j := by
  simp only [State.tensorElem, h.elem]

end Ran

/-! ## Effective rows and columns (R145, R170) -/

section Shape
variable {s : State} {x : Issue} {pc : Nat}

theorem LengthFrame.mono {ks ks' : List Nat} {s t : State} (h : LengthFrame ks s t) (hsub : ks ⊆ ks') : LengthFrame ks' s t :=
  ⟨h.rest, fun k hk => h.reg k fun hm => hk (hsub hm)⟩

/-- The registers that the vector engine sets with the lengths of an instruction. -/
def vectorRegs (c : Nat) : List Nat := Reg.VX_LAST_INSTR c :: lengthRegs c

theorem vxStart_frame (s : State) (x : Issue) : LengthFrame (vectorRegs x.c.val) s (s.vxStart x) :=
  (LengthFrame.refl _ s).setReg List.mem_cons_self _

/-- A length taken by the vector engine. -/
theorem vxLength_frame (s : State) (x : Issue) (k dim : Nat) : LengthFrame (vectorRegs x.c.val) s
    (s.effLen x (bit (x.w k) 24) (bits (x.w k) 23 20) (bits (x.w k) 19 0) dim).1 :=
  (effLen_frame s x _ _ _ dim).mono (List.subset_cons_self _ _)

theorem vxLength_effective (s : State) (x : Issue) (k dim : Nat) :
    (s.effLen x (bit (x.w k) 24) (bits (x.w k) 23 20) (bits (x.w k) 19 0) dim).2 = s.effective x k :=
  effLen_length s x _ _ _ dim

theorem vxShape_frame (s : State) (x : Issue) : LengthFrame (vectorRegs x.c.val) s (s.vxShape x).1 :=
  ((vxStart_frame s x).trans (vxLength_frame _ x 2 3)).trans (vxLength_frame _ x 3 4)

theorem effective_congr {t : State} (h : ∀ r, t.len x.c.val x.job r = s.len x.c.val x.job r) (k : Nat) :
    t.effective x k = s.effective x k := by
  simp only [State.effective, h]

theorem vxShape_lengths (s : State) (x : Issue) : (s.vxShape x).2 = (s.effective x 2, s.effective x 3) := by
  have hstart := vxStart_frame s x
  have hrows := hstart.trans (vxLength_frame _ x 2 3)
  refine Prod.ext ?_ ?_
  · exact (vxLength_effective _ x 2 3).trans (effective_congr (fun r => hstart.len _ _ r) 2)
  · exact (vxLength_effective _ x 3 4).trans (effective_congr (fun r => hrows.len _ _ r) 3)

theorem vectorRegs_inside (c : Fin 8) {k : Nat} (hk : k ∈ vectorRegs c.val) : ¬ OutsideClusters k := by
  have hc := c.isLt
  simp only [vectorRegs, lengthRegs, List.mem_cons, List.not_mem_nil, or_false] at hk
  rcases hk with rfl | rfl | rfl | rfl
  · unfold OutsideClusters Reg.VX_LAST_INSTR rkey
    omega
  all_goals exact sequencerReg_not_outside c (by decide)

theorem seqPc_not_mem_vectorRegs (c : Nat) : Reg.CLUSTER_SEQ_PC c ∉ vectorRegs c := by
  have hpage : Reg.CLUSTER_SEQ_PC c ≠ Reg.VX_LAST_INSTR c := by
    unfold Reg.CLUSTER_SEQ_PC Reg.VX_LAST_INSTR rkey
    omega
  exact fun hm => (List.mem_cons.mp hm).elim hpage (not_mem_lengthRegs (by decide))

/-- A vector instruction that has started, its lengths taken: nothing that its accesses depend on differs. -/
structure VectorBegun (s t : State) (x : Issue) (pc : Nat) : Prop where
  program : SameProgram s t
  ran : Ran x.c pc [] s t
  len : ∀ r, t.len x.c.val x.job r = s.len x.c.val x.job r

theorem vectorBegun {t : State} (h : LengthFrame (vectorRegs x.c.val) (s.markStarted x pc) t) : VectorBegun s t x pc := by
  have hprog := (markStarted_program s x pc).trans (h.program fun k hk => vectorRegs_inside x.c hk)
  exact ⟨hprog, ⟨h.started (seqPc_not_mem_vectorRegs _) (markStarted_started s x pc),
    sameOutside_of_sameBytes hprog.sameMemory.sameBytes [], h.stalls⟩, fun r => (h.len _ _ r).trans (markStarted_len s x pc _ r)⟩

end Shape

/-! ## SELECT (R165) -/

section Select
variable {s t : State} {x : Issue} {cn : Nat} {rg : Ptr × Nat}

/-- The threshold admits row i. -/
def selects (s : State) (x : Issue) (i : Nat) : Bool :=
  leNum (num32 (x.w 10)) (numOf x.x.fmt (s.tensorElem x.x i (bits (x.w 14) 31 20)))

/-- The first row of SELECT, nothing refused: it leaves the state as it is, or copies the row. -/
theorem selectRow_first (hs : s.AtRest) (hrg : rg = elemRange (x.x.row 0) (elemBits x.x.fmt) 0 cn) (hr : s.CanRead [rg])
    (hw : s.CanWrite [(x.d.p, rg.2)]) : ∃ a, selectRow x cn none { s := s } 0 = a ∧ a.ok = true ∧
      (∃ ds, a.s = written s ds ∧ (ds = [] ∨ writeRanges ds = [(x.d.p, rg.2)])) ∧
      a.kept = if bits (x.w 14) 31 20 < cn ∧ 0 < bits (x.w 14) 15 0 ∧ selects s x 0 = true then 1 else 0 := by
  have hread := readAll_atRest hs x.st hr
  have hrow : (ptrAdd x.d.p (0 * x.d.stride)) = x.d.p := by rw [Nat.zero_mul]; rfl
  have hsels : leNum (num32 (x.w 10)) (numOf x.x.fmt (s.tensorElem x.x 0 (bits (x.w 14) 31 20))) = selects s x 0 := rfl
  unfold selectRow
  rw [if_neg (by simp), if_neg (by simp)]
  by_cases hcol : cn ≤ bits (x.w 14) 31 20
  · dsimp only
    rw [if_pos hcol, if_neg (fun h => absurd hcol (not_le.mpr h.1))]
    exact ⟨_, rfl, rfl, ⟨[], rfl, Or.inl rfl⟩, rfl⟩
  dsimp only
  rw [if_neg hcol, ← hrg, hread]
  dsimp only
  rw [hsels]
  by_cases hsel : selects s x 0 = true
  · rw [if_pos hsel]
    by_cases hcap : 0 < bits (x.w 14) 15 0
    · have hlen : ((List.range rg.2).map (fun k => s.fetch (ptrAdd rg.1 k))).length = rg.2 := by simp
      rw [if_pos hcap, if_pos ⟨not_le.mp hcol, hcap, hsel⟩, hrow]
      generalize (List.range rg.2).map (fun k => s.fetch (ptrAdd rg.1 k)) = d at hlen
      have hranges : writeRanges [(x.d.p, d)] = [(x.d.p, rg.2)] := by rw [← hlen]; rfl
      rw [writeAll_written hs x.st (hranges ▸ hw)]
      exact ⟨_, rfl, rfl, ⟨_, rfl, Or.inr hranges⟩, rfl⟩
    · rw [if_neg hcap, if_neg (fun h => hcap h.2.1)]
      exact ⟨_, rfl, rfl, ⟨[], rfl, Or.inl rfl⟩, rfl⟩
  · rw [if_neg hsel, if_neg (fun h => hsel h.2.2)]
    exact ⟨_, rfl, rfl, ⟨[], rfl, Or.inl rfl⟩, rfl⟩

variable {c : Fin 8} {pc : BitVec 23}

/-- The end of SELECT: the length register, and what the cap shows. -/
def selectEnd (x : Issue) (a : SelAcc) : State :=
  let u := a.s.setLen x.c.val x.job (bits (x.w 14) 19 16) (BitVec.ofNat 32 a.kept)
  if a.kept < a.sel then ((u.tally (Reg.VX_SELECT_CAP x.c.val)).event (pageVx x.c.val) 2).clip x.st (x.w 15) else u

theorem selectEnd_ran {pc : Nat} {ws : List (Ptr × Nat)} {a : SelAcc} (h : Ran x.c pc ws s a.s) : Ran x.c pc ws s (selectEnd x a) ∧
    (selectEnd x a).len x.c.val x.job (bits (x.w 14) 19 16) = BitVec.ofNat 32 a.kept := by
  have hset := h.setLen x.job (bits (x.w 14) 19 16) (BitVec.ofNat 32 a.kept)
  have hlen := len_setLen a.s x.c.val x.job (bits (x.w 14) 19 16) (BitVec.ofNat 32 a.kept) (r' := bits (x.w 14) 19 16)
  rw [if_pos rfl] at hlen
  have hpage {o : Nat} (ho : o < 4096) : Reg.CLUSTER_SEQ_PC x.c.val ≠ rkey (pageVx x.c.val) o := by
    unfold Reg.CLUSTER_SEQ_PC rkey pageVx
    omega
  unfold selectEnd
  dsimp only
  split
  · exact ⟨((hset.tally (hpage (by decide))).event (hpage (by decide)) 2).clip _ _, hlen⟩
  · exact ⟨hset, hlen⟩

theorem exec_select (h : s.Runs x.c pc.toNat 0x47 x) (t : State) (ht : t = ((s.markStarted x pc.toNat).vxShape x).1) :
    VectorBegun s t x pc.toNat ∧ exec (.select x.c pc none) s = done (
      if s.effective x 2 = 0 ∨ s.effective x 3 = 0 then
        (t.tally (Reg.CLUSTER_ZERO_SHAPE x.c.val)).setLen x.c.val x.job (bits (x.w 14) 19 16) 0
      else
        let a := (List.range (s.effective x 2)).foldl (selectRow x (s.effective x 3) none) { s := t }
        if a.ok = false then a.s else selectEnd x a) := by
  have hlengths := vxShape_lengths (s.markStarted x pc.toNat) x
  rw [effective_congr (fun r => markStarted_len s x pc.toNat _ r), effective_congr (fun r => markStarted_len s x pc.toNat _ r)] at hlengths
  obtain ⟨hrows, hcols⟩ := Prod.ext_iff.mp hlengths
  refine ⟨ht ▸ vectorBegun (vxShape_frame _ x), ?_⟩
  subst ht
  show execSelect x.c pc none s = _
  rw [execSelect, issue_runs h]
  dsimp only at hrows hcols ⊢
  rw [hrows, hcols]
  rfl

theorem select_empty (h : s.Runs x.c pc.toNat 0x47 x) (hempty : s.effective x 2 = 0 ∨ s.effective x 3 = 0) :
    ∃ t, exec (.select x.c pc none) s = .next t ∧ s.Started t x.c pc.toNat ∧
      t.len x.c.val x.job (bits (x.w 14) 19 16) = 0 ∧ SameBytes s t := by
  obtain ⟨⟨-, hran, -⟩, hexec⟩ := exec_select h _ rfl
  rw [hexec, if_pos hempty]
  generalize ((s.markStarted x pc.toNat).vxShape x).1 = u at hran
  have hend := ((hran.tally (k := Reg.CLUSTER_ZERO_SHAPE x.c.val) (header_ne (by decide))).setLen x.job (bits (x.w 14) 19 16) 0).settle
  refine ⟨_, rfl, hend.started, ?_, hend.sameBytes⟩
  exact (len_setLen (u.tally (Reg.CLUSTER_ZERO_SHAPE x.c.val)) x.c.val x.job (bits (x.w 14) 19 16) 0).trans (if_pos rfl)

theorem select_one (h : s.Runs x.c pc.toNat 0x47 x) (hrows : s.effective x 2 = 1) (hcn : cn = s.effective x 3) (hne : cn ≠ 0)
    (hrg : rg = elemRange (x.x.row 0) (elemBits x.x.fmt) 0 cn) (hr : s.CanRead [rg]) (hw : s.CanWrite [(x.d.p, rg.2)]) :
    ∃ t, exec (.select x.c pc none) s = .next t ∧ s.Started t x.c pc.toNat ∧ s.SameOutside t [(x.d.p, rg.2)] ∧
      t.len x.c.val x.job (bits (x.w 14) 19 16) = (if bits (x.w 14) 31 20 < cn ∧ 0 < bits (x.w 14) 15 0 ∧
        leNum (num32 (x.w 10)) (numOf x.x.fmt (s.tensorElem x.x 0 (bits (x.w 14) 31 20))) = true then 1 else 0) := by
  obtain ⟨⟨hprog, hran, -⟩, hexec⟩ := exec_select h _ rfl
  rw [hexec, hrows, ← hcn, if_neg (by simp [hne])]
  generalize ((s.markStarted x pc.toNat).vxShape x).1 = u at hran hprog
  obtain ⟨a, ha, hok, ⟨ds, hds, hranges⟩, hkept⟩ := selectRow_first (hprog.atRest (runs_atRest h)) hrg (hprog.canRead hr) (hprog.canWrite hw)
  have hsel : selects u x 0 = selects s x 0 := by rw [selects, selects, hprog.tensorElem]
  have hfold : (List.range 1).foldl (selectRow x cn none) { s := u } = a := ha
  have houtside : Ran x.c pc.toNat [(x.d.p, rg.2)] s a.s := by
    have hwritten := hran.written hprog ds
    rw [hds]
    refine ⟨hwritten.started, fun k hk => hwritten.outside k fun r hr => ?_, hwritten.stalls⟩
    rcases hranges with rfl | hranges
    · exact absurd hr List.not_mem_nil
    · exact hk r (hranges ▸ hr)
  obtain ⟨hend, hlen⟩ := selectEnd_ran houtside
  dsimp only
  rw [hfold, hok, if_neg (by decide)]
  refine ⟨_, rfl, hend.settle.started, hend.settle.outside, Eq.trans hlen ?_⟩
  rw [hkept, hsel, selects]
  split <;> rfl

end Select

/-! ## Groups that nothing refuses -/

section Groups
variable {s a b : State} {x : Issue}

theorem written_append (s : State) (ds ds' : List (Ptr × List Byte)) : written s (ds ++ ds') = written (written s ds) ds' :=
  List.foldl_append

theorem runGroups_one (ha : a.AtRest) {g : Group} (hr : a.CanRead g.reads) (hact : g.act a = (b, none)) (i : Nat) :
    a.runGroups x none i [g] = (b, true) := by
  simp only [State.runGroups, readAll_atRest ha x.st hr, hact, reduceCtorEq, if_false]

/-- Groups that each write their ranges, whatever bytes they find, write all their ranges in order. -/
theorem runGroups_written (hs : s.AtRest) {gs : List (Group × List (Ptr × Nat))}
    (hg : ∀ g ∈ gs, s.CanRead g.1.reads ∧ ∀ a, BytesOnly s a → ∃ ds, writeRanges ds = g.2 ∧ g.1.act a = (written a ds, none))
    (ha : BytesOnly s a) (i : Nat) :
    ∃ ds, writeRanges ds = gs.flatMap Prod.snd ∧ a.runGroups x none i (gs.map Prod.fst) = (written a ds, true) := by
  induction gs generalizing a i with
  | nil => exact ⟨[], rfl, rfl⟩
  | cons g r ih =>
    obtain ⟨hread, hact⟩ := hg g List.mem_cons_self
    obtain ⟨ds, hds, hwrite⟩ := hact a ha
    obtain ⟨ds', hds', hrest⟩ := ih (fun g' hg' => hg g' (List.mem_cons_of_mem _ hg')) (ha.trans (written_bytesOnly a ds)) (i + 1)
    refine ⟨ds ++ ds', ?_, ?_⟩
    · rw [writeRanges, List.map_append, List.flatMap_cons, ← hds, ← hds']
      rfl
    · simp only [List.map_cons, State.runGroups, readAll_atRest (ha.atRest hs) x.st (ha.canRead hread), hwrite, reduceCtorEq, if_false]
      rw [hrest, written_append]

end Groups

/-! ## KPRED (R166) -/

section Kpred
variable {s : State} {x : Issue} {pc : BitVec 23} {n : Nat}

/-- The record of an index of KPRED. -/
def kpredPtr (x : Issue) (i : Nat) : Ptr := ptrAdd (descPtr x.c (x.w 4)) (i * descStride (x.w 5))

/-- The bytes that KPRED writes over a record. -/
def kpredBytes (a : State) (x : Issue) (i : Nat) : List Byte :=
  wordBytes (kpredRecord (x.w 10) (a.elem32 (descPtr x.c (x.w 6))) (a.elem32 (kpredPtr x i)))

/-- The group of a record. -/
def kpredGroup (x : Issue) (i : Nat) : Group where
  reads := (if i = 0 then [(descPtr x.c (x.w 6), 32)] else []) ++ [(kpredPtr x i, 0x120)]
  act a := a.writeAll x.st [(kpredPtr x i, kpredBytes a x i)]

theorem kpredBytes_length (a : State) (x : Issue) (i : Nat) : (kpredBytes a x i).length = 0x120 := by
  rw [kpredBytes, wordBytes_length, kpredRecord, List.length_map, List.length_range]

theorem kpredGroup_reads (h : s.CanRead ((descPtr x.c (x.w 6), 32) :: (List.range n).map (fun i => (kpredPtr x i, 0x120)))) {i : Nat}
    (hi : i < n) : s.CanRead (kpredGroup x i).reads := by
  intro r hr
  simp only [kpredGroup, List.mem_append, List.mem_singleton] at hr
  rcases hr with hr | rfl
  · split at hr
    · exact h r (List.mem_singleton.mp hr ▸ List.mem_cons_self)
    · exact absurd hr List.not_mem_nil
  · exact h _ (List.mem_cons_of_mem _ (List.mem_map_of_mem (List.mem_range.mpr hi)))

/-- A record's group writes the record. -/
theorem kpredGroup_act {a : State} (ha : a.AtRest) {i : Nat} (hw : a.CanWrite [(kpredPtr x i, 0x120)]) :
    (kpredGroup x i).act a = (written a [(kpredPtr x i, kpredBytes a x i)], none) := by
  refine writeAll_written ha x.st ?_
  rw [writeRanges, List.map_singleton, kpredBytes_length]
  exact hw

theorem exec_kpred (h : s.Runs x.c pc.toNat 0x48 x) : ∃ t, VectorBegun s t x pc.toNat ∧ exec (.kpred x.c pc none) s = done (
    if s.effective x 2 = 0 then t.tally (Reg.CLUSTER_ZERO_SHAPE x.c.val)
    else (t.runGroups x none 0 ((List.range (s.effective x 2)).map (kpredGroup x))).1) := by
  have hstart := vxStart_frame (s.markStarted x pc.toNat) x
  have hlength := vxLength_effective ((s.markStarted x pc.toNat).vxStart x) x 2 3
  rw [effective_congr (fun r => (hstart.len _ _ r).trans (markStarted_len s x pc.toNat _ r))] at hlength
  refine ⟨_, vectorBegun (hstart.trans (vxLength_frame _ x 2 3)), ?_⟩
  show execKpred x.c pc none s = _
  rw [execKpred, issue_runs h]
  dsimp only
  rw [hlength]
  rfl

/-- KPRED over records that nothing refuses. -/
theorem kpred_predicts {ps : List (Ptr × Nat)} (h : s.Runs x.c pc.toNat 0x48 x) (hn : n = s.effective x 2)
    (hps : ps = (List.range n).map (fun i => (kpredPtr x i, 0x120)))
    (hr : s.CanRead ((descPtr x.c (x.w 6), 32) :: ps)) (hw : s.CanWrite ps) :
    ∃ t, exec (.kpred x.c pc none) s = .next t ∧ Ran x.c pc.toNat ps s t ∧
      (n = 1 → t.shows (kpredPtr x 0) 0x120 = kpredBytes s x 0) := by
  obtain ⟨u, ⟨hprog, hran, -⟩, hexec⟩ := exec_kpred h
  have hrest := hprog.atRest (runs_atRest h)
  rw [hexec, ← hn]
  by_cases h0 : n = 0
  · subst h0
    rw [if_pos rfl, hps]
    exact ⟨_, rfl, (hran.tally (k := Reg.CLUSTER_ZERO_SHAPE x.c.val) (header_ne (by decide))).settle, fun h1 => absurd h1 (by decide)⟩
  rw [if_neg h0]
  subst hps
  have hgroups : ((List.range n).map (fun i => (kpredGroup x i, [(kpredPtr x i, 0x120)]))).map Prod.fst = (List.range n).map (kpredGroup x) := by
    rw [List.map_map]
    rfl
  obtain ⟨ds, hds, hrun⟩ := runGroups_written (x := x) hrest (a := u)
    (gs := (List.range n).map (fun i => (kpredGroup x i, [(kpredPtr x i, 0x120)]))) (fun g hg => by
      obtain ⟨i, hi, rfl⟩ := List.mem_map.mp hg
      have hcan := hprog.canWrite fun q hq => hw q (List.mem_singleton.mp hq ▸ List.mem_map_of_mem hi)
      refine ⟨hprog.canRead (kpredGroup_reads hr (List.mem_range.mp hi)), fun a ha => ⟨[(kpredPtr x i, kpredBytes a x i)], ?_, ?_⟩⟩
      · rw [writeRanges, List.map_singleton, kpredBytes_length]
      · exact kpredGroup_act (ha.atRest hrest) (ha.canWrite hcan)) (BytesOnly.refl u) 0
  rw [hgroups] at hrun
  have hranges : writeRanges ds = (List.range n).map (fun i => (kpredPtr x i, 0x120)) := by
    rw [hds, List.flatMap_map]
    exact List.map_eq_flatMap.symm
  refine ⟨settle (written u ds), by rw [hrun, done_next], hranges ▸ (hran.written hprog ds).settle, fun h1 => ?_⟩
  subst h1
  have hcan : u.CanWrite [(kpredPtr x 0, 0x120)] := hprog.canWrite hw
  have hone := runGroups_one (x := x) hrest (hprog.canRead (kpredGroup_reads hr Nat.one_pos)) (kpredGroup_act hrest hcan) 0
  have hsame : written u ds = written u [(kpredPtr x 0, kpredBytes u x 0)] := congrArg Prod.fst (hrun.symm.trans hone)
  have hlen := kpredBytes_length u x 0
  have hbytes : kpredBytes u x 0 = kpredBytes s x 0 := by simp only [kpredBytes, funext (hprog.elem32 _)]
  rw [settle_shows, hsame, ← hbytes, ← hlen]
  rw [← hlen] at hcan
  exact pokes_shows hcan

end Kpred

/-! ## CBLOAD (R160, R161) -/

section Cbload
variable {s t : State} {x : Issue} {pc : BitVec 23}

/-- A table loaded by SIDE: A or B of the engines of a mask, or the vector engine's. -/
def tableLoaded (t : State) (c m side : Nat) (tab : CodeTable) : State :=
  match side with
  | 0 => (t.maskEngines c m).foldl (fun (b : State) e => b.setEngine e { b.engine e with aTable := tab }) t
  | 1 => (t.maskEngines c m).foldl (fun (b : State) e => b.setEngine e { b.engine e with bTable := tab }) t
  | _ => t.setCluster c { t.cluster c with vxTable := tab }

theorem tableLoaded_ran {c : Fin 8} {pc : Nat} (h : Ran c pc [] s t) (m side : Nat) (tab : CodeTable) :
    Ran c pc [] s (tableLoaded t c.val m side tab) := by
  unfold tableLoaded
  split
  · exact foldl_keeps (P := Ran c pc [] s) (fun a e ha => ha.setEngine e _) _ h
  · exact foldl_keeps (P := Ran c pc [] s) (fun a e ha => ha.setEngine e _) _ h
  · exact ⟨⟨(congrArg Cluster.started (cluster_setCluster_same t c.val _)).trans h.started.1, h.started.2⟩, h.outside, h.stalls⟩

theorem tableLoaded_vx (t : State) (c m : Nat) (tab : CodeTable) : ((tableLoaded t c m 2 tab).cluster c).vxTable = tab :=
  congrArg Cluster.vxTable (cluster_setCluster_same t c _)

theorem tableLoaded_a (t : State) (c m : Nat) (tab : CodeTable) {e : Nat} (he : e ∈ t.maskEngines c m) :
    ((tableLoaded t c m 0 tab).engine e).aTable = tab := by
  refine foldl_establishes (Φ := fun e (a : State) => (a.engine e).aTable = tab)
    (f := fun (b : State) e => b.setEngine e { b.engine e with aTable := tab }) (fun a y => ?_) (fun a y z hz => ?_) he t
  · exact congrArg Engine.aTable (engine_setEngine_same a y _)
  · by_cases hy : z = y
    · rw [hy]
      exact congrArg Engine.aTable (engine_setEngine_same a y _)
    · exact (congrArg Engine.aTable (engine_setEngine_other a hy _)).trans hz

theorem tableLoaded_b (t : State) (c m : Nat) (tab : CodeTable) {e : Nat} (he : e ∈ t.maskEngines c m) :
    ((tableLoaded t c m 1 tab).engine e).bTable = tab := by
  refine foldl_establishes (Φ := fun e (a : State) => (a.engine e).bTable = tab)
    (f := fun (b : State) e => b.setEngine e { b.engine e with bTable := tab }) (fun a y => ?_) (fun a y z hz => ?_) he t
  · exact congrArg Engine.bTable (engine_setEngine_same a y _)
  · by_cases hy : z = y
    · rw [hy]
      exact congrArg Engine.bTable (engine_setEngine_same a y _)
    · exact (congrArg Engine.bTable (engine_setEngine_other a hy _)).trans hz

/-- The table of a directory record: `d` is the record, `p` the first entry. -/
def codeTable (s : State) (n : Nat) (d : Word) (p : Ptr) : CodeTable :=
  { valid := bit d 0, number := BitVec.ofNat 8 n, size256 := bit d 1, efmt := BitVec.ofNat 2 (bits d 3 2)
    entries := (List.range (if bit d 1 then 256 else 16)).map (fun k => BitVec.ofNat 16 (s.elem p (if bits d 3 2 = 2 then 16 else 8) k)) }

theorem vxStart_maskEngines (s : State) (x : Issue) (c m : Nat) : (s.vxStart x).maskEngines c m = s.maskEngines c m := by
  refine maskEngines_congr (s := s) (t := s.vxStart x) rfl (fun e => reg_setReg_other s ?_ _) m
  unfold Reg.MX_MAP Reg.VX_LAST_INSTR rkey
  omega

/-- CBLOAD whose directory record and entries are served. -/
theorem exec_cbload {base p : Ptr} {d : Word} {n : Nat} (h : s.Runs x.c pc.toNat 0x49 x) (hbase : base = descPtr x.c (x.w 4))
    (hn : n = bits (x.w 12) 19 12) (hd : d = s.elem32 (ptrAdd base (4 * n)) 0) (hp : p = ptrAdd base (bits d 31 8 * 64))
    (hr : s.CanRead [(ptrAdd base (4 * n), 4), (p, (if bit d 1 then 256 else 16) * (if bits d 3 2 = 2 then 16 else 8) / 8)]) :
    exec (.cbload x.c pc none) s = done (tableLoaded ((s.markStarted x pc.toNat).vxStart x) x.c.val (bits (x.w 1) 7 0)
      (bits (x.w 1) 25 24) (codeTable s n d p)) := by
  obtain ⟨hprog, -, -⟩ := vectorBegun (vxStart_frame (s.markStarted x pc.toNat) x)
  show execCbload x.c pc none s = _
  rw [execCbload, issue_runs h]
  dsimp only
  generalize (s.markStarted x pc.toNat).vxStart x = u at hprog
  have hrest := hprog.atRest (runs_atRest h)
  have hdir : u.CanRead [(ptrAdd base (4 * n), 4)] := hprog.canRead fun r hr' => hr r (List.mem_singleton.mp hr' ▸ List.mem_cons_self)
  have hentries : u.CanRead [(p, (if bit d 1 then 256 else 16) * (if bits d 3 2 = 2 then 16 else 8) / 8)] :=
    hprog.canRead fun r hr' => hr r (List.mem_cons_of_mem _ hr')
  have htab : codeTable s n d p = codeTable u n d p := by simp only [codeTable, hprog.elem]
  rw [← hbase, ← hn, htab]
  show done (u.runGroups x none 0 [_]).1 = _
  rw [runGroups_one hrest hdir (b := tableLoaded u x.c.val (bits (x.w 1) 7 0) (bits (x.w 1) 25 24) (codeTable u n d p)) ?_ 0]
  dsimp only
  rw [hprog.elem32, ← hd, ← hp, readAll_atRest hrest x.st hentries]
  generalize bits (x.w 1) 25 24 = side
  match side with
  | 0 => rfl
  | 1 => rfl
  | _ + 2 => rfl

theorem cbload_loads {base p : Ptr} {d : Word} {n cnt eb : Nat} (h : s.Runs x.c pc.toNat 0x49 x) (hbase : base = descPtr x.c (x.w 4))
    (hn : n = bits (x.w 12) 19 12) (hd : d = s.elem32 (ptrAdd base (4 * n)) 0) (hcnt : cnt = (if bit d 1 then 256 else 16))
    (heb : eb = (if bits d 3 2 = 2 then 16 else 8)) (hp : p = ptrAdd base (bits d 31 8 * 64))
    (hr : s.CanRead [(ptrAdd base (4 * n), 4), (p, cnt * eb / 8)]) :
    ∃ t, exec (.cbload x.c pc none) s = .next t ∧ s.Started t x.c pc.toNat ∧ SameBytes s t ∧ (t.stall x.st).slot = (s.stall x.st).slot ∧
      ∀ tab : CodeTable, tab = { valid := bit d 0, number := BitVec.ofNat 8 n, size256 := bit d 1, efmt := BitVec.ofNat 2 (bits d 3 2)
                                 entries := (List.range cnt).map (fun k => BitVec.ofNat 16 (s.elem p eb k)) } →
        (bits (x.w 1) 25 24 = 2 → (t.cluster x.c.val).vxTable = tab) ∧
        (∀ e ∈ s.maskEngines x.c.val (bits (x.w 1) 7 0), (bits (x.w 1) 25 24 = 0 → (t.engine e).aTable = tab) ∧
          (bits (x.w 1) 25 24 = 1 → (t.engine e).bTable = tab)) := by
  subst hcnt heb
  obtain ⟨-, hran, -⟩ := vectorBegun (vxStart_frame (s.markStarted x pc.toNat) x)
  have hmask : ((s.markStarted x pc.toNat).vxStart x).maskEngines x.c.val (bits (x.w 1) 7 0) = s.maskEngines x.c.val (bits (x.w 1) 7 0) :=
    (vxStart_maskEngines _ x _ _).trans (markStarted_maskEngines s x _ _)
  rw [exec_cbload h hbase hn hd hp hr]
  generalize (s.markStarted x pc.toNat).vxStart x = u at hran hmask
  have hend := (tableLoaded_ran hran (bits (x.w 1) 7 0) (bits (x.w 1) 25 24) (codeTable s n d p)).settle
  refine ⟨_, rfl, hend.started, hend.sameBytes, hend.slot x.st, fun tab htab => ?_⟩
  obtain rfl : tab = codeTable s n d p := htab
  refine ⟨fun hside => ?_, fun e he => ⟨fun hside => ?_, fun hside => ?_⟩⟩
  · rw [hside]
    exact tableLoaded_vx u x.c.val (bits (x.w 1) 7 0) (codeTable s n d p)
  · rw [hside]
    exact tableLoaded_a u x.c.val _ _ (hmask ▸ he)
  · rw [hside]
    exact tableLoaded_b u x.c.val _ _ (hmask ▸ he)

end Cbload

end Sys2Proof.Laws
end

section
/-!
SUPPORT. The passes of the matrix engine (R73, R79, R82 to R85): the accumulators of a pass lie at keys of their own, a pass adds to them
alone, and the engines of a group do not disturb one another; the settling of O58.
-/
namespace Sys2Proof.Laws
open Sys2Proof.Machine

/-! ## The accumulators of a control word (R79, R83) -/

section Entries
variable {w0 w1 : Word} {e e' f f' j j' l l' y y' : Nat}

/-- The accumulators that a control word names exist: its facets divide them, and its columns fit a facet's bank. -/
structure WordFits (w0 : Word) : Prop where
  facets : passFacets w0 = 1 ∨ passFacets w0 = 2 ∨ passFacets w0 = 4
  columns : bits w0 22 12 + bits w0 11 0 ≤ 2048 / passFacets w0

theorem wordFits {a b : Nat} (h : wordRefused w0 w1 a b = false) : WordFits w0 := by
  have hlt : bits w0 24 23 < 4 := Nat.mod_lt _ (by decide)
  simp only [wordRefused, Bool.or_eq_false_iff, decide_eq_false_iff_not] at h
  obtain ⟨⟨⟨⟨⟨-, hfacets⟩, -⟩, -⟩, -⟩, hpair⟩ := h
  refine ⟨?_, ?_⟩
  · unfold passFacets
    obtain h0 | h1 | h2 : bits w0 24 23 = 0 ∨ bits w0 24 23 = 1 ∨ bits w0 24 23 = 2 := by omega
    · exact Or.inl (by rw [h0]; rfl)
    · exact Or.inr (Or.inl (by rw [h1]; rfl))
    · exact Or.inr (Or.inr (by rw [h2]; rfl))
  · split at hpair
    · cases hpair
    · simp only [Bool.or_eq_false_iff, decide_eq_false_iff_not, not_lt] at hpair
      exact hpair.2

theorem accEntry_lt (h : WordFits w0) (hf : f < passFacets w0) (hj : j < bits w0 11 0) :
    accEntry f (passFacets w0) (bits w0 22 12) j < 2048 := by
  obtain ⟨hfacets, hcolumns⟩ := h
  unfold accEntry
  generalize bits w0 22 12 = base at *
  generalize bits w0 11 0 = n at *
  rcases hfacets with h | h | h <;> rw [h] at hf hcolumns ⊢ <;> omega

theorem accEntry_injective (h : WordFits w0) (hf : f < passFacets w0) (hf' : f' < passFacets w0) (hj : j < bits w0 11 0) (hj' : j' < bits w0 11 0)
    (he : accEntry f (passFacets w0) (bits w0 22 12) j = accEntry f' (passFacets w0) (bits w0 22 12) j') : f = f' ∧ j = j' := by
  obtain ⟨hfacets, hcolumns⟩ := h
  unfold accEntry at he
  generalize bits w0 22 12 = base at *
  generalize bits w0 11 0 = n at *
  rcases hfacets with h | h | h <;> rw [h] at hf hf' hcolumns he <;> omega

theorem accKey_injective (hy : y < 2048) (hy' : y' < 2048) (hl : l < 32) (hl' : l' < 32) (h : accKey e y l = accKey e' y' l') :
    e = e' ∧ y = y' ∧ l = l' := by
  unfold accKey at h
  omega

end Entries

/-! ## One column, and all columns (R73) -/

section Columns
variable {e : Nat} {p : PassWork} {lanes : List (List (List Nat))} {clsA clsB j f l : Nat}

/-- The accumulator of a lane, column and facet of a pass. -/
def sumKey (e : Nat) (p : PassWork) (f j l : Nat) : Nat := accKey e (accEntry f (passFacets p.w0) (bits p.w0 22 12) j) l

theorem sumKey_injective (h : WordFits p.w0) {f' j' l' : Nat} (hf : f < passFacets p.w0) (hf' : f' < passFacets p.w0)
    (hj : j < bits p.w0 11 0) (hj' : j' < bits p.w0 11 0) (hl : l < 32) (hl' : l' < 32) (he : sumKey e p f j l = sumKey e p f' j' l') :
    f = f' ∧ j = j' ∧ l = l' := by
  obtain ⟨-, hy, hlane⟩ := accKey_injective (accEntry_lt h hf hj) (accEntry_lt h hf' hj') hl hl' he
  obtain ⟨hfacet, hcolumn⟩ := accEntry_injective h hf hf' hj hj' hy
  exact ⟨hfacet, hcolumn, hlane⟩

/-- What a lane of a facet becomes, with the column's codes. -/
def laneValue (p : PassWork) (lanes : List (List (List Nat))) (clsA clsB f l : Nat) (b : List Nat) (old : Option Word) : Word × Bool :=
  accumulate clsA clsB (bit p.w1 24) (bit p.w1 25) p.zpA.toNat p.zpB.toNat ((lanes.getD l []).getD f []) b old (!bit p.w0 27)

/-- One lane of a facet and column. -/
def laneStep (e : Nat) (p : PassWork) (lanes : List (List (List Nat))) (clsA clsB j f : Nat) (b : List Nat) (r : Tbl Word × Bool) (l : Nat) :
    Tbl Word × Bool :=
  let v := laneValue p lanes clsA clsB f l b (mapGet r.1 (sumKey e p f j l))
  (mapIns (sumKey e p f j l) v.1 r.1, r.2 || v.2)

/-- The 32 lanes of a facet and column. -/
def facetStep (e : Nat) (p : PassWork) (lanes : List (List (List Nat))) (clsA clsB j : Nat) (bcol : Nat → List Nat) (r : Tbl Word × Bool)
    (f : Nat) : Tbl Word × Bool :=
  (List.range 32).foldl (laneStep e p lanes clsA clsB j f (bcol f)) r

theorem passColumn_eq (bcol : Nat → List Nat) (acc : Tbl Word) : passColumn e p lanes bcol clsA clsB acc j =
    (List.range (passFacets p.w0)).foldl (facetStep e p lanes clsA clsB j bcol) (acc, false) := by
  unfold passColumn facetStep
  generalize List.range 32 = ls
  rfl

theorem laneStep_other (b : List Nat) (r : Tbl Word × Bool) {k : Nat} (hk : k ≠ sumKey e p f j l) :
    mapGet (laneStep e p lanes clsA clsB j f b r l).1 k = mapGet r.1 k :=
  mapGet_ins_other hk _ _

theorem facetStep_other (bcol : Nat → List Nat) (r : Tbl Word × Bool) {k : Nat} (hk : ∀ l < 32, k ≠ sumKey e p f j l) :
    mapGet (facetStep e p lanes clsA clsB j bcol r f).1 k = mapGet r.1 k :=
  foldl_unchanged (P := fun _ => True) (g := fun r : Tbl Word × Bool => mapGet r.1 k) (fun _ _ _ => trivial)
    (fun l hl a _ => laneStep_other _ a (hk l (List.mem_range.mp hl))) trivial

theorem facetStep_at (bcol : Nat → List Nat) (h : WordFits p.w0) (hf : f < passFacets p.w0) (hj : j < bits p.w0 11 0) (hl : l < 32)
    (r : Tbl Word × Bool) : mapGet (facetStep e p lanes clsA clsB j bcol r f).1 (sumKey e p f j l) =
      some (laneValue p lanes clsA clsB f l (bcol f) (mapGet r.1 (sumKey e p f j l))).1 := by
  obtain ⟨a, -, hsame, hfold⟩ := foldl_at_key (P := fun _ : Tbl Word × Bool => True) (key := id) (l := List.range 32) (n := l)
    (g := fun r : Tbl Word × Bool => mapGet r.1 (sumKey e p f j l)) (f := laneStep e p lanes clsA clsB j f (bcol f)) (s := r)
    (fun _ _ _ => trivial) (fun l' hl' hne a _ => laneStep_other _ a fun he => hne
      (sumKey_injective h hf hf hj hj hl (List.mem_range.mp hl') he).2.2.symm)
    (by rw [List.map_id]; exact List.nodup_range) (List.mem_range.mpr hl) trivial
  refine hfold.trans ((mapGet_ins_same _ _ _).trans ?_)
  rw [hsame]

theorem passColumn_other (bcol : Nat → List Nat) (acc : Tbl Word) {k : Nat} (hk : ∀ f < passFacets p.w0, ∀ l < 32, k ≠ sumKey e p f j l) :
    mapGet (passColumn e p lanes bcol clsA clsB acc j).1 k = mapGet acc k := by
  rw [passColumn_eq]
  exact foldl_unchanged (P := fun _ => True) (g := fun r : Tbl Word × Bool => mapGet r.1 k) (fun _ _ _ => trivial)
    (fun f hf a _ => facetStep_other _ a (hk f (List.mem_range.mp hf))) trivial

theorem passColumn_at (bcol : Nat → List Nat) (h : WordFits p.w0) (hf : f < passFacets p.w0) (hj : j < bits p.w0 11 0) (hl : l < 32)
    (acc : Tbl Word) : mapGet (passColumn e p lanes bcol clsA clsB acc j).1 (sumKey e p f j l) =
      some (laneValue p lanes clsA clsB f l (bcol f) (mapGet acc (sumKey e p f j l))).1 := by
  obtain ⟨a, -, hsame, hfold⟩ := foldl_at_key (P := fun _ : Tbl Word × Bool => True) (key := id) (l := List.range (passFacets p.w0)) (n := f)
    (g := fun r : Tbl Word × Bool => mapGet r.1 (sumKey e p f j l)) (f := facetStep e p lanes clsA clsB j bcol) (s := (acc, false))
    (fun _ _ _ => trivial) (fun f' hf' hne a _ => facetStep_other _ a fun l' hl' he => hne
      (sumKey_injective h hf (List.mem_range.mp hf') hj hj hl hl' he).1.symm)
    (by rw [List.map_id]; exact List.nodup_range) (List.mem_range.mpr hf) trivial
  rw [passColumn_eq]
  refine hfold.trans ((facetStep_at bcol h hf hj hl a).trans ?_)
  rw [hsame]

/-- One column of a pass, with the count of columns that saturated. -/
def columnStep (e : Nat) (p : PassWork) (lanes : List (List (List Nat))) (clsA clsB : Nat) (bcol : Nat → Nat → List Nat) (a : Tbl Word × Nat)
    (j : Nat) : Tbl Word × Nat :=
  let y := passColumn e p lanes (fun f => bcol f j) clsA clsB a.1 j
  (y.1, if y.2 then a.2 + 1 else a.2)

/-- The columns of a pass on one engine. -/
def passColumns (e : Nat) (p : PassWork) (lanes : List (List (List Nat))) (clsA clsB : Nat) (bcol : Nat → Nat → List Nat) (acc : Tbl Word) :
    Tbl Word × Nat :=
  (List.range (bits p.w0 11 0)).foldl (columnStep e p lanes clsA clsB bcol) (acc, 0)

/-- The pass on an engine writes the accumulator of the key. -/
def PassWrites (e : Nat) (p : PassWork) (k : Nat) : Prop :=
  ∃ f j l, f < passFacets p.w0 ∧ j < bits p.w0 11 0 ∧ l < 32 ∧ k = sumKey e p f j l

theorem passColumns_other (bcol : Nat → Nat → List Nat) (acc : Tbl Word) {k : Nat} (hk : ¬ PassWrites e p k) :
    mapGet (passColumns e p lanes clsA clsB bcol acc).1 k = mapGet acc k :=
  foldl_unchanged (P := fun _ => True) (g := fun r : Tbl Word × Nat => mapGet r.1 k) (fun _ _ _ => trivial)
    (fun j hj a _ => passColumn_other _ a.1 fun f hf l hl he => hk ⟨f, j, l, hf, List.mem_range.mp hj, hl, he⟩) trivial

theorem passColumns_at (bcol : Nat → Nat → List Nat) (h : WordFits p.w0) (hf : f < passFacets p.w0) (hj : j < bits p.w0 11 0) (hl : l < 32)
    (acc : Tbl Word) : mapGet (passColumns e p lanes clsA clsB bcol acc).1 (sumKey e p f j l) =
      some (laneValue p lanes clsA clsB f l (bcol f j) (mapGet acc (sumKey e p f j l))).1 := by
  obtain ⟨a, -, hsame, hfold⟩ := foldl_at_key (P := fun _ : Tbl Word × Nat => True) (key := id) (l := List.range (bits p.w0 11 0)) (n := j)
    (g := fun r : Tbl Word × Nat => mapGet r.1 (sumKey e p f j l)) (f := columnStep e p lanes clsA clsB bcol) (s := (acc, 0))
    (fun _ _ _ => trivial) (fun j' hj' hne a _ => passColumn_other _ a.1 fun f' hf' l' hl' he => hne
      (sumKey_injective h hf hf' hj (List.mem_range.mp hj') hl hl' he).2.1.symm)
    (by rw [List.map_id]; exact List.nodup_range) (List.mem_range.mpr hj) trivial
  refine hfold.trans ((passColumn_at (fun f => bcol f j) h hf hj hl a.1).trans ?_)
  rw [hsame]

theorem sumKey_engine {e' : Nat} (h : WordFits p.w0) (hf : f < passFacets p.w0) (hj : j < bits p.w0 11 0) (hl : l < 32) {q : PassWork}
    (hq : WordFits q.w0) (hne : e' ≠ e) : ¬ PassWrites e' q (sumKey e p f j l) := by
  rintro ⟨f', j', l', hf', hj', hl', he⟩
  exact hne (accKey_injective (accEntry_lt h hf hj) (accEntry_lt hq hf' hj') hl hl' he).1.symm

end Columns

/-! ## The pass on one engine (R72, R82, R85) -/

section Compute
variable {s a : State} {i : Issuing} {src wait : Nat} {tm : PassTiming} {r : FeedRun}

/-- The codes that the lanes of an engine multiply by in its pass, with its input buffer filled. -/
def lanesIn (en : Engine) (p : PassWork) : List (List (List Nat)) :=
  if bit p.w0 25 then lanesOf p.rows (bits p.w1 3 0) en.aTable en.input else en.active

/-- The columns of a pass on one engine, from the stores of it and of the engine that feeds (R73, R74). -/
def computedColumns (s : State) (i : Issuing) (src : Nat) : Tbl Word × Nat :=
  passColumns i.e i.p (lanesIn (s.engine i.e) i.p) (s.passClasses i.e i.p).1 (s.passClasses i.e i.p).2
    (fun f j => feedColumn i.p (bits i.p.w1 7 4) (s.engine src).bTable (s.engine src).fifo f j) s.acc

/-- An engine after its pass. -/
def computedEngine (en : Engine) (i : Issuing) (tm : PassTiming) (wait : Nat) (r : FeedRun) : Engine :=
  { en with
    active := lanesIn en i.p, shadow := if bit i.p.w0 25 then en.active else en.shadow, work := i.rest
    sinceSwap := if bit i.p.w0 25 then (if tm.idle = 0 then r.eclk - wait else r.eclk - r.first)
      else en.sinceSwap + tm.idle + tm.drainWait + r.eclk
    bad := en.bad.filter (fun b => !(decide (b.1 = 2) && i.p.writes b.2)) }

theorem computePass_eq (s : State) (i : Issuing) (src : Nat) (tm : PassTiming) (wait : Nat) (r : FeedRun) :
    s.computePass i src tm wait r = ((({ s.passCounts i.e r with acc := (computedColumns s i src).1 }).setEngine i.e
      (computedEngine (s.engine i.e) i tm wait r)).count (Reg.MX_INT_SAT i.e) (computedColumns s i src).2).tally (Reg.MX_PASS_DONE i.e) := by
  have hcolumns : (List.range (bits i.p.w0 11 0)).foldl (fun (a : Tbl Word × Nat) j =>
      let y := passColumn i.e i.p (lanesIn (s.engine i.e) i.p)
        (fun f => feedColumn i.p (bits i.p.w1 7 4) (s.engine src).bTable (s.engine src).fifo f j)
        (s.passClasses i.e i.p).1 (s.passClasses i.e i.p).2 a.1 j
      (y.1, if y.2 then a.2 + 1 else a.2)) (s.acc, 0) = computedColumns s i src := rfl
  rw [← hcolumns]
  rfl

/-- The registers of an engine's page that a pass counts in. -/
def passCounters (e : Nat) : List Nat :=
  [Reg.MX_FEED_BUBBLE e, Reg.MX_SHADOW_WAIT e, Reg.MX_CLAMP_BUBBLE e, Reg.MX_CLAMP_PASS e, Reg.MX_INT_SAT e, Reg.MX_PASS_DONE e]

theorem engineReg_ne_engine {e e' o o' : Nat} (he : e ≠ e') (ho : o < 4096) (ho' : o' < 4096) :
    rkey (0x101 + 16 * (e / 8) + e % 8) o ≠ rkey (0x101 + 16 * (e' / 8) + e' % 8) o' := by
  have hlt := Nat.mod_lt e (y := 8) (by decide)
  have hlt' := Nat.mod_lt e' (y := 8) (by decide)
  have hdiv := Nat.div_add_mod e 8
  have hdiv' := Nat.div_add_mod e' 8
  unfold rkey
  omega

/-- A register of an engine's page is no counter of another engine, and a counter of its own by its offset alone. -/
theorem not_mem_passCounters {e e' o : Nat} (ho : o < 4096) (h : e ≠ e' ∨ o ∉ [0xE08, 0xE0C, 0xE10, 0xE14, 0xE18, 0xE00]) :
    rkey (0x101 + 16 * (e / 8) + e % 8) o ∉ passCounters e' := by
  intro hm
  simp only [passCounters, List.mem_cons, List.not_mem_nil, or_false] at hm h
  by_cases he : e = e'
  · subst he
    simp only [ne_eq, not_true_eq_false, false_or, not_or] at h
    simp only [Reg.MX_FEED_BUBBLE, Reg.MX_SHADOW_WAIT, Reg.MX_CLAMP_BUBBLE, Reg.MX_CLAMP_PASS, Reg.MX_INT_SAT, Reg.MX_PASS_DONE, rkey,
      Nat.add_left_cancel_iff] at hm
    omega
  · rcases hm with hm | hm | hm | hm | hm | hm <;> exact engineReg_ne_engine he ho (by decide) hm

theorem passCounts_frame (s : State) (e : Nat) (r : FeedRun) : { s.passCounts e r with regs := s.regs } = s ∧
    ∀ k, k ∉ [Reg.MX_FEED_BUBBLE e, Reg.MX_SHADOW_WAIT e, Reg.MX_CLAMP_BUBBLE e, Reg.MX_CLAMP_PASS e] → (s.passCounts e r).reg k = s.reg k := by
  refine ⟨?_, fun k hk => ?_⟩
  · unfold State.passCounts
    dsimp only
    split <;> rfl
  · simp only [List.mem_cons, List.not_mem_nil, or_false, not_or] at hk
    obtain ⟨hfeed, hshadow, hclamp, hpass⟩ := hk
    have hcounts := ((reg_count_other (((s.count (Reg.MX_FEED_BUBBLE e) r.feed).count (Reg.MX_SHADOW_WAIT e) r.shadow)) hclamp r.clamp).trans
      (reg_count_other _ hshadow r.shadow)).trans (reg_count_other s hfeed r.feed)
    unfold State.passCounts
    dsimp only
    split
    · exact (reg_tally_other _ hpass).trans hcounts
    · exact hcounts

/-- What a pass on an engine leaves alone. -/
structure ComputeFrame (i : Issuing) (s t : State) : Prop where
  mem : t.mem = s.mem
  drams : t.drams = s.drams
  other : ∀ e, e ≠ i.e → t.engine e = s.engine e
  bTable : ∀ e, (t.engine e).bTable = (s.engine e).bTable
  fifo : ∀ e, (t.engine e).fifo = (s.engine e).fifo
  reg : ∀ k, k ∉ passCounters i.e → t.reg k = s.reg k

theorem computePass_frame (s : State) (i : Issuing) (src : Nat) (tm : PassTiming) (wait : Nat) (r : FeedRun) :
    ComputeFrame i s (s.computePass i src tm wait r) ∧
    (s.computePass i src tm wait r).engine i.e = computedEngine (s.engine i.e) i tm wait r ∧
    (s.computePass i src tm wait r).acc = (computedColumns s i src).1 ∧
    (s.computePass i src tm wait r).reg (Reg.MX_PASS_DONE i.e) = s.counted (Reg.MX_PASS_DONE i.e) := by
  obtain ⟨hrest, hcounts⟩ := passCounts_frame s i.e r
  rw [computePass_eq]
  generalize computedColumns s i src = q
  generalize s.passCounts i.e r = u at hrest hcounts
  have hmem := congrArg State.mem hrest
  have hdrams := congrArg State.drams hrest
  have hengines := congrArg State.engines hrest
  have hengine (e : Nat) : u.engine e = s.engine e := congrArg (fun es : Tbl Engine => mapGetD es e {}) hengines
  obtain ⟨v, hv⟩ : ∃ v, v = computedEngine (s.engine i.e) i tm wait r := ⟨_, rfl⟩
  have hother {e : Nat} (he : e ≠ i.e) : (({ u with acc := q.1 } : State).setEngine i.e v).engine e = s.engine e :=
    (engine_setEngine_other { u with acc := q.1 } he v).trans (hengine e)
  have hsame : (({ u with acc := q.1 } : State).setEngine i.e v).engine i.e = v := engine_setEngine_same { u with acc := q.1 } i.e v
  rw [← hv]
  refine ⟨⟨hmem, hdrams, fun e he => hother he, fun e => ?_, fun e => ?_, fun k hk => ?_⟩, hsame, rfl, ?_⟩
  · by_cases he : e = i.e
    · rw [he]
      exact (congrArg Engine.bTable hsame).trans (by rw [hv]; rfl)
    · exact congrArg Engine.bTable (hother he)
  · by_cases he : e = i.e
    · rw [he]
      exact (congrArg Engine.fifo hsame).trans (by rw [hv]; rfl)
    · exact congrArg Engine.fifo (hother he)
  · simp only [passCounters, List.mem_cons, List.not_mem_nil, or_false, not_or] at hk
    obtain ⟨hfeed, hshadow, hclamp, hpass, hsat, hdone⟩ := hk
    exact ((reg_tally_other _ hdone).trans (reg_count_other _ hsat q.2)).trans (hcounts k (by simp [hfeed, hshadow, hclamp, hpass]))
  · have hdone {o : Nat} (ho : o ≠ 0xE00) : Reg.MX_PASS_DONE i.e ≠ rkey (0x101 + 16 * (i.e / 8) + i.e % 8) o := header_ne (Ne.symm ho)
    refine (reg_tally_same (s := (({ u with acc := q.1 } : State).setEngine i.e v).count (Reg.MX_INT_SAT i.e) q.2) _).trans ?_
    have hbefore : ((({ u with acc := q.1 } : State).setEngine i.e v).count (Reg.MX_INT_SAT i.e) q.2).reg (Reg.MX_PASS_DONE i.e) =
        s.reg (Reg.MX_PASS_DONE i.e) := by
      refine (reg_count_other _ (hdone (by decide)) q.2).trans (hcounts _ ?_)
      simp only [List.mem_cons, List.not_mem_nil, or_false, not_or]
      exact ⟨hdone (by decide), hdone (by decide), hdone (by decide), hdone (by decide)⟩
    rw [hbefore]
    rfl

theorem computePass_unwritten (s : State) (i : Issuing) (src : Nat) (tm : PassTiming) (wait : Nat) (r : FeedRun) {k : Nat}
    (hk : ¬ PassWrites i.e i.p k) : mapGet (s.computePass i src tm wait r).acc k = mapGet s.acc k := by
  rw [(computePass_frame s i src tm wait r).2.2.1]
  exact passColumns_other _ _ hk

/-- An accumulator that a pass adds to. -/
theorem computePass_written (s : State) (i : Issuing) (src : Nat) (tm : PassTiming) (wait : Nat) (r : FeedRun) (h : WordFits i.p.w0)
    {f j l : Nat} (hf : f < passFacets i.p.w0) (hj : j < bits i.p.w0 11 0) (hl : l < 32) :
    mapGet (s.computePass i src tm wait r).acc (sumKey i.e i.p f j l) = some (laneValue i.p (lanesIn (s.engine i.e) i.p)
      (s.passClasses i.e i.p).1 (s.passClasses i.e i.p).2 f l
      (feedColumn i.p (bits i.p.w1 7 4) (s.engine src).bTable (s.engine src).fifo f j) (mapGet s.acc (sumKey i.e i.p f j l))).1 := by
  rw [(computePass_frame s i src tm wait r).2.2.1]
  exact passColumns_at _ h hf hj hl s.acc

end Compute

/-! ## The stores of the engines filled (R70, R84) -/

section Fill
variable {s a : State} {js : List Issuing} {i : Issuing} {src : Nat}

/-- The engines of a group with their stores filled. -/
def passFilled (s : State) (js : List Issuing) (src : Nat) : State := js.foldl (fun (a : State) i => a.fillEngine i src) s

/-- An engine with its stores filled. -/
def filledEngine (s : State) (i : Issuing) (src : Nat) (en : Engine) : Engine :=
  { en with
    input := if bit i.p.w0 25 then s.bufferOf i.p (bits i.p.w1 3 0) else en.input
    fifo := if i.e = src then s.fifoOf i.p (bits i.p.w1 7 4) else en.fifo }

/-- Nothing but the engines differs. -/
def OnlyEngines (s t : State) : Prop := { t with engines := s.engines } = s

theorem OnlyEngines.program {t : State} (h : OnlyEngines s t) : SameProgram s t := by
  have hregs := congrArg State.regs h
  have hregs' : t.regs = s.regs := hregs
  have hmem := congrArg State.mem h
  have hdrams := congrArg State.drams h
  have hupsets := congrArg State.upsets h
  have hpower := congrArg State.power h
  have hsec := congrArg State.sec h
  have hloader := congrArg State.loader h
  have hpools := congrArg State.pools h
  exact ⟨hmem, hdrams, hupsets, hpower, hsec, hloader, hpools, fun k _ => by rw [State.reg, State.reg, hregs']⟩

theorem SameProgram.bufferOf {t : State} (h : SameProgram s t) (p : PassWork) (fmt : Nat) : t.bufferOf p fmt = s.bufferOf p fmt := by
  simp only [State.bufferOf, h.elem]

theorem SameProgram.fifoOf {t : State} (h : SameProgram s t) (p : PassWork) (fmt : Nat) : t.fifoOf p fmt = s.fifoOf p fmt := by
  simp only [State.fifoOf, h.elem]

theorem fillEngine_eq (s : State) (i : Issuing) (src : Nat) :
    s.fillEngine i src = s.setEngine i.e (filledEngine s i src (s.engine i.e)) := rfl

theorem passFilled_onlyEngines (s : State) (js : List Issuing) (src : Nat) : OnlyEngines s (passFilled s js src) :=
  foldl_keeps (P := OnlyEngines s) (f := fun (a : State) i => a.fillEngine i src) (fun _ _ ha => ha) js rfl

theorem passFilled_engine (hjs : (js.map Issuing.e).Nodup) (hi : i ∈ js) :
    (passFilled s js src).engine i.e = filledEngine s i src (s.engine i.e) := by
  obtain ⟨a, ha, hsame, hfold⟩ := foldl_at_key (P := OnlyEngines s) (key := Issuing.e) (l := js) (n := i) (s := s)
    (g := fun a : State => a.engine i.e) (f := fun (a : State) i => a.fillEngine i src) (fun _ _ ha => ha)
    (fun x _ hx a _ => engine_setEngine_other a (Ne.symm hx) _) hjs hi rfl
  refine hfold.trans ((engine_setEngine_same a i.e _).trans ?_)
  rw [hsame]
  unfold filledEngine
  rw [ha.program.bufferOf, ha.program.fifoOf]

/-- Filling the stores leaves the tables of B. -/
theorem passFilled_tables (s : State) (js : List Issuing) (src e : Nat) :
    ((passFilled s js src).engine e).bTable = (s.engine e).bTable := by
  refine foldl_keeps (P := fun a : State => (a.engine e).bTable = (s.engine e).bTable) (f := fun (a : State) i => a.fillEngine i src)
    (fun a x ha => ?_) js rfl
  rw [fillEngine_eq]
  by_cases hx : e = x.e
  · subst hx
    exact (congrArg Engine.bTable (engine_setEngine_same a x.e _)).trans ha
  · exact (congrArg Engine.bTable (engine_setEngine_other a hx _)).trans ha

end Fill

/-! ## The engines of a group (R84) -/

section Group
variable {s : State} {e : Nat} {p : PassWork} {rest : List EngWork} {js : List Issuing}

/-- The engines that issue a pass together: each once, and the one whose weight FIFO feeds among them. -/
structure PassGroup (e : Nat) (p : PassWork) (js : List Issuing) : Prop where
  nodup : (js.map Issuing.e).Nodup
  inside : ∀ i ∈ js, i.e < 64
  source : ∃ i ∈ js, i.e = e ∧ i.p = p

theorem clusterEngines_nodup (c : Nat) : (clusterEngines c).Nodup :=
  List.nodup_range.map fun a b h => by omega

theorem mem_clusterEngines_self (e : Nat) : e ∈ clusterEngines (e / 8) :=
  List.mem_map.mpr ⟨e % 8, List.mem_range.mpr (Nat.mod_lt e (by decide)), Nat.div_add_mod e 8⟩

theorem passGroup_group (he : e < 64) (hnext : nextPass [] (s.engine e).work = some (p, rest)) (hjs : js = s.passGroup e p rest)
    (hne : js ≠ []) : PassGroup e p js := by
  unfold State.passGroup at hjs
  split at hjs
  · subst hjs
    exact ⟨List.nodup_singleton _, fun i hi => List.mem_singleton.mp hi ▸ he, ⟨_, List.mem_singleton_self _, rfl, rfl⟩⟩
  dsimp only at hjs
  split at hjs
  · subst hjs
    refine ⟨?_, fun i hi => ?_, ⟨⟨e, p, rest⟩, ?_, rfl, rfl⟩⟩
    · rw [List.map_filterMap]
      refine ((clusterEngines_nodup _).filter _).filterMap fun g g' x hx hx' => ?_
      simp only [Option.map_map, Option.mem_def, Option.map_eq_some_iff, Function.comp_apply] at hx hx'
      obtain ⟨-, -, rfl⟩ := hx
      obtain ⟨-, -, hg⟩ := hx'
      exact hg.symm
    · obtain ⟨g, hg, hi⟩ := List.mem_filterMap.mp hi
      obtain ⟨-, -, rfl⟩ := Option.map_eq_some_iff.mp hi
      exact mem_clusterEngines_lt (by omega) (List.mem_filter.mp hg).1
    · have hwork : (s.engine e).work ≠ [] := fun h0 => by
        rw [h0] at hnext
        cases hnext
      refine List.mem_filterMap.mpr ⟨e, List.mem_filter.mpr ⟨mem_clusterEngines_self e, by simpa using hwork⟩, ?_⟩
      rw [hnext]
      rfl
  · exact absurd hjs hne

end Group

/-! ## PASS_ISSUE (R79 to R85) -/

section Issue
variable {s : State} {e st : Nat} {sl : Slot} {p : PassWork} {rest : List EngWork} {js : List Issuing} {i : Issuing} {tm : PassTiming}

/-- An engine shows its control words (R96). -/
def wordStep (a : State) (i : Issuing) : State := (a.setReg (Reg.MX_PASS_W0 i.e) i.p.w0).setReg (Reg.MX_PASS_W1 i.e) i.p.w1

theorem wordStep_rest (a : State) (i : Issuing) (m : Tbl Word) : { wordStep a i with regs := m } = { a with regs := m } := rfl

theorem wordStep_other (a : State) (i : Issuing) {k : Nat} (h0 : k ≠ Reg.MX_PASS_W0 i.e) (h1 : k ≠ Reg.MX_PASS_W1 i.e) :
    (wordStep a i).reg k = a.reg k :=
  (reg_setReg_other (a.setReg (Reg.MX_PASS_W0 i.e) i.p.w0) h1 i.p.w1).trans (reg_setReg_other a h0 i.p.w0)

theorem wordStep_words (a : State) (i : Issuing) :
    (wordStep a i).reg (Reg.MX_PASS_W0 i.e) = i.p.w0 ∧ (wordStep a i).reg (Reg.MX_PASS_W1 i.e) = i.p.w1 :=
  ⟨(reg_setReg_other _ (header_ne (by decide)) i.p.w1).trans (reg_setReg_same a _ _), reg_setReg_same _ _ _⟩

/-- The engines of a group show their control words. -/
def wordsShown (s : State) (js : List Issuing) : State := js.foldl wordStep s

theorem wordsShown_program (hjs : ∀ i ∈ js, i.e < 64) (s : State) : SameProgram s (wordsShown s js) := by
  induction js generalizing s with
  | nil => exact ⟨rfl, rfl, rfl, rfl, rfl, rfl, rfl, fun _ _ => rfl⟩
  | cons i r ih =>
    have hi := hjs i List.mem_cons_self
    have hin {k o : Nat} (hk : OutsideClusters k) (ho : o < 4096) : k ≠ rkey (0x101 + 16 * (i.e / 8) + i.e % 8) o := by
      unfold OutsideClusters at hk
      unfold rkey
      omega
    have hstep : SameProgram s (wordStep s i) :=
      ⟨rfl, rfl, rfl, rfl, rfl, rfl, rfl, fun k hk => wordStep_other s i (hin hk (by decide)) (hin hk (by decide))⟩
    exact hstep.trans (ih (fun x hx => hjs x (List.mem_cons_of_mem _ hx)) _)

theorem wordsShown_rest (s : State) (js : List Issuing) : { wordsShown s js with regs := s.regs } = s :=
  foldl_keeps (P := fun a : State => { a with regs := s.regs } = s) (f := wordStep) (fun a i ha => (wordStep_rest a i s.regs).trans ha) js rfl

theorem wordsShown_words (hjs : (js.map Issuing.e).Nodup) (hi : i ∈ js) :
    (wordsShown s js).reg (Reg.MX_PASS_W0 i.e) = i.p.w0 ∧ (wordsShown s js).reg (Reg.MX_PASS_W1 i.e) = i.p.w1 := by
  have hother (x : Issuing) (hx : x.e ≠ i.e) (a : State) {o : Nat} (ho : o < 4096) :
      (wordStep a x).reg (rkey (0x101 + 16 * (i.e / 8) + i.e % 8) o) = a.reg (rkey (0x101 + 16 * (i.e / 8) + i.e % 8) o) :=
    wordStep_other a x (engineReg_ne_engine (Ne.symm hx) ho (by decide)) (engineReg_ne_engine (Ne.symm hx) ho (by decide))
  obtain ⟨a, -, -, hfold⟩ := foldl_at_key (P := fun _ : State => True) (key := Issuing.e) (l := js) (n := i) (s := s)
    (g := fun a : State => (a.reg (Reg.MX_PASS_W0 i.e), a.reg (Reg.MX_PASS_W1 i.e))) (f := wordStep) (fun _ _ _ => trivial)
    (fun x _ hx a _ => Prod.ext (hother x hx a (by decide)) (hother x hx a (by decide))) hjs hi trivial
  obtain ⟨h0, h1⟩ := Prod.ext_iff.mp hfold
  obtain ⟨hw0, hw1⟩ := wordStep_words a i
  exact ⟨h0.trans hw0, h1.trans hw1⟩

theorem wordsShown_reg (s : State) (js : List Issuing) {e o : Nat} (ho : o < 4096) (hw : o ≠ 0x104 ∧ o ≠ 0x108) :
    (wordsShown s js).reg (rkey (0x101 + 16 * (e / 8) + e % 8) o) = s.reg (rkey (0x101 + 16 * (e / 8) + e % 8) o) := by
  have hne (e' : Nat) {o' : Nat} (ho' : o' < 4096) (hoo : o ≠ o') :
      rkey (0x101 + 16 * (e / 8) + e % 8) o ≠ rkey (0x101 + 16 * (e' / 8) + e' % 8) o' := by
    unfold rkey
    omega
  exact foldl_keeps (P := fun a : State => a.reg (rkey (0x101 + 16 * (e / 8) + e % 8) o) = s.reg (rkey (0x101 + 16 * (e / 8) + e % 8) o))
    (f := wordStep) (fun a i ha => (wordStep_other a i (hne i.e (by decide) hw.1) (hne i.e (by decide) hw.2)).trans ha) js rfl

/-- The passes of a group on its engines. -/
def passComputed (s : State) (js : List Issuing) (src : Nat) (tm : PassTiming) (wait : Nat) (r : FeedRun) : State :=
  js.foldl (fun (a : State) i => a.computePass i src tm wait r) s

/-- What the passes of a group leave of the stores, and of what the feeding engine holds. -/
structure FeedFrame (src : Nat) (s t : State) : Prop where
  mem : t.mem = s.mem
  drams : t.drams = s.drams
  bTable : (t.engine src).bTable = (s.engine src).bTable
  fifo : (t.engine src).fifo = (s.engine src).fifo

theorem computePass_feed {src : Nat} {a : State} (h : FeedFrame src s a) (i : Issuing) (tm : PassTiming) (wait : Nat) (r : FeedRun) :
    FeedFrame src s (a.computePass i src tm wait r) := by
  obtain ⟨hframe, -⟩ := computePass_frame a i src tm wait r
  exact ⟨hframe.mem.trans h.mem, hframe.drams.trans h.drams, (hframe.bTable src).trans h.bTable, (hframe.fifo src).trans h.fifo⟩

section Computed
variable {src wait : Nat} {r : FeedRun}

theorem passComputed_feed (s : State) (js : List Issuing) (src : Nat) (tm : PassTiming) (wait : Nat) (r : FeedRun) :
    FeedFrame src s (passComputed s js src tm wait r) :=
  foldl_keeps (P := FeedFrame src s) (f := fun (a : State) i => a.computePass i src tm wait r)
    (fun _ i ha => computePass_feed ha i tm wait r) js ⟨rfl, rfl, rfl, rfl⟩

/-- An engine of a group after the passes: it has run its own pass alone. -/
theorem passComputed_engine (hjs : (js.map Issuing.e).Nodup) (hi : i ∈ js) :
    (passComputed s js src tm wait r).engine i.e = computedEngine (s.engine i.e) i tm wait r := by
  obtain ⟨a, -, hsame, hfold⟩ := foldl_at_key (P := fun _ : State => True) (key := Issuing.e) (l := js) (n := i) (s := s)
    (g := fun a : State => a.engine i.e) (f := fun (a : State) i => a.computePass i src tm wait r) (fun _ _ _ => trivial)
    (fun x _ hx a _ => (computePass_frame a x src tm wait r).1.other i.e (Ne.symm hx)) hjs hi trivial
  refine hfold.trans ((computePass_frame a i src tm wait r).2.1.trans ?_)
  rw [hsame]

theorem passComputed_count (hjs : (js.map Issuing.e).Nodup) (hi : i ∈ js) :
    (passComputed s js src tm wait r).reg (Reg.MX_PASS_DONE i.e) = s.counted (Reg.MX_PASS_DONE i.e) := by
  obtain ⟨a, -, hsame, hfold⟩ := foldl_at_key (P := fun _ : State => True) (key := Issuing.e) (l := js) (n := i) (s := s)
    (g := fun a : State => a.reg (Reg.MX_PASS_DONE i.e)) (f := fun (a : State) i => a.computePass i src tm wait r) (fun _ _ _ => trivial)
    (fun x _ hx a _ => (computePass_frame a x src tm wait r).1.reg _ (not_mem_passCounters (by decide) (Or.inl (Ne.symm hx)))) hjs hi trivial
  refine hfold.trans ((computePass_frame a i src tm wait r).2.2.2.trans ?_)
  rw [State.counted, hsame]
  rfl

theorem passComputed_reg (s : State) (js : List Issuing) (src : Nat) (tm : PassTiming) (wait : Nat) (r : FeedRun) {e o : Nat} (ho : o < 4096)
    (h : o ∉ [0xE08, 0xE0C, 0xE10, 0xE14, 0xE18, 0xE00]) :
    (passComputed s js src tm wait r).reg (rkey (0x101 + 16 * (e / 8) + e % 8) o) = s.reg (rkey (0x101 + 16 * (e / 8) + e % 8) o) :=
  foldl_keeps (P := fun a : State => a.reg (rkey (0x101 + 16 * (e / 8) + e % 8) o) = s.reg (rkey (0x101 + 16 * (e / 8) + e % 8) o))
    (f := fun (a : State) i => a.computePass i src tm wait r)
    (fun a i ha => ((computePass_frame a i src tm wait r).1.reg _ (not_mem_passCounters ho (Or.inr h))).trans ha) js rfl

/-- An accumulator that a pass of the group adds to. -/
theorem passComputed_written (hjs : (js.map Issuing.e).Nodup) (hfits : ∀ x ∈ js, WordFits x.p.w0) (hi : i ∈ js) {f j l : Nat}
    (hf : f < passFacets i.p.w0) (hj : j < bits i.p.w0 11 0) (hl : l < 32) :
    mapGet (passComputed s js src tm wait r).acc (sumKey i.e i.p f j l) = some (laneValue i.p (lanesIn (s.engine i.e) i.p)
      (s.passClasses i.e i.p).1 (s.passClasses i.e i.p).2 f l
      (feedColumn i.p (bits i.p.w1 7 4) (s.engine src).bTable (s.engine src).fifo f j) (mapGet s.acc (sumKey i.e i.p f j l))).1 := by
  obtain ⟨a, ha, hsame, hfold⟩ := foldl_at_key (P := FeedFrame src s) (key := Issuing.e) (l := js) (n := i) (s := s)
    (g := fun a : State => (a.engine i.e, mapGet a.acc (sumKey i.e i.p f j l))) (f := fun (a : State) i => a.computePass i src tm wait r)
    (fun _ x ha => computePass_feed ha x tm wait r)
    (fun x hx hne a _ => Prod.ext ((computePass_frame a x src tm wait r).1.other i.e (Ne.symm hne))
      (computePass_unwritten a x src tm wait r (sumKey_engine (hfits i hi) hf hj hl (hfits x hx) hne))) hjs hi ⟨rfl, rfl, rfl, rfl⟩
  obtain ⟨hengine, hacc⟩ := Prod.ext_iff.mp hsame
  have hclasses : a.passClasses i.e i.p = s.passClasses i.e i.p := by
    dsimp only at hengine
    rw [State.passClasses, State.passClasses, hengine]
  refine (congrArg Prod.snd hfold).trans ((computePass_written a i src tm wait r (hfits i hi) hf hj hl).trans ?_)
  dsimp only at hengine hacc
  rw [hengine, hacc, hclasses, ha.bTable, ha.fifo]

theorem passComputed_unwritten {k : Nat} (hk : ∀ x ∈ js, ¬ PassWrites x.e x.p k) :
    mapGet (passComputed s js src tm wait r).acc k = mapGet s.acc k :=
  foldl_unchanged (P := fun _ : State => True) (g := fun a : State => mapGet a.acc k) (f := fun (a : State) i => a.computePass i src tm wait r)
    (fun _ _ _ => trivial) (fun x hx a _ => computePass_unwritten a x src tm wait r (hk x hx)) trivial

end Computed

/-- A pass of a group that nothing refuses and no error meets. -/
theorem runPass_served (hs : s.AtRest) (hce : tm.ce = []) (hue : tm.ue = none) (hin : ∀ i ∈ js, i.e < 64)
    (hok : ∀ i ∈ js, wordRefused i.p.w0 i.p.w1 (s.passClasses i.e i.p).1 (s.passClasses i.e i.p).2 = false ∧ s.passUe i none = none)
    (hr : s.CanRead (passReads js e)) : ∃ wait r v, s.runPass e st sl js tm =
      ((passComputed (passFilled (wordsShown s js) js e) js e tm wait r).setCluster (e / 8) v).count (Reg.CLUSTER_DRAIN_WAIT (e / 8))
        tm.drainWait := by
  have hprog := wordsShown_program hin s
  have hfind : js.find? (fun i => wordRefused i.p.w0 i.p.w1 (s.passClasses i.e i.p).1 (s.passClasses i.e i.p).2) = none :=
    List.find?_eq_none.mpr fun i hi => by rw [(hok i hi).1]; decide
  have herror : js.findSome? (fun i => (s.passUe i (if i.e = e then tm.ue.map (fun y => (y.1.val, y.2.toNat)) else none)).map
      (fun y => (i.e, y))) = none := by
    refine List.findSome?_eq_none_iff.mpr fun i hi => ?_
    rw [hue, Option.map_none, ite_self, (hok i hi).2]
    rfl
  have hshown : (js.foldl (fun (a : State) i => (a.setReg (Reg.MX_PASS_W0 i.e) i.p.w0).setReg (Reg.MX_PASS_W1 i.e) i.p.w1) s).engineCe e
      (tm.ce.map (fun y => (y.1.val, y.2.toNat))) = wordsShown s js := by
    rw [hce]
    rfl
  unfold State.runPass
  rw [hshown]
  dsimp only
  rw [hfind, herror]
  dsimp only
  rw [readAll_atRest (hprog.atRest hs) st (hprog.canRead hr)]
  exact ⟨_, _, _, rfl⟩

/-- An engine whose next pass may issue issues it with its group. -/
theorem exec_passIssue {e : Fin 64} (hstall : s.engineStall e.val = some (st, sl)) (hnext : nextPass [] (s.engine e.val).work = some (p, rest))
    (hlead : bit p.w0 26 = false ∨ bit (s.reg (Reg.MX_MAP e.val)) 16 = true) (hjs : js = s.passGroup e.val p rest) (hne : js ≠ []) :
    exec (.passIssue e tm) s = done (s.runPass e.val st sl js tm) := by
  have hown : ¬ (bit p.w0 26 = true ∧ bit (s.reg (Reg.MX_MAP e.val)) 16 = false) := by
    rintro ⟨hcast, hmap⟩
    rw [hcast, hmap] at hlead
    simp at hlead
  show execPassIssue e tm s = _
  simp only [execPassIssue, hstall, hnext, if_neg hown, ← hjs]
  cases js with
  | nil => exact absurd rfl hne
  | cons i r => rfl

/-- Under cluster broadcast the command of another engine than logical engine 0 issues nothing. -/
theorem exec_passIssue_follower {e : Fin 64} (hstall : s.engineStall e.val = some (st, sl))
    (hnext : nextPass [] (s.engine e.val).work = some (p, rest)) (hce : tm.ce = []) (hue : tm.ue = none) (hcast : bit p.w0 26 = true)
    (hmap : bit (s.reg (Reg.MX_MAP e.val)) 16 = false) : exec (.passIssue e tm) s = done s := by
  show execPassIssue e tm s = _
  simp only [execPassIssue, hstall, hnext, hcast, hmap, and_self, if_true, hce, hue]
  rfl

/-- The state in which a group's passes run, their words shown and the stores filled: what the passes find there. -/
structure PassReady (s : State) (e : Nat) (p : PassWork) (js : List Issuing) (b : State) : Prop where
  mem : b.mem = s.mem
  drams : b.drams = s.drams
  acc : b.acc = s.acc
  done : ∀ i ∈ js, b.reg (Reg.MX_PASS_DONE i.e) = s.reg (Reg.MX_PASS_DONE i.e)
  words : ∀ i ∈ js, b.reg (Reg.MX_PASS_W0 i.e) = i.p.w0 ∧ b.reg (Reg.MX_PASS_W1 i.e) = i.p.w1
  lanes : ∀ i ∈ js, lanesIn (b.engine i.e) i.p =
    if bit i.p.w0 25 then s.loadLanes i.p (bits i.p.w1 3 0) (s.engine i.e).aTable else (s.engine i.e).active
  classes : ∀ i ∈ js, b.passClasses i.e i.p = s.passClasses i.e i.p
  fifo : (b.engine e).fifo = s.fifoOf p (bits p.w1 7 4)
  bTable : (b.engine e).bTable = (s.engine e).bTable

theorem passReady (h : PassGroup e p js) (s : State) : PassReady s e p js (passFilled (wordsShown s js) js e) := by
  obtain ⟨hnodup, hin, i0, hi0, hsrc, hp⟩ := h
  have hprog := wordsShown_program hin s
  have hrest := wordsShown_rest s js
  have hword {i : Issuing} (hi : i ∈ js) := wordsShown_words (s := s) hnodup hi
  have hdone (x : Nat) := wordsShown_reg s js (e := x) (o := 0xE00) (by decide) (by decide)
  generalize wordsShown s js = u at hprog hrest hword hdone
  have hacc := congrArg State.acc hrest
  have hengines := congrArg State.engines hrest
  have hengine (x : Nat) : u.engine x = s.engine x := congrArg (fun es : Tbl Engine => mapGetD es x {}) hengines
  have honly := passFilled_onlyEngines u js e
  have hfilled {i : Issuing} (hi : i ∈ js) : (passFilled u js e).engine i.e = filledEngine s i e (s.engine i.e) := by
    rw [passFilled_engine hnodup hi, hengine]
    unfold filledEngine
    rw [hprog.bufferOf, hprog.fifoOf]
  have htable := (passFilled_tables u js e e).trans (congrArg Engine.bTable (hengine e))
  generalize passFilled u js e = b at honly hfilled htable
  have hbacc := congrArg State.acc honly
  have hregs := congrArg State.regs honly
  have hreg (k : Nat) : b.reg k = u.reg k := congrArg (fun rs => mapGetD rs k (regReset k)) hregs
  refine ⟨honly.program.mem.trans hprog.mem, honly.program.drams.trans hprog.drams, Eq.trans hbacc hacc,
    fun i _ => (hreg _).trans (hdone i.e), fun i hi => ⟨(hreg _).trans (hword hi).1, (hreg _).trans (hword hi).2⟩,
    fun i hi => ?_, fun i hi => ?_, ?_, htable⟩
  · rw [hfilled hi, lanesIn, filledEngine]
    split <;> rfl
  · rw [State.passClasses, hfilled hi]
    rfl
  · rw [← hsrc, hfilled hi0, filledEngine, ← hp]
    exact if_pos hsrc

/-- A pass that issues, nothing refused: what each engine of the group shows and adds. -/
theorem passIssue_adds {e : Fin 64} (hstall : s.engineStall e.val = some (st, sl))
    (hnext : nextPass [] (s.engine e.val).work = some (p, rest)) (hce : tm.ce = []) (hue : tm.ue = none)
    (hlead : bit p.w0 26 = false ∨ bit (s.reg (Reg.MX_MAP e.val)) 16 = true) (hjs : js = s.passGroup e.val p rest) (hne : js ≠ []) (hs : s.AtRest)
    (hok : ∀ i ∈ js, wordRefused i.p.w0 i.p.w1 (s.passClasses i.e i.p).1 (s.passClasses i.e i.p).2 = false ∧ s.passUe i none = none)
    (hr : s.CanRead (passReads js e.val)) :
    ∃ t, exec (.passIssue e tm) s = .next t ∧ SameBytes s t ∧
      (∀ i ∈ js, ∀ lanes : List (List (List Nat)),
        lanes = (if bit i.p.w0 25 then s.loadLanes i.p (bits i.p.w1 3 0) (s.engine i.e).aTable else (s.engine i.e).active) →
        t.reg (Reg.MX_PASS_DONE i.e) = s.counted (Reg.MX_PASS_DONE i.e) ∧ t.reg (Reg.MX_PASS_W0 i.e) = i.p.w0 ∧
        t.reg (Reg.MX_PASS_W1 i.e) = i.p.w1 ∧ (t.engine i.e).work = i.rest ∧ (t.engine i.e).active = lanes ∧
        ∀ f j r, f < passFacets i.p.w0 → j < bits i.p.w0 11 0 → r < 32 →
          ∀ y, y = accEntry f (passFacets i.p.w0) (bits i.p.w0 22 12) j →
          t.accVal i.e y r = some (accumulate (s.passClasses i.e i.p).1 (s.passClasses i.e i.p).2 (bit i.p.w1 24) (bit i.p.w1 25)
            i.p.zpA.toNat i.p.zpB.toNat ((lanes.getD r []).getD f [])
            (feedColumn i.p (bits i.p.w1 7 4) (s.engine e.val).bTable (s.fifoOf p (bits p.w1 7 4)) f j)
            (s.accVal i.e y r) (!bit i.p.w0 27)).1) ∧
      (∀ key, (∀ i ∈ js, ∀ f j r, f < passFacets i.p.w0 → j < bits i.p.w0 11 0 → r < 32 →
        key ≠ accKey i.e (accEntry f (passFacets i.p.w0) (bits i.p.w0 22 12) j) r) → mapGet t.acc key = mapGet s.acc key) := by
  have hgroup := passGroup_group e.isLt hnext hjs hne
  have hnodup := hgroup.nodup
  have hfits (i : Issuing) (hi : i ∈ js) : WordFits i.p.w0 := wordFits (hok i hi).1
  obtain ⟨wait, r, v, hrun⟩ := runPass_served (st := st) (sl := sl) hs hce hue hgroup.inside hok hr
  have hready := passReady hgroup s
  rw [exec_passIssue hstall hnext hlead hjs hne, hrun]
  generalize passFilled (wordsShown s js) js e.val = b at hready
  have hfeed := passComputed_feed b js e.val tm wait r
  have hdone {i : Issuing} (hi : i ∈ js) := passComputed_count (s := b) (src := e.val) (tm := tm) (wait := wait) (r := r) hnodup hi
  have hengine {i : Issuing} (hi : i ∈ js) := passComputed_engine (s := b) (src := e.val) (tm := tm) (wait := wait) (r := r) hnodup hi
  have hreg {x o : Nat} (ho : o < 4096) (h : o ∉ [0xE08, 0xE0C, 0xE10, 0xE14, 0xE18, 0xE00]) :=
    passComputed_reg b js e.val tm wait r (e := x) ho h
  have hsum {i : Issuing} (hi : i ∈ js) {f j l : Nat} (hf : f < passFacets i.p.w0) (hj : j < bits i.p.w0 11 0) (hl : l < 32) :=
    passComputed_written (s := b) (src := e.val) (tm := tm) (wait := wait) (r := r) hnodup hfits hi hf hj hl
  have hkeep {k : Nat} (hk : ∀ x ∈ js, ¬ PassWrites x.e x.p k) :=
    passComputed_unwritten (s := b) (src := e.val) (tm := tm) (wait := wait) (r := r) hk
  generalize passComputed b js e.val tm wait r = w at hfeed hdone hengine hreg hsum hkeep
  have hend {x o : Nat} (ho : o < 4096 ∧ o ≠ 0xE08 ∧ o ≠ 0xE20) :
      (settle ((w.setCluster (e.val / 8) v).count (Reg.CLUSTER_DRAIN_WAIT (e.val / 8)) tm.drainWait)).reg
        (rkey (0x101 + 16 * (x / 8) + x % 8) o) = w.reg (rkey (0x101 + 16 * (x / 8) + x % 8) o) :=
    (seqReg_settle _ ho).trans (reg_count_other _ (sequencerReg_ne_engine (by decide) ho.1).symm _)
  refine ⟨_, rfl, sameBytes_of_mem_drams (hfeed.mem.trans hready.mem) (hfeed.drams.trans hready.drams),
    fun i hi lanes hl => ⟨?_, ?_, ?_, congrArg Engine.work (hengine hi), ?_, ?_⟩, fun key hkey => ?_⟩
  · refine (hend (by decide)).trans ((hdone hi).trans ?_)
    rw [State.counted, hready.done i hi]
    rfl
  · exact ((hend (by decide)).trans (hreg (by decide) (by decide))).trans (hready.words i hi).1
  · exact ((hend (by decide)).trans (hreg (by decide) (by decide))).trans (hready.words i hi).2
  · exact (congrArg Engine.active (hengine hi)).trans ((hready.lanes i hi).trans hl.symm)
  · rintro f j l hf hj hlane y rfl
    have hvalue := hsum hi hf hj hlane
    rw [hready.lanes i hi, ← hl, hready.classes i hi, hready.fifo, hready.bTable, hready.acc] at hvalue
    exact hvalue
  · refine (hkeep fun x hx hw => ?_).trans (by rw [hready.acc])
    obtain ⟨f, j, l, hf, hj, hlane, he⟩ := hw
    exact hkey x hx f j l hf hj hlane he

end Issue

/-- Settles O58: MATMUL's work, its passes and drains, and the three instructions of the vector engine that give no tensor. -/
theorem matrixWorkAndTheOtherInstructions : Obligations.MatrixWorkAndTheOtherInstructions := by
  refine ⟨?_, ?_, ?_, ?_, ?_, ?_⟩
  · intro c pc s x es q m n k h _ hes htags hq hm hn hk
    obtain ⟨rfl, -⟩ := runs_slot h
    exact matmul_plans h hes htags hq hm hn hk
  · intro e tm s st sl p rest hstall hnext hce hue
    refine ⟨fun hcast hmap => ?_, fun js hlead hjs hne hs hok hr => passIssue_adds hstall hnext hce hue hlead hjs hne hs hok hr⟩
    rw [exec_passIssue_follower hstall hnext hce hue hcast hmap]
    exact ⟨_, rfl, onlyRegs_settle (onlyRegs_refl [] s)⟩
  · intro e s st sl d rest ws hstall hwork hs hrows hbad hr hws hw
    exact blockDrain_drains hstall hwork hs hrows hbad hr hws hw
  · intro c pc s x cn col cap rows rg h hrows hcn hcol hcap hrg
    obtain ⟨rfl, -⟩ := runs_slot h
    subst hcol hcap
    refine ⟨fun hempty => select_empty h (by rwa [← hrows, ← hcn]), fun hone hne hr hw => ?_⟩
    exact select_one h (hrows ▸ hone) hcn hne hrg hr hw
  · intro c pc s x n ps h hn hps hr hw
    obtain ⟨rfl, -⟩ := runs_slot h
    obtain ⟨t, hexec, hran, hshows⟩ := kpred_predicts h hn hps hr hw
    refine ⟨t, hexec, hran.started, hran.outside, hran.slot x.st, fun hone => ?_⟩
    have hfirst : kpredPtr x 0 = descPtr x.c (x.w 4) := by
      rw [kpredPtr, Nat.zero_mul]
      rfl
    have hbytes := hshows hone
    rw [kpredBytes, hfirst] at hbytes
    exact hbytes
  · intro c pc s x base p d n cnt eb h hbase hn hd hcnt heb hp hr
    obtain ⟨rfl, -⟩ := runs_slot h
    exact cbload_loads h hbase hn hd hcnt heb hp hr

end Sys2Proof.Laws
end

section
/-!
SUPPORT. Groups of the vector engine, the patch expander and the window unit (R116 to R118, R146, R168): what a group may count besides
its writes, and that groups which nothing refuses leave everything outside their ranges.
-/
namespace Sys2Proof.Laws
open Sys2Proof.Machine

/-! ## What a group may count and step (R118, R136, R138, R153, R157) -/

section Tallies
variable {s t u : State} {c : Fin 8}

/-- The tallies that a group may count. -/
def groupTallies (c : Nat) : List Nat :=
  [Reg.VX_CVT_SAT c, Reg.VX_CVT_NAN_ZERO c, Reg.VX_CVT_UNDERFLOW c, Reg.VX_NAN_OUT c, Reg.VX_INT_SAT c, Reg.VX_SCALE_ZERO c,
    Reg.VX_SCALE_INF c, Reg.WU_NAN_OUT c, Reg.WU_SAT_OUT c]

/-- They lie on the pages of the vector engine and of the window unit. -/
theorem rkey_mem_groupTallies {c p o : Nat} (ho : o < 4096) : rkey (p + 16 * c) o ∈ groupTallies c ↔
    p = 0x109 ∧ o ∈ [0xE00, 0xE04, 0xE08, 0xE0C, 0xE10, 0xE14, 0xE18] ∨ p = 0x10B ∧ o ∈ [0xE04, 0xE08] := by
  simp only [groupTallies, Reg.VX_CVT_SAT, Reg.VX_CVT_NAN_ZERO, Reg.VX_CVT_UNDERFLOW, Reg.VX_NAN_OUT, Reg.VX_INT_SAT, Reg.VX_SCALE_ZERO,
    Reg.VX_SCALE_INF, Reg.WU_NAN_OUT, Reg.WU_SAT_OUT, rkey, List.mem_cons, List.not_mem_nil, or_false]
  omega

/-- A register of a unit of a cluster lies on the cluster's pages. -/
theorem unitReg_not_outside (c : Fin 8) {p o : Nat} (hp : 0x100 ≤ p ∧ p < 0x110) (ho : o < 4096) :
    ¬ OutsideClusters (rkey (p + 16 * c.val) o) := by
  have hc := c.isLt
  unfold OutsideClusters rkey
  omega

theorem groupTallies_inside (c : Fin 8) {k : Nat} (hk : k ∈ groupTallies c.val) : ¬ OutsideClusters k := by
  simp only [groupTallies, List.mem_cons, List.not_mem_nil, or_false] at hk
  rcases hk with rfl | rfl | rfl | rfl | rfl | rfl | rfl | rfl | rfl
  all_goals exact unitReg_not_outside c (by decide) (by decide)

/-- SEQ_PC and the LAST_INSTR of a unit are none of them. -/
theorem not_mem_groupTallies {c p o : Nat} (ho : o < 0xE00) : rkey (p + 16 * c) o ∉ groupTallies c := by
  rw [rkey_mem_groupTallies (by omega)]
  simp only [List.mem_cons, List.not_mem_nil, or_false]
  omega

theorem SameProgram.refl (s : State) : SameProgram s s := ⟨rfl, rfl, rfl, rfl, rfl, rfl, rfl, fun _ _ => rfl⟩

theorem SameProgram.setReg (h : SameProgram s t) {k : Nat} (hk : ¬ OutsideClusters k) (v : Word) : SameProgram s (t.setReg k v) where
  mem := h.mem
  drams := h.drams
  upsets := h.upsets
  power := h.power
  sec := h.sec
  loader := h.loader
  pools := h.pools
  reg k' hk' := (reg_setReg_other t (by rintro rfl; exact hk hk') v).trans (h.reg k' hk')

/-- Only the tallies of a group and the lanes' shift registers of the cluster differ. -/
structure Tallied (c : Fin 8) (s t : State) : Prop where
  program : SameProgram s t
  stalls : t.stalls = s.stalls
  reg : ∀ k, k ∉ groupTallies c.val → t.reg k = s.reg k
  started : (t.cluster c.val).started = (s.cluster c.val).started
  vxTable : (t.cluster c.val).vxTable = (s.cluster c.val).vxTable

namespace Tallied

theorem refl (c : Fin 8) (s : State) : Tallied c s s := ⟨SameProgram.refl s, rfl, fun _ _ => rfl, rfl, rfl⟩

theorem count (h : Tallied c s t) {k : Nat} (hk : k ∈ groupTallies c.val) (n : Nat) : Tallied c s (t.count k n) where
  program := h.program.setReg (groupTallies_inside c hk) _
  stalls := h.stalls
  reg k' hk' := (reg_count_other t (ne_of_mem_of_not_mem hk hk').symm n).trans (h.reg k' hk')
  started := h.started
  vxTable := h.vxTable

theorem tally (h : Tallied c s t) {k : Nat} (hk : k ∈ groupTallies c.val) : Tallied c s (t.tally k) := h.count hk 1

theorem setLanes (h : Tallied c s t) (l : Tbl Word) : Tallied c s (t.setCluster c.val { t.cluster c.val with lfsr := l }) where
  program := ⟨h.program.mem, h.program.drams, h.program.upsets, h.program.power, h.program.sec, h.program.loader, h.program.pools,
    h.program.reg⟩
  stalls := h.stalls
  reg := h.reg
  started := (congrArg Cluster.started (cluster_setCluster_same t c.val _)).trans h.started
  vxTable := (congrArg Cluster.vxTable (cluster_setCluster_same t c.val _)).trans h.vxTable

end Tallied

end Tallies

/-! ## Runs of groups (R146, R168) -/

section Runs
variable {s t u : State} {c : Fin 8} {pc : Nat} {x : Issue} {rs rs' : List (Ptr × Nat)}

/-- Groups have counted and written at most the ranges. -/
structure Worked (c : Fin 8) (rs : List (Ptr × Nat)) (s t : State) : Prop where
  bytes : BytesOnly s t
  outside : s.SameOutside t rs
  stalls : t.stalls = s.stalls
  reg : ∀ k, k ∉ groupTallies c.val → t.reg k = s.reg k
  started : (t.cluster c.val).started = (s.cluster c.val).started

theorem Worked.refl (c : Fin 8) (s : State) : Worked c [] s s := ⟨BytesOnly.refl s, fun _ _ => rfl, rfl, fun _ _ => rfl, rfl⟩

theorem Worked.trans (h : Worked c rs s t) (h' : Worked c rs' t u) : Worked c (rs ++ rs') s u where
  bytes := h.bytes.trans h'.bytes
  outside := h.bytes.sameOutside h.outside h'.outside
  stalls := h'.stalls.trans h.stalls
  reg k hk := (h'.reg k hk).trans (h.reg k hk)
  started := h'.started.trans h.started

/-- What a job's writes leave of everything but bytes. -/
theorem written_keeps (s : State) (ds : List (Ptr × List Byte)) :
    (written s ds).stalls = s.stalls ∧ (written s ds).regs = s.regs ∧ (written s ds).clusters = s.clusters := by
  have hrest := written_rest s ds
  generalize written s ds = w at hrest
  have hstalls := congrArg State.stalls hrest
  have hregs := congrArg State.regs hrest
  have hclusters := congrArg State.clusters hrest
  exact ⟨hstalls, hregs, hclusters⟩

theorem Tallied.written (h : Tallied c s t) (ds : List (Ptr × List Byte)) : Worked c (writeRanges ds) s (written t ds) := by
  obtain ⟨hstalls, hregs, hclusters⟩ := written_keeps t ds
  refine ⟨h.program.bytesOnly.trans (written_bytesOnly t ds), ?_, hstalls.trans h.stalls, fun k hk => ?_, ?_⟩
  · exact h.program.bytesOnly.sameOutside (rs := []) (sameOutside_of_sameBytes h.program.sameMemory.sameBytes [])
      (written_sameOutside t ds)
  · rw [State.reg, hregs]
    exact h.reg k hk
  · rw [State.cluster, hclusters]
    exact h.started

/-- An instruction that has started and whose groups have worked has run. -/
theorem Ran.worked (h : Ran c pc [] s t) (hprog : SameProgram s t) (hw : Worked c rs t u) : Ran c pc rs s u where
  started := ⟨hw.started.trans h.started.1, (hw.reg _ (not_mem_groupTallies (by decide))).trans h.started.2⟩
  outside := hprog.bytesOnly.sameOutside h.outside hw.outside
  stalls := hw.stalls.trans h.stalls

/-- A group reads the first ranges; it counts at most its tallies, and then writes the second. -/
def GroupForm (c : Fin 8) (st : Nat) (g : Group) (q : List (Ptr × Nat) × List (Ptr × Nat)) : Prop :=
  g.reads = q.1 ∧ ∀ a, ∃ b ds, Tallied c a b ∧ writeRanges ds = q.2 ∧ g.act a = b.writeAll st ds

/-- Groups that nothing refuses all run, and leave every byte outside their ranges. -/
theorem runGroups_worked (hs : s.AtRest) {gs : List Group} {qs : List (List (Ptr × Nat) × List (Ptr × Nat))}
    (hg : List.Forall₂ (GroupForm c x.st) gs qs) (hr : s.CanRead (qs.flatMap Prod.fst)) (hw : s.CanWrite (qs.flatMap Prod.snd)) (i : Nat) :
    ∃ t, s.runGroups x none i gs = (t, true) ∧ Worked c (qs.flatMap Prod.snd) s t := by
  induction hg generalizing s i with
  | nil => exact ⟨s, rfl, Worked.refl c s⟩
  | cons hform _ ih =>
    obtain ⟨hreads, hacts⟩ := hform
    obtain ⟨b, ds, hb, hds, hact⟩ := hacts s
    rw [List.flatMap_cons] at hr hw
    have hfirst : b.CanWrite (writeRanges ds) := hb.program.canWrite fun q hq => hw q (List.mem_append_left _ (hds ▸ hq))
    have hworked := hb.written ds
    obtain ⟨t, hrun, hrest⟩ := ih (hworked.bytes.atRest hs) (hworked.bytes.canRead fun q hq => hr q (List.mem_append_right _ hq))
      (hworked.bytes.canWrite fun q hq => hw q (List.mem_append_right _ hq)) (i + 1)
    refine ⟨t, ?_, ?_⟩
    · simp only [State.runGroups, hreads, readAll_atRest hs x.st fun q hq => hr q (List.mem_append_left _ hq), hact,
        writeAll_written (hb.program.atRest hs) x.st hfirst, reduceCtorEq, if_false]
      exact hrun
    · rw [List.flatMap_cons, ← hds]
      exact hworked.trans hrest

/-- What a single write leaves at its range. -/
theorem runGroups_single (hs : s.AtRest) {g : Group} {p : Ptr} {d : List Byte} (hr : s.CanRead g.reads) (hw : s.CanWrite [(p, d.length)])
    (hb : Tallied c s u) (hact : g.act s = u.writeAll x.st [(p, d)]) (i : Nat) :
    (s.runGroups x none i [g]).1.shows p d.length = d := by
  have hcan := hb.program.canWrite hw
  rw [runGroups_one hs hr (hact.trans (writeAll_atRest (hb.program.atRest hs) x.st hcan))]
  exact pokes_shows hcan

end Runs

end Sys2Proof.Laws
end

section
/-!
SUPPORT. What a group of the vector engine writes (R122, R133 to R138, R146, R153, R158): the codes of its elements in order, whatever
the elements before have counted; and the two kinds of groups, those of elements and those of one run of bytes.
-/
namespace Sys2Proof.Laws
open Sys2Proof.Machine

/-! ## Codes in memory order (R122) -/

theorem packCodes_length {b : Nat} (hb : b = 4 ∨ 8 ∣ b) (l : List Nat) : (packCodes b l).length = (l.length * b + 7) / 8 := by
  have hwhole (h : b ≠ 4) : ∃ k, b = 8 * k := hb.resolve_left h
  induction l using packCodes.induct with
  | b => exact b
  | case1 => simp [packCodes]
  | case2 x h => simp [packCodes, h]
  | case3 x h =>
    obtain ⟨k, rfl⟩ := hwhole h
    rw [packCodes, if_neg h, leBytes_length, List.length_singleton]
    omega
  | case4 x y r h ih =>
    subst h
    rw [packCodes, if_pos rfl, List.length_cons, ih, List.length_cons, List.length_cons]
    omega
  | case5 x y r h ih =>
    obtain ⟨k, rfl⟩ := hwhole h
    rw [packCodes, if_neg h, List.length_append, List.length_append, ih, leBytes_length, leBytes_length, List.length_cons,
      List.length_cons, Nat.add_mul, Nat.add_mul]
    omega

/-! ## Lists of results that a fold collects -/

section Collect
variable {σ ι β : Type} {P : σ → Prop} {f : σ → ι → σ × β}

/-- A fold that gathers a result for each index gathers them in order, each of a state that the steps keep. -/
theorem foldl_collect (hf : ∀ a i, P a → P (f a i).1) (l : List ι) {a : σ} (ha : P a) : ∃ b ds, P b ∧
    List.Forall₂ (fun i d => ∃ a', P a' ∧ (f a' i).2 = d) l ds ∧
    ∀ acc, l.foldl (fun (b : σ × List β) i => ((f b.1 i).1, b.2 ++ [(f b.1 i).2])) (a, acc) = (b, acc ++ ds) := by
  induction l generalizing a with
  | nil => exact ⟨a, [], ha, .nil, fun acc => by rw [List.append_nil]; rfl⟩
  | cons i r ih =>
    obtain ⟨b, ds, hb, hds, hfold⟩ := ih (hf a i ha)
    exact ⟨b, (f a i).2 :: ds, hb, .cons ⟨a, ha, rfl⟩ hds, fun acc => by rw [List.foldl_cons, hfold, List.append_assoc]; rfl⟩

end Collect

section Groups
variable {a b : State} {x : Issue} {c : Fin 8} {rows cols : List Nat} {f : State → Nat → Nat → State × Nat}

/-- The first byte that a group writes of row i. -/
def groupPtr (x : Issue) (cols : List Nat) (i : Nat) : Ptr := ptrAdd (x.d.row i) (cols.headD 0 * elemBits x.d.fmt / 8)

/-- The ranges that a group of elements writes, given by its rows and columns. -/
def elementRanges (x : Issue) (g : List Nat × List Nat) : List (Ptr × Nat) :=
  g.1.map (fun i => (groupPtr x g.2 i, (g.2.length * elemBits x.d.fmt + 7) / 8))

/-- A group of a row's first columns writes from the row's first byte on. -/
theorem groupPtr_range (x : Issue) (n i : Nat) : groupPtr x (List.range n) i = x.d.row i := by
  have hhead : (List.range n).headD 0 = 0 := by cases n <;> simp [List.range_succ_eq_map]
  rw [groupPtr, hhead, Nat.zero_mul, Nat.zero_div, ptrAdd_zero]

theorem elementRanges_row (x : Issue) (i n : Nat) :
    elementRanges x ([i], List.range n) = [(x.d.row i, (n * elemBits x.d.fmt + 7) / 8)] := by
  rw [elementRanges, List.map_singleton, groupPtr_range, List.length_range]

/-- D is not blocked, and its first row begins where it does. -/
theorem d_row_zero (x : Issue) : x.d.row 0 = x.d.p := by
  show ptrAdd x.d.p (0 * x.d.stride) = x.d.p
  rw [Nat.zero_mul, ptrAdd_zero]

theorem elemBits_whole (fmt : Nat) : elemBits fmt = 4 ∨ 8 ∣ elemBits fmt := by
  unfold elemBits
  split <;> decide

/-- The codes of a row of a group, and the state that has computed them. -/
def rowCodes (f : State → Nat → Nat → State × Nat) (cols : List Nat) (b : State) (i : Nat) : State × List Nat :=
  cols.foldl (fun (b : State × List Nat) j => ((f b.1 i j).1, b.2 ++ [(f b.1 i j).2])) (b, [])

theorem rowCodes_collects (hf : ∀ b i j, Tallied c a b → Tallied c a (f b i j).1) (cols : List Nat) (hb : Tallied c a b) (i : Nat) :
    Tallied c a (rowCodes f cols b i).1 ∧
    List.Forall₂ (fun j k => ∃ b', Tallied c a b' ∧ (f b' i j).2 = k) cols (rowCodes f cols b i).2 := by
  obtain ⟨b', codes, hb', hcodes, hfold⟩ := foldl_collect (f := fun b j => f b i j) (fun b j => hf b i j) cols hb
  rw [rowCodes, hfold []]
  exact ⟨hb', hcodes⟩

/-- A group whose elements count at most its tallies writes its rows, each the codes of its elements in order. -/
theorem writeGroup_rows (hf : ∀ b i j, Tallied c a b → Tallied c a (f b i j).1) (rows cols : List Nat) : ∃ b ds, Tallied c a b ∧
    a.writeGroup x rows cols f = b.writeAll x.st ds ∧
    List.Forall₂ (fun i d => ∃ b', Tallied c a b' ∧ (groupPtr x cols i, packCodes (elemBits x.d.fmt) (rowCodes f cols b' i).2) = d)
      rows ds := by
  obtain ⟨b, ds, hb, hds, hfold⟩ := foldl_collect (P := Tallied c a)
    (f := fun b i => ((rowCodes f cols b i).1, (groupPtr x cols i, packCodes (elemBits x.d.fmt) (rowCodes f cols b i).2)))
    (fun b i hb => (rowCodes_collects hf cols hb i).1) rows (Tallied.refl c a)
  exact ⟨b, ds, hb, congrArg (fun r : State × List (Ptr × List Byte) => r.1.writeAll x.st r.2) (hfold []), hds⟩

/-- The ranges that a group writes. -/
theorem writeGroup_writes (hf : ∀ b i j, Tallied c a b → Tallied c a (f b i j).1) : ∃ b ds, Tallied c a b ∧
    writeRanges ds = elementRanges x (rows, cols) ∧
    a.writeGroup x rows cols f = b.writeAll x.st ds := by
  obtain ⟨b, ds, hb, hact, hds⟩ := writeGroup_rows (x := x) hf rows cols
  refine ⟨b, ds, hb, ?_, hact⟩
  clear hact
  induction hds with
  | nil => rfl
  | cons hd _ ih =>
    obtain ⟨b', hb', rfl⟩ := hd
    have hlen {i : Nat} := (rowCodes_collects hf cols hb' i).2.length_eq
    rw [writeRanges, List.map_cons, packCodes_length (elemBits_whole _), ← hlen]
    exact congrArg (List.cons _) ih

/-- A group of one row whose codes do not depend on what has been counted writes those codes. -/
theorem writeGroup_row {i : Nat} {g : Nat → Nat} (hf : ∀ b i j, Tallied c a b → Tallied c a (f b i j).1)
    (hg : ∀ b j, Tallied c a b → (f b i j).2 = g j) (cols : List Nat) : ∃ b, Tallied c a b ∧
    a.writeGroup x [i] cols f = b.writeAll x.st [(groupPtr x cols i, packCodes (elemBits x.d.fmt) (cols.map g))] := by
  obtain ⟨b, ds, hb, hact, hds⟩ := writeGroup_rows (x := x) hf [i] cols
  cases hds with
  | cons hd hnil =>
    cases hnil
    obtain ⟨b', hb', rfl⟩ := hd
    have hcodes : cols.map g = (rowCodes f cols b' i).2 := by
      rw [← List.forall₂_eq_eq_eq, List.forall₂_map_left_iff]
      exact (rowCodes_collects hf cols hb' i).2.imp fun j k ⟨b'', hb'', hk⟩ => (hg b'' j hb'').symm.trans hk
    exact ⟨b, hb, hcodes ▸ hact⟩

end Groups

/-! ## Elements of a result (R133 to R138, R153, R158) -/

section Elements
variable {a b : State} {x : Issue}

theorem stepLane_tallied (h : Tallied x.c a b) (lane : Nat) : Tallied x.c a (b.stepLane x lane).1 := by
  unfold State.stepLane
  split
  · exact h.setLanes _
  · exact h

/-- Without stochastic rounding no lane steps. -/
theorem stepLane_idle (hrnd : bits (x.w 1) 21 20 ≠ 2) (b : State) (lane : Nat) : b.stepLane x lane = (b, 0) := if_neg hrnd

theorem countConv_tallied (h : Tallied x.c a b) (t : Nat) : Tallied x.c a (b.countConv x.c.val t) := by
  unfold State.countConv
  split
  · exact h.tally (by simp [groupTallies])
  · exact h.tally (by simp [groupTallies])
  · exact h.tally (by simp [groupTallies])
  · exact h

theorem outElem_tallied (h : Tallied x.c a b) (lane : Nat) (v : Word) : Tallied x.c a (b.outElem x lane v).1 := by
  unfold State.outElem
  dsimp only
  split
  · exact (countConv_tallied (stepLane_tallied h lane) _).tally (by simp [groupTallies])
  · exact countConv_tallied (stepLane_tallied h lane) _

theorem outElem_code (hrnd : bits (x.w 1) 21 20 ≠ 2) (htab : (b.cluster x.c.val).vxTable = (a.cluster x.c.val).vxTable) (l l' : Nat)
    (v : Word) : (b.outElem x l v).2 = (a.outElem x l' v).2 := by
  simp only [State.outElem, stepLane_idle hrnd, htab]

theorem ewElem_tallied (h : Tallied x.c a b) (i j code : Nat) (y : Option (Nat × Nat)) : Tallied x.c a (b.ewElem x i j code y).1 := by
  unfold State.ewElem
  dsimp only
  split
  · split
    · exact h.tally (by simp [groupTallies])
    · exact h
  · exact outElem_tallied h _ _

theorem ewElem_code (hrnd : bits (x.w 1) 21 20 ≠ 2) (htab : (b.cluster x.c.val).vxTable = (a.cluster x.c.val).vxTable) (i j code : Nat)
    (y : Option (Nat × Nat)) : (b.ewElem x i j code y).2 = (a.ewElem x i j code y).2 := by
  unfold State.ewElem
  dsimp only
  split
  · rfl
  · exact outElem_code hrnd htab _ _ _

theorem quantElem_tallied (h : Tallied x.c a b) (lane : Nat) (v sc : Word) : Tallied x.c a (b.quantElem x lane v sc).1 := by
  unfold State.quantElem
  dsimp only
  split
  · exact countConv_tallied (stepLane_tallied h lane) _
  · exact countConv_tallied (stepLane_tallied h lane) _

theorem quantElem_code (hrnd : bits (x.w 1) 21 20 ≠ 2) (l l' : Nat) (v sc : Word) :
    (b.quantElem x l v sc).2 = (a.quantElem x l' v sc).2 := by
  simp only [State.quantElem, stepLane_idle hrnd]
  split <;> rfl

end Elements

/-! ## Two kinds of groups -/

section Groups
variable {s a : State} {c : Fin 8} {x : Issue}

/-- The operands of a group are as in s: nothing that an access depends on differs, nor the vector engine's table. -/
structure SameOperands (c : Fin 8) (s a : State) : Prop where
  program : SameProgram s a
  vxTable : (a.cluster c.val).vxTable = (s.cluster c.val).vxTable

/-- With the operands of s a group writes the bytes d at p. -/
def WritesAt (c : Fin 8) (st : Nat) (s : State) (g : Group) (p : Ptr) (d : List Byte) : Prop :=
  ∀ a, SameOperands c s a → ∃ b, Tallied c a b ∧ g.act a = b.writeAll st [(p, d)]

/-- A group that counts and then writes one run of bytes. -/
def dataGroup (st : Nat) (reads : List (Ptr × Nat)) (count : State → State) (p : Ptr) (d : State → List Byte) : Group where
  reads := reads
  act a := (count a).writeAll st [(p, d a)]

variable {reads : List (Ptr × Nat)} {count : State → State} {p : Ptr} {d : State → List Byte}

theorem dataGroup_form {n : Nat} (st : Nat) (hcount : ∀ a, Tallied c a (count a)) (hlen : ∀ a, (d a).length = n) :
    GroupForm c st (dataGroup st reads count p d) (reads, [(p, n)]) :=
  ⟨rfl, fun a => ⟨count a, _, hcount a, by rw [writeRanges, List.map_singleton, hlen], rfl⟩⟩

theorem dataGroup_writesAt {v : List Byte} (st : Nat) (hcount : ∀ a, Tallied c a (count a)) (hd : ∀ a, SameProgram s a → d a = v) :
    WritesAt c st s (dataGroup st reads count p d) p v :=
  fun a ha => ⟨count a, hcount a, by rw [← hd a ha.program]; rfl⟩

/-- A group that computes its elements in order and writes them row by row: `f` gives an element of the group that began in the first
state, and the state that has counted it from the second. -/
def elementGroup (x : Issue) (reads : List (Ptr × Nat)) (f : State → State → Nat → Nat → State × Nat) (g : List Nat × List Nat) : Group where
  reads := reads
  act a := a.writeGroup x g.1 g.2 (f a)

variable {f : State → State → Nat → Nat → State × Nat}

theorem elementGroup_form (hf : ∀ a b i j, Tallied x.c a b → Tallied x.c a (f a b i j).1) (g : List Nat × List Nat) :
    GroupForm x.c x.st (elementGroup x reads f g) (reads, elementRanges x g) := ⟨rfl, fun a => writeGroup_writes (hf a)⟩

theorem elementGroup_writesAt {g : Nat → Nat} (hf : ∀ a b i j, Tallied x.c a b → Tallied x.c a (f a b i j).1)
    (hg : ∀ a, SameOperands x.c s a → ∀ b j, (b.cluster x.c.val).vxTable = (s.cluster x.c.val).vxTable → (f a b 0 j).2 = g j) (n : Nat) :
    WritesAt x.c x.st s (elementGroup x reads f ([0], List.range n)) x.d.p (packCodes (elemBits x.d.fmt) ((List.range n).map g)) := by
  intro a ha
  obtain ⟨b, hb, hact⟩ := writeGroup_row (x := x) (hf a) (fun b j hb => hg a ha b j (hb.vxTable.trans ha.vxTable)) (List.range n)
  rw [groupPtr_range, d_row_zero] at hact
  exact ⟨b, hb, hact⟩

end Groups

end Sys2Proof.Laws
end

section
/-!
SUPPORT. The start and the outcomes that the vector engine's tensor instructions share (R145, R146, R170): an empty shape, and groups
that nothing refuses.
-/
namespace Sys2Proof.Laws
open Sys2Proof.Machine

/-! ## Lists of groups -/

section Lists
variable {ι : Type} {c : Fin 8} {st : Nat} {F : ι → Group} {q : ι → List (Ptr × Nat) × List (Ptr × Nat)}

theorem forms_map (h : ∀ i, GroupForm c st (F i) (q i)) (l : List ι) : List.Forall₂ (GroupForm c st) (l.map F) (l.map q) := by
  rw [List.forall₂_map_left_iff, List.forall₂_map_right_iff]
  exact List.forall₂_same.mpr fun i _ => h i

theorem forms_flatMap {F : ι → List Group} {q : ι → List (List (Ptr × Nat) × List (Ptr × Nat))}
    (h : ∀ i, List.Forall₂ (GroupForm c st) (F i) (q i)) (l : List ι) : List.Forall₂ (GroupForm c st) (l.flatMap F) (l.flatMap q) := by
  induction l with
  | nil => exact .nil
  | cons i r ih => exact List.rel_append (h i) ih

/-- A row of at most 64 elements is one group. -/
theorem vGroups_single {n : Nat} (h0 : n ≠ 0) (hn : n ≤ 64) : vGroups false 1 n = [([0], List.range n)] := by
  have hone : cdiv n 64 = 1 := by unfold cdiv; omega
  simp [vGroups, hone, Nat.min_eq_right hn]

/-- A row of at most one block is one group of it. -/
theorem blockGroups_single {b n : Nat} (h0 : n ≠ 0) (hn : n ≤ 2 ^ b) : blockGroups b n = [[0]] := by
  have hpos : 0 < 2 ^ b := Nat.two_pow_pos b
  unfold blockGroups
  dsimp only
  generalize 2 ^ b = h at hn hpos
  split
  · have hone : cdiv n h = 1 := by
      rw [cdiv, Nat.div_eq_of_lt_le] <;> omega
    simp [hone]
  · next hper =>
    have hle : h ≤ 64 := by
      by_contra hgt
      rw [Nat.div_eq_of_lt (by omega)] at hper
      omega
    have hone : cdiv n 64 = 1 := by unfold cdiv; omega
    obtain ⟨k, hk⟩ : ∃ k, 64 / h = k + 1 := ⟨64 / h - 1, by omega⟩
    have hothers (i : Nat) : ¬ (i + 1) * h < n :=
      not_lt.mpr (hn.trans (Nat.le_mul_of_pos_left h (Nat.succ_pos i)))
    simp [hone, hk, List.range_succ_eq_map, List.filter_cons, List.filter_map, Function.comp_def, hothers, Nat.pos_of_ne_zero h0]

theorem blockGroups_row {α : Type} (F : Nat → List Nat → α) {b n : Nat} (h0 : n ≠ 0) (hn : n ≤ 2 ^ b) :
    (List.range 1).flatMap (fun i => (blockGroups b n).map (F i)) = [F 0 [0]] := by
  rw [blockGroups_single h0 hn]
  rfl

end Lists

/-! ## What an instruction of the vector engine leaves -/

section Vector
variable {s t : State} {x : Issue} {pc : BitVec 23} {i : Instr} {op : Nat} {gs : Nat → Nat → List Group}

/-- The vector engine's start leaves the count of empty shapes and the table, and shows the instruction (R170). -/
theorem vxShape_shown (s : State) (x : Issue) (pc : Nat) :
    ((s.markStarted x pc).vxShape x).1.reg (Reg.CLUSTER_ZERO_SHAPE x.c.val) = s.reg (Reg.CLUSTER_ZERO_SHAPE x.c.val) ∧
    ((s.markStarted x pc).vxShape x).1.reg (Reg.VX_LAST_INSTR x.c.val) = BitVec.ofNat 32 pc ∧
    (((s.markStarted x pc).vxShape x).1.cluster x.c.val).vxTable = (s.cluster x.c.val).vxTable := by
  have hpage {o : Nat} (ho : o < 4096) : rkey (0x100 + 16 * x.c.val) o ≠ Reg.VX_LAST_INSTR x.c.val := by
    unfold Reg.VX_LAST_INSTR rkey
    omega
  have hlast : Reg.VX_LAST_INSTR x.c.val ∉ lengthRegs x.c.val := fun hm => by
    simp only [lengthRegs, List.mem_cons, List.not_mem_nil, or_false] at hm
    rcases hm with hm | hm | hm
    all_goals exact hpage (by decide) hm.symm
  have hlengths (u : State) : LengthFrame (lengthRegs x.c.val) (u.vxStart x) (u.vxShape x).1 :=
    (effLen_frame _ x _ _ _ _).trans (effLen_frame _ x _ _ _ _)
  refine ⟨?_, ?_, ?_⟩
  · refine ((vxShape_frame _ x).reg _ fun hm => (List.mem_cons.mp hm).elim (hpage (by decide)) (not_mem_lengthRegs (by decide))).trans
      (markStarted_reg s x pc ?_)
    simp only [sequencerRegs, List.mem_cons, List.not_mem_nil, or_false, not_or]
    exact ⟨header_ne (by decide), header_ne (by decide)⟩
  · rw [(hlengths _).reg _ hlast, State.vxStart, reg_setReg_same]
    exact (markStarted_started s x pc).2
  · rw [(vxShape_frame _ x).cluster, markStarted_cluster]

/-- An instruction that starts as every instruction of the vector engine does, with its groups for each shape. -/
structure VectorForm (s : State) (x : Issue) (pc : BitVec 23) (i : Instr) (op : Nat) (gs : Nat → Nat → List Group) : Prop where
  exec : exec i s = done ((s.markStarted x pc.toNat).vxRun x none gs)
  groups : ∀ r cn, List.Forall₂ (GroupForm x.c x.st) (gs r cn) (x.vxRanges op r cn)

theorem vxRun_eq (s : State) (x : Issue) (pc : Nat) (gs : Nat → Nat → List Group) : (s.markStarted x pc).vxRun x none gs =
    if s.effective x 2 = 0 ∨ s.effective x 3 = 0 then ((s.markStarted x pc).vxShape x).1.tally (Reg.CLUSTER_ZERO_SHAPE x.c.val)
    else (((s.markStarted x pc).vxShape x).1.runGroups x none 0 (gs (s.effective x 2) (s.effective x 3))).1 := by
  have hlengths := vxShape_lengths (s.markStarted x pc) x
  rw [effective_congr (fun r => markStarted_len s x pc _ r), effective_congr (fun r => markStarted_len s x pc _ r)] at hlengths
  obtain ⟨hrows, hcols⟩ := Prod.ext_iff.mp hlengths
  dsimp only at hrows hcols
  rw [State.vxRun, hrows, hcols]
  rfl

/-- Over an empty shape an instruction counts and writes nothing (R145). -/
theorem VectorForm.empty (h : VectorForm s x pc i op gs) (hempty : s.effective x 2 = 0 ∨ s.effective x 3 = 0) :
    ∃ t, Machine.exec i s = .next t ∧ s.Started t x.c pc.toNat ∧
      t.reg (Reg.CLUSTER_ZERO_SHAPE x.c.val) = s.counted (Reg.CLUSTER_ZERO_SHAPE x.c.val) ∧ SameBytes s t := by
  obtain ⟨hprog, hran, -⟩ := vectorBegun (vxShape_frame (s.markStarted x pc.toNat) x)
  obtain ⟨hzero, -⟩ := vxShape_shown s x pc.toNat
  obtain ⟨hstarted, hbytes, hcount⟩ := MatmulFrame.zeroShape ⟨hran.started, hprog.mem, hprog.drams, hzero⟩
  exact ⟨_, by rw [h.exec, vxRun_eq, if_pos hempty, done_next], hstarted, hcount, hbytes⟩

/-- Over r rows and cn columns there is a single group, and with the operands of s it writes n bytes at p alone, those of d. -/
def OneWrite (s : State) (x : Issue) (op : Nat) (gs : List Group) (r cn : Nat) (p : Ptr) (n : Nat) (d : List Byte) : Prop :=
  d.length = n ∧ ∃ g rs, gs = [g] ∧ x.vxRanges op r cn = [(rs, [(p, n)])] ∧ WritesAt x.c x.st s g p d

/-- Over a shape whose groups nothing refuses it shows in LAST_INSTR and writes the ranges of its groups alone; a single group that
writes one run of bytes leaves them there. -/
theorem VectorForm.runs {r cn : Nat} (h : VectorForm s x pc i op gs) (hs : s.AtRest) (hr : r = s.effective x 2) (hcn : cn = s.effective x 3)
    (hr0 : r ≠ 0) (hcn0 : cn ≠ 0) (hread : s.CanRead ((x.vxRanges op r cn).flatMap Prod.fst))
    (hwrite : s.CanWrite ((x.vxRanges op r cn).flatMap Prod.snd)) :
    ∃ t, Machine.exec i s = .next t ∧ s.Started t x.c pc.toNat ∧
      t.reg (Reg.VX_LAST_INSTR x.c.val) = BitVec.ofNat 32 pc.toNat ∧ (t.stall x.st).slot = (s.stall x.st).slot ∧
      s.SameOutside t ((x.vxRanges op r cn).flatMap Prod.snd) ∧
      ∀ p n d, OneWrite s x op (gs r cn) r cn p n d → t.shows p n = d := by
  obtain ⟨hprog, hran, -⟩ := vectorBegun (vxShape_frame (s.markStarted x pc.toNat) x)
  obtain ⟨-, hlast, htab⟩ := vxShape_shown s x pc.toNat
  have hexec := h.exec
  rw [vxRun_eq, ← hr, ← hcn, if_neg (by simp [hr0, hcn0])] at hexec
  generalize ((s.markStarted x pc.toNat).vxShape x).1 = u at hprog hran hlast htab hexec
  have hrest := hprog.atRest hs
  have hforms := h.groups r cn
  obtain ⟨t, hrun, hworked⟩ := runGroups_worked hrest hforms (hprog.canRead hread) (hprog.canWrite hwrite) 0
  have hend := (hran.worked hprog hworked).settle
  rw [hrun] at hexec
  refine ⟨settle t, hexec, hend.started, ?_, hend.slot x.st, hend.outside, ?_⟩
  · have hrise : Reg.VX_LAST_INSTR x.c.val ∉ riseTallies := rkey_not_mem_riseTallies (by decide) (by decide) (by decide)
    exact (reg_settle hrise t).trans ((hworked.reg _ (not_mem_groupTallies (by decide))).trans hlast)
  · rintro p _ d ⟨rfl, g, rs, hg, hq, hact⟩
    rw [hg] at hrun
    rw [hg, hq] at hforms
    rw [hq, List.flatMap_singleton] at hread hwrite
    cases hforms with
    | cons hform _ =>
      obtain ⟨b, hb, hwrites⟩ := hact u ⟨hprog, htab⟩
      have hreads : u.CanRead g.reads := hform.1 ▸ hprog.canRead hread
      have hshows := runGroups_single (x := x) hrest hreads (hprog.canWrite hwrite) hb hwrites 0
      rwa [hrun, ← settle_shows] at hshows

/-- Both outcomes of an instruction, with what follows of its single write. -/
theorem VectorForm.outcomes {r cn : Nat} {Q : State → Prop} (h : VectorForm s x pc i op gs) (hs : s.AtRest) (hr : r = s.effective x 2)
    (hcn : cn = s.effective x 3)
    (hQ : cn ≠ 0 → ∀ t : State, (∀ p n d, OneWrite s x op (gs r cn) r cn p n d → t.shows p n = d) → Q t) :
    (r = 0 ∨ cn = 0 → ∃ t, Machine.exec i s = .next t ∧ s.Started t x.c pc.toNat ∧
      t.reg (Reg.CLUSTER_ZERO_SHAPE x.c.val) = s.counted (Reg.CLUSTER_ZERO_SHAPE x.c.val) ∧ SameBytes s t) ∧
    (r ≠ 0 → cn ≠ 0 → s.CanRead ((x.vxRanges op r cn).flatMap Prod.fst) → s.CanWrite ((x.vxRanges op r cn).flatMap Prod.snd) →
      ∃ t, Machine.exec i s = .next t ∧ s.Started t x.c pc.toNat ∧
        t.reg (Reg.VX_LAST_INSTR x.c.val) = BitVec.ofNat 32 pc.toNat ∧ (t.stall x.st).slot = (s.stall x.st).slot ∧
        s.SameOutside t ((x.vxRanges op r cn).flatMap Prod.snd) ∧ Q t) := by
  refine ⟨fun hempty => h.empty (by rwa [← hr, ← hcn]), fun hr0 hcn0 hread hwrite => ?_⟩
  obtain ⟨t, hexec, hstarted, hlast, hslot, houtside, hshows⟩ := h.runs hs hr hcn hr0 hcn0 hread hwrite
  exact ⟨t, hexec, hstarted, hlast, hslot, houtside, hQ hcn0 t hshows⟩

end Vector

end Sys2Proof.Laws
end

section
/-!
SUPPORT. The vector engine's tensor instructions (R148, R153 to R159): the groups of each, and the bytes of a single group.
-/
namespace Sys2Proof.Laws
open Sys2Proof.Machine

section Operands
variable {s t : State}

theorem SameProgram.ySecond (h : SameProgram s t) (x : Issue) (i j : Nat) : t.ySecond x i j = s.ySecond x i j := by
  simp only [State.ySecond, h.tensorElem, h.elem]

theorem SameProgram.rowValues (h : SameProgram s t) (x : Issue) (i j n : Nat) : t.rowValues x i j n = s.rowValues x i j n := by
  simp only [State.rowValues, h.tensorElem]

end Operands

/-! ## CVT, EW, QUANT and SOFTMAX: groups of elements (R148, R153, R155, R158) -/

section Elements
variable {s : State} {x : Issue} {pc : BitVec 23} {cn : Nat}

/-- An element of CVT. -/
def cvtElem (x : Issue) (a b : State) (i j : Nat) : State × Nat :=
  b.outElem x (vLane x.x.blocked i j) (cvtValue x (a.tensorElem x.x i j) ((a.ySecond x i j).map (fun q => BitVec.ofNat 32 q.1))
    (if bit (x.w 12) 3 then some (a.elem32 (descPtr x.c (x.w 13)) j) else none))

/-- An element of EW, its operands read before the group counts. -/
def ewOperands (x : Issue) (a b : State) (i j : Nat) : State × Nat := b.ewElem x i j (a.tensorElem x.x i j) (a.ySecond x i j)

/-- An element of QUANT. -/
def quantOperands (x : Issue) (a b : State) (i j : Nat) : State × Nat :=
  b.quantElem x (j % 64) (fpIn x.x.fmt (a.tensorElem x.x i j)) (BitVec.ofNat 32 (((a.ySecond x i j).map Prod.fst).getD 0))

/-- An element of row i of SOFTMAX over cn columns. -/
def softmaxElem (x : Issue) (cn i : Nat) (a b : State) (_ j : Nat) : State × Nat :=
  b.outElem x (j % 64) ((softmaxRow (a.rowValues x i 0 cn)).getD j 0)

/-- A group of CVT. -/
def cvtGroup (x : Issue) (g : List Nat × List Nat) : Group :=
  elementGroup x (x.x.ranges g.1 g.2 ++ (x.yRanges g.1 g.2 ++ x.zRanges g.2)) (cvtElem x) g

/-- A group of EW. -/
def ewGroup (x : Issue) (g : List Nat × List Nat) : Group :=
  elementGroup x (x.x.ranges g.1 g.2 ++ x.yRanges g.1 g.2) (ewOperands x) g

/-- A group of QUANT. -/
def quantGroup (x : Issue) (g : List Nat × List Nat) : Group :=
  elementGroup x (x.x.ranges g.1 g.2 ++ x.yRanges g.1 g.2) (quantOperands x) g

/-- A row of SOFTMAX. -/
def softmaxGroup (x : Issue) (cn i : Nat) : Group :=
  elementGroup x [elemRange (x.x.row i) (elemBits x.x.fmt) 0 cn] (softmaxElem x cn i) ([i], List.range cn)

theorem cvtElem_tallied (a b : State) (i j : Nat) (h : Tallied x.c a b) : Tallied x.c a (cvtElem x a b i j).1 := outElem_tallied h _ _

theorem ewOperands_tallied (a b : State) (i j : Nat) (h : Tallied x.c a b) : Tallied x.c a (ewOperands x a b i j).1 :=
  ewElem_tallied h _ _ _ _

theorem quantOperands_tallied (a b : State) (i j : Nat) (h : Tallied x.c a b) : Tallied x.c a (quantOperands x a b i j).1 :=
  quantElem_tallied h _ _ _

theorem softmaxElem_tallied (r : Nat) (a b : State) (i j : Nat) (h : Tallied x.c a b) : Tallied x.c a (softmaxElem x cn r a b i j).1 :=
  outElem_tallied h _ _

theorem vxRanges_cvt (x : Issue) (r cn : Nat) :
    x.vxRanges 0x40 r cn = (vGroups x.x.blocked r cn).map (fun g => ((cvtGroup x g).reads, elementRanges x g)) := rfl

theorem vxRanges_ew (x : Issue) (r cn : Nat) :
    x.vxRanges 0x41 r cn = (vGroups x.x.blocked r cn).map (fun g => ((ewGroup x g).reads, elementRanges x g)) := by
  simp only [Issue.vxRanges, Nat.reduceEqDiff, if_false, List.append_nil]
  rfl

theorem vxRanges_quant (x : Issue) (r cn : Nat) :
    x.vxRanges 0x45 r cn = (vGroups false r cn).map (fun g => ((quantGroup x g).reads, elementRanges x g)) := by
  simp only [Issue.vxRanges, Nat.reduceEqDiff, if_false, List.append_nil]
  rfl

theorem vxRanges_softmax (x : Issue) (r cn : Nat) :
    x.vxRanges 0x43 r cn = (List.range r).map (fun i => ((softmaxGroup x cn i).reads, elementRanges x ([i], List.range cn))) := by
  simp only [elementRanges_row]
  rfl

theorem cvt_form (h : s.Runs x.c pc.toNat 0x40 x) (htab : bits (x.w 1) 19 16 = 10 ∨ bits (x.w 1) 19 16 = 11 →
    tagOk (s.cluster x.c.val).vxTable (bits (x.w 12) 19 12) = true) :
    VectorForm s x pc (.cvt x.c pc none) 0x40 (fun r cn => (vGroups x.x.blocked r cn).map (cvtGroup x)) where
  exec := by
    have hloaded : ¬ ((bits (x.w 1) 19 16 = 10 ∨ bits (x.w 1) 19 16 = 11) ∧
        tagOk ((s.markStarted x pc.toNat).cluster x.c.val).vxTable (bits (x.w 12) 19 12) = false) := by
      rw [markStarted_cluster]
      exact fun ⟨hfmt, hmiss⟩ => Bool.noConfusion ((htab hfmt).symm.trans hmiss)
    show execCvt x.c pc none s = _
    rw [execCvt, issue_runs h]
    dsimp only
    rw [if_neg hloaded]
    rfl
  groups r cn := by
    rw [vxRanges_cvt]
    exact forms_map (fun g => elementGroup_form cvtElem_tallied g) _

theorem ew_form (h : s.Runs x.c pc.toNat 0x41 x) :
    VectorForm s x pc (.ew x.c pc none) 0x41 (fun r cn => (vGroups x.x.blocked r cn).map (ewGroup x)) where
  exec := by
    show execEw x.c pc none s = _
    rw [execEw, issue_runs h]
    rfl
  groups r cn := by
    rw [vxRanges_ew]
    exact forms_map (fun g => elementGroup_form ewOperands_tallied g) _

theorem quant_form (h : s.Runs x.c pc.toNat 0x45 x) :
    VectorForm s x pc (.quant x.c pc none) 0x45 (fun r cn => (vGroups false r cn).map (quantGroup x)) where
  exec := by
    show execQuant x.c pc none s = _
    rw [execQuant, issue_runs h]
    rfl
  groups r cn := by
    rw [vxRanges_quant]
    exact forms_map (fun g => elementGroup_form quantOperands_tallied g) _

theorem softmax_form (h : s.Runs x.c pc.toNat 0x43 x) :
    VectorForm s x pc (.softmax x.c pc none) 0x43 (fun r cn => (List.range r).map (softmaxGroup x cn)) where
  exec := by
    show execSoftmax x.c pc none s = _
    rw [execSoftmax, issue_runs h]
    rfl
  groups r cn := by
    rw [vxRanges_softmax]
    exact forms_map (fun i => elementGroup_form (softmaxElem_tallied i) ([i], List.range cn)) _

/-! A single group of one row. -/

theorem codes_length (fmt n : Nat) (g : Nat → Nat) :
    (packCodes (elemBits fmt) ((List.range n).map g)).length = (n * elemBits fmt + 7) / 8 := by
  rw [packCodes_length (elemBits_whole fmt), List.length_map, List.length_range]

theorem elements_oneWrite {op : Nat} {reads : List (Ptr × Nat)} {f : State → State → Nat → Nat → State × Nat} {g : Nat → Nat}
    (hranges : x.vxRanges op 1 cn = [(reads, elementRanges x ([0], List.range cn))])
    (hf : ∀ a b i j, Tallied x.c a b → Tallied x.c a (f a b i j).1)
    (hg : ∀ a, SameOperands x.c s a → ∀ b j, (b.cluster x.c.val).vxTable = (s.cluster x.c.val).vxTable → (f a b 0 j).2 = g j) :
    OneWrite s x op [elementGroup x reads f ([0], List.range cn)] 1 cn x.d.p ((cn * elemBits x.d.fmt + 7) / 8)
      (packCodes (elemBits x.d.fmt) ((List.range cn).map g)) := by
  refine ⟨codes_length _ _ _, _, reads, rfl, ?_, elementGroup_writesAt hf hg cn⟩
  rw [hranges, elementRanges_row, d_row_zero]

theorem cvt_oneWrite (hx : x.x.blocked = false) (h0 : cn ≠ 0) (hcn : cn ≤ 64) (hrnd : bits (x.w 1) 21 20 ≠ 2) :
    OneWrite s x 0x40 ((vGroups x.x.blocked 1 cn).map (cvtGroup x)) 1 cn x.d.p
      ((cn * elemBits x.d.fmt + 7) / 8) (packCodes (elemBits x.d.fmt) ((List.range cn).map (fun j =>
      (s.outElem x j (cvtValue x (s.tensorElem x.x 0 j) ((s.ySecond x 0 j).map (fun q => BitVec.ofNat 32 q.1))
        (if bit (x.w 12) 3 then some (s.elem32 (descPtr x.c (x.w 13)) j) else none))).2))) := by
  have hgroups : vGroups x.x.blocked 1 cn = [([0], List.range cn)] := hx ▸ vGroups_single h0 hcn
  rw [hgroups]
  refine elements_oneWrite (by rw [vxRanges_cvt, hgroups]; rfl) cvtElem_tallied fun a ha b j hb => ?_
  simp only [cvtElem, ha.program.tensorElem, ha.program.ySecond, ha.program.elem32]
  exact outElem_code hrnd hb _ _ _

theorem ew_oneWrite (hx : x.x.blocked = false) (h0 : cn ≠ 0) (hcn : cn ≤ 64) (hrnd : bits (x.w 1) 21 20 ≠ 2) :
    OneWrite s x 0x41 ((vGroups x.x.blocked 1 cn).map (ewGroup x)) 1 cn x.d.p
      ((cn * elemBits x.d.fmt + 7) / 8) (packCodes (elemBits x.d.fmt) ((List.range cn).map (fun j =>
      (s.ewElem x 0 j (s.tensorElem x.x 0 j) (s.ySecond x 0 j)).2))) := by
  have hgroups : vGroups x.x.blocked 1 cn = [([0], List.range cn)] := hx ▸ vGroups_single h0 hcn
  rw [hgroups]
  refine elements_oneWrite (by rw [vxRanges_ew, hgroups]; rfl) ewOperands_tallied fun a ha b j hb => ?_
  simp only [ewOperands, ha.program.tensorElem, ha.program.ySecond]
  exact ewElem_code hrnd hb _ _ _ _

theorem quant_oneWrite (h0 : cn ≠ 0) (hcn : cn ≤ 64) (hrnd : bits (x.w 1) 21 20 ≠ 2) :
    OneWrite s x 0x45 ((vGroups false 1 cn).map (quantGroup x)) 1 cn x.d.p
      ((cn * elemBits x.d.fmt + 7) / 8) (packCodes (elemBits x.d.fmt) ((List.range cn).map (fun j =>
      (s.quantElem x j (fpIn x.x.fmt (s.tensorElem x.x 0 j)) (BitVec.ofNat 32 (((s.ySecond x 0 j).map Prod.fst).getD 0))).2))) := by
  rw [vGroups_single h0 hcn]
  refine elements_oneWrite (by rw [vxRanges_quant, vGroups_single h0 hcn]; rfl) quantOperands_tallied fun a ha b j _ => ?_
  simp only [quantOperands, ha.program.tensorElem, ha.program.ySecond]
  exact quantElem_code hrnd _ _ _ _

theorem softmax_oneWrite (hrnd : bits (x.w 1) 21 20 ≠ 2) : OneWrite s x 0x43 ((List.range 1).map (softmaxGroup x cn)) 1 cn x.d.p
    ((cn * elemBits x.d.fmt + 7) / 8) (packCodes (elemBits x.d.fmt) ((List.range cn).map (fun j =>
      (s.outElem x (j % 64) ((softmaxRow (s.rowValues x 0 0 cn)).getD j 0)).2))) := by
  refine elements_oneWrite (vxRanges_softmax x 1 cn) (softmaxElem_tallied 0) fun a ha b j hb => ?_
  simp only [softmaxElem, ha.program.rowValues]
  exact outElem_code hrnd hb _ _ _

end Elements

section Words
variable {s : State} {x : Issue} {pc : BitVec 23} {cn : Nat}

theorem data_oneWrite {op : Nat} {gs : List Group} {reads : List (Ptr × Nat)} {count : State → State} {p : Ptr} {d : State → List Byte}
    {n : Nat} {v : List Byte} (hgs : gs = [dataGroup x.st reads count p d]) (hp : p = x.d.p) (hlen : v.length = n)
    (hranges : x.vxRanges op 1 cn = [(reads, [(p, n)])]) (hcount : ∀ a, Tallied x.c a (count a))
    (hd : ∀ a, SameProgram s a → d a = v) : OneWrite s x op gs 1 cn x.d.p n v :=
  hp ▸ ⟨hlen, _, reads, hgs, hranges, dataGroup_writesAt x.st hcount hd⟩

/-! ## RED (R154) -/

/-- A row of RED over cn columns. -/
def redGroup (x : Issue) (cn i : Nat) : Group :=
  dataGroup x.st [elemRange (x.x.row i) (elemBits x.x.fmt) 0 cn] id (ptrAdd x.d.p (4 * i))
    (fun a => leBytes 4 (redValue (bits (x.w 1) 7 0) (a.rowValues x i 0 cn)).toNat)

theorem red_form (h : s.Runs x.c pc.toNat 0x42 x) :
    VectorForm s x pc (.red x.c pc none) 0x42 (fun r cn => (List.range r).map (redGroup x cn)) where
  exec := by
    show execRed x.c pc none s = _
    rw [execRed, issue_runs h]
    rfl
  groups _ _ := forms_map (fun _ => dataGroup_form x.st (Tallied.refl x.c) fun _ => leBytes_length _ _) _

theorem red_oneWrite (s : State) (x : Issue) (cn : Nat) : OneWrite s x 0x42 ((List.range 1).map (redGroup x cn)) 1 cn x.d.p 4
    (leBytes 4 (redValue (bits (x.w 1) 7 0) (s.rowValues x 0 0 cn)).toNat) := by
  exact data_oneWrite rfl (ptrAdd_zero _) (leBytes_length _ _) rfl (Tallied.refl x.c) fun a ha => by rw [ha.rowValues]

/-! ## QSCALE (R157) -/

/-- The scales of some blocks of row i. -/
def blockScales (a : State) (x : Issue) (cn i : Nat) (ks : List Nat) : List (Word × Nat) :=
  ks.map (fun k => blockScale (bits (x.w 1) 19 16) (rowMax ((a.rowValues x i (k * 2 ^ bits (x.w 12) 11 8)
    (min (2 ^ bits (x.w 12) 11 8) (cn - k * 2 ^ bits (x.w 12) 11 8))).map fabs)))

/-- The state that has counted one scale. -/
def scaleCounted (c : Nat) (s : State) (q : Word × Nat) : State :=
  match q.2 with
  | 1 => s.tally (Reg.VX_SCALE_ZERO c)
  | 2 => s.tally (Reg.VX_SCALE_INF c)
  | _ => s

theorem scaleCounted_tallied {c : Fin 8} {a b : State} (h : Tallied c a b) (q : Word × Nat) : Tallied c a (scaleCounted c.val b q) := by
  unfold scaleCounted
  split
  · exact h.tally (by simp [groupTallies])
  · exact h.tally (by simp [groupTallies])
  · exact h

/-- A group of QSCALE: blocks of row i over cn columns. -/
def qscaleGroup (x : Issue) (cn i : Nat) (ks : List Nat) : Group :=
  dataGroup x.st [x.blockRange i (bits (x.w 12) 11 8) cn ks] (fun a => (blockScales a x cn i ks).foldl (scaleCounted x.c.val) a)
    (ptrAdd (x.d.row i) (4 * ks.headD 0)) (fun a => wordBytes ((blockScales a x cn i ks).map Prod.fst))

theorem scalesCounted_tallied (qs : List (Word × Nat)) (a : State) : Tallied x.c a (qs.foldl (scaleCounted x.c.val) a) :=
  foldl_keeps (P := Tallied x.c a) (fun _ q hb => scaleCounted_tallied hb q) qs (Tallied.refl x.c a)

theorem qscale_form (h : s.Runs x.c pc.toNat 0x44 x) : VectorForm s x pc (.qscale x.c pc none) 0x44
    (fun r cn => (List.range r).flatMap (fun i => (blockGroups (bits (x.w 12) 11 8) cn).map (qscaleGroup x cn i))) where
  exec := by
    show execQscale x.c pc none s = _
    rw [execQscale, issue_runs h]
    rfl
  groups _ cn := by
    refine forms_flatMap (fun i => forms_map (fun ks => dataGroup_form x.st (fun a => scalesCounted_tallied _ a) fun a => ?_) _) _
    rw [wordBytes_length, List.length_map, blockScales, List.length_map]

theorem qscale_oneWrite (s : State) (x : Issue) (h0 : cn ≠ 0) (hcn : cn ≤ 2 ^ bits (x.w 12) 11 8) : OneWrite s x 0x44
    ((List.range 1).flatMap (fun i => (blockGroups (bits (x.w 12) 11 8) cn).map (qscaleGroup x cn i))) 1 cn x.d.p 4
    (leBytes 4 (blockScale (bits (x.w 1) 19 16) (rowMax ((s.rowValues x 0 0 cn).map fabs))).1.toNat) := by
  have hdata (a : State) (ha : SameProgram s a) : wordBytes ((blockScales a x cn 0 [0]).map Prod.fst) =
      leBytes 4 (blockScale (bits (x.w 1) 19 16) (rowMax ((s.rowValues x 0 0 cn).map fabs))).1.toNat := by
    simp only [blockScales, List.map_singleton, Nat.zero_mul, Nat.sub_zero, Nat.min_eq_right hcn, ha.rowValues, wordBytes,
      List.flatMap_singleton]
  exact data_oneWrite (blockGroups_row (qscaleGroup x cn) h0 hcn) (d_row_zero x) (leBytes_length _ _)
    (blockGroups_row (fun i ks => ([x.blockRange i (bits (x.w 12) 11 8) cn ks], [(ptrAdd (x.d.row i) (4 * ks.headD 0), 4 * ks.length)]))
      h0 hcn) (fun a => scalesCounted_tallied _ a) hdata

/-! ## WHT (R159) -/

theorem whtBlock_length (p : Nat) (vs : List Word) : (whtBlock p vs).length = vs.length := by
  rw [whtBlock, List.length_map]
  refine foldl_keeps (P := fun l : List Word => l.length = vs.length) (fun l st hl => ?_) _ rfl
  rw [whtStage, List.length_map, List.length_zipIdx, hl]

/-- A group of WHT: whole blocks of row i, of which cn columns are. -/
def whtGroup (x : Issue) (cn i : Nat) (ks : List Nat) : Group :=
  dataGroup x.st [x.blockRange i (bits (x.w 12) 11 8) cn ks] id (ptrAdd (x.d.row i) (4 * (ks.headD 0 * 2 ^ bits (x.w 12) 11 8)))
    (fun a => wordBytes (ks.flatMap (fun k => whtBlock (bits (x.w 12) 11 8)
      (a.rowValues x i (k * 2 ^ bits (x.w 12) 11 8) (2 ^ bits (x.w 12) 11 8)))))

theorem wht_form (h : s.Runs x.c pc.toNat 0x46 x) : VectorForm s x pc (.wht x.c pc none) 0x46 (fun r cn =>
    (List.range r).flatMap (fun i => (blockGroups (bits (x.w 12) 11 8) (cn / 2 ^ bits (x.w 12) 11 8 * 2 ^ bits (x.w 12) 11 8)).map
      (whtGroup x (cn / 2 ^ bits (x.w 12) 11 8 * 2 ^ bits (x.w 12) 11 8) i))) where
  exec := by
    show execWht x.c pc none s = _
    rw [execWht, issue_runs h]
    rfl
  groups _ cn := by
    refine forms_flatMap (fun i => forms_map (fun ks => dataGroup_form x.st (Tallied.refl x.c) fun a => ?_) _) _
    simp [wordBytes_length, List.length_flatMap, whtBlock_length, State.rowValues]

theorem wht_oneWrite (s : State) (x : Issue) (hcn : cn = 2 ^ bits (x.w 12) 11 8) : OneWrite s x 0x46
    ((List.range 1).flatMap (fun i => (blockGroups (bits (x.w 12) 11 8) (cn / 2 ^ bits (x.w 12) 11 8 * 2 ^ bits (x.w 12) 11 8)).map
      (whtGroup x (cn / 2 ^ bits (x.w 12) 11 8 * 2 ^ bits (x.w 12) 11 8) i))) 1 cn x.d.p (4 * cn)
    (wordBytes (whtBlock (bits (x.w 12) 11 8) (s.rowValues x 0 0 cn))) := by
  subst hcn
  have hpos := Nat.two_pow_pos (bits (x.w 12) 11 8)
  have hwhole : 2 ^ bits (x.w 12) 11 8 / 2 ^ bits (x.w 12) 11 8 * 2 ^ bits (x.w 12) 11 8 = 2 ^ bits (x.w 12) 11 8 := by
    rw [Nat.div_self hpos, Nat.one_mul]
  have hdata (a : State) (ha : SameProgram s a) : wordBytes ([0].flatMap (fun k => whtBlock (bits (x.w 12) 11 8)
      (a.rowValues x 0 (k * 2 ^ bits (x.w 12) 11 8) (2 ^ bits (x.w 12) 11 8)))) =
      wordBytes (whtBlock (bits (x.w 12) 11 8) (s.rowValues x 0 0 (2 ^ bits (x.w 12) 11 8))) := by
    rw [List.flatMap_singleton, Nat.zero_mul, ha.rowValues]
  rw [hwhole]
  refine data_oneWrite (blockGroups_row (whtGroup x _) hpos.ne' le_rfl) ?_ ?_ ?_ (Tallied.refl x.c) hdata
  · show ptrAdd (x.d.row 0) (4 * (0 * _)) = x.d.p
    rw [Nat.zero_mul, d_row_zero, Nat.mul_zero, ptrAdd_zero]
  · rw [wordBytes_length, whtBlock_length, State.rowValues, List.length_map, List.length_range]
  · have hranges := blockGroups_row (fun i ks => ([x.blockRange i (bits (x.w 12) 11 8) (2 ^ bits (x.w 12) 11 8) ks],
      [(ptrAdd (x.d.row i) (4 * (ks.headD 0 * 2 ^ bits (x.w 12) 11 8)), 4 * (ks.length * 2 ^ bits (x.w 12) 11 8))])) hpos.ne' le_rfl
    simp only [Issue.vxRanges, Nat.reduceEqDiff, if_false, if_true, hwhole, hranges, List.length_singleton, Nat.one_mul]

end Words

end Sys2Proof.Laws
end

section
/-!
SUPPORT. EXPAND, S2D and POOL (R115 to R119): each output pixel is a group that reads its window and writes one run of bytes; the settling
of O57.
-/
namespace Sys2Proof.Laws
open Sys2Proof.Machine

/-! ## Windows (R116 to R118) -/

section Windows
variable {s t : State}

theorem windowAt_length (y x kh kw sh sw dh dw pt pl h w : Nat) : (windowAt y x kh kw sh sw dh dw pt pl h w).length = kh * kw := by
  simp [windowAt, List.length_flatMap]

theorem windowBytes_length (s : State) (x : Issue) (e v : Nat) (ws : List (Option (Nat × Nat))) :
    (s.windowBytes x e (leBytes e v) ws).length = ws.length * (bits (x.w 3) 15 0 * e) := by
  induction ws with
  | nil => rw [List.length_nil, Nat.zero_mul]; rfl
  | cons q r ih =>
    rw [State.windowBytes, List.flatMap_cons, List.length_append, List.length_cons, Nat.add_comm, Nat.succ_mul]
    refine congrArg₂ (· + ·) ih ?_
    cases q with
    | none => simp [List.length_flatMap, leBytes_length]
    | some q => rw [List.length_map, List.length_range]

theorem SameProgram.fetch (h : SameProgram s t) (p : Ptr) : t.fetch p = s.fetch p := by
  rw [State.fetch, State.fetch, h.relocated, h.sameMemory.peek]

theorem SameProgram.windowBytes (h : SameProgram s t) (x : Issue) (e : Nat) (fill : List Byte) (ws : List (Option (Nat × Nat))) :
    t.windowBytes x e fill ws = s.windowBytes x e fill ws := by
  simp only [State.windowBytes, h.fetch]

theorem SameProgram.poolChannel (h : SameProgram s t) (x : Issue) (fmt e ch : Nat) (ws : List (Option (Nat × Nat))) :
    t.poolChannel x fmt e ch ws = s.poolChannel x fmt e ch ws := by
  simp only [State.poolChannel, h.elem]

theorem padTo_length (n : Nat) (d : List Byte) : (padTo n d).length = max n d.length := by
  rw [padTo, List.length_append, List.length_replicate]
  omega

theorem padTo_max (n : Nat) (d : List Byte) : padTo (max n d.length) d = padTo n d := by
  have hfill : max n d.length - d.length = n - d.length := by omega
  rw [padTo, padTo, hfill]

end Windows

/-! ## What an instruction over output pixels leaves -/

section Patch
variable {s : State} {x : Issue} {pc : BitVec 23} {i : Instr} {op p o n : Nat}

/-- An output pixel: its window, the first byte that it writes, and how many bytes. -/
abbrev Pixel := List (Option (Nat × Nat)) × Ptr × Nat

variable {count : Pixel → State → State} {d : Pixel → State → List Byte} {px : Nat → Pixel}

/-- How many bytes an element of the source has. -/
def patchElem (x : Issue) : Nat := elemBytes (bits (x.w 1) 27 24)

/-- The group of an output pixel. -/
def pixelGroup (x : Issue) (count : Pixel → State → State) (d : Pixel → State → List Byte) (q : Pixel) : Group :=
  dataGroup x.st (windowReads x (patchElem x) q.1) (count q) q.2.1 (d q)

/-- The groups of an instruction, and its count in register k where none has failed. -/
def patchRun (s : State) (x : Issue) (k : Nat) (gs : List Group) : State :=
  if (s.runGroups x none 0 gs).2 then (s.runGroups x none 0 gs).1.tally k else (s.runGroups x none 0 gs).1

/-- The page, of cluster 0, and the offset of the count of done instructions of EXPAND, S2D and POOL. -/
def doneRegs : List (Nat × Nat) := [(0x10A, 0xE00), (0x10A, 0xE04), (0x10B, 0xE00)]

/-- The count of done instructions is another register of the unit than LAST_INSTR, and none that groups count in. -/
theorem doneReg_apart (hd : (p, o) ∈ doneRegs) (c : Nat) : (0x100 < p ∧ p < 0x110 ∧ o < 4096 ∧ o ≠ 0x100 ∧ o ≠ 0xE08 ∧ o ≠ 0xE20) ∧
    rkey (p + 16 * c) o ∉ groupTallies c := by
  simp only [doneRegs, List.mem_cons, List.not_mem_nil, or_false, Prod.mk.injEq] at hd
  rcases hd with ⟨rfl, rfl⟩ | ⟨rfl, rfl⟩ | ⟨rfl, rfl⟩
  all_goals exact ⟨by decide, (rkey_mem_groupTallies (by decide)).not.mpr (by decide)⟩

theorem sequencerReg_ne_unit {c o' : Nat} (hp : 0x100 < p) (ho : o < 4096) (ho' : o' < 4096) :
    rkey (0x100 + 16 * c) o' ≠ rkey (p + 16 * c) o := by
  unfold rkey
  omega

/-- The state in which an instruction over output pixels runs its groups. -/
def patchBegun (s : State) (x : Issue) (pc p : Nat) : State :=
  (s.markStarted x pc).setReg (rkey (p + 16 * x.c.val) 0x100) (BitVec.ofNat 32 pc)

theorem patchBegun_ran {pc : Nat} (hp : 0x100 < p ∧ p < 0x110) :
    SameProgram s (patchBegun s x pc p) ∧ Ran x.c pc [] s (patchBegun s x pc p) := by
  have hprog := markStarted_program s x pc
  have hran : Ran x.c pc [] s (s.markStarted x pc) :=
    ⟨markStarted_started s x pc, sameOutside_of_sameBytes hprog.sameMemory.sameBytes [], rfl⟩
  exact ⟨hprog.setReg (unitReg_not_outside x.c ⟨hp.1.le, hp.2⟩ (by decide)) _,
    hran.setReg (sequencerReg_ne_unit hp.1 (by decide) (by decide)) _⟩

theorem patchBegun_shown (s : State) (x : Issue) (pc p : Nat) :
    (patchBegun s x pc p).reg (rkey (p + 16 * x.c.val) 0x100) = BitVec.ofNat 32 pc := reg_setReg_same _ _ _

theorem patchBegun_reg {pc : Nat} (hp : 0x100 < p) (ho : o < 4096) (hlast : o ≠ 0x100) :
    (patchBegun s x pc p).reg (rkey (p + 16 * x.c.val) o) = s.reg (rkey (p + 16 * x.c.val) o) := by
  refine (reg_setReg_other _ (header_ne hlast) _).trans (markStarted_reg s x pc ?_)
  simp only [sequencerRegs, List.mem_cons, List.not_mem_nil, or_false, not_or]
  exact ⟨(sequencerReg_ne_unit hp ho (by decide)).symm, (sequencerReg_ne_unit hp ho (by decide)).symm⟩

/-- An instruction that shows in LAST_INSTR of page p, whose groups are those of the output pixels `px`, and that counts at offset o. -/
structure PatchForm (s : State) (x : Issue) (pc : BitVec 23) (i : Instr) (op p o n : Nat) (px : Nat → Pixel)
    (count : Pixel → State → State) (d : Pixel → State → List Byte) : Prop where
  exec : exec i s = done (patchRun (patchBegun s x pc.toNat p) x (rkey (p + 16 * x.c.val) o)
    ((List.range n).map fun k => pixelGroup x count d (px k)))
  done : (p, o) ∈ doneRegs
  pixels : x.patchRanges op = (List.range n).map px
  count : ∀ q a, Tallied x.c a (count q a)
  data : ∀ q a, SameProgram s a → d q a = d q s
  length : ∀ k a, (d (px k) a).length = (px k).2.2

/-- Groups of output pixels that nothing refuses all run, and write the outputs alone. -/
theorem PatchForm.worked {u : State} (h : PatchForm s x pc i op p o n px count d) (hu : u.AtRest)
    (hread : u.CanRead ((x.patchRanges op).flatMap (fun q => windowReads x (patchElem x) q.1)))
    (hwrite : u.CanWrite ((x.patchRanges op).map Prod.snd)) :
    ∃ t, u.runGroups x none 0 ((List.range n).map fun k => pixelGroup x count d (px k)) = (t, true) ∧
      Worked x.c ((x.patchRanges op).map Prod.snd) u t := by
  have hforms : List.Forall₂ (GroupForm x.c x.st) ((List.range n).map fun k => pixelGroup x count d (px k))
      ((x.patchRanges op).map fun q => (windowReads x (patchElem x) q.1, [q.2])) := by
    rw [h.pixels, List.map_map]
    exact forms_map (fun k => dataGroup_form x.st (h.count _) (h.length k)) _
  have hwrites : ((x.patchRanges op).map fun q => (windowReads x (patchElem x) q.1, [q.2])).flatMap Prod.snd =
      (x.patchRanges op).map Prod.snd := by
    rw [List.flatMap_map]
    exact List.map_eq_flatMap.symm
  obtain ⟨t, hrun, hworked⟩ := runGroups_worked hu hforms (by rwa [List.flatMap_map]) (hwrites ▸ hwrite) 0
  exact ⟨t, hrun, hwrites ▸ hworked⟩

/-- The group of a single output pixel leaves its bytes. -/
theorem PatchForm.single {u : State} (h : PatchForm s x pc i op p o n px count d) (hprog : SameProgram s u) (hu : u.AtRest)
    (hread : u.CanRead ((x.patchRanges op).flatMap (fun q => windowReads x (patchElem x) q.1)))
    (hwrite : u.CanWrite ((x.patchRanges op).map Prod.snd)) {q : Pixel} (hq : x.patchRanges op = [q]) :
    (u.runGroups x none 0 ((List.range n).map fun k => pixelGroup x count d (px k))).1.shows q.2.1 q.2.2 = d q s := by
  have hpixel := h.pixels.symm.trans hq
  obtain rfl : n = 1 := by simpa using congrArg List.length hpixel
  obtain rfl : px 0 = q := List.singleton_inj.mp hpixel
  have hlen : (px 0).2.2 = (d (px 0) u).length := (h.length 0 u).symm
  rw [hq, List.flatMap_singleton] at hread
  rw [hq] at hwrite
  rw [hlen, ← h.data (px 0) u hprog]
  exact runGroups_single hu hread (hlen ▸ hwrite) (h.count (px 0) u) rfl 0

/-- Over pixels that nothing refuses it shows, counts as done and writes their outputs alone; a single output holds its bytes. -/
theorem PatchForm.runs (h : PatchForm s x pc i op p o n px count d) (hs : s.AtRest)
    (hread : s.CanRead ((x.patchRanges op).flatMap (fun q => windowReads x (patchElem x) q.1)))
    (hwrite : s.CanWrite ((x.patchRanges op).map Prod.snd)) :
    ∃ t, Machine.exec i s = .next t ∧ s.Started t x.c pc.toNat ∧ t.reg (rkey (p + 16 * x.c.val) 0x100) = BitVec.ofNat 32 pc.toNat ∧
      t.reg (rkey (p + 16 * x.c.val) o) = s.counted (rkey (p + 16 * x.c.val) o) ∧ (t.stall x.st).slot = (s.stall x.st).slot ∧
      s.SameOutside t ((x.patchRanges op).map Prod.snd) ∧
      ∀ q, x.patchRanges op = [q] → t.shows q.2.1 q.2.2 = d q s := by
  obtain ⟨⟨hp, hp', ho, hlast, h8, h20⟩, hfree⟩ := doneReg_apart h.done x.c.val
  obtain ⟨hprog, hran⟩ := patchBegun_ran (s := s) (x := x) (pc := pc.toNat) ⟨hp, hp'⟩
  have hshown := patchBegun_shown s x pc.toNat p
  have hcount := patchBegun_reg (s := s) (x := x) (pc := pc.toNat) hp ho hlast
  have hexec := h.exec
  generalize patchBegun s x pc.toNat p = u at hprog hran hshown hcount hexec
  have hu := hprog.atRest hs
  obtain ⟨t, hrun, hworked⟩ := h.worked hu (hprog.canRead hread) (hprog.canWrite hwrite)
  have hend := ((hran.worked hprog hworked).tally (sequencerReg_ne_unit hp ho (by decide))).settle
  rw [patchRun, hrun, if_pos rfl] at hexec
  refine ⟨_, hexec, hend.started, ?_, ?_, hend.slot x.st, hend.outside, fun q hq => ?_⟩
  · exact (reg_settle (rkey_not_mem_riseTallies (by decide) (by decide) (by decide)) _).trans ((reg_tally_other t (header_ne hlast.symm)).trans
      ((hworked.reg _ (not_mem_groupTallies (by decide))).trans hshown))
  · rw [reg_settle (rkey_not_mem_riseTallies ho h8 h20), reg_tally_same, (hworked.reg _ hfree).trans hcount]
    rfl
  · have hkeep : SameProgram t (t.tally (rkey (p + 16 * x.c.val) o)) :=
      (SameProgram.refl t).setReg (unitReg_not_outside x.c ⟨hp.le, hp'⟩ ho) _
    have hsingle := h.single hprog hu (hprog.canRead hread) (hprog.canWrite hwrite) hq
    rw [hrun] at hsingle
    rw [settle_shows, hkeep.shows]
    exact hsingle

end Patch

/-! ## EXPAND (R116) -/

section Instructions
variable {s : State} {x : Issue} {pc : BitVec 23}

/-- The bytes of an output row of EXPAND. -/
def expandData (x : Issue) (q : Pixel) (a : State) : List Byte :=
  padTo (descStride (x.w 9)) (a.windowBytes x (patchElem x) (leBytes (patchElem x) (bits (x.w 4) 31 16)) q.1)

/-- An output row of EXPAND. -/
def expandPixel (x : Issue) (k : Nat) : Pixel :=
  let ws := expandWindow x (bits (x.w 5) 15 0 + k / expandWidth x) (k % expandWidth x)
  (ws, ptrAdd x.dst (k * descStride (x.w 9)), max (descStride (x.w 9)) (ws.length * (bits (x.w 3) 15 0 * patchElem x)))

theorem expand_form (h : s.Runs x.c pc.toNat 0x02 x) : PatchForm s x pc (.expand x.c pc) 0x02 0x10A 0xE00
    (bits (x.w 5) 31 16 * expandWidth x) (expandPixel x) (fun _ => id) (expandData x) where
  exec := by
    show execExpand x.c pc s = _
    rw [execExpand, issue_runs h]
    rfl
  done := by decide
  pixels := rfl
  count _ := Tallied.refl x.c
  data q a ha := by rw [expandData, ha.windowBytes, expandData]
  length k a := by rw [expandData, padTo_length, windowBytes_length]; rfl

/-- Up to the length of the output the bytes of a row are those of its window. -/
theorem expandData_pixel (s : State) (x : Issue) (k : Nat) : expandData x (expandPixel x k) s = padTo (expandPixel x k).2.2
    (s.windowBytes x (patchElem x) (leBytes (patchElem x) (bits (x.w 4) 31 16)) (expandPixel x k).1) := by
  have hlen := windowBytes_length s x (patchElem x) (bits (x.w 4) 31 16) (expandPixel x k).1
  have hpad := padTo_max (descStride (x.w 9)) (s.windowBytes x (patchElem x) (leBytes (patchElem x) (bits (x.w 4) 31 16)) (expandPixel x k).1)
  rw [hlen] at hpad
  exact hpad.symm

/-! ## S2D (R117) -/

/-- The bytes of an output pixel of S2D. -/
def s2dData (x : Issue) (q : Pixel) (a : State) : List Byte := a.windowBytes x (patchElem x) (leBytes (patchElem x) 0) q.1

/-- An output pixel of S2D. -/
def s2dPixel (x : Issue) (k : Nat) : Pixel :=
  let b := bits (x.w 1) 3 0
  let ow := cdiv (bits (x.w 2) 31 16) b
  let n := b * b * bits (x.w 3) 15 0 * patchElem x
  (s2dWindow x (k / ow) (k % ow), ptrAdd x.dst (k / ow * descStride (x.w 9) + k % ow * n), n)

theorem s2d_form (h : s.Runs x.c pc.toNat 0x03 x) : PatchForm s x pc (.s2d x.c pc) 0x03 0x10A 0xE04
    (cdiv (bits (x.w 2) 15 0) (bits (x.w 1) 3 0) * cdiv (bits (x.w 2) 31 16) (bits (x.w 1) 3 0)) (s2dPixel x) (fun _ => id) (s2dData x) where
  exec := by
    show execS2d x.c pc s = _
    rw [execS2d, issue_runs h]
    rfl
  done := by decide
  pixels := rfl
  count _ := Tallied.refl x.c
  data q a ha := by rw [s2dData, ha.windowBytes, s2dData]
  length k a := by
    rw [s2dData, windowBytes_length, s2dPixel, s2dWindow, windowAt_length, ← Nat.mul_assoc]

/-! ## POOL (R118, R119) -/

/-- The channels of an output pixel of POOL. -/
def poolValues (x : Issue) (ws : List (Option (Nat × Nat))) (a : State) : List (Nat × Nat) :=
  (List.range (bits (x.w 3) 15 0)).map (fun ch => a.poolChannel x (bits (x.w 1) 27 24) (patchElem x) ch ws)

/-- The state that has counted them. -/
def poolCounted (x : Issue) (q : Pixel) (a : State) : State :=
  (a.count (Reg.WU_NAN_OUT x.c.val) ((poolValues x q.1 a).filter (fun v => v.2 == 1)).length).count (Reg.WU_SAT_OUT x.c.val)
    ((poolValues x q.1 a).filter (fun v => v.2 == 2)).length

/-- The bytes of an output pixel of POOL. -/
def poolData (x : Issue) (q : Pixel) (a : State) : List Byte := packCodes (8 * patchElem x) ((poolValues x q.1 a).map Prod.fst)

theorem poolData_channels (x : Issue) (ws : List (Option (Nat × Nat))) (p : Ptr) (n : Nat) (a : State) : poolData x (ws, p, n) a =
    packCodes (8 * patchElem x) ((List.range (bits (x.w 3) 15 0)).map (fun ch =>
      (a.poolChannel x (bits (x.w 1) 27 24) (patchElem x) ch ws).1)) := by
  rw [poolData, poolValues, List.map_map]
  rfl

/-- An output pixel of POOL. -/
def poolPixel (x : Issue) (k : Nat) : Pixel :=
  let n := bits (x.w 3) 15 0
  let ow := outSize (bits (x.w 2) 31 16) (bits (x.w 4) 11 8 + bits (x.w 4) 15 12) 1 (bits (x.w 1) 7 4) (bits (x.w 1) 15 12)
  (poolWindow x (bits (x.w 5) 15 0 + k / ow) (k % ow),
    ptrAdd x.dst (k / ow * descStride (x.w 9) + k % ow * n * patchElem x), n * patchElem x)

theorem pool_form (h : s.Runs x.c pc.toNat 0x04 x) : PatchForm s x pc (.pool x.c pc) 0x04 0x10B 0xE00
    (bits (x.w 5) 31 16 * outSize (bits (x.w 2) 31 16) (bits (x.w 4) 11 8 + bits (x.w 4) 15 12) 1 (bits (x.w 1) 7 4) (bits (x.w 1) 15 12))
    (poolPixel x) (poolCounted x) (poolData x) where
  exec := by
    show execPool x.c pc s = _
    rw [execPool, issue_runs h]
    rfl
  done := by decide
  pixels := rfl
  count q a := ((Tallied.refl x.c a).count (by simp [groupTallies]) _).count (by simp [groupTallies]) _
  data q a ha := by simp only [poolData, poolValues, ha.poolChannel]
  length k a := by
    rw [poolData, packCodes_length (Or.inr (Dvd.intro _ rfl)), List.length_map, poolValues, List.length_map, List.length_range]
    show (_ * (8 * _) + 7) / 8 = _ * _
    rw [Nat.mul_left_comm]
    omega

end Instructions

/-- Settles O57: the vector engine's tensor instructions and those over output pixels, each by the form of its groups. -/
theorem vectorAndPatchInstructionsWriteTheirResults : Obligations.VectorAndPatchInstructionsWriteTheirResults := by
  refine ⟨?_, ?_⟩
  · intro c pc s x r cn hr hcn i hi h htab
    obtain ⟨rfl, -⟩ := runs_slot h
    have hs := runs_atRest h
    simp only [List.mem_cons, List.not_mem_nil, or_false] at hi
    rcases hi with rfl | rfl | rfl | rfl | rfl | rfl | rfl
    · refine (cvt_form h (htab rfl)).outcomes hs hr hcn fun h0 t hshows hone bb vs hbb hvs => ?_
      subst hone hbb
      simp only [Nat.reduceEqDiff, forall_const, IsEmpty.forall_iff, and_true]
      exact fun hx hle hrnd => hshows _ _ _ (cvt_oneWrite hx h0 hle hrnd)
    · refine (ew_form h).outcomes hs hr hcn fun h0 t hshows hone bb vs hbb hvs => ?_
      subst hone hbb
      simp only [Nat.reduceEqDiff, forall_const, IsEmpty.forall_iff, and_true, true_and]
      exact fun hx hle hrnd => hshows _ _ _ (ew_oneWrite hx h0 hle hrnd)
    · refine (red_form h).outcomes hs hr hcn fun h0 t hshows hone bb vs hbb hvs => ?_
      subst hone hvs
      simp only [Nat.reduceEqDiff, forall_const, IsEmpty.forall_iff, and_true, true_and]
      exact hshows _ _ _ (red_oneWrite s x cn)
    · refine (softmax_form h).outcomes hs hr hcn fun h0 t hshows hone bb vs hbb hvs => ?_
      subst hone hbb hvs
      simp only [Nat.reduceEqDiff, forall_const, IsEmpty.forall_iff, and_true, true_and]
      exact fun hrnd => hshows _ _ _ (softmax_oneWrite hrnd)
    · refine (qscale_form h).outcomes hs hr hcn fun h0 t hshows hone bb vs hbb hvs => ?_
      subst hone hvs
      simp only [Nat.reduceEqDiff, forall_const, IsEmpty.forall_iff, and_true, true_and]
      exact fun hle => hshows _ _ _ (qscale_oneWrite s x h0 hle)
    · refine (quant_form h).outcomes hs hr hcn fun h0 t hshows hone bb vs hbb hvs => ?_
      subst hone hbb
      simp only [Nat.reduceEqDiff, forall_const, IsEmpty.forall_iff, and_true, true_and]
      exact fun hle hrnd => hshows _ _ _ (quant_oneWrite h0 hle hrnd)
    · refine (wht_form h).outcomes hs hr hcn fun h0 t hshows hone bb vs hbb hvs => ?_
      subst hone hvs
      simp only [Nat.reduceEqDiff, forall_const, IsEmpty.forall_iff, true_and]
      exact fun hblock => hshows _ _ _ (wht_oneWrite s x hblock)
  · intro c pc s x e he i hi h hread hwrite
    obtain ⟨rfl, -⟩ := runs_slot h
    have hs := runs_atRest h
    subst he
    simp only [List.mem_cons, List.not_mem_nil, or_false] at hi
    rcases hi with rfl | rfl | rfl
    · have hform := expand_form h
      obtain ⟨t, hexec, hstarted, hlast, hcount, hslot, houtside, hshows⟩ := hform.runs hs hread hwrite
      refine ⟨t, hexec, hstarted, hlast, hcount, hslot, houtside, fun ws d n hq => ?_⟩
      obtain ⟨k, -, hk⟩ : ∃ k ∈ List.range _, expandPixel x k = (ws, d, n) :=
        List.mem_map.mp (hform.pixels.symm.trans hq ▸ List.mem_singleton_self _)
      have hdata := expandData_pixel s x k
      rw [hk] at hdata
      simp only [Nat.reduceEqDiff, forall_const, IsEmpty.forall_iff, and_true]
      exact (hshows (ws, d, n) hq).trans hdata
    · obtain ⟨t, hexec, hstarted, hlast, hcount, hslot, houtside, hshows⟩ := (s2d_form h).runs hs hread hwrite
      refine ⟨t, hexec, hstarted, hlast, hcount, hslot, houtside, fun ws d n hq => ?_⟩
      simp only [Nat.reduceEqDiff, forall_const, IsEmpty.forall_iff, and_true, true_and]
      exact fun _ => hshows (ws, d, n) hq
    · obtain ⟨t, hexec, hstarted, hlast, hcount, hslot, houtside, hshows⟩ := (pool_form h).runs hs hread hwrite
      refine ⟨t, hexec, hstarted, hlast, hcount, hslot, houtside, fun ws d n hq => ?_⟩
      simp only [Nat.reduceEqDiff, forall_const, IsEmpty.forall_iff, true_and]
      exact fun _ => (hshows (ws, d, n) hq).trans (poolData_channels x ws d n s)

end Sys2Proof.Laws
end
